-- ==== Sys2Proof/Word.lean ====
section
/-!
DEFINITION. The machine's words: a byte, a 64-bit general-register word, a 32-bit instruction word, a scratchpad
line, an L1 line, and the plainest helpers on them (R5, R10, R37, R66).
-/

namespace Sys2Proof

/-- One byte (R5). -/
abbrev Byte := BitVec 8

/-- The contents of a general register, an address or a control register (R93). -/
abbrev Word := BitVec 64

/-- An instruction word (R37). -/
abbrev IWord := BitVec 32

/-- A scratchpad line of 512 bytes (R158, R159). -/
abbrev Line := BitVec 4096

/-- An L1 line of 64 bytes (R230). -/
abbrev CLine := BitVec 512

/-- A mask register m0–m3 (R93). -/
abbrev Mask := BitVec 1024

/-- A register field of an instruction word (R39). -/
abbrev Reg := BitVec 5

/-- An accumulator, 32 rows of 32 F32 elements (R196, R219). -/
abbrev Acc := BitVec 32768

/-- Zero extension to 64 bits (R10). -/
def zext {n : Nat} (x : BitVec n) : Word := x.setWidth 64

/-- Sign extension to 64 bits (R10). -/
def sext {n : Nat} (x : BitVec n) : Word := x.signExtend 64

/-- A Boolean as the word 1 or 0. -/
def ofBool (b : Bool) : Word := if b then 1#64 else 0#64

end Sys2Proof
end

