-- ==== Sys2Proof/Config.lean ====
section
/-!
DEFINITION. What the spec leaves to the part and does not state: free values. Each is a constant without a body, so
nothing can be proved of the value it gives; a statement that mentions one holds whatever it is.
-/

namespace Sys2Proof.Config

open Sys2Proof

/-- A fresh value for each draw, numbered by `State.freeCtr`, where the spec states an effect and no value. [log DESIGN CHOICE 4] -/
opaque freeValue : Nat → Word

/-- The part of a response's delay field that queueing adds, by draw (R297). -/
opaque queueDelay : Nat → Nat

/-- How far a core's reading of the package counter lies from the counter, by core; its remainder by 3 is used (R406). -/
opaque tickSkew : Nat → Nat

/-- The n-th draw of the device's random source for the unlock nonce (R414). -/
opaque unonce : Nat → BitVec 256

/-- The device serial, 16 bytes of a report (R414). -/
opaque serial : BitVec 128

/-- Whether a signature over a digest verifies against the vendor's key, the key that the previous boot stage names or
the owner's key (R413, R415): the key's number, the digest, the signature. [log PRESUMED 47] -/
opaque rsaVerify : Nat → BitVec 256 → BitVec 3072 → Bool

/-- The device key's signature over a digest (R414). [log PRESUMED 47] -/
opaque rsaSign : BitVec 256 → BitVec 3072

/-- The capacity of the memory device behind a pair, in units of 256 MiB (R425). [log DEDUCED 44] -/
opaque farCapacity : Nat → Nat

/-- Whether the scale-up switch at the other end of an edge group's link offers the Norfel extensions (R422). [log DESIGN CHOICE 70] -/
opaque norfelSwitch : Nat → Bool

end Sys2Proof.Config
end

