-- ==== Sys2Proof/Syntax.lean ====
section
/-!
DEFINITION. The instructions and events of the machine: one constructor for each row of the opcode table. A row
with an encoding (chapter 02, R37 to R60) carries its fields as they stand in the word, the wait count W last; a row
without one is an event of a unit, and carries the names of what it acts on (chapter 95).
-/

namespace Sys2Proof

/-- What a request of another package asks of an export (R433, R435, R436). The Nat is the size in bytes; `cached`
asks for a copy of the line that the requester will hold (R434). -/
inductive PeerOp where
  | read (size : Nat)
  | cached
  | write (size : Nat)
  | amo (op : BitVec 4) (size : Nat)
  /-- Obtain the line to write it in the peer's own copy. -/
  | own
  /-- One element add of a VAMO, of an element type. -/
  | vamo (ty : BitVec 2)
  /-- The peer has given up its copy of the line, at an invalidation or a recall or by itself; a written one comes with its data. -/
  | gone (data : Option (BitVec 512))
deriving DecidableEq, Repr

/-- A halt request at a cluster's debug module (R296, R386): of the cluster, or with `curtain` of its whole partition. -/
structure HaltRequest where
  rank    : Nat
  curtain : Bool
deriving DecidableEq, Repr

/-- A place that the host accesses (R390, R398, R423): a base address register, the virtual function of BAR2, and the offset. -/
structure HostAddress where
  bar    : Nat
  vf     : Nat
  offset : Nat
deriving DecidableEq, Repr

/-- The rows of the opcode table, in its order. [log DESIGN CHOICE 6] -/
inductive Instr where
  /-- Writes the 64-bit wrapped sum of g[a] and g[b] to g[d] (R104) -/
  | add (d a b : Reg) (w : BitVec 3)
  /-- Writes the 64-bit wrapped difference g[a] − g[b] to g[d] (R104) -/
  | sub (d a b : Reg) (w : BitVec 3)
  /-- Writes the bitwise AND of g[a] and g[b] to g[d] (R104) -/
  | and (d a b : Reg) (w : BitVec 3)
  /-- Writes the bitwise OR of g[a] and g[b] to g[d] (R104) -/
  | or (d a b : Reg) (w : BitVec 3)
  /-- Writes the bitwise XOR of g[a] and g[b] to g[d] (R104) -/
  | xor (d a b : Reg) (w : BitVec 3)
  /-- Writes g[a] AND NOT g[b] to g[d] (R104) -/
  | andn (d a b : Reg) (w : BitVec 3)
  /-- Shifts g[a] left by g[b][5:0] into g[d] (R104) -/
  | shl (d a b : Reg) (w : BitVec 3)
  /-- Shifts g[a] right with zero fill by g[b][5:0] into g[d] (R104) -/
  | shr (d a b : Reg) (w : BitVec 3)
  /-- Shifts g[a] right with sign fill by g[b][5:0] into g[d] (R104) -/
  | sar (d a b : Reg) (w : BitVec 3)
  /-- Rotates g[a] left by g[b][5:0] into g[d] (R104) -/
  | rol (d a b : Reg) (w : BitVec 3)
  /-- Rotates g[a] right by g[b][5:0] into g[d] (R104) -/
  | ror (d a b : Reg) (w : BitVec 3)
  /-- Writes 1 to g[d] if g[a] < g[b] signed, else 0 (R104) -/
  | slt (d a b : Reg) (w : BitVec 3)
  /-- Writes 1 to g[d] if g[a] < g[b] unsigned, else 0 (R104) -/
  | sltu (d a b : Reg) (w : BitVec 3)
  /-- Writes 1 to g[d] if g[a] equals g[b], else 0 (R104) -/
  | seq (d a b : Reg) (w : BitVec 3)
  /-- Writes the signed minimum of g[a] and g[b] to g[d] (R104) -/
  | min (d a b : Reg) (w : BitVec 3)
  /-- Writes the signed maximum of g[a] and g[b] to g[d] (R104) -/
  | max (d a b : Reg) (w : BitVec 3)
  /-- Writes the unsigned minimum of g[a] and g[b] to g[d] (R104) -/
  | minu (d a b : Reg) (w : BitVec 3)
  /-- Writes the unsigned maximum of g[a] and g[b] to g[d] (R104) -/
  | maxu (d a b : Reg) (w : BitVec 3)
  /-- Writes the low 64 bits of g[a] × g[b] to g[d] (R104) -/
  | mul (d a b : Reg) (w : BitVec 3)
  /-- Writes the high 64 bits of the signed product to g[d] (R104) -/
  | mulh (d a b : Reg) (w : BitVec 3)
  /-- Writes the high 64 bits of the unsigned product to g[d] (R104) -/
  | mulhu (d a b : Reg) (w : BitVec 3)
  /-- Starts a signed division whose quotient is written to g[d] after a variable latency (R104) -/
  | div (d a b : Reg) (w : BitVec 3)
  /-- Starts an unsigned division whose quotient is written to g[d] after a variable latency (R104) -/
  | divu (d a b : Reg) (w : BitVec 3)
  /-- Starts a signed division whose remainder is written to g[d] after a variable latency (R104) -/
  | rem (d a b : Reg) (w : BitVec 3)
  /-- Starts an unsigned division whose remainder is written to g[d] after a variable latency (R104) -/
  | remu (d a b : Reg) (w : BitVec 3)
  /-- Writes the count of leading zero bits of g[a] to g[d] (R104) -/
  | clz (d a : Reg) (w : BitVec 3)
  /-- Writes the count of trailing zero bits of g[a] to g[d] (R104) -/
  | ctz (d a : Reg) (w : BitVec 3)
  /-- Writes the number of one bits of g[a] to g[d] (R104) -/
  | popc (d a : Reg) (w : BitVec 3)
  /-- Writes g[a] with its bit order reversed to g[d] (R104) -/
  | brev (d a : Reg) (w : BitVec 3)
  /-- Sign-extends the low byte of g[a] into g[d] (R104) -/
  | sextB (d a : Reg) (w : BitVec 3)
  /-- Sign-extends the low halfword of g[a] into g[d] (R104) -/
  | sextH (d a : Reg) (w : BitVec 3)
  /-- Sign-extends the low word of g[a] into g[d] (R104) -/
  | sextW (d a : Reg) (w : BitVec 3)
  /-- Zero-extends the low word of g[a] into g[d] (R104) -/
  | zextW (d a : Reg) (w : BitVec 3)
  /-- Writes g[a] to g[d] if the old g[d] is non-zero, else g[b] (R104) -/
  | sel (d a b : Reg) (w : BitVec 3)
  /-- Writes the sign-extended 32-bit sum of g[a] and g[b] to g[d] (R104) -/
  | addw (d a b : Reg) (w : BitVec 3)
  /-- Writes the sign-extended 32-bit difference to g[d] (R104) -/
  | subw (d a b : Reg) (w : BitVec 3)
  /-- Writes the sign-extended low 32 bits of the 32-bit product to g[d] (R104) -/
  | mulw (d a b : Reg) (w : BitVec 3)
  /-- Adds the sign-extended imm13 to g[a] into g[d] (R105) -/
  | addi (d a : Reg) (i : BitVec 13) (w : BitVec 3)
  /-- ANDs g[a] with the sign-extended imm13 into g[d] (R105) -/
  | andi (d a : Reg) (i : BitVec 13) (w : BitVec 3)
  /-- ORs g[a] with the sign-extended imm13 into g[d] (R105) -/
  | ori (d a : Reg) (i : BitVec 13) (w : BitVec 3)
  /-- XORs g[a] with the sign-extended imm13 into g[d] (R105) -/
  | xori (d a : Reg) (i : BitVec 13) (w : BitVec 3)
  /-- Writes 1 to g[d] if g[a] is below the immediate, signed (R105) -/
  | slti (d a : Reg) (i : BitVec 13) (w : BitVec 3)
  /-- Writes 1 to g[d] if g[a] is below the sign-extended immediate read unsigned (R105) -/
  | sltiu (d a : Reg) (i : BitVec 13) (w : BitVec 3)
  /-- Shifts g[a] left by the immediate amount into g[d] (R106) -/
  | shli (d a : Reg) (n : BitVec 6) (w : BitVec 3)
  /-- Shifts g[a] right with zero fill by the immediate amount into g[d] (R106) -/
  | shri (d a : Reg) (n : BitVec 6) (w : BitVec 3)
  /-- Shifts g[a] right with sign fill by the immediate amount into g[d] (R106) -/
  | sari (d a : Reg) (n : BitVec 6) (w : BitVec 3)
  /-- Rotates g[a] left by the immediate amount into g[d] (R106) -/
  | roli (d a : Reg) (n : BitVec 6) (w : BitVec 3)
  /-- Writes sext(imm18) << 13 to g[d] (R107) -/
  | lui (d : Reg) (i : BitVec 18) (w : BitVec 3)
  /-- Writes the ADR's own address plus 4 × sext(imm18) to g[d] (R107) -/
  | adr (d : Reg) (i : BitVec 18) (w : BitVec 3)
  /-- Extracts a bit field of g[a] zero-extended into g[d] (R108) -/
  | extu (d a : Reg) (p : BitVec 6) (l : BitVec 5) (w : BitVec 3)
  /-- Extracts a bit field of g[a] sign-extended into g[d] (R108) -/
  | exts (d a : Reg) (p : BitVec 6) (l : BitVec 5) (w : BitVec 3)
  /-- Inserts the low bits of g[a] into a field of the old g[d] (R108) -/
  | ins (d a : Reg) (p : BitVec 6) (l : BitVec 5) (w : BitVec 3)
  /-- Adds two F32 values rounded under cr.frm into g[d] (R112) -/
  | fadd (d a b : Reg) (w : BitVec 3)
  /-- Subtracts two F32 values rounded under cr.frm into g[d] (R112) -/
  | fsub (d a b : Reg) (w : BitVec 3)
  /-- Multiplies two F32 values rounded under cr.frm into g[d] (R112) -/
  | fmul (d a b : Reg) (w : BitVec 3)
  /-- Computes a × b + d with one rounding into g[d] (R112) -/
  | fma (d a b : Reg) (w : BitVec 3)
  /-- Computes d − a × b with one rounding into g[d] (R112) -/
  | fnma (d a b : Reg) (w : BitVec 3)
  /-- Starts an F32 division whose result is written after 14 cycles (R112) -/
  | fdiv (d a b : Reg) (w : BitVec 3)
  /-- Starts an F32 square root whose result is written after 16 cycles (R112) -/
  | fsqrt (d a : Reg) (w : BitVec 3)
  /-- Writes the lesser F32 operand, ordering −0 below +0 (R113) -/
  | fmin (d a b : Reg) (w : BitVec 3)
  /-- Writes the greater F32 operand, ordering −0 below +0 (R113) -/
  | fmax (d a b : Reg) (w : BitVec 3)
  /-- Writes 1 if the F32 operands are equal, else 0 (R114) -/
  | feq (d a b : Reg) (w : BitVec 3)
  /-- Writes 1 if g[a] < g[b] as F32, else 0 (R114) -/
  | flt (d a b : Reg) (w : BitVec 3)
  /-- Writes 1 if g[a] ≤ g[b] as F32, else 0 (R114) -/
  | fle (d a b : Reg) (w : BitVec 3)
  /-- Writes the class record of the F32 value in g[a] to g[d] (R115) -/
  | fclass (d a : Reg) (w : BitVec 3)
  /-- Clears the sign bit of the F32 value (R116) -/
  | fabs (d a : Reg) (w : BitVec 3)
  /-- Inverts the sign bit of the F32 value (R116) -/
  | fneg (d a : Reg) (w : BitVec 3)
  /-- Converts I64 to F32 (R117) -/
  | cvtF32I64 (d a : Reg) (w : BitVec 3)
  /-- Converts F32 to I64 with saturation (R117) -/
  | cvtI64F32 (d a : Reg) (w : BitVec 3)
  /-- Converts N64 to F32 (R117) -/
  | cvtF32N64 (d a : Reg) (w : BitVec 3)
  /-- Converts F32 to N64 with saturation (R117) -/
  | cvtN64F32 (d a : Reg) (w : BitVec 3)
  /-- Converts F32 to BF16 (R117) -/
  | cvtBf16F32 (d a : Reg) (w : BitVec 3)
  /-- Widens BF16 to F32 exactly (R117) -/
  | cvtF32Bf16 (d a : Reg) (w : BitVec 3)
  /-- Converts F32 to E4M3, saturating when cr.frm.FS = 1 (R117) -/
  | cvtE4m3F32 (d a : Reg) (w : BitVec 3)
  /-- Widens E4M3 to F32 exactly (R117) -/
  | cvtF32E4m3 (d a : Reg) (w : BitVec 3)
  /-- Converts F32 to E5M2, saturating when cr.frm.FS = 1 (R117) -/
  | cvtE5m2F32 (d a : Reg) (w : BitVec 3)
  /-- Widens E5M2 to F32 exactly (R117) -/
  | cvtF32E5m2 (d a : Reg) (w : BitVec 3)
  /-- Rounds an F32 value to an integral F32 value under cr.frm (R118) -/
  | frnd (d a : Reg) (w : BitVec 3)
  /-- Branches through Enter when g[a] = g[b] (R122) -/
  | beq (a b : Reg) (o : BitVec 10) (w : BitVec 3)
  /-- Branches through Enter when g[a] ≠ g[b] (R122) -/
  | bne (a b : Reg) (o : BitVec 10) (w : BitVec 3)
  /-- Branches through Enter when g[a] < g[b] signed (R122) -/
  | blt (a b : Reg) (o : BitVec 10) (w : BitVec 3)
  /-- Branches through Enter when g[a] ≥ g[b] signed (R122) -/
  | bge (a b : Reg) (o : BitVec 10) (w : BitVec 3)
  /-- Branches through Enter when g[a] < g[b] unsigned (R122) -/
  | bltu (a b : Reg) (o : BitVec 10) (w : BitVec 3)
  /-- Branches through Enter when g[a] ≥ g[b] unsigned (R122) -/
  | bgeu (a b : Reg) (o : BitVec 10) (w : BitVec 3)
  /-- Jumps to PC + 4 × off23 through Enter (R123) -/
  | j (o : BitVec 23) (w : BitVec 3)
  /-- Pushes the return address on the scratchpad stack and jumps through Enter (R124) -/
  | call (o : BitVec 23) (w : BitVec 3)
  /-- Jumps to g[a] through Enter (R123) -/
  | jr (a : Reg) (w : BitVec 3)
  /-- Jumps to g[a] through Enter and writes PC + 4 to g[d] (R123) -/
  | jalr (d a : Reg) (w : BitVec 3)
  /-- Calls the address in g[a], pushing the return address on the stack (R124) -/
  | callr (a : Reg) (w : BitVec 3)
  /-- Pops the return address from the scratchpad stack and jumps through Enter (R124) -/
  | ret (w : BitVec 3)
  /-- Jumps to g[a] according to its slot state, waiting, trapping or transferring (R131) -/
  | fjmp (a : Reg) (w : BitVec 3)
  /-- Loads a sign-extended value of the given size and request type into g[d] (R226) -/
  | ld (d a : Reg) (o : BitVec 9) (s t : BitVec 2) (w : BitVec 3)
  /-- Loads a zero-extended value of the given size into g[d] (R226) -/
  | ldu (d a : Reg) (o : BitVec 9) (s t : BitVec 2) (w : BitVec 3)
  /-- Stores the low bytes of g[d] at the computed address with the given request type (R226) -/
  | st (d a : Reg) (o : BitVec 9) (s t : BitVec 2) (w : BitVec 3)
  /-- Atomically loads the word as an acquire at the given scope (R239) -/
  | lda (d a : Reg) (s : BitVec 3) (z : BitVec 1) (w : BitVec 3)
  /-- Atomically stores g[b] as a release at the given scope (R239) -/
  | strl (a b : Reg) (s : BitVec 3) (z : BitVec 1) (w : BitVec 3)
  /-- Atomically exchanges the word with g[b], returning the old value (R239) -/
  | swap (d a b : Reg) (s : BitVec 3) (z : BitVec 1) (w : BitVec 3)
  /-- Atomically writes g[b] if the word equals g[d], returning the old value (R239) -/
  | cas (d a b : Reg) (s : BitVec 3) (z : BitVec 1) (w : BitVec 3)
  /-- Atomically adds g[b] to the word, returning the old value (R239) -/
  | atadd (d a b : Reg) (s : BitVec 3) (z : BitVec 1) (w : BitVec 3)
  /-- Atomically ANDs g[b] into the word, returning the old value (R239) -/
  | atand (d a b : Reg) (s : BitVec 3) (z : BitVec 1) (w : BitVec 3)
  /-- Atomically ORs g[b] into the word, returning the old value (R239) -/
  | ator (d a b : Reg) (s : BitVec 3) (z : BitVec 1) (w : BitVec 3)
  /-- Atomically XORs g[b] into the word, returning the old value (R239) -/
  | atxor (d a b : Reg) (s : BitVec 3) (z : BitVec 1) (w : BitVec 3)
  /-- Atomically stores the signed minimum, returning the old value (R239) -/
  | atmin (d a b : Reg) (s : BitVec 3) (z : BitVec 1) (w : BitVec 3)
  /-- Atomically stores the signed maximum, returning the old value (R239) -/
  | atmax (d a b : Reg) (s : BitVec 3) (z : BitVec 1) (w : BitVec 3)
  /-- Atomically stores the unsigned minimum, returning the old value (R239) -/
  | atminn (d a b : Reg) (s : BitVec 3) (z : BitVec 1) (w : BitVec 3)
  /-- Atomically stores the unsigned maximum, returning the old value (R239) -/
  | atmaxn (d a b : Reg) (s : BitVec 3) (z : BitVec 1) (w : BitVec 3)
  /-- Atomically adds an F32 value with RNE, returning the old value (R239) -/
  | atfadd (d a b : Reg) (s w : BitVec 3)
  /-- Atomically stores the F32 maximum, returning the old value (R239) -/
  | atfmax (d a b : Reg) (s w : BitVec 3)
  /-- Atomically adds g[b] to the word without returning a value (R239) -/
  | ataddnr (a b : Reg) (s : BitVec 3) (z : BitVec 1) (w : BitVec 3)
  /-- Stores at the home and pushes the line into the L1s of the named target cores (R244) -/
  | sti (d a b : Reg) (z : BitVec 2) (s r : BitVec 1) (w : BitVec 3)
  /-- Orders all earlier accesses and pushes before all later accesses at the scope, optionally over a range (R252) -/
  | fenceFull (a b : Reg) (s : BitVec 3) (g : BitVec 1) (w : BitVec 3)
  /-- Orders earlier loads before all later accesses and discards T lines at wide scopes (R252) -/
  | fenceAcq (a b : Reg) (s : BitVec 3) (g : BitVec 1) (w : BitVec 3)
  /-- Orders earlier accesses and pushes before later stores at the scope (R252) -/
  | fenceRel (a b : Reg) (s : BitVec 3) (g : BitVec 1) (w : BitVec 3)
  /-- Waits for every earlier copy and matrix command of the context and raises ENGFAULT on an unreported failure (R252) -/
  | fenceEng (w : BitVec 3)
  /-- Pins a translated pointer to the issuing position (R309) -/
  | vwpin (d a : Reg) (w : BitVec 3)
  /-- Sets the view field of a pointer to position g[b] (R309) -/
  | vwset (d a b : Reg) (w : BitVec 3)
  /-- Clears the view field of a pointer (R309) -/
  | vwclr (d a : Reg) (w : BitVec 3)
  /-- Writes the position a pointer resolves to (R309) -/
  | vwget (d a : Reg) (w : BitVec 3)
  /-- Invalidates translation-cache entries of the own cluster for a page or all (R312) -/
  | tlbiL (a : Reg) (w : BitVec 3)
  /-- Invalidates translation entries for a range in every cluster of the partition (R312) -/
  | tlbiB (a b : Reg) (w : BitVec 3)
  /-- Swaps the frames of a shadow descriptor's pages into their leaves all at once (R316) -/
  | publish (a : Reg) (w : BitVec 3)
  /-- Translates g[a] as a load would and writes the result record without accessing memory (R313) -/
  | probe (d a : Reg) (w : BitVec 3)
  /-- Opens a tile from a descriptor and writes a handle or negative status (R317) -/
  | tileOpen (d a : Reg) (w : BitVec 3)
  /-- Closes a handle when no tenure is held or waiting (R319) -/
  | tileClose (d a : Reg) (w : BitVec 3)
  /-- Requests read tenure on a tile and waits for the grant (R320) -/
  | tenR (a : Reg) (w : BitVec 3)
  /-- Requests write tenure on a tile and waits for the grant (R320) -/
  | tenW (a : Reg) (w : BitVec 3)
  /-- Takes read tenure only if it can be granted at once (R320) -/
  | tenTryr (d a : Reg) (w : BitVec 3)
  /-- Takes write tenure only if it can be granted at once (R320) -/
  | tenTryw (d a : Reg) (w : BitVec 3)
  /-- Releases the context's tenure, reporting released, lost or not held (R320) -/
  | tenRel (d a : Reg) (w : BitVec 3)
  /-- Turns write tenure into read tenure (R320) -/
  | tenDown (a : Reg) (w : BitVec 3)
  /-- Splits a tile into two children that inherit its tenures (R328) -/
  | tileSplit (d a b : Reg) (w : BitVec 3)
  /-- Writes the tile's tenure and queue status (R319) -/
  | tileQry (d a : Reg) (w : BitVec 3)
  /-- Loads 512 bytes at g[a] into line p[d] (R175) -/
  | vld (d a : Reg) (w : BitVec 3)
  /-- Stores line p[d] to the 512 bytes at g[a] (R175) -/
  | vst (d a : Reg) (w : BitVec 3)
  /-- Loads active elements at a stride into line p[d] (R176) -/
  | vlds (d a b : Reg) (t w : BitVec 3)
  /-- Stores active elements at a stride in ascending order (R176) -/
  | vsts (d a b : Reg) (t w : BitVec 3)
  /-- Gathers active elements from indexed addresses (R177) -/
  | vgath (d a b : Reg) (t w : BitVec 3)
  /-- Scatters active elements to indexed addresses in ascending order (R177) -/
  | vscat (d a b : Reg) (t w : BitVec 3)
  /-- Adds integer elements (R180) -/
  | vadd (d a b : Reg) (t w : BitVec 3)
  /-- Subtracts integer elements (R180) -/
  | vsub (d a b : Reg) (t w : BitVec 3)
  /-- Multiplies integer elements keeping the low bits (R180) -/
  | vmul (d a b : Reg) (t w : BitVec 3)
  /-- Writes the high half of signed element products (R180) -/
  | vmulh (d a b : Reg) (t w : BitVec 3)
  /-- Writes signed element minima (R180) -/
  | vmin (d a b : Reg) (t w : BitVec 3)
  /-- Writes signed element maxima (R180) -/
  | vmax (d a b : Reg) (t w : BitVec 3)
  /-- Writes unsigned element minima (R180) -/
  | vminu (d a b : Reg) (t w : BitVec 3)
  /-- Writes unsigned element maxima (R180) -/
  | vmaxu (d a b : Reg) (t w : BitVec 3)
  /-- Adds signed elements with saturation (R180) -/
  | vadds (d a b : Reg) (t w : BitVec 3)
  /-- Subtracts signed elements with saturation (R180) -/
  | vsubs (d a b : Reg) (t w : BitVec 3)
  /-- Adds unsigned elements with saturation (R180) -/
  | vaddsn (d a b : Reg) (t w : BitVec 3)
  /-- Writes absolute values of integer elements (R180) -/
  | vabs (d a : Reg) (t w : BitVec 3)
  /-- Negates integer elements (R180) -/
  | vneg (d a : Reg) (t w : BitVec 3)
  /-- Multiply-accumulates integer elements into p[d] (R180) -/
  | vmac (d a b : Reg) (t w : BitVec 3)
  /-- Writes exact widened element products to two lines (R181) -/
  | vwmul (d a b : Reg) (t w : BitVec 3)
  /-- Accumulates widened element products into two lines (R181) -/
  | vwmac (d a b : Reg) (t w : BitVec 3)
  /-- Accumulates four-element integer dot products into I32 elements (R181) -/
  | vdot4 (d a b : Reg) (t w : BitVec 3)
  /-- Adds float elements (R182) -/
  | vfadd (d a b : Reg) (t w : BitVec 3)
  /-- Subtracts float elements (R182) -/
  | vfsub (d a b : Reg) (t w : BitVec 3)
  /-- Multiplies float elements (R182) -/
  | vfmul (d a b : Reg) (t w : BitVec 3)
  /-- Fused multiply-adds float elements into p[d] (R182) -/
  | vfma (d a b : Reg) (t w : BitVec 3)
  /-- Computes z − x × y on float elements (R182) -/
  | vfnma (d a b : Reg) (t w : BitVec 3)
  /-- Writes float element minima (R182) -/
  | vfmin (d a b : Reg) (t w : BitVec 3)
  /-- Writes float element maxima (R182) -/
  | vfmax (d a b : Reg) (t w : BitVec 3)
  /-- Clears the sign bit of float elements (R182) -/
  | vfabs (d a : Reg) (t w : BitVec 3)
  /-- Inverts the sign bit of float elements (R182) -/
  | vfneg (d a : Reg) (t w : BitVec 3)
  /-- Writes widened float products to two lines (R183) -/
  | vfwmul (d a b : Reg) (t w : BitVec 3)
  /-- Accumulates widened float products into two lines (R183) -/
  | vfwma (d a b : Reg) (t w : BitVec 3)
  /-- Computes 2^x of float elements (R184) -/
  | vfexp2 (d a : Reg) (t w : BitVec 3)
  /-- Computes log2 of float elements (R184) -/
  | vflog2 (d a : Reg) (t w : BitVec 3)
  /-- Computes reciprocals of float elements (R184) -/
  | vfrcp (d a : Reg) (t w : BitVec 3)
  /-- Computes reciprocal square roots of float elements (R184) -/
  | vfrsq (d a : Reg) (t w : BitVec 3)
  /-- ANDs element bits (R185) -/
  | vand (d a b : Reg) (t w : BitVec 3)
  /-- ORs element bits (R185) -/
  | vor (d a b : Reg) (t w : BitVec 3)
  /-- XORs element bits (R185) -/
  | vxor (d a b : Reg) (t w : BitVec 3)
  /-- Computes x AND NOT y on element bits (R185) -/
  | vandn (d a b : Reg) (t w : BitVec 3)
  /-- Shifts integer elements left (R185) -/
  | vshl (d a b : Reg) (t w : BitVec 3)
  /-- Shifts integer elements right with zero fill (R185) -/
  | vshr (d a b : Reg) (t w : BitVec 3)
  /-- Shifts integer elements right with sign fill (R185) -/
  | vsar (d a b : Reg) (t w : BitVec 3)
  /-- Writes mask m[d] from integer element equality (R186) -/
  | vcmpeq (d a b : Reg) (t w : BitVec 3)
  /-- Writes mask m[d] from signed less-than (R186) -/
  | vcmplt (d a b : Reg) (t w : BitVec 3)
  /-- Writes mask m[d] from signed less-or-equal (R186) -/
  | vcmple (d a b : Reg) (t w : BitVec 3)
  /-- Writes mask m[d] from unsigned less-than (R186) -/
  | vcmpltn (d a b : Reg) (t w : BitVec 3)
  /-- Writes mask m[d] from float equality (R186) -/
  | vfcmpeq (d a b : Reg) (t w : BitVec 3)
  /-- Writes mask m[d] from float less-than (R186) -/
  | vfcmplt (d a b : Reg) (t w : BitVec 3)
  /-- Writes mask m[d] from float less-or-equal (R186) -/
  | vfcmple (d a b : Reg) (t w : BitVec 3)
  /-- Selects elements of p[a] or p[b] by m0 (R187) -/
  | vsel (d a b : Reg) (t w : BitVec 3)
  /-- ANDs two masks (R188) -/
  | vmand (d a b : Reg) (t w : BitVec 3)
  /-- ORs two masks (R188) -/
  | vmor (d a b : Reg) (t w : BitVec 3)
  /-- XORs two masks (R188) -/
  | vmxor (d a b : Reg) (t w : BitVec 3)
  /-- Inverts a mask (R188) -/
  | vmnot (d a : Reg) (t w : BitVec 3)
  /-- Counts set element bits of a mask into g[d] (R188) -/
  | vmpop (d a : Reg) (t w : BitVec 3)
  /-- Writes the index of the first set element of a mask to g[d] (R188) -/
  | vmfirst (d a : Reg) (t w : BitVec 3)
  /-- Sets the mask bits of the first g[a] elements and clears the rest (R188) -/
  | vmset (d a : Reg) (t w : BitVec 3)
  /-- Converts the elements of p[a] to another type and mode (R189) -/
  | vcvt (d a b : Reg) (t w : BitVec 3)
  /-- Quantises a line to O4 with block scales and outlier appends (R190) -/
  | vqo4 (d a b : Reg) (t w : BitVec 3)
  /-- Decodes O4 elements with their block scales (R191) -/
  | vdqo4 (d a b : Reg) (t w : BitVec 3)
  /-- Sums active elements by the fixed tree into g[d] (R192) -/
  | vrsum (d a : Reg) (t w : BitVec 3)
  /-- Writes the largest active element to g[d] (R192) -/
  | vrmax (d a : Reg) (t w : BitVec 3)
  /-- Writes the least active element to g[d] (R192) -/
  | vrmin (d a : Reg) (t w : BitVec 3)
  /-- Writes the largest active magnitude to g[d] (R192) -/
  | vramax (d a : Reg) (t w : BitVec 3)
  /-- Writes the F32 dot product of two lines by the fixed tree (R192) -/
  | vdot (d a b : Reg) (t w : BitVec 3)
  /-- Broadcasts g[a] into active elements (R193) -/
  | vbcast (d a : Reg) (t w : BitVec 3)
  /-- Copies active elements of p[a] (R193) -/
  | vmov (d a : Reg) (t w : BitVec 3)
  /-- Permutes elements of p[a] by indices in p[b] (R193) -/
  | vperm (d a b : Reg) (t w : BitVec 3)
  /-- Slides elements of p[a] by g[b] (R193) -/
  | vslide (d a b : Reg) (t w : BitVec 3)
  /-- Extracts one element into g[d] (R193) -/
  | vext (d a b : Reg) (t w : BitVec 3)
  /-- Inserts g[a] into one element of p[d] (R193) -/
  | vins (d a b : Reg) (t w : BitVec 3)
  /-- Applies the Hadamard transform over blocks of a line (R194) -/
  | vhad (d a b : Reg) (t w : BitVec 3)
  /-- Writes each element's index into active elements (R193) -/
  | viota (d : Reg) (t w : BitVec 3)
  /-- Interleaves the low halves of two lines (R193) -/
  | vzip (d a b : Reg) (t w : BitVec 3)
  /-- Gathers even elements of two lines (R193) -/
  | vunzip (d a b : Reg) (t w : BitVec 3)
  /-- Copies an accumulator into eight matrix lines (R219) -/
  | accRd (d a : Reg) (w : BitVec 3)
  /-- Loads an accumulator from eight matrix lines (R219) -/
  | accWr (d a : Reg) (w : BitVec 3)
  /-- Sets an accumulator to +0.0 (R219) -/
  | accClr (d : Reg) (w : BitVec 3)
  /-- Waits until cr.mdone reaches g[a], raising a pending matrix fault (R221) -/
  | mwait (a : Reg) (w : BitVec 3)
  /-- Writes the seq of the context's last commit to g[d] (R219) -/
  | mstat (d : Reg) (w : BitVec 3)
  /-- Captures the following words and replays them count times with staggered register fields (R134) -/
  | rpt (c : Reg) (i : BitVec 6) (l : BitVec 4) (x y z : BitVec 1) (s : BitVec 2) (w : BitVec 3)
  /-- Sends a command to a copy engine, releasing earlier accesses, and returns a ticket (R274) -/
  | xsend (d a b : Reg) (w : BitVec 3)
  /-- Waits for an engine ticket to end and traps ENGFAULT on an unreported failure (R282) -/
  | xwait (a : Reg) (w : BitVec 3)
  /-- Reads one word of an engine progress record (R281) -/
  | xstat (d a b : Reg) (w : BitVec 3)
  /-- Starts a helper context, waiting for a free one (R138) -/
  | hstart (d a b : Reg) (w : BitVec 3)
  /-- Starts a helper context or writes −1 if none is free (R138) -/
  | hstartNb (d a b : Reg) (w : BitVec 3)
  /-- Ends the issuing helper, recording its exit value (R140) -/
  | hexit (w : BitVec 3)
  /-- Waits for a helper to end and writes its exit value (R140) -/
  | hjoin (d a : Reg) (w : BitVec 3)
  /-- Writes a helper's status word (R140) -/
  | hstat (d a : Reg) (w : BitVec 3)
  /-- Passes the context over until other ready contexts have issued (R142) -/
  | yield (w : BitVec 3)
  /-- Ends a helper at its next issue point (R141) -/
  | hkill (a : Reg) (w : BitVec 3)
  /-- Rendezvous that forms a troupe of the cores in a mask (R266) -/
  | trForm (d a : Reg) (w : BitVec 3)
  /-- Dissolves the troupe at the leader or removes a detached follower (R270) -/
  | trBreak (w : BitVec 3)
  /-- Detaches each attached follower at the forwarded instruction (R268) -/
  | trDetach (w : BitVec 3)
  /-- Reattaches detached followers at the leader's rendezvous (R269) -/
  | trRejoin (w : BitVec 3)
  /-- Writes the troupe status of the core (R271) -/
  | trStat (d : Reg) (w : BitVec 3)
  /-- Releases and arrives at a domain barrier that also balances port words (R291) -/
  | sync (l : BitVec 2) (w : BitVec 3)
  /-- Joins domain level L with the interval in g[a] (R290) -/
  | djoin (a : Reg) (l : BitVec 2) (w : BitVec 3)
  /-- Clears domain levels L to 4 (R290) -/
  | dleave (l : BitVec 2) (w : BitVec 3)
  /-- Writes the phase, arrival and balance of domain level L (R294) -/
  | dqry (d : Reg) (l : BitVec 2) (w : BitVec 3)
  /-- Releases and arrives at a domain barrier without port balance (R291) -/
  | bar (l : BitVec 2) (w : BitVec 3)
  /-- Starts a code-segment fetch into its overlay slot and returns a ticket (R129) -/
  | cfetch (d a : Reg) (w : BitVec 3)
  /-- Waits until a segment fetch is no longer in progress (R129) -/
  | cwait (a : Reg) (w : BitVec 3)
  /-- Writes the slot state of a segment (R129) -/
  | cstat (d a : Reg) (w : BitVec 3)
  /-- Empties the slot holding a segment unless it holds a live PC (R129) -/
  | cevict (a : Reg) (w : BitVec 3)
  /-- Waits for an event counter above zero and decrements it as an acquire (R144) -/
  | evwait (a : Reg) (w : BitVec 3)
  /-- Releases, increments an event counter and fires its strings event (R144) -/
  | evsig (a : Reg) (w : BitVec 3)
  /-- Reads an event counter into g[d] (R144) -/
  | evrd (d a : Reg) (w : BitVec 3)
  /-- Clears an event counter (R144) -/
  | evclr (a : Reg) (w : BitVec 3)
  /-- Waits until the context's wake latch is set and consumes it (R145) -/
  | wfe (w : BitVec 3)
  /-- Reads a control register into g[d] (R119) -/
  | crr (d : Reg) (c : BitVec 11) (w : BitVec 3)
  /-- Writes g[a] to a control register, returning the old value (R119) -/
  | crw (d a : Reg) (c : BitVec 11) (w : BitVec 3)
  /-- Sets the bits of g[a] in a control register, returning the old value (R119) -/
  | crset (d a : Reg) (c : BitVec 11) (w : BitVec 3)
  /-- Clears the bits of g[a] in a control register, returning the old value (R119) -/
  | crclr (d a : Reg) (c : BitVec 11) (w : BitVec 3)
  /-- Traps TRAPINSTR with a 10-bit code (R146) -/
  | trap (k : BitVec 10) (w : BitVec 3)
  /-- Traps SYSCALL (R146) -/
  | sysc (w : BitVec 3)
  /-- Traps HCALLTRAP into H (R146) -/
  | hcall (w : BitVec 3)
  /-- Returns from a trap to cr.tpc at the saved privilege, re-entering a frame if one was active (R152) -/
  | eret (w : BitVec 3)
  /-- Traps BKPT or halts the cluster when the debug module asks (R146) -/
  | bkpt (w : BitVec 3)
  /-- Stops every context of the core until the debug module resumes it (R146) -/
  | halt (w : BitVec 3)
  /-- Waits for earlier instructions and reads the guest timestamp (R146) -/
  | tsread (d : Reg) (w : BitVec 3)
  /-- Waits for helpers, fences engines, releases at .sys and ends ctx0's part in the group (R143) -/
  | gexit (w : BitVec 3)
  /-- Reads a performance counter into g[d] (R146) -/
  | cntrd (d a : Reg) (w : BitVec 3)
  /-- Asks the curtain tree to stop the partition with reason 2 (R385) -/
  | gang (w : BitVec 3)
  /-- Takes the next retry-ring entry value (R382) -/
  | rpop (d : Reg) (w : BitVec 3)
  /-- Completes a ring entry by supplying a value or abandoning the store (R382) -/
  | rfix (a b : Reg) (w : BitVec 3)
  /-- Has the faulted core perform a ring entry's access again (R382) -/
  | rreplay (a : Reg) (w : BitVec 3)
  /-- Completes a ring entry with poison or abandonment and a deferred XLATE (R382) -/
  | rkill (a : Reg) (w : BitVec 3)
  /-- Atomically adds 32 F32 elements of a line quarter to memory (R436) -/
  | vamoF32 (a b : Reg) (w : BitVec 3)
  /-- Atomically adds 64 BF16 elements of a line quarter to memory (R436) -/
  | vamoBf16 (a b : Reg) (w : BitVec 3)
  /-- Atomically adds 32 I32 elements of a line quarter to memory (R436) -/
  | vamoI32 (a b : Reg) (w : BitVec 3)
  /-- Checks and queues a launch descriptor and returns its id (R363) -/
  | lnch (d a : Reg) (w : BitVec 3)
  /-- Waits until a launch has no undispatched or running group (R367) -/
  | lwait (a : Reg) (w : BitVec 3)
  /-- Writes the state of a launch (R368) -/
  | lqry (d a : Reg) (w : BitVec 3)
  /-- Cancels the undispatched groups of a launch (R369) -/
  | lcancel (d a : Reg) (w : BitVec 3)
  /-- Waits for a port word and reads the head without removing it (R264) -/
  | qpeek (d : Reg) (q : BitVec 2) (w : BitVec 3)
  /-- Removes every word from an input port (R264) -/
  | qclr (q : BitVec 2) (w : BitVec 3)
  /-- Writes the word count of an input port (R264) -/
  | qstat (d : Reg) (q : BitVec 2) (w : BitVec 3)
  /-- Sets a line pointer from g[a] (R169) -/
  | pset (d a : Reg) (w : BitVec 3)
  /-- Reads a line pointer into g[d] (R169) -/
  | pget (d a : Reg) (w : BitVec 3)
  /-- Adds g[b] to a line pointer (R169) -/
  | padd (d a b : Reg) (w : BitVec 3)
  /-- Adds an immediate to a line pointer (R169) -/
  | paddi (d a : Reg) (i : BitVec 13) (w : BitVec 3)
  /-- A fixed-latency result becomes visible when its latency has elapsed (R44) -/
  | fixedResultVisible (core ctx : Nat)
  /-- A division or square root writes its result and releases the scoreboard (R103) -/
  | variableResultWrite (core ctx : Nat)
  /-- A held FPU instruction's enabled flag becomes known and FPEXC is entered (R110) -/
  | fpexcTrap (core ctx : Nat)
  /-- A pending deferred trap is taken at the context's next issue point (R155) -/
  | deferredTrap (core ctx : Nat)
  /-- A segment fetch lands, leaving its slot RESIDENT or FAILED (R127) -/
  | segmentFetchDone (core slot : Nat)
  /-- At a frame start the arbiter binds a ready queue head to a free lane group (R165) -/
  | vectorPassBind (core : Nat)
  /-- After the core drains, a new cr.spsize split takes effect (R157) -/
  | scratchpadResize (core : Nat)
  /-- Converts an operand into a plane tile and block exponents (R208) -/
  | plane (core blocks : Nat)
  /-- Multiplies two plane tiles into an accumulator (R209) -/
  | mma (core blocks : Nat)
  /-- Checks operand records and multiplies with adapter B operands per record (R214) -/
  | mmaR (core blocks : Nat)
  /-- Applies the Hadamard transform along K to 32 vectors (R215) -/
  | had (core blocks : Nat)
  /-- Writes an accumulator in the drain format with scales, outliers and absmax (R216) -/
  | drain (core : Nat)
  /-- Sets the masked accumulators to +0.0 (R217) -/
  | zero (core : Nat)
  /-- Completes after the previous command, firing strings and optionally EVSIG (R218) -/
  | mark (core : Nat)
  /-- A matrix command completes, counting cr.mdone and accruing flags (R200) -/
  | matrixCommandDone (core : Nat)
  /-- The copy engine copies elements of up to six dimensions (R277) -/
  | copy (core ticket elems : Nat)
  /-- The copy engine fills elements with a pattern (R277) -/
  | fill (core ticket elems : Nat)
  /-- Members reduce their elements and each receives the whole reduction (R284) -/
  | allreduce (core ticket : Nat)
  /-- Members reduce their elements and each receives its slice (R284) -/
  | reducescatter (core ticket : Nat)
  /-- Each member receives every member's elements (R284) -/
  | allgather (core ticket : Nat)
  /-- A collective ABORT arrives and its member completes ABORTED (R286) -/
  | abort (core ticket : Nat)
  /-- An engine command completes, pulses copy done and frees its range entry (R283) -/
  | engineCommandDone (core ticket : Nat)
  /-- A port word reaches its receiving core's input port (R262) -/
  | portWordArrival (word : Nat)
  /-- A follower issues an instruction forwarded by its troupe leader (R267) -/
  | forwardedInstruction (core : Nat)
  /-- A TR.FORM's cr.trwait limit passes and the core withdraws (R266) -/
  | trFormTimeout (core : Nat)
  /-- The leader's TR.REJOIN limit passes; arrived members reattach and it traps (R269) -/
  | troupehang (core : Nat)
  /-- A domain barrier completes once all members arrived and counts balance (R291) -/
  | syncDone (core : Nat)
  /-- A home slice serves a line request with its directory actions (R230) -/
  | homeRequest (req : Nat)
  /-- A pushed line arrives at a core and is accepted or refused (R245) -/
  | pushArrival (push : Nat)
  /-- A T line is discarded 4,096 cycles after its fill (R232) -/
  | tLineExpiry (core line : Nat)
  /-- A load or atomic response returns, writing or poisoning its destination (R96) -/
  | memoryResponse (req : Nat) (value : BitVec 64) (poisoned : Bool)
  /-- A far home grants die ownership, recalls and sends invalidations (R333) -/
  | farHomeRequest (req : Nat)
  /-- A die acknowledges an invalidation pending at the far home (R333) -/
  | farInvalidationAck (line die : Nat)
  /-- A replica's home slice installs a multicast update (R308) -/
  | replicaUpdate (update : Nat)
  /-- The tile home grants a queued tenure request (R322) -/
  | tenureGrant (request : Nat)
  /-- An expired lease with a waiting conflicting request revokes the tenure (R325) -/
  | leaseRevoke (tenure : Nat)
  /-- The strings timer pulses every 2^(TIMER+5) cycles (R257) -/
  | stringsTimer (core : Nat)
  /-- The WFE wake target fires and sets every context's wake latch (R258) -/
  | wake (core : Nat)
  /-- The helper-start trigger fires and starts a helper from the descriptor (R259) -/
  | helperStartTrigger (core : Nat)
  /-- The dispatcher places the next fitting group on a block (R372) -/
  | groupPlacement (part : Nat)
  /-- A core's preload lands and its ctx0 starts with the group state (R373) -/
  | groupStart (core : Nat)
  /-- cr.tslice ticks after resume pass and REQ is set (R375) -/
  | tsliceExpiry (part : Nat)
  /-- At timestamp T the partition's cores stop and units settle (R376) -/
  | forcedSwitchStop (part : Nat)
  /-- Settling ends and the save image is written; the partition is SAVED (R377) -/
  | saveDone (part : Nat)
  /-- The image is restored, saved words re-injected and cores start together (R378) -/
  | restoreDone (part : Nat)
  /-- An uncorrectable soft error in core state stops the partition with reason 0 (R386) -/
  | softError (core : Nat)
  /-- Creates a partition over PRANGE and makes it RUNNING (R392) -/
  | create (part : Nat)
  /-- Switches a partition out at SWT or at once when halted (R392) -/
  | switch (part : Nat)
  /-- Restores a saved partition onto free clusters (R392) -/
  | resume (part : Nat)
  /-- Resumes a halted partition in place, optionally raising GANGSTOP (R392) -/
  | cont (part : Nat) (gs : Bool)
  /-- Ends every group and cancels launches of a partition (R392) -/
  | kill (part : Nat)
  /-- Frees an idle partition's clusters (R392) -/
  | destroy (part : Nat)
  /-- Starts the reserved fault-service context at S (R397) -/
  | svcstart (part : Nat)
  /-- Queues a launch from the PCB registers without a context (R393) -/
  | launch (part : Nat)
  /-- A write to an MMIO register that has no row of its own (R390) -/
  | registerWrite (pa : Nat) (value : BitVec 64)
  /-- DMCTL.HALTREQ stops all cores of the cluster (R296) -/
  | crossTriggerHalt (request : HaltRequest)
  /-- DMCTL.RESUME restarts every halted core of the cluster (R296) -/
  | debugResume (rank : Nat)
  /-- TURN.GO starts a turn and enters QUIESCE (R424) -/
  | kaleidoscopeTurn
  /-- Departing groups stop being issued to and the turn enters DRAIN (R424) -/
  | turnDrain
  /-- In-flight requests and write-backs finish and links retrain (R424) -/
  | turnRetrain
  /-- Arriving links are up or failed and far ranges and spraying sets are installed (R424) -/
  | turnMap (failed : BitVec 48)
  /-- MAP ends, personalities take effect and RESULT is reported (R425) -/
  | turnActive
  /-- An unanswered remote request is answered locally with poison at cr.fabto (R428) -/
  | fabricTimeout (req : Nat)
  /-- A target checks the export and access list and performs a peer request (R433) -/
  | peerRequest (src exp ra : Nat) (op : PeerOp) (value expected : BitVec 64)
  /-- An unanswered peer holder is severed and the write completes (R438) -/
  | fanoutTimeout (peer : Nat)
  /-- A SEVERED notice makes the package discard lines homed at that peer (R438) -/
  | severed (peer : Nat)
  /-- A FLUSHED answer clears the peer's severed bit at the home (R438) -/
  | flushed (peer : Nat)
  /-- A scale-out message lands in a receive ring or is refused (R444) -/
  | messageLanding (part job ring : Nat) (source : BitVec 128) (data : List (BitVec 8))
  /-- A host write through BAR4 is performed at the line's home (R423) -/
  | hostBar4Write (addr : HostAddress) (size : Nat) (value : BitVec 64)
  /-- A host read through BAR4 returns the value at the home (R423) -/
  | hostBar4Read (addr : HostAddress) (size : Nat)
  /-- A host mailbox write is performed and fires strings source 15 (R399) -/
  | mailboxHostWrite (vf offset size : Nat) (value : BitVec 64)
  /-- A VF function-level reset tears down its partition's fabric state (R439) -/
  | vfFlr (vf : Nat)
  /-- A dead source tag revives after 2 × cr.fabto (R439) -/
  | tagRevive (vf : Nat)
  /-- Each microsecond grants are recomputed and over-budget clusters throttled (R411) -/
  | powerGrantEpoch (used : List (Nat × List Nat)) (hot : List Nat)
  /-- The boot ROM verifies and measures the firmware image and starts it (R413) -/
  | boot (image : List (BitVec 8)) (signature : BitVec 3072)
  /-- A later firmware stage is verified and extended into a measurement register (R413) -/
  | stageVerify (image : List (BitVec 8)) (signature : BitVec 3072)
  /-- Writing REQ starts an attestation report (R414) -/
  | attestationRequest
  /-- The signed report is written to the buffer and REQ bit 1 clears (R414) -/
  | attestationReportReady
  /-- A token write is checked, may open debug, and draws a new UNONCE (R415) -/
  | debugUnlockToken (token : List (BitVec 8))
  /-- A cluster router accepts a port word from a core, counting it in cr.msgsent and freeing a context held by back-pressure (R263) -/
  | routerAccept (core ctx : Nat)
  /-- A scale-up or scale-out link fails outside a turn, clearing EGCTL.UP (R438) -/
  | linkDown (group : Nat)
  /-- A failed link comes back up so a home can next reach a severed peer and send it the SEVERED notice (R438) -/
  | linkUp (group : Nat)
  /-- An uncorrectable soft error in an LLC line or DRAM word makes the line's home mark it poisoned (R384) -/
  | llcDramSoftError (line : Nat)
deriving DecidableEq, Repr

end Sys2Proof
end

