-- ==== Sys2Proof/WellFormed.lean ====
section
/-!
DEFINITION. The limits of R38 on the fields of an instruction: what a word of a listed code must also meet to be an
instruction (R41, R53 to R60). An event of a unit has no word, and is not well-formed as an instruction word.
-/

namespace Sys2Proof

/-- Width in bits of an element type code (R49). -/
def tyWidth (t : BitVec 3) : Nat :=
  if t = 0 then 4 else if t = 1 ∨ t = 4 ∨ t = 5 then 8 else if t = 2 ∨ t = 6 then 16 else 32

/-- The type code is one of an integer type (R49). -/
def tyInt (t : BitVec 3) : Bool := t.toNat < 4

/-- How many lines VCVT writes: the ratio of the widths where the destination is wider (R172, R189). -/
def cvtRatio (t : BitVec 3) (b : Reg) : Nat :=
  max 1 (tyWidth (b.extractLsb' 0 3) / tyWidth t)

/-- The word's fields keep the limits of chapter 02 (R38). -/
def Instr.wf (i : Instr) : Bool :=
  match i with
  | .add _ _ _ _ => true
  | .sub _ _ _ _ => true
  | .and _ _ _ _ => true
  | .or _ _ _ _ => true
  | .xor _ _ _ _ => true
  | .andn _ _ _ _ => true
  | .shl _ _ _ _ => true
  | .shr _ _ _ _ => true
  | .sar _ _ _ _ => true
  | .rol _ _ _ _ => true
  | .ror _ _ _ _ => true
  | .slt _ _ _ _ => true
  | .sltu _ _ _ _ => true
  | .seq _ _ _ _ => true
  | .min _ _ _ _ => true
  | .max _ _ _ _ => true
  | .minu _ _ _ _ => true
  | .maxu _ _ _ _ => true
  | .mul _ _ _ _ => true
  | .mulh _ _ _ _ => true
  | .mulhu _ _ _ _ => true
  | .div _ _ _ _ => true
  | .divu _ _ _ _ => true
  | .rem _ _ _ _ => true
  | .remu _ _ _ _ => true
  | .clz _ _ _ => true
  | .ctz _ _ _ => true
  | .popc _ _ _ => true
  | .brev _ _ _ => true
  | .sextB _ _ _ => true
  | .sextH _ _ _ => true
  | .sextW _ _ _ => true
  | .zextW _ _ _ => true
  | .sel _ _ _ _ => true
  | .addw _ _ _ _ => true
  | .subw _ _ _ _ => true
  | .mulw _ _ _ _ => true
  | .addi _ _ _ _ => true
  | .andi _ _ _ _ => true
  | .ori _ _ _ _ => true
  | .xori _ _ _ _ => true
  | .slti _ _ _ _ => true
  | .sltiu _ _ _ _ => true
  | .shli _ _ _ _ => true
  | .shri _ _ _ _ => true
  | .sari _ _ _ _ => true
  | .roli _ _ _ _ => true
  | .lui _ _ _ => true
  | .adr _ _ _ => true
  | .extu _ _ p l _ => decide (p.toNat + l.toNat + 1 ≤ 64)
  | .exts _ _ p l _ => decide (p.toNat + l.toNat + 1 ≤ 64)
  | .ins _ _ p l _ => decide (p.toNat + l.toNat + 1 ≤ 64)
  | .fadd _ _ _ _ => true
  | .fsub _ _ _ _ => true
  | .fmul _ _ _ _ => true
  | .fma _ _ _ _ => true
  | .fnma _ _ _ _ => true
  | .fdiv _ _ _ _ => true
  | .fsqrt _ _ _ => true
  | .fmin _ _ _ _ => true
  | .fmax _ _ _ _ => true
  | .feq _ _ _ _ => true
  | .flt _ _ _ _ => true
  | .fle _ _ _ _ => true
  | .fclass _ _ _ => true
  | .fabs _ _ _ => true
  | .fneg _ _ _ => true
  | .cvtF32I64 _ _ _ => true
  | .cvtI64F32 _ _ _ => true
  | .cvtF32N64 _ _ _ => true
  | .cvtN64F32 _ _ _ => true
  | .cvtBf16F32 _ _ _ => true
  | .cvtF32Bf16 _ _ _ => true
  | .cvtE4m3F32 _ _ _ => true
  | .cvtF32E4m3 _ _ _ => true
  | .cvtE5m2F32 _ _ _ => true
  | .cvtF32E5m2 _ _ _ => true
  | .frnd _ _ _ => true
  | .beq _ _ _ _ => true
  | .bne _ _ _ _ => true
  | .blt _ _ _ _ => true
  | .bge _ _ _ _ => true
  | .bltu _ _ _ _ => true
  | .bgeu _ _ _ _ => true
  | .j _ _ => true
  | .call _ _ => true
  | .jr _ _ => true
  | .jalr _ _ _ => true
  | .callr _ _ => true
  | .ret _ => true
  | .fjmp _ _ => true
  | .ld _ _ _ _ _ _ => true
  | .ldu _ _ _ s _ _ => s != 3
  | .st _ _ _ _ _ _ => true
  | .lda _ _ _ _ _ => true
  | .strl _ _ _ _ _ => true
  | .swap _ _ _ _ _ _ => true
  | .cas _ _ _ _ _ _ => true
  | .atadd _ _ _ _ _ _ => true
  | .atand _ _ _ _ _ _ => true
  | .ator _ _ _ _ _ _ => true
  | .atxor _ _ _ _ _ _ => true
  | .atmin _ _ _ _ _ _ => true
  | .atmax _ _ _ _ _ _ => true
  | .atminn _ _ _ _ _ _ => true
  | .atmaxn _ _ _ _ _ _ => true
  | .atfadd _ _ _ _ _ => true
  | .atfmax _ _ _ _ _ => true
  | .ataddnr _ _ _ _ _ => true
  | .sti _ _ _ _ _ _ _ => true
  | .fenceFull a b _ g _ => (g == 1 || (a == 0 && b == 0))
  | .fenceAcq a b _ g _ => (g == 1 || (a == 0 && b == 0))
  | .fenceRel a b _ g _ => (g == 1 || (a == 0 && b == 0))
  | .fenceEng _ => true
  | .vwpin _ _ _ => true
  | .vwset _ _ _ _ => true
  | .vwclr _ _ _ => true
  | .vwget _ _ _ => true
  | .tlbiL _ _ => true
  | .tlbiB _ _ _ => true
  | .publish _ _ => true
  | .probe _ _ _ => true
  | .tileOpen _ _ _ => true
  | .tileClose _ _ _ => true
  | .tenR _ _ => true
  | .tenW _ _ => true
  | .tenTryr _ _ _ => true
  | .tenTryw _ _ _ => true
  | .tenRel _ _ _ => true
  | .tenDown _ _ => true
  | .tileSplit d _ _ _ => decide (2 ≤ d.toNat) && decide (d.toNat ≤ 25)
  | .tileQry _ _ _ => true
  | .vld _ _ _ => true
  | .vst _ _ _ => true
  | .vlds _ _ _ t _ => (t == 1 || t == 2 || t == 3)
  | .vsts _ _ _ t _ => (t == 1 || t == 2 || t == 3)
  | .vgath _ _ _ t _ => (t == 1 || t == 2 || t == 3)
  | .vscat _ _ _ t _ => (t == 1 || t == 2 || t == 3)
  | .vadd _ _ _ t _ => tyInt t
  | .vsub _ _ _ t _ => tyInt t
  | .vmul _ _ _ t _ => tyInt t
  | .vmulh _ _ _ t _ => tyInt t
  | .vmin _ _ _ t _ => tyInt t
  | .vmax _ _ _ t _ => tyInt t
  | .vminu _ _ _ t _ => tyInt t
  | .vmaxu _ _ _ t _ => tyInt t
  | .vadds _ _ _ t _ => tyInt t
  | .vsubs _ _ _ t _ => tyInt t
  | .vaddsn _ _ _ t _ => tyInt t
  | .vabs _ _ t _ => tyInt t
  | .vneg _ _ t _ => tyInt t
  | .vmac _ _ _ t _ => tyInt t
  | .vwmul d _ _ t _ => (t == 0 || t == 1 || t == 2) && decide (d.toNat + 1 ≤ 31)
  | .vwmac d _ _ t _ => (t == 0 || t == 1 || t == 2) && decide (d.toNat + 1 ≤ 31)
  | .vdot4 d _ _ t _ => (t == 0 || t == 1) && (t != 0 || decide (d.toNat + 1 ≤ 31))
  | .vfadd _ _ _ t _ => !tyInt t
  | .vfsub _ _ _ t _ => !tyInt t
  | .vfmul _ _ _ t _ => !tyInt t
  | .vfma _ _ _ t _ => !tyInt t
  | .vfnma _ _ _ t _ => !tyInt t
  | .vfmin _ _ _ t _ => !tyInt t
  | .vfmax _ _ _ t _ => !tyInt t
  | .vfabs _ _ t _ => !tyInt t
  | .vfneg _ _ t _ => !tyInt t
  | .vfwmul d _ _ t _ => (t == 4 || t == 5 || t == 6) && decide (d.toNat + 1 ≤ 31)
  | .vfwma d _ _ t _ => (t == 4 || t == 5 || t == 6) && decide (d.toNat + 1 ≤ 31)
  | .vfexp2 _ _ t _ => !tyInt t
  | .vflog2 _ _ t _ => !tyInt t
  | .vfrcp _ _ t _ => !tyInt t
  | .vfrsq _ _ t _ => !tyInt t
  | .vand _ _ _ _ _ => true
  | .vor _ _ _ _ _ => true
  | .vxor _ _ _ _ _ => true
  | .vandn _ _ _ _ _ => true
  | .vshl _ _ _ t _ => tyInt t
  | .vshr _ _ _ t _ => tyInt t
  | .vsar _ _ _ t _ => tyInt t
  | .vcmpeq d _ _ t _ => tyInt t && decide (d.toNat < 4)
  | .vcmplt d _ _ t _ => tyInt t && decide (d.toNat < 4)
  | .vcmple d _ _ t _ => tyInt t && decide (d.toNat < 4)
  | .vcmpltn d _ _ t _ => tyInt t && decide (d.toNat < 4)
  | .vfcmpeq d _ _ t _ => !tyInt t && decide (d.toNat < 4)
  | .vfcmplt d _ _ t _ => !tyInt t && decide (d.toNat < 4)
  | .vfcmple d _ _ t _ => !tyInt t && decide (d.toNat < 4)
  | .vsel _ _ _ _ _ => true
  | .vmand d a b _ _ => decide (d.toNat < 4) && decide (a.toNat < 4) && decide (b.toNat < 4)
  | .vmor d a b _ _ => decide (d.toNat < 4) && decide (a.toNat < 4) && decide (b.toNat < 4)
  | .vmxor d a b _ _ => decide (d.toNat < 4) && decide (a.toNat < 4) && decide (b.toNat < 4)
  | .vmnot d a _ _ => decide (d.toNat < 4) && decide (a.toNat < 4)
  | .vmpop _ a _ _ => decide (a.toNat < 4)
  | .vmfirst _ a _ _ => decide (a.toNat < 4)
  | .vmset d _ _ _ => decide (d.toNat < 4)
  | .vcvt d _ b t _ => b.extractLsb' 3 2 != 3 && decide (d.toNat + cvtRatio t b ≤ 32)
  | .vqo4 _ _ _ t _ => (t == 1 || t == 6 || t == 7)
  | .vdqo4 _ _ _ t _ => (t == 6 || t == 7)
  | .vrsum _ _ _ _ => true
  | .vrmax _ _ _ _ => true
  | .vrmin _ _ _ _ => true
  | .vramax _ _ _ _ => true
  | .vdot _ _ _ _ _ => true
  | .vbcast _ _ _ _ => true
  | .vmov _ _ _ _ => true
  | .vperm _ _ _ _ _ => true
  | .vslide _ _ _ _ _ => true
  | .vext _ _ _ _ _ => true
  | .vins _ _ _ _ _ => true
  | .vhad _ _ b t _ => (t == 6 || t == 7) && decide (b.toNat ≤ 2)
  | .viota _ _ _ => true
  | .vzip _ _ _ _ _ => true
  | .vunzip _ _ _ _ _ => true
  | .accRd _ a _ => decide (a.toNat < 8)
  | .accWr d _ _ => decide (d.toNat < 8)
  | .accClr d _ => decide (d.toNat < 8)
  | .mwait _ _ => true
  | .mstat _ _ => true
  | .rpt c i _ _ _ _ _ _ => (c == 0 || i == 0)
  | .xsend _ _ _ _ => true
  | .xwait _ _ => true
  | .xstat _ _ _ _ => true
  | .hstart _ _ _ _ => true
  | .hstartNb _ _ _ _ => true
  | .hexit _ => true
  | .hjoin _ _ _ => true
  | .hstat _ _ _ => true
  | .yield _ => true
  | .hkill _ _ => true
  | .trForm _ _ _ => true
  | .trBreak _ => true
  | .trDetach _ => true
  | .trRejoin _ => true
  | .trStat _ _ => true
  | .sync _ _ => true
  | .djoin _ _ _ => true
  | .dleave _ _ => true
  | .dqry _ _ _ => true
  | .bar _ _ => true
  | .cfetch _ _ _ => true
  | .cwait _ _ => true
  | .cstat _ _ _ => true
  | .cevict _ _ => true
  | .evwait _ _ => true
  | .evsig _ _ => true
  | .evrd _ _ _ => true
  | .evclr _ _ => true
  | .wfe _ => true
  | .crr _ _ _ => true
  | .crw _ _ _ _ => true
  | .crset _ _ _ _ => true
  | .crclr _ _ _ _ => true
  | .trap _ _ => true
  | .sysc _ => true
  | .hcall _ => true
  | .eret _ => true
  | .bkpt _ => true
  | .halt _ => true
  | .tsread _ _ => true
  | .gexit _ => true
  | .cntrd _ _ _ => true
  | .gang _ => true
  | .rpop _ _ => true
  | .rfix _ _ _ => true
  | .rreplay _ _ => true
  | .rkill _ _ => true
  | .vamoF32 _ _ _ => true
  | .vamoBf16 _ _ _ => true
  | .vamoI32 _ _ _ => true
  | .lnch _ _ _ => true
  | .lwait _ _ => true
  | .lqry _ _ _ => true
  | .lcancel _ _ _ => true
  | .qpeek _ _ _ => true
  | .qclr _ _ => true
  | .qstat _ _ _ => true
  | .pset _ _ _ => true
  | .pget _ _ _ => true
  | .padd _ _ _ _ => true
  | .paddi _ _ _ _ => true
  | .fixedResultVisible _ _ => false
  | .variableResultWrite _ _ => false
  | .fpexcTrap _ _ => false
  | .deferredTrap _ _ => false
  | .segmentFetchDone _ _ => false
  | .vectorPassBind _ => false
  | .scratchpadResize _ => false
  | .plane _ _ => false
  | .mma _ _ => false
  | .mmaR _ _ => false
  | .had _ _ => false
  | .drain _ => false
  | .zero _ => false
  | .mark _ => false
  | .matrixCommandDone _ => false
  | .copy _ _ _ => false
  | .fill _ _ _ => false
  | .allreduce _ _ => false
  | .reducescatter _ _ => false
  | .allgather _ _ => false
  | .abort _ _ => false
  | .engineCommandDone _ _ => false
  | .portWordArrival _ => false
  | .forwardedInstruction _ => false
  | .trFormTimeout _ => false
  | .troupehang _ => false
  | .syncDone _ => false
  | .homeRequest _ => false
  | .pushArrival _ => false
  | .tLineExpiry _ _ => false
  | .memoryResponse _ _ _ => false
  | .farHomeRequest _ => false
  | .farInvalidationAck _ _ => false
  | .replicaUpdate _ => false
  | .tenureGrant _ => false
  | .leaseRevoke _ => false
  | .stringsTimer _ => false
  | .wake _ => false
  | .helperStartTrigger _ => false
  | .groupPlacement _ => false
  | .groupStart _ => false
  | .tsliceExpiry _ => false
  | .forcedSwitchStop _ => false
  | .saveDone _ => false
  | .restoreDone _ => false
  | .softError _ => false
  | .create _ => false
  | .switch _ => false
  | .resume _ => false
  | .cont _ _ => false
  | .kill _ => false
  | .destroy _ => false
  | .svcstart _ => false
  | .launch _ => false
  | .registerWrite _ _ => false
  | .crossTriggerHalt _ => false
  | .debugResume _ => false
  | .kaleidoscopeTurn => false
  | .turnDrain => false
  | .turnRetrain => false
  | .turnMap _ => false
  | .turnActive => false
  | .fabricTimeout _ => false
  | .peerRequest _ _ _ _ _ _ => false
  | .fanoutTimeout _ => false
  | .severed _ => false
  | .flushed _ => false
  | .messageLanding _ _ _ _ _ => false
  | .hostBar4Write _ _ _ => false
  | .hostBar4Read _ _ => false
  | .mailboxHostWrite _ _ _ _ => false
  | .vfFlr _ => false
  | .tagRevive _ => false
  | .powerGrantEpoch _ _ => false
  | .boot _ _ => false
  | .stageVerify _ _ => false
  | .attestationRequest => false
  | .attestationReportReady => false
  | .debugUnlockToken _ => false
  | .routerAccept _ _ => false
  | .linkDown _ => false
  | .linkUp _ => false
  | .llcDramSoftError _ => false

end Sys2Proof
end

