-- ==== Sys2Proof/Decode.lean ====
section
/-!
DEFINITION. The encodings of chapter 02 in both directions: the layouts of R39 and R60 as words of their fields, `encode`,
and `decode`, which is total on words and names why it rejects one (R38). Both are written from the same field and
function codes (R53 to R60). `decodeTableWord` is the decoder on a word numbered as the opcode table numbers it.
-/

namespace Sys2Proof

noncomputable section

/-- Why a word is no instruction (R38). -/
inductive Reject where
  /-- The major opcode is 0x00 or 0x2E–0x3F. -/
  | major
  /-- The function, op or cond code is not listed for its major. -/
  | code
  /-- A reserved or must-be-zero field is not zero. -/
  | reserved
  /-- A field holds a value outside its limits. -/
  | limit
deriving DecidableEq, Repr

/-- The n bits of a word from bit lo up. -/
def fld (lo n : Nat) (v : IWord) : BitVec n := v.extractLsb' lo n

theorem extract_cast {m n : Nat} (h : m = n) (x : BitVec m) (s l : Nat) :
    (x.cast h).extractLsb' s l = x.extractLsb' s l := by
  subst h; rfl

/-- A word of layout R: maj [31:26], d [25:21], a [20:16], b [15:11], fn [10:3], w [2:0]. -/
def layR (maj : BitVec 6) (d : BitVec 5) (a : BitVec 5) (b : BitVec 5) (fn : BitVec 8) (w : BitVec 3) : IWord :=
  (maj ++ d ++ a ++ b ++ fn ++ w).cast rfl

theorem layR_fields (maj : BitVec 6) (d : BitVec 5) (a : BitVec 5) (b : BitVec 5) (fn : BitVec 8) (w : BitVec 3) :
    fld 26 6 (layR maj d a b fn w) = maj ∧
    fld 21 5 (layR maj d a b fn w) = d ∧
    fld 16 5 (layR maj d a b fn w) = a ∧
    fld 11 5 (layR maj d a b fn w) = b ∧
    fld 3 8 (layR maj d a b fn w) = fn ∧
    fld 0 3 (layR maj d a b fn w) = w := by
  unfold fld layR
  refine ⟨?_, ?_, ?_, ?_, ?_, ?_⟩ <;>
  (rw [extract_cast]
   repeat (first | rw [BitVec.extractLsb'_append_eq_of_le (by decide)] | rw [BitVec.extractLsb'_append_eq_of_add_le (by decide)])
   simp)

/-- A word of layout I: maj [31:26], d [25:21], a [20:16], imm [15:3], w [2:0]. -/
def layI (maj : BitVec 6) (d : BitVec 5) (a : BitVec 5) (imm : BitVec 13) (w : BitVec 3) : IWord :=
  (maj ++ d ++ a ++ imm ++ w).cast rfl

theorem layI_fields (maj : BitVec 6) (d : BitVec 5) (a : BitVec 5) (imm : BitVec 13) (w : BitVec 3) :
    fld 26 6 (layI maj d a imm w) = maj ∧
    fld 21 5 (layI maj d a imm w) = d ∧
    fld 16 5 (layI maj d a imm w) = a ∧
    fld 3 13 (layI maj d a imm w) = imm ∧
    fld 0 3 (layI maj d a imm w) = w := by
  unfold fld layI
  refine ⟨?_, ?_, ?_, ?_, ?_⟩ <;>
  (rw [extract_cast]
   repeat (first | rw [BitVec.extractLsb'_append_eq_of_le (by decide)] | rw [BitVec.extractLsb'_append_eq_of_add_le (by decide)])
   simp)

/-- A word of layout Shi: maj [31:26], d [25:21], a [20:16], sel [15:14], z [13:9], n [8:3], w [2:0]. -/
def layShi (maj : BitVec 6) (d : BitVec 5) (a : BitVec 5) (sel : BitVec 2) (z : BitVec 5) (n : BitVec 6) (w : BitVec 3) : IWord :=
  (maj ++ d ++ a ++ sel ++ z ++ n ++ w).cast rfl

theorem layShi_fields (maj : BitVec 6) (d : BitVec 5) (a : BitVec 5) (sel : BitVec 2) (z : BitVec 5) (n : BitVec 6) (w : BitVec 3) :
    fld 26 6 (layShi maj d a sel z n w) = maj ∧
    fld 21 5 (layShi maj d a sel z n w) = d ∧
    fld 16 5 (layShi maj d a sel z n w) = a ∧
    fld 14 2 (layShi maj d a sel z n w) = sel ∧
    fld 9 5 (layShi maj d a sel z n w) = z ∧
    fld 3 6 (layShi maj d a sel z n w) = n ∧
    fld 0 3 (layShi maj d a sel z n w) = w := by
  unfold fld layShi
  refine ⟨?_, ?_, ?_, ?_, ?_, ?_, ?_⟩ <;>
  (rw [extract_cast]
   repeat (first | rw [BitVec.extractLsb'_append_eq_of_le (by decide)] | rw [BitVec.extractLsb'_append_eq_of_add_le (by decide)])
   simp)

/-- A word of layout Bitf: maj [31:26], d [25:21], a [20:16], sel [15:14], pos [13:8], len [7:3], w [2:0]. -/
def layBitf (maj : BitVec 6) (d : BitVec 5) (a : BitVec 5) (sel : BitVec 2) (pos : BitVec 6) (len : BitVec 5) (w : BitVec 3) : IWord :=
  (maj ++ d ++ a ++ sel ++ pos ++ len ++ w).cast rfl

theorem layBitf_fields (maj : BitVec 6) (d : BitVec 5) (a : BitVec 5) (sel : BitVec 2) (pos : BitVec 6) (len : BitVec 5) (w : BitVec 3) :
    fld 26 6 (layBitf maj d a sel pos len w) = maj ∧
    fld 21 5 (layBitf maj d a sel pos len w) = d ∧
    fld 16 5 (layBitf maj d a sel pos len w) = a ∧
    fld 14 2 (layBitf maj d a sel pos len w) = sel ∧
    fld 8 6 (layBitf maj d a sel pos len w) = pos ∧
    fld 3 5 (layBitf maj d a sel pos len w) = len ∧
    fld 0 3 (layBitf maj d a sel pos len w) = w := by
  unfold fld layBitf
  refine ⟨?_, ?_, ?_, ?_, ?_, ?_, ?_⟩ <;>
  (rw [extract_cast]
   repeat (first | rw [BitVec.extractLsb'_append_eq_of_le (by decide)] | rw [BitVec.extractLsb'_append_eq_of_add_le (by decide)])
   simp)

/-- A word of layout U: maj [31:26], d [25:21], imm [20:3], w [2:0]. -/
def layU (maj : BitVec 6) (d : BitVec 5) (imm : BitVec 18) (w : BitVec 3) : IWord :=
  (maj ++ d ++ imm ++ w).cast rfl

theorem layU_fields (maj : BitVec 6) (d : BitVec 5) (imm : BitVec 18) (w : BitVec 3) :
    fld 26 6 (layU maj d imm w) = maj ∧
    fld 21 5 (layU maj d imm w) = d ∧
    fld 3 18 (layU maj d imm w) = imm ∧
    fld 0 3 (layU maj d imm w) = w := by
  unfold fld layU
  refine ⟨?_, ?_, ?_, ?_⟩ <;>
  (rw [extract_cast]
   repeat (first | rw [BitVec.extractLsb'_append_eq_of_le (by decide)] | rw [BitVec.extractLsb'_append_eq_of_add_le (by decide)])
   simp)

/-- A word of layout B: maj [31:26], a [25:21], b [20:16], cond [15:13], off [12:3], w [2:0]. -/
def layB (maj : BitVec 6) (a : BitVec 5) (b : BitVec 5) (cond : BitVec 3) (off : BitVec 10) (w : BitVec 3) : IWord :=
  (maj ++ a ++ b ++ cond ++ off ++ w).cast rfl

theorem layB_fields (maj : BitVec 6) (a : BitVec 5) (b : BitVec 5) (cond : BitVec 3) (off : BitVec 10) (w : BitVec 3) :
    fld 26 6 (layB maj a b cond off w) = maj ∧
    fld 21 5 (layB maj a b cond off w) = a ∧
    fld 16 5 (layB maj a b cond off w) = b ∧
    fld 13 3 (layB maj a b cond off w) = cond ∧
    fld 3 10 (layB maj a b cond off w) = off ∧
    fld 0 3 (layB maj a b cond off w) = w := by
  unfold fld layB
  refine ⟨?_, ?_, ?_, ?_, ?_, ?_⟩ <;>
  (rw [extract_cast]
   repeat (first | rw [BitVec.extractLsb'_append_eq_of_le (by decide)] | rw [BitVec.extractLsb'_append_eq_of_add_le (by decide)])
   simp)

/-- A word of layout J: maj [31:26], off [25:3], w [2:0]. -/
def layJ (maj : BitVec 6) (off : BitVec 23) (w : BitVec 3) : IWord :=
  (maj ++ off ++ w).cast rfl

theorem layJ_fields (maj : BitVec 6) (off : BitVec 23) (w : BitVec 3) :
    fld 26 6 (layJ maj off w) = maj ∧
    fld 3 23 (layJ maj off w) = off ∧
    fld 0 3 (layJ maj off w) = w := by
  unfold fld layJ
  refine ⟨?_, ?_, ?_⟩ <;>
  (rw [extract_cast]
   repeat (first | rw [BitVec.extractLsb'_append_eq_of_le (by decide)] | rw [BitVec.extractLsb'_append_eq_of_add_le (by decide)])
   simp)

/-- A word of layout M: maj [31:26], d [25:21], a [20:16], off [15:7], sz [6:5], rt [4:3], w [2:0]. -/
def layM (maj : BitVec 6) (d : BitVec 5) (a : BitVec 5) (off : BitVec 9) (sz : BitVec 2) (rt : BitVec 2) (w : BitVec 3) : IWord :=
  (maj ++ d ++ a ++ off ++ sz ++ rt ++ w).cast rfl

theorem layM_fields (maj : BitVec 6) (d : BitVec 5) (a : BitVec 5) (off : BitVec 9) (sz : BitVec 2) (rt : BitVec 2) (w : BitVec 3) :
    fld 26 6 (layM maj d a off sz rt w) = maj ∧
    fld 21 5 (layM maj d a off sz rt w) = d ∧
    fld 16 5 (layM maj d a off sz rt w) = a ∧
    fld 7 9 (layM maj d a off sz rt w) = off ∧
    fld 5 2 (layM maj d a off sz rt w) = sz ∧
    fld 3 2 (layM maj d a off sz rt w) = rt ∧
    fld 0 3 (layM maj d a off sz rt w) = w := by
  unfold fld layM
  refine ⟨?_, ?_, ?_, ?_, ?_, ?_, ?_⟩ <;>
  (rw [extract_cast]
   repeat (first | rw [BitVec.extractLsb'_append_eq_of_le (by decide)] | rw [BitVec.extractLsb'_append_eq_of_add_le (by decide)])
   simp)

/-- A word of layout A: maj [31:26], d [25:21], a [20:16], b [15:11], op [10:7], scope [6:4], sz [3:3], w [2:0]. -/
def layA (maj : BitVec 6) (d : BitVec 5) (a : BitVec 5) (b : BitVec 5) (op : BitVec 4) (scope : BitVec 3) (sz : BitVec 1) (w : BitVec 3) : IWord :=
  (maj ++ d ++ a ++ b ++ op ++ scope ++ sz ++ w).cast rfl

theorem layA_fields (maj : BitVec 6) (d : BitVec 5) (a : BitVec 5) (b : BitVec 5) (op : BitVec 4) (scope : BitVec 3) (sz : BitVec 1) (w : BitVec 3) :
    fld 26 6 (layA maj d a b op scope sz w) = maj ∧
    fld 21 5 (layA maj d a b op scope sz w) = d ∧
    fld 16 5 (layA maj d a b op scope sz w) = a ∧
    fld 11 5 (layA maj d a b op scope sz w) = b ∧
    fld 7 4 (layA maj d a b op scope sz w) = op ∧
    fld 4 3 (layA maj d a b op scope sz w) = scope ∧
    fld 3 1 (layA maj d a b op scope sz w) = sz ∧
    fld 0 3 (layA maj d a b op scope sz w) = w := by
  unfold fld layA
  refine ⟨?_, ?_, ?_, ?_, ?_, ?_, ?_, ?_⟩ <;>
  (rw [extract_cast]
   repeat (first | rw [BitVec.extractLsb'_append_eq_of_le (by decide)] | rw [BitVec.extractLsb'_append_eq_of_add_le (by decide)])
   simp)

/-- A word of layout V: maj [31:26], d [25:21], a [20:16], b [15:11], ty [10:8], fn [7:3], w [2:0]. -/
def layV (maj : BitVec 6) (d : BitVec 5) (a : BitVec 5) (b : BitVec 5) (ty : BitVec 3) (fn : BitVec 5) (w : BitVec 3) : IWord :=
  (maj ++ d ++ a ++ b ++ ty ++ fn ++ w).cast rfl

theorem layV_fields (maj : BitVec 6) (d : BitVec 5) (a : BitVec 5) (b : BitVec 5) (ty : BitVec 3) (fn : BitVec 5) (w : BitVec 3) :
    fld 26 6 (layV maj d a b ty fn w) = maj ∧
    fld 21 5 (layV maj d a b ty fn w) = d ∧
    fld 16 5 (layV maj d a b ty fn w) = a ∧
    fld 11 5 (layV maj d a b ty fn w) = b ∧
    fld 8 3 (layV maj d a b ty fn w) = ty ∧
    fld 3 5 (layV maj d a b ty fn w) = fn ∧
    fld 0 3 (layV maj d a b ty fn w) = w := by
  unfold fld layV
  refine ⟨?_, ?_, ?_, ?_, ?_, ?_, ?_⟩ <;>
  (rw [extract_cast]
   repeat (first | rw [BitVec.extractLsb'_append_eq_of_le (by decide)] | rw [BitVec.extractLsb'_append_eq_of_add_le (by decide)])
   simp)

/-- A word of layout S: maj [31:26], d [25:21], a [20:16], csr [15:5], op [4:3], w [2:0]. -/
def layS (maj : BitVec 6) (d : BitVec 5) (a : BitVec 5) (csr : BitVec 11) (op : BitVec 2) (w : BitVec 3) : IWord :=
  (maj ++ d ++ a ++ csr ++ op ++ w).cast rfl

theorem layS_fields (maj : BitVec 6) (d : BitVec 5) (a : BitVec 5) (csr : BitVec 11) (op : BitVec 2) (w : BitVec 3) :
    fld 26 6 (layS maj d a csr op w) = maj ∧
    fld 21 5 (layS maj d a csr op w) = d ∧
    fld 16 5 (layS maj d a csr op w) = a ∧
    fld 5 11 (layS maj d a csr op w) = csr ∧
    fld 3 2 (layS maj d a csr op w) = op ∧
    fld 0 3 (layS maj d a csr op w) = w := by
  unfold fld layS
  refine ⟨?_, ?_, ?_, ?_, ?_, ?_⟩ <;>
  (rw [extract_cast]
   repeat (first | rw [BitVec.extractLsb'_append_eq_of_le (by decide)] | rw [BitVec.extractLsb'_append_eq_of_add_le (by decide)])
   simp)

/-- A word of layout Rpt: maj [31:26], c [25:21], icount [20:15], len [14:11], sd [10:10], sa [9:9], sb [8:8], stride [7:6], z [5:3], w [2:0]. -/
def layRpt (maj : BitVec 6) (c : BitVec 5) (icount : BitVec 6) (len : BitVec 4) (sd : BitVec 1) (sa : BitVec 1) (sb : BitVec 1) (stride : BitVec 2) (z : BitVec 3) (w : BitVec 3) : IWord :=
  (maj ++ c ++ icount ++ len ++ sd ++ sa ++ sb ++ stride ++ z ++ w).cast rfl

theorem layRpt_fields (maj : BitVec 6) (c : BitVec 5) (icount : BitVec 6) (len : BitVec 4) (sd : BitVec 1) (sa : BitVec 1) (sb : BitVec 1) (stride : BitVec 2) (z : BitVec 3) (w : BitVec 3) :
    fld 26 6 (layRpt maj c icount len sd sa sb stride z w) = maj ∧
    fld 21 5 (layRpt maj c icount len sd sa sb stride z w) = c ∧
    fld 15 6 (layRpt maj c icount len sd sa sb stride z w) = icount ∧
    fld 11 4 (layRpt maj c icount len sd sa sb stride z w) = len ∧
    fld 10 1 (layRpt maj c icount len sd sa sb stride z w) = sd ∧
    fld 9 1 (layRpt maj c icount len sd sa sb stride z w) = sa ∧
    fld 8 1 (layRpt maj c icount len sd sa sb stride z w) = sb ∧
    fld 6 2 (layRpt maj c icount len sd sa sb stride z w) = stride ∧
    fld 3 3 (layRpt maj c icount len sd sa sb stride z w) = z ∧
    fld 0 3 (layRpt maj c icount len sd sa sb stride z w) = w := by
  unfold fld layRpt
  refine ⟨?_, ?_, ?_, ?_, ?_, ?_, ?_, ?_, ?_, ?_⟩ <;>
  (rw [extract_cast]
   repeat (first | rw [BitVec.extractLsb'_append_eq_of_le (by decide)] | rw [BitVec.extractLsb'_append_eq_of_add_le (by decide)])
   simp)

/-- A word of layout Sti: maj [31:26], d [25:21], a [20:16], b [15:11], sz [10:9], set [8:8], rep [7:7], z [6:3], w [2:0]. -/
def laySti (maj : BitVec 6) (d : BitVec 5) (a : BitVec 5) (b : BitVec 5) (sz : BitVec 2) (set : BitVec 1) (rep : BitVec 1) (z : BitVec 4) (w : BitVec 3) : IWord :=
  (maj ++ d ++ a ++ b ++ sz ++ set ++ rep ++ z ++ w).cast rfl

theorem laySti_fields (maj : BitVec 6) (d : BitVec 5) (a : BitVec 5) (b : BitVec 5) (sz : BitVec 2) (set : BitVec 1) (rep : BitVec 1) (z : BitVec 4) (w : BitVec 3) :
    fld 26 6 (laySti maj d a b sz set rep z w) = maj ∧
    fld 21 5 (laySti maj d a b sz set rep z w) = d ∧
    fld 16 5 (laySti maj d a b sz set rep z w) = a ∧
    fld 11 5 (laySti maj d a b sz set rep z w) = b ∧
    fld 9 2 (laySti maj d a b sz set rep z w) = sz ∧
    fld 8 1 (laySti maj d a b sz set rep z w) = set ∧
    fld 7 1 (laySti maj d a b sz set rep z w) = rep ∧
    fld 3 4 (laySti maj d a b sz set rep z w) = z ∧
    fld 0 3 (laySti maj d a b sz set rep z w) = w := by
  unfold fld laySti
  refine ⟨?_, ?_, ?_, ?_, ?_, ?_, ?_, ?_, ?_⟩ <;>
  (rw [extract_cast]
   repeat (first | rw [BitVec.extractLsb'_append_eq_of_le (by decide)] | rw [BitVec.extractLsb'_append_eq_of_add_le (by decide)])
   simp)

/-- A word of layout Fence: maj [31:26], d [25:21], a [20:16], b [15:11], scope [10:8], kind [7:6], rng [5:5], z [4:3], w [2:0]. -/
def layFence (maj : BitVec 6) (d : BitVec 5) (a : BitVec 5) (b : BitVec 5) (scope : BitVec 3) (kind : BitVec 2) (rng : BitVec 1) (z : BitVec 2) (w : BitVec 3) : IWord :=
  (maj ++ d ++ a ++ b ++ scope ++ kind ++ rng ++ z ++ w).cast rfl

theorem layFence_fields (maj : BitVec 6) (d : BitVec 5) (a : BitVec 5) (b : BitVec 5) (scope : BitVec 3) (kind : BitVec 2) (rng : BitVec 1) (z : BitVec 2) (w : BitVec 3) :
    fld 26 6 (layFence maj d a b scope kind rng z w) = maj ∧
    fld 21 5 (layFence maj d a b scope kind rng z w) = d ∧
    fld 16 5 (layFence maj d a b scope kind rng z w) = a ∧
    fld 11 5 (layFence maj d a b scope kind rng z w) = b ∧
    fld 8 3 (layFence maj d a b scope kind rng z w) = scope ∧
    fld 6 2 (layFence maj d a b scope kind rng z w) = kind ∧
    fld 5 1 (layFence maj d a b scope kind rng z w) = rng ∧
    fld 3 2 (layFence maj d a b scope kind rng z w) = z ∧
    fld 0 3 (layFence maj d a b scope kind rng z w) = w := by
  unfold fld layFence
  refine ⟨?_, ?_, ?_, ?_, ?_, ?_, ?_, ?_, ?_⟩ <;>
  (rw [extract_cast]
   repeat (first | rw [BitVec.extractLsb'_append_eq_of_le (by decide)] | rw [BitVec.extractLsb'_append_eq_of_add_le (by decide)])
   simp)

/-- A word of layout Sync: maj [31:26], d [25:21], a [20:16], b [15:11], op [10:8], lev [7:6], z [5:3], w [2:0]. -/
def laySync (maj : BitVec 6) (d : BitVec 5) (a : BitVec 5) (b : BitVec 5) (op : BitVec 3) (lev : BitVec 2) (z : BitVec 3) (w : BitVec 3) : IWord :=
  (maj ++ d ++ a ++ b ++ op ++ lev ++ z ++ w).cast rfl

theorem laySync_fields (maj : BitVec 6) (d : BitVec 5) (a : BitVec 5) (b : BitVec 5) (op : BitVec 3) (lev : BitVec 2) (z : BitVec 3) (w : BitVec 3) :
    fld 26 6 (laySync maj d a b op lev z w) = maj ∧
    fld 21 5 (laySync maj d a b op lev z w) = d ∧
    fld 16 5 (laySync maj d a b op lev z w) = a ∧
    fld 11 5 (laySync maj d a b op lev z w) = b ∧
    fld 8 3 (laySync maj d a b op lev z w) = op ∧
    fld 6 2 (laySync maj d a b op lev z w) = lev ∧
    fld 3 3 (laySync maj d a b op lev z w) = z ∧
    fld 0 3 (laySync maj d a b op lev z w) = w := by
  unfold fld laySync
  refine ⟨?_, ?_, ?_, ?_, ?_, ?_, ?_, ?_⟩ <;>
  (rw [extract_cast]
   repeat (first | rw [BitVec.extractLsb'_append_eq_of_le (by decide)] | rw [BitVec.extractLsb'_append_eq_of_add_le (by decide)])
   simp)

/-- A word of layout Port: maj [31:26], d [25:21], hi [20:18], q [17:16], b [15:11], fn [10:3], w [2:0]. -/
def layPort (maj : BitVec 6) (d : BitVec 5) (hi : BitVec 3) (q : BitVec 2) (b : BitVec 5) (fn : BitVec 8) (w : BitVec 3) : IWord :=
  (maj ++ d ++ hi ++ q ++ b ++ fn ++ w).cast rfl

theorem layPort_fields (maj : BitVec 6) (d : BitVec 5) (hi : BitVec 3) (q : BitVec 2) (b : BitVec 5) (fn : BitVec 8) (w : BitVec 3) :
    fld 26 6 (layPort maj d hi q b fn w) = maj ∧
    fld 21 5 (layPort maj d hi q b fn w) = d ∧
    fld 18 3 (layPort maj d hi q b fn w) = hi ∧
    fld 16 2 (layPort maj d hi q b fn w) = q ∧
    fld 11 5 (layPort maj d hi q b fn w) = b ∧
    fld 3 8 (layPort maj d hi q b fn w) = fn ∧
    fld 0 3 (layPort maj d hi q b fn w) = w := by
  unfold fld layPort
  refine ⟨?_, ?_, ?_, ?_, ?_, ?_, ?_⟩ <;>
  (rw [extract_cast]
   repeat (first | rw [BitVec.extractLsb'_append_eq_of_le (by decide)] | rw [BitVec.extractLsb'_append_eq_of_add_le (by decide)])
   simp)

/-- A word of layout Trap: maj [31:26], k [25:16], b [15:11], fn [10:3], w [2:0]. -/
def layTrap (maj : BitVec 6) (k : BitVec 10) (b : BitVec 5) (fn : BitVec 8) (w : BitVec 3) : IWord :=
  (maj ++ k ++ b ++ fn ++ w).cast rfl

theorem layTrap_fields (maj : BitVec 6) (k : BitVec 10) (b : BitVec 5) (fn : BitVec 8) (w : BitVec 3) :
    fld 26 6 (layTrap maj k b fn w) = maj ∧
    fld 16 10 (layTrap maj k b fn w) = k ∧
    fld 11 5 (layTrap maj k b fn w) = b ∧
    fld 3 8 (layTrap maj k b fn w) = fn ∧
    fld 0 3 (layTrap maj k b fn w) = w := by
  unfold fld layTrap
  refine ⟨?_, ?_, ?_, ?_, ?_⟩ <;>
  (rw [extract_cast]
   repeat (first | rw [BitVec.extractLsb'_append_eq_of_le (by decide)] | rw [BitVec.extractLsb'_append_eq_of_add_le (by decide)])
   simp)

/-- The word of an instruction (R39, R53–R60); 0, which is never an instruction, for an event. [log DESIGN CHOICE 6] -/
def encode (i : Instr) : IWord :=
  match i with
  | .add d a b w => layR 0x1#6 d a b 0x0#8 w
  | .sub d a b w => layR 0x1#6 d a b 0x1#8 w
  | .and d a b w => layR 0x1#6 d a b 0x2#8 w
  | .or d a b w => layR 0x1#6 d a b 0x3#8 w
  | .xor d a b w => layR 0x1#6 d a b 0x4#8 w
  | .andn d a b w => layR 0x1#6 d a b 0x5#8 w
  | .shl d a b w => layR 0x1#6 d a b 0x6#8 w
  | .shr d a b w => layR 0x1#6 d a b 0x7#8 w
  | .sar d a b w => layR 0x1#6 d a b 0x8#8 w
  | .rol d a b w => layR 0x1#6 d a b 0x9#8 w
  | .ror d a b w => layR 0x1#6 d a b 0xa#8 w
  | .slt d a b w => layR 0x1#6 d a b 0xb#8 w
  | .sltu d a b w => layR 0x1#6 d a b 0xc#8 w
  | .seq d a b w => layR 0x1#6 d a b 0xd#8 w
  | .min d a b w => layR 0x1#6 d a b 0xe#8 w
  | .max d a b w => layR 0x1#6 d a b 0xf#8 w
  | .minu d a b w => layR 0x1#6 d a b 0x10#8 w
  | .maxu d a b w => layR 0x1#6 d a b 0x11#8 w
  | .mul d a b w => layR 0x1#6 d a b 0x12#8 w
  | .mulh d a b w => layR 0x1#6 d a b 0x13#8 w
  | .mulhu d a b w => layR 0x1#6 d a b 0x14#8 w
  | .div d a b w => layR 0x1#6 d a b 0x15#8 w
  | .divu d a b w => layR 0x1#6 d a b 0x16#8 w
  | .rem d a b w => layR 0x1#6 d a b 0x17#8 w
  | .remu d a b w => layR 0x1#6 d a b 0x18#8 w
  | .clz d a w => layR 0x1#6 d a 0x0#5 0x19#8 w
  | .ctz d a w => layR 0x1#6 d a 0x0#5 0x1a#8 w
  | .popc d a w => layR 0x1#6 d a 0x0#5 0x1b#8 w
  | .brev d a w => layR 0x1#6 d a 0x0#5 0x1c#8 w
  | .sextB d a w => layR 0x1#6 d a 0x0#5 0x1d#8 w
  | .sextH d a w => layR 0x1#6 d a 0x0#5 0x1e#8 w
  | .sextW d a w => layR 0x1#6 d a 0x0#5 0x1f#8 w
  | .zextW d a w => layR 0x1#6 d a 0x0#5 0x20#8 w
  | .sel d a b w => layR 0x1#6 d a b 0x21#8 w
  | .addw d a b w => layR 0x1#6 d a b 0x22#8 w
  | .subw d a b w => layR 0x1#6 d a b 0x23#8 w
  | .mulw d a b w => layR 0x1#6 d a b 0x24#8 w
  | .addi d a i w => layI 0x2#6 d a i w
  | .andi d a i w => layI 0x3#6 d a i w
  | .ori d a i w => layI 0x4#6 d a i w
  | .xori d a i w => layI 0x5#6 d a i w
  | .slti d a i w => layI 0x7#6 d a i w
  | .sltiu d a i w => layI 0x8#6 d a i w
  | .shli d a n w => layShi 0x6#6 d a 0x0#2 0x0#5 n w
  | .shri d a n w => layShi 0x6#6 d a 0x1#2 0x0#5 n w
  | .sari d a n w => layShi 0x6#6 d a 0x2#2 0x0#5 n w
  | .roli d a n w => layShi 0x6#6 d a 0x3#2 0x0#5 n w
  | .lui d i w => layU 0x9#6 d i w
  | .adr d i w => layU 0xa#6 d i w
  | .extu d a p l w => layBitf 0xb#6 d a 0x0#2 p l w
  | .exts d a p l w => layBitf 0xb#6 d a 0x1#2 p l w
  | .ins d a p l w => layBitf 0xb#6 d a 0x2#2 p l w
  | .fadd d a b w => layR 0xc#6 d a b 0x0#8 w
  | .fsub d a b w => layR 0xc#6 d a b 0x1#8 w
  | .fmul d a b w => layR 0xc#6 d a b 0x2#8 w
  | .fma d a b w => layR 0xc#6 d a b 0x3#8 w
  | .fnma d a b w => layR 0xc#6 d a b 0x4#8 w
  | .fdiv d a b w => layR 0xc#6 d a b 0x5#8 w
  | .fsqrt d a w => layR 0xc#6 d a 0x0#5 0x6#8 w
  | .fmin d a b w => layR 0xc#6 d a b 0x7#8 w
  | .fmax d a b w => layR 0xc#6 d a b 0x8#8 w
  | .feq d a b w => layR 0xc#6 d a b 0x9#8 w
  | .flt d a b w => layR 0xc#6 d a b 0xa#8 w
  | .fle d a b w => layR 0xc#6 d a b 0xb#8 w
  | .fclass d a w => layR 0xc#6 d a 0x0#5 0xc#8 w
  | .fabs d a w => layR 0xc#6 d a 0x0#5 0xd#8 w
  | .fneg d a w => layR 0xc#6 d a 0x0#5 0xe#8 w
  | .cvtF32I64 d a w => layR 0xc#6 d a 0x0#5 0xf#8 w
  | .cvtI64F32 d a w => layR 0xc#6 d a 0x0#5 0x10#8 w
  | .cvtF32N64 d a w => layR 0xc#6 d a 0x0#5 0x11#8 w
  | .cvtN64F32 d a w => layR 0xc#6 d a 0x0#5 0x12#8 w
  | .cvtBf16F32 d a w => layR 0xc#6 d a 0x0#5 0x13#8 w
  | .cvtF32Bf16 d a w => layR 0xc#6 d a 0x0#5 0x14#8 w
  | .cvtE4m3F32 d a w => layR 0xc#6 d a 0x0#5 0x15#8 w
  | .cvtF32E4m3 d a w => layR 0xc#6 d a 0x0#5 0x16#8 w
  | .cvtE5m2F32 d a w => layR 0xc#6 d a 0x0#5 0x17#8 w
  | .cvtF32E5m2 d a w => layR 0xc#6 d a 0x0#5 0x18#8 w
  | .frnd d a w => layR 0xc#6 d a 0x0#5 0x19#8 w
  | .beq a b o w => layB 0xd#6 a b 0x0#3 o w
  | .bne a b o w => layB 0xd#6 a b 0x1#3 o w
  | .blt a b o w => layB 0xd#6 a b 0x2#3 o w
  | .bge a b o w => layB 0xd#6 a b 0x3#3 o w
  | .bltu a b o w => layB 0xd#6 a b 0x4#3 o w
  | .bgeu a b o w => layB 0xd#6 a b 0x5#3 o w
  | .j o w => layJ 0xe#6 o w
  | .call o w => layJ 0xf#6 o w
  | .jr a w => layR 0x10#6 0x0#5 a 0x0#5 0x0#8 w
  | .jalr d a w => layR 0x10#6 d a 0x0#5 0x1#8 w
  | .callr a w => layR 0x10#6 0x0#5 a 0x0#5 0x2#8 w
  | .ret w => layR 0x10#6 0x0#5 0x0#5 0x0#5 0x3#8 w
  | .fjmp a w => layR 0x10#6 0x0#5 a 0x0#5 0x4#8 w
  | .ld d a o s t w => layM 0x11#6 d a o s t w
  | .ldu d a o s t w => layM 0x12#6 d a o s t w
  | .st d a o s t w => layM 0x13#6 d a o s t w
  | .lda d a s z w => layA 0x14#6 d a 0x0#5 0x0#4 s z w
  | .strl a b s z w => layA 0x14#6 0x0#5 a b 0x1#4 s z w
  | .swap d a b s z w => layA 0x14#6 d a b 0x2#4 s z w
  | .cas d a b s z w => layA 0x14#6 d a b 0x3#4 s z w
  | .atadd d a b s z w => layA 0x14#6 d a b 0x4#4 s z w
  | .atand d a b s z w => layA 0x14#6 d a b 0x5#4 s z w
  | .ator d a b s z w => layA 0x14#6 d a b 0x6#4 s z w
  | .atxor d a b s z w => layA 0x14#6 d a b 0x7#4 s z w
  | .atmin d a b s z w => layA 0x14#6 d a b 0x8#4 s z w
  | .atmax d a b s z w => layA 0x14#6 d a b 0x9#4 s z w
  | .atminn d a b s z w => layA 0x14#6 d a b 0xa#4 s z w
  | .atmaxn d a b s z w => layA 0x14#6 d a b 0xb#4 s z w
  | .atfadd d a b s w => layA 0x14#6 d a b 0xc#4 s 0x0#1 w
  | .atfmax d a b s w => layA 0x14#6 d a b 0xd#4 s 0x0#1 w
  | .ataddnr a b s z w => layA 0x14#6 0x0#5 a b 0xe#4 s z w
  | .sti d a b z s r w => laySti 0x15#6 d a b z s r 0x0#4 w
  | .fenceFull a b s g w => layFence 0x16#6 0x0#5 a b s 0x0#2 g 0x0#2 w
  | .fenceAcq a b s g w => layFence 0x16#6 0x0#5 a b s 0x1#2 g 0x0#2 w
  | .fenceRel a b s g w => layFence 0x16#6 0x0#5 a b s 0x2#2 g 0x0#2 w
  | .fenceEng w => layFence 0x16#6 0x0#5 0x0#5 0x0#5 0x0#3 0x3#2 0x0#1 0x0#2 w
  | .vwpin d a w => layR 0x17#6 d a 0x0#5 0x0#8 w
  | .vwset d a b w => layR 0x17#6 d a b 0x1#8 w
  | .vwclr d a w => layR 0x17#6 d a 0x0#5 0x2#8 w
  | .vwget d a w => layR 0x17#6 d a 0x0#5 0x3#8 w
  | .tlbiL a w => layR 0x17#6 0x0#5 a 0x0#5 0x4#8 w
  | .tlbiB a b w => layR 0x17#6 0x0#5 a b 0x5#8 w
  | .publish a w => layR 0x17#6 0x0#5 a 0x0#5 0x6#8 w
  | .probe d a w => layR 0x17#6 d a 0x0#5 0x7#8 w
  | .tileOpen d a w => layR 0x18#6 d a 0x0#5 0x0#8 w
  | .tileClose d a w => layR 0x18#6 d a 0x0#5 0x1#8 w
  | .tenR a w => layR 0x18#6 0x0#5 a 0x0#5 0x2#8 w
  | .tenW a w => layR 0x18#6 0x0#5 a 0x0#5 0x3#8 w
  | .tenTryr d a w => layR 0x18#6 d a 0x0#5 0x4#8 w
  | .tenTryw d a w => layR 0x18#6 d a 0x0#5 0x5#8 w
  | .tenRel d a w => layR 0x18#6 d a 0x0#5 0x6#8 w
  | .tenDown a w => layR 0x18#6 0x0#5 a 0x0#5 0x7#8 w
  | .tileSplit d a b w => layR 0x18#6 d a b 0x8#8 w
  | .tileQry d a w => layR 0x18#6 d a 0x0#5 0x9#8 w
  | .vld d a w => layV 0x19#6 d a 0x0#5 0x0#3 0x0#5 w
  | .vst d a w => layV 0x19#6 d a 0x0#5 0x0#3 0x1#5 w
  | .vlds d a b t w => layV 0x19#6 d a b t 0x2#5 w
  | .vsts d a b t w => layV 0x19#6 d a b t 0x3#5 w
  | .vgath d a b t w => layV 0x19#6 d a b t 0x4#5 w
  | .vscat d a b t w => layV 0x19#6 d a b t 0x5#5 w
  | .vadd d a b t w => layV 0x1a#6 d a b t 0x0#5 w
  | .vsub d a b t w => layV 0x1a#6 d a b t 0x1#5 w
  | .vmul d a b t w => layV 0x1a#6 d a b t 0x2#5 w
  | .vmulh d a b t w => layV 0x1a#6 d a b t 0x3#5 w
  | .vmin d a b t w => layV 0x1a#6 d a b t 0x4#5 w
  | .vmax d a b t w => layV 0x1a#6 d a b t 0x5#5 w
  | .vminu d a b t w => layV 0x1a#6 d a b t 0x6#5 w
  | .vmaxu d a b t w => layV 0x1a#6 d a b t 0x7#5 w
  | .vadds d a b t w => layV 0x1a#6 d a b t 0x8#5 w
  | .vsubs d a b t w => layV 0x1a#6 d a b t 0x9#5 w
  | .vaddsn d a b t w => layV 0x1a#6 d a b t 0xa#5 w
  | .vabs d a t w => layV 0x1a#6 d a 0x0#5 t 0xb#5 w
  | .vneg d a t w => layV 0x1a#6 d a 0x0#5 t 0xc#5 w
  | .vmac d a b t w => layV 0x1a#6 d a b t 0xd#5 w
  | .vwmul d a b t w => layV 0x1a#6 d a b t 0xe#5 w
  | .vwmac d a b t w => layV 0x1a#6 d a b t 0xf#5 w
  | .vdot4 d a b t w => layV 0x1a#6 d a b t 0x10#5 w
  | .vfadd d a b t w => layV 0x1b#6 d a b t 0x0#5 w
  | .vfsub d a b t w => layV 0x1b#6 d a b t 0x1#5 w
  | .vfmul d a b t w => layV 0x1b#6 d a b t 0x2#5 w
  | .vfma d a b t w => layV 0x1b#6 d a b t 0x3#5 w
  | .vfnma d a b t w => layV 0x1b#6 d a b t 0x4#5 w
  | .vfmin d a b t w => layV 0x1b#6 d a b t 0x5#5 w
  | .vfmax d a b t w => layV 0x1b#6 d a b t 0x6#5 w
  | .vfabs d a t w => layV 0x1b#6 d a 0x0#5 t 0x7#5 w
  | .vfneg d a t w => layV 0x1b#6 d a 0x0#5 t 0x8#5 w
  | .vfwmul d a b t w => layV 0x1b#6 d a b t 0x9#5 w
  | .vfwma d a b t w => layV 0x1b#6 d a b t 0xa#5 w
  | .vfexp2 d a t w => layV 0x1b#6 d a 0x0#5 t 0xb#5 w
  | .vflog2 d a t w => layV 0x1b#6 d a 0x0#5 t 0xc#5 w
  | .vfrcp d a t w => layV 0x1b#6 d a 0x0#5 t 0xd#5 w
  | .vfrsq d a t w => layV 0x1b#6 d a 0x0#5 t 0xe#5 w
  | .vand d a b t w => layV 0x1c#6 d a b t 0x0#5 w
  | .vor d a b t w => layV 0x1c#6 d a b t 0x1#5 w
  | .vxor d a b t w => layV 0x1c#6 d a b t 0x2#5 w
  | .vandn d a b t w => layV 0x1c#6 d a b t 0x3#5 w
  | .vshl d a b t w => layV 0x1c#6 d a b t 0x4#5 w
  | .vshr d a b t w => layV 0x1c#6 d a b t 0x5#5 w
  | .vsar d a b t w => layV 0x1c#6 d a b t 0x6#5 w
  | .vcmpeq d a b t w => layV 0x1c#6 d a b t 0x7#5 w
  | .vcmplt d a b t w => layV 0x1c#6 d a b t 0x8#5 w
  | .vcmple d a b t w => layV 0x1c#6 d a b t 0x9#5 w
  | .vcmpltn d a b t w => layV 0x1c#6 d a b t 0xa#5 w
  | .vfcmpeq d a b t w => layV 0x1c#6 d a b t 0xb#5 w
  | .vfcmplt d a b t w => layV 0x1c#6 d a b t 0xc#5 w
  | .vfcmple d a b t w => layV 0x1c#6 d a b t 0xd#5 w
  | .vsel d a b t w => layV 0x1c#6 d a b t 0xe#5 w
  | .vmand d a b t w => layV 0x1c#6 d a b t 0xf#5 w
  | .vmor d a b t w => layV 0x1c#6 d a b t 0x10#5 w
  | .vmxor d a b t w => layV 0x1c#6 d a b t 0x11#5 w
  | .vmnot d a t w => layV 0x1c#6 d a 0x0#5 t 0x12#5 w
  | .vmpop d a t w => layV 0x1c#6 d a 0x0#5 t 0x13#5 w
  | .vmfirst d a t w => layV 0x1c#6 d a 0x0#5 t 0x14#5 w
  | .vmset d a t w => layV 0x1c#6 d a 0x0#5 t 0x15#5 w
  | .vcvt d a b t w => layV 0x1d#6 d a b t 0x0#5 w
  | .vqo4 d a b t w => layV 0x1d#6 d a b t 0x1#5 w
  | .vdqo4 d a b t w => layV 0x1d#6 d a b t 0x2#5 w
  | .vrsum d a t w => layV 0x1d#6 d a 0x0#5 t 0x3#5 w
  | .vrmax d a t w => layV 0x1d#6 d a 0x0#5 t 0x4#5 w
  | .vrmin d a t w => layV 0x1d#6 d a 0x0#5 t 0x5#5 w
  | .vramax d a t w => layV 0x1d#6 d a 0x0#5 t 0x6#5 w
  | .vdot d a b t w => layV 0x1d#6 d a b t 0x7#5 w
  | .vbcast d a t w => layV 0x1d#6 d a 0x0#5 t 0x8#5 w
  | .vmov d a t w => layV 0x1d#6 d a 0x0#5 t 0x9#5 w
  | .vperm d a b t w => layV 0x1d#6 d a b t 0xa#5 w
  | .vslide d a b t w => layV 0x1d#6 d a b t 0xb#5 w
  | .vext d a b t w => layV 0x1d#6 d a b t 0xc#5 w
  | .vins d a b t w => layV 0x1d#6 d a b t 0xd#5 w
  | .vhad d a b t w => layV 0x1d#6 d a b t 0xe#5 w
  | .viota d t w => layV 0x1d#6 d 0x0#5 0x0#5 t 0xf#5 w
  | .vzip d a b t w => layV 0x1d#6 d a b t 0x10#5 w
  | .vunzip d a b t w => layV 0x1d#6 d a b t 0x11#5 w
  | .accRd d a w => layR 0x1e#6 d a 0x0#5 0x0#8 w
  | .accWr d a w => layR 0x1e#6 d a 0x0#5 0x1#8 w
  | .accClr d w => layR 0x1e#6 d 0x0#5 0x0#5 0x2#8 w
  | .mwait a w => layR 0x1e#6 0x0#5 a 0x0#5 0x3#8 w
  | .mstat d w => layR 0x1e#6 d 0x0#5 0x0#5 0x4#8 w
  | .rpt c i l x y z s w => layRpt 0x1f#6 c i l x y z s 0x0#3 w
  | .xsend d a b w => layR 0x20#6 d a b 0x0#8 w
  | .xwait a w => layR 0x20#6 0x0#5 a 0x0#5 0x1#8 w
  | .xstat d a b w => layR 0x20#6 d a b 0x2#8 w
  | .hstart d a b w => layR 0x21#6 d a b 0x0#8 w
  | .hstartNb d a b w => layR 0x21#6 d a b 0x1#8 w
  | .hexit w => layR 0x21#6 0x0#5 0x0#5 0x0#5 0x2#8 w
  | .hjoin d a w => layR 0x21#6 d a 0x0#5 0x3#8 w
  | .hstat d a w => layR 0x21#6 d a 0x0#5 0x4#8 w
  | .yield w => layR 0x21#6 0x0#5 0x0#5 0x0#5 0x5#8 w
  | .hkill a w => layR 0x21#6 0x0#5 a 0x0#5 0x6#8 w
  | .trForm d a w => layR 0x22#6 d a 0x0#5 0x0#8 w
  | .trBreak w => layR 0x22#6 0x0#5 0x0#5 0x0#5 0x1#8 w
  | .trDetach w => layR 0x22#6 0x0#5 0x0#5 0x0#5 0x2#8 w
  | .trRejoin w => layR 0x22#6 0x0#5 0x0#5 0x0#5 0x3#8 w
  | .trStat d w => layR 0x22#6 d 0x0#5 0x0#5 0x4#8 w
  | .sync l w => laySync 0x23#6 0x0#5 0x0#5 0x0#5 0x0#3 l 0x0#3 w
  | .djoin a l w => laySync 0x23#6 0x0#5 a 0x0#5 0x1#3 l 0x0#3 w
  | .dleave l w => laySync 0x23#6 0x0#5 0x0#5 0x0#5 0x2#3 l 0x0#3 w
  | .dqry d l w => laySync 0x23#6 d 0x0#5 0x0#5 0x3#3 l 0x0#3 w
  | .bar l w => laySync 0x23#6 0x0#5 0x0#5 0x0#5 0x4#3 l 0x0#3 w
  | .cfetch d a w => layR 0x24#6 d a 0x0#5 0x0#8 w
  | .cwait a w => layR 0x24#6 0x0#5 a 0x0#5 0x1#8 w
  | .cstat d a w => layR 0x24#6 d a 0x0#5 0x2#8 w
  | .cevict a w => layR 0x24#6 0x0#5 a 0x0#5 0x3#8 w
  | .evwait a w => layR 0x25#6 0x0#5 a 0x0#5 0x0#8 w
  | .evsig a w => layR 0x25#6 0x0#5 a 0x0#5 0x1#8 w
  | .evrd d a w => layR 0x25#6 d a 0x0#5 0x2#8 w
  | .evclr a w => layR 0x25#6 0x0#5 a 0x0#5 0x3#8 w
  | .wfe w => layR 0x25#6 0x0#5 0x0#5 0x0#5 0x4#8 w
  | .crr d c w => layS 0x26#6 d 0x0#5 c 0x0#2 w
  | .crw d a c w => layS 0x26#6 d a c 0x1#2 w
  | .crset d a c w => layS 0x26#6 d a c 0x2#2 w
  | .crclr d a c w => layS 0x26#6 d a c 0x3#2 w
  | .trap k w => layTrap 0x27#6 k 0x0#5 0x0#8 w
  | .sysc w => layR 0x27#6 0x0#5 0x0#5 0x0#5 0x1#8 w
  | .hcall w => layR 0x27#6 0x0#5 0x0#5 0x0#5 0x2#8 w
  | .eret w => layR 0x27#6 0x0#5 0x0#5 0x0#5 0x3#8 w
  | .bkpt w => layR 0x27#6 0x0#5 0x0#5 0x0#5 0x4#8 w
  | .halt w => layR 0x27#6 0x0#5 0x0#5 0x0#5 0x5#8 w
  | .tsread d w => layR 0x27#6 d 0x0#5 0x0#5 0x6#8 w
  | .gexit w => layR 0x27#6 0x0#5 0x0#5 0x0#5 0x7#8 w
  | .cntrd d a w => layR 0x27#6 d a 0x0#5 0x8#8 w
  | .gang w => layR 0x27#6 0x0#5 0x0#5 0x0#5 0x9#8 w
  | .rpop d w => layR 0x28#6 d 0x0#5 0x0#5 0x0#8 w
  | .rfix a b w => layR 0x28#6 0x0#5 a b 0x1#8 w
  | .rreplay a w => layR 0x28#6 0x0#5 a 0x0#5 0x2#8 w
  | .rkill a w => layR 0x28#6 0x0#5 a 0x0#5 0x3#8 w
  | .vamoF32 a b w => layR 0x29#6 0x0#5 a b 0x0#8 w
  | .vamoBf16 a b w => layR 0x29#6 0x0#5 a b 0x1#8 w
  | .vamoI32 a b w => layR 0x29#6 0x0#5 a b 0x2#8 w
  | .lnch d a w => layR 0x2a#6 d a 0x0#5 0x0#8 w
  | .lwait a w => layR 0x2a#6 0x0#5 a 0x0#5 0x1#8 w
  | .lqry d a w => layR 0x2a#6 d a 0x0#5 0x2#8 w
  | .lcancel d a w => layR 0x2a#6 d a 0x0#5 0x3#8 w
  | .qpeek d q w => layPort 0x2b#6 d 0x7#3 q 0x0#5 0x0#8 w
  | .qclr q w => layPort 0x2b#6 0x0#5 0x7#3 q 0x0#5 0x1#8 w
  | .qstat d q w => layPort 0x2b#6 d 0x7#3 q 0x0#5 0x2#8 w
  | .pset d a w => layR 0x2c#6 d a 0x0#5 0x0#8 w
  | .pget d a w => layR 0x2c#6 d a 0x0#5 0x1#8 w
  | .padd d a b w => layR 0x2c#6 d a b 0x2#8 w
  | .paddi d a i w => layI 0x2d#6 d a i w
  | .fixedResultVisible _ _ => 0#32
  | .variableResultWrite _ _ => 0#32
  | .fpexcTrap _ _ => 0#32
  | .deferredTrap _ _ => 0#32
  | .segmentFetchDone _ _ => 0#32
  | .vectorPassBind _ => 0#32
  | .scratchpadResize _ => 0#32
  | .plane _ _ => 0#32
  | .mma _ _ => 0#32
  | .mmaR _ _ => 0#32
  | .had _ _ => 0#32
  | .drain _ => 0#32
  | .zero _ => 0#32
  | .mark _ => 0#32
  | .matrixCommandDone _ => 0#32
  | .copy _ _ _ => 0#32
  | .fill _ _ _ => 0#32
  | .allreduce _ _ => 0#32
  | .reducescatter _ _ => 0#32
  | .allgather _ _ => 0#32
  | .abort _ _ => 0#32
  | .engineCommandDone _ _ => 0#32
  | .portWordArrival _ => 0#32
  | .forwardedInstruction _ => 0#32
  | .trFormTimeout _ => 0#32
  | .troupehang _ => 0#32
  | .syncDone _ => 0#32
  | .homeRequest _ => 0#32
  | .pushArrival _ => 0#32
  | .tLineExpiry _ _ => 0#32
  | .memoryResponse _ _ _ => 0#32
  | .farHomeRequest _ => 0#32
  | .farInvalidationAck _ _ => 0#32
  | .replicaUpdate _ => 0#32
  | .tenureGrant _ => 0#32
  | .leaseRevoke _ => 0#32
  | .stringsTimer _ => 0#32
  | .wake _ => 0#32
  | .helperStartTrigger _ => 0#32
  | .groupPlacement _ => 0#32
  | .groupStart _ => 0#32
  | .tsliceExpiry _ => 0#32
  | .forcedSwitchStop _ => 0#32
  | .saveDone _ => 0#32
  | .restoreDone _ => 0#32
  | .softError _ => 0#32
  | .create _ => 0#32
  | .switch _ => 0#32
  | .resume _ => 0#32
  | .cont _ _ => 0#32
  | .kill _ => 0#32
  | .destroy _ => 0#32
  | .svcstart _ => 0#32
  | .launch _ => 0#32
  | .registerWrite _ _ => 0#32
  | .crossTriggerHalt _ => 0#32
  | .debugResume _ => 0#32
  | .kaleidoscopeTurn => 0#32
  | .turnDrain => 0#32
  | .turnRetrain => 0#32
  | .turnMap _ => 0#32
  | .turnActive => 0#32
  | .fabricTimeout _ => 0#32
  | .peerRequest _ _ _ _ _ _ => 0#32
  | .fanoutTimeout _ => 0#32
  | .severed _ => 0#32
  | .flushed _ => 0#32
  | .messageLanding _ _ _ _ _ => 0#32
  | .hostBar4Write _ _ _ => 0#32
  | .hostBar4Read _ _ => 0#32
  | .mailboxHostWrite _ _ _ _ => 0#32
  | .vfFlr _ => 0#32
  | .tagRevive _ => 0#32
  | .powerGrantEpoch _ _ => 0#32
  | .boot _ _ => 0#32
  | .stageVerify _ _ => 0#32
  | .attestationRequest => 0#32
  | .attestationReportReady => 0#32
  | .debugUnlockToken _ => 0#32
  | .routerAccept _ _ => 0#32
  | .linkDown _ => 0#32
  | .linkUp _ => 0#32
  | .llcDramSoftError _ => 0#32

/-- Major 0x01. -/
def decodeAlu (v : IWord) : Except Reject Instr :=
  if fld 3 8 v = 0x0#8 then .ok (.add (fld 21 5 v) (fld 16 5 v) (fld 11 5 v) (fld 0 3 v))
  else if fld 3 8 v = 0x1#8 then .ok (.sub (fld 21 5 v) (fld 16 5 v) (fld 11 5 v) (fld 0 3 v))
  else if fld 3 8 v = 0x2#8 then .ok (.and (fld 21 5 v) (fld 16 5 v) (fld 11 5 v) (fld 0 3 v))
  else if fld 3 8 v = 0x3#8 then .ok (.or (fld 21 5 v) (fld 16 5 v) (fld 11 5 v) (fld 0 3 v))
  else if fld 3 8 v = 0x4#8 then .ok (.xor (fld 21 5 v) (fld 16 5 v) (fld 11 5 v) (fld 0 3 v))
  else if fld 3 8 v = 0x5#8 then .ok (.andn (fld 21 5 v) (fld 16 5 v) (fld 11 5 v) (fld 0 3 v))
  else if fld 3 8 v = 0x6#8 then .ok (.shl (fld 21 5 v) (fld 16 5 v) (fld 11 5 v) (fld 0 3 v))
  else if fld 3 8 v = 0x7#8 then .ok (.shr (fld 21 5 v) (fld 16 5 v) (fld 11 5 v) (fld 0 3 v))
  else if fld 3 8 v = 0x8#8 then .ok (.sar (fld 21 5 v) (fld 16 5 v) (fld 11 5 v) (fld 0 3 v))
  else if fld 3 8 v = 0x9#8 then .ok (.rol (fld 21 5 v) (fld 16 5 v) (fld 11 5 v) (fld 0 3 v))
  else if fld 3 8 v = 0xa#8 then .ok (.ror (fld 21 5 v) (fld 16 5 v) (fld 11 5 v) (fld 0 3 v))
  else if fld 3 8 v = 0xb#8 then .ok (.slt (fld 21 5 v) (fld 16 5 v) (fld 11 5 v) (fld 0 3 v))
  else if fld 3 8 v = 0xc#8 then .ok (.sltu (fld 21 5 v) (fld 16 5 v) (fld 11 5 v) (fld 0 3 v))
  else if fld 3 8 v = 0xd#8 then .ok (.seq (fld 21 5 v) (fld 16 5 v) (fld 11 5 v) (fld 0 3 v))
  else if fld 3 8 v = 0xe#8 then .ok (.min (fld 21 5 v) (fld 16 5 v) (fld 11 5 v) (fld 0 3 v))
  else if fld 3 8 v = 0xf#8 then .ok (.max (fld 21 5 v) (fld 16 5 v) (fld 11 5 v) (fld 0 3 v))
  else if fld 3 8 v = 0x10#8 then .ok (.minu (fld 21 5 v) (fld 16 5 v) (fld 11 5 v) (fld 0 3 v))
  else if fld 3 8 v = 0x11#8 then .ok (.maxu (fld 21 5 v) (fld 16 5 v) (fld 11 5 v) (fld 0 3 v))
  else if fld 3 8 v = 0x12#8 then .ok (.mul (fld 21 5 v) (fld 16 5 v) (fld 11 5 v) (fld 0 3 v))
  else if fld 3 8 v = 0x13#8 then .ok (.mulh (fld 21 5 v) (fld 16 5 v) (fld 11 5 v) (fld 0 3 v))
  else if fld 3 8 v = 0x14#8 then .ok (.mulhu (fld 21 5 v) (fld 16 5 v) (fld 11 5 v) (fld 0 3 v))
  else if fld 3 8 v = 0x15#8 then .ok (.div (fld 21 5 v) (fld 16 5 v) (fld 11 5 v) (fld 0 3 v))
  else if fld 3 8 v = 0x16#8 then .ok (.divu (fld 21 5 v) (fld 16 5 v) (fld 11 5 v) (fld 0 3 v))
  else if fld 3 8 v = 0x17#8 then .ok (.rem (fld 21 5 v) (fld 16 5 v) (fld 11 5 v) (fld 0 3 v))
  else if fld 3 8 v = 0x18#8 then .ok (.remu (fld 21 5 v) (fld 16 5 v) (fld 11 5 v) (fld 0 3 v))
  else if fld 3 8 v = 0x19#8 then (if fld 11 5 v = 0x0#5 then .ok (.clz (fld 21 5 v) (fld 16 5 v) (fld 0 3 v)) else .error .reserved)
  else if fld 3 8 v = 0x1a#8 then (if fld 11 5 v = 0x0#5 then .ok (.ctz (fld 21 5 v) (fld 16 5 v) (fld 0 3 v)) else .error .reserved)
  else if fld 3 8 v = 0x1b#8 then (if fld 11 5 v = 0x0#5 then .ok (.popc (fld 21 5 v) (fld 16 5 v) (fld 0 3 v)) else .error .reserved)
  else if fld 3 8 v = 0x1c#8 then (if fld 11 5 v = 0x0#5 then .ok (.brev (fld 21 5 v) (fld 16 5 v) (fld 0 3 v)) else .error .reserved)
  else if fld 3 8 v = 0x1d#8 then (if fld 11 5 v = 0x0#5 then .ok (.sextB (fld 21 5 v) (fld 16 5 v) (fld 0 3 v)) else .error .reserved)
  else if fld 3 8 v = 0x1e#8 then (if fld 11 5 v = 0x0#5 then .ok (.sextH (fld 21 5 v) (fld 16 5 v) (fld 0 3 v)) else .error .reserved)
  else if fld 3 8 v = 0x1f#8 then (if fld 11 5 v = 0x0#5 then .ok (.sextW (fld 21 5 v) (fld 16 5 v) (fld 0 3 v)) else .error .reserved)
  else if fld 3 8 v = 0x20#8 then (if fld 11 5 v = 0x0#5 then .ok (.zextW (fld 21 5 v) (fld 16 5 v) (fld 0 3 v)) else .error .reserved)
  else if fld 3 8 v = 0x21#8 then .ok (.sel (fld 21 5 v) (fld 16 5 v) (fld 11 5 v) (fld 0 3 v))
  else if fld 3 8 v = 0x22#8 then .ok (.addw (fld 21 5 v) (fld 16 5 v) (fld 11 5 v) (fld 0 3 v))
  else if fld 3 8 v = 0x23#8 then .ok (.subw (fld 21 5 v) (fld 16 5 v) (fld 11 5 v) (fld 0 3 v))
  else if fld 3 8 v = 0x24#8 then .ok (.mulw (fld 21 5 v) (fld 16 5 v) (fld 11 5 v) (fld 0 3 v))
  else .error .code

/-- Major 0x06. -/
def decodeShi (v : IWord) : Except Reject Instr :=
  if fld 14 2 v = 0x0#2 then (if fld 9 5 v = 0x0#5 then .ok (.shli (fld 21 5 v) (fld 16 5 v) (fld 3 6 v) (fld 0 3 v)) else .error .reserved)
  else if fld 14 2 v = 0x1#2 then (if fld 9 5 v = 0x0#5 then .ok (.shri (fld 21 5 v) (fld 16 5 v) (fld 3 6 v) (fld 0 3 v)) else .error .reserved)
  else if fld 14 2 v = 0x2#2 then (if fld 9 5 v = 0x0#5 then .ok (.sari (fld 21 5 v) (fld 16 5 v) (fld 3 6 v) (fld 0 3 v)) else .error .reserved)
  else if fld 14 2 v = 0x3#2 then (if fld 9 5 v = 0x0#5 then .ok (.roli (fld 21 5 v) (fld 16 5 v) (fld 3 6 v) (fld 0 3 v)) else .error .reserved)
  else .error .code

/-- Major 0x0B. -/
def decodeBitf (v : IWord) : Except Reject Instr :=
  if fld 14 2 v = 0x0#2 then .ok (.extu (fld 21 5 v) (fld 16 5 v) (fld 8 6 v) (fld 3 5 v) (fld 0 3 v))
  else if fld 14 2 v = 0x1#2 then .ok (.exts (fld 21 5 v) (fld 16 5 v) (fld 8 6 v) (fld 3 5 v) (fld 0 3 v))
  else if fld 14 2 v = 0x2#2 then .ok (.ins (fld 21 5 v) (fld 16 5 v) (fld 8 6 v) (fld 3 5 v) (fld 0 3 v))
  else .error .code

/-- Major 0x0C. -/
def decodeFpu (v : IWord) : Except Reject Instr :=
  if fld 3 8 v = 0x0#8 then .ok (.fadd (fld 21 5 v) (fld 16 5 v) (fld 11 5 v) (fld 0 3 v))
  else if fld 3 8 v = 0x1#8 then .ok (.fsub (fld 21 5 v) (fld 16 5 v) (fld 11 5 v) (fld 0 3 v))
  else if fld 3 8 v = 0x2#8 then .ok (.fmul (fld 21 5 v) (fld 16 5 v) (fld 11 5 v) (fld 0 3 v))
  else if fld 3 8 v = 0x3#8 then .ok (.fma (fld 21 5 v) (fld 16 5 v) (fld 11 5 v) (fld 0 3 v))
  else if fld 3 8 v = 0x4#8 then .ok (.fnma (fld 21 5 v) (fld 16 5 v) (fld 11 5 v) (fld 0 3 v))
  else if fld 3 8 v = 0x5#8 then .ok (.fdiv (fld 21 5 v) (fld 16 5 v) (fld 11 5 v) (fld 0 3 v))
  else if fld 3 8 v = 0x6#8 then (if fld 11 5 v = 0x0#5 then .ok (.fsqrt (fld 21 5 v) (fld 16 5 v) (fld 0 3 v)) else .error .reserved)
  else if fld 3 8 v = 0x7#8 then .ok (.fmin (fld 21 5 v) (fld 16 5 v) (fld 11 5 v) (fld 0 3 v))
  else if fld 3 8 v = 0x8#8 then .ok (.fmax (fld 21 5 v) (fld 16 5 v) (fld 11 5 v) (fld 0 3 v))
  else if fld 3 8 v = 0x9#8 then .ok (.feq (fld 21 5 v) (fld 16 5 v) (fld 11 5 v) (fld 0 3 v))
  else if fld 3 8 v = 0xa#8 then .ok (.flt (fld 21 5 v) (fld 16 5 v) (fld 11 5 v) (fld 0 3 v))
  else if fld 3 8 v = 0xb#8 then .ok (.fle (fld 21 5 v) (fld 16 5 v) (fld 11 5 v) (fld 0 3 v))
  else if fld 3 8 v = 0xc#8 then (if fld 11 5 v = 0x0#5 then .ok (.fclass (fld 21 5 v) (fld 16 5 v) (fld 0 3 v)) else .error .reserved)
  else if fld 3 8 v = 0xd#8 then (if fld 11 5 v = 0x0#5 then .ok (.fabs (fld 21 5 v) (fld 16 5 v) (fld 0 3 v)) else .error .reserved)
  else if fld 3 8 v = 0xe#8 then (if fld 11 5 v = 0x0#5 then .ok (.fneg (fld 21 5 v) (fld 16 5 v) (fld 0 3 v)) else .error .reserved)
  else if fld 3 8 v = 0xf#8 then (if fld 11 5 v = 0x0#5 then .ok (.cvtF32I64 (fld 21 5 v) (fld 16 5 v) (fld 0 3 v)) else .error .reserved)
  else if fld 3 8 v = 0x10#8 then (if fld 11 5 v = 0x0#5 then .ok (.cvtI64F32 (fld 21 5 v) (fld 16 5 v) (fld 0 3 v)) else .error .reserved)
  else if fld 3 8 v = 0x11#8 then (if fld 11 5 v = 0x0#5 then .ok (.cvtF32N64 (fld 21 5 v) (fld 16 5 v) (fld 0 3 v)) else .error .reserved)
  else if fld 3 8 v = 0x12#8 then (if fld 11 5 v = 0x0#5 then .ok (.cvtN64F32 (fld 21 5 v) (fld 16 5 v) (fld 0 3 v)) else .error .reserved)
  else if fld 3 8 v = 0x13#8 then (if fld 11 5 v = 0x0#5 then .ok (.cvtBf16F32 (fld 21 5 v) (fld 16 5 v) (fld 0 3 v)) else .error .reserved)
  else if fld 3 8 v = 0x14#8 then (if fld 11 5 v = 0x0#5 then .ok (.cvtF32Bf16 (fld 21 5 v) (fld 16 5 v) (fld 0 3 v)) else .error .reserved)
  else if fld 3 8 v = 0x15#8 then (if fld 11 5 v = 0x0#5 then .ok (.cvtE4m3F32 (fld 21 5 v) (fld 16 5 v) (fld 0 3 v)) else .error .reserved)
  else if fld 3 8 v = 0x16#8 then (if fld 11 5 v = 0x0#5 then .ok (.cvtF32E4m3 (fld 21 5 v) (fld 16 5 v) (fld 0 3 v)) else .error .reserved)
  else if fld 3 8 v = 0x17#8 then (if fld 11 5 v = 0x0#5 then .ok (.cvtE5m2F32 (fld 21 5 v) (fld 16 5 v) (fld 0 3 v)) else .error .reserved)
  else if fld 3 8 v = 0x18#8 then (if fld 11 5 v = 0x0#5 then .ok (.cvtF32E5m2 (fld 21 5 v) (fld 16 5 v) (fld 0 3 v)) else .error .reserved)
  else if fld 3 8 v = 0x19#8 then (if fld 11 5 v = 0x0#5 then .ok (.frnd (fld 21 5 v) (fld 16 5 v) (fld 0 3 v)) else .error .reserved)
  else .error .code

/-- Major 0x0D. -/
def decodeBr (v : IWord) : Except Reject Instr :=
  if fld 13 3 v = 0x0#3 then .ok (.beq (fld 21 5 v) (fld 16 5 v) (fld 3 10 v) (fld 0 3 v))
  else if fld 13 3 v = 0x1#3 then .ok (.bne (fld 21 5 v) (fld 16 5 v) (fld 3 10 v) (fld 0 3 v))
  else if fld 13 3 v = 0x2#3 then .ok (.blt (fld 21 5 v) (fld 16 5 v) (fld 3 10 v) (fld 0 3 v))
  else if fld 13 3 v = 0x3#3 then .ok (.bge (fld 21 5 v) (fld 16 5 v) (fld 3 10 v) (fld 0 3 v))
  else if fld 13 3 v = 0x4#3 then .ok (.bltu (fld 21 5 v) (fld 16 5 v) (fld 3 10 v) (fld 0 3 v))
  else if fld 13 3 v = 0x5#3 then .ok (.bgeu (fld 21 5 v) (fld 16 5 v) (fld 3 10 v) (fld 0 3 v))
  else .error .code

/-- Major 0x10. -/
def decodeJx (v : IWord) : Except Reject Instr :=
  if fld 3 8 v = 0x0#8 then (if fld 21 5 v = 0x0#5 ∧ fld 11 5 v = 0x0#5 then .ok (.jr (fld 16 5 v) (fld 0 3 v)) else .error .reserved)
  else if fld 3 8 v = 0x1#8 then (if fld 11 5 v = 0x0#5 then .ok (.jalr (fld 21 5 v) (fld 16 5 v) (fld 0 3 v)) else .error .reserved)
  else if fld 3 8 v = 0x2#8 then (if fld 21 5 v = 0x0#5 ∧ fld 11 5 v = 0x0#5 then .ok (.callr (fld 16 5 v) (fld 0 3 v)) else .error .reserved)
  else if fld 3 8 v = 0x3#8 then (if fld 21 5 v = 0x0#5 ∧ fld 16 5 v = 0x0#5 ∧ fld 11 5 v = 0x0#5 then .ok (.ret (fld 0 3 v)) else .error .reserved)
  else if fld 3 8 v = 0x4#8 then (if fld 21 5 v = 0x0#5 ∧ fld 11 5 v = 0x0#5 then .ok (.fjmp (fld 16 5 v) (fld 0 3 v)) else .error .reserved)
  else .error .code

/-- Major 0x14. -/
def decodeAmo (v : IWord) : Except Reject Instr :=
  if fld 7 4 v = 0x0#4 then (if fld 11 5 v = 0x0#5 then .ok (.lda (fld 21 5 v) (fld 16 5 v) (fld 4 3 v) (fld 3 1 v) (fld 0 3 v)) else .error .reserved)
  else if fld 7 4 v = 0x1#4 then (if fld 21 5 v = 0x0#5 then .ok (.strl (fld 16 5 v) (fld 11 5 v) (fld 4 3 v) (fld 3 1 v) (fld 0 3 v)) else .error .reserved)
  else if fld 7 4 v = 0x2#4 then .ok (.swap (fld 21 5 v) (fld 16 5 v) (fld 11 5 v) (fld 4 3 v) (fld 3 1 v) (fld 0 3 v))
  else if fld 7 4 v = 0x3#4 then .ok (.cas (fld 21 5 v) (fld 16 5 v) (fld 11 5 v) (fld 4 3 v) (fld 3 1 v) (fld 0 3 v))
  else if fld 7 4 v = 0x4#4 then .ok (.atadd (fld 21 5 v) (fld 16 5 v) (fld 11 5 v) (fld 4 3 v) (fld 3 1 v) (fld 0 3 v))
  else if fld 7 4 v = 0x5#4 then .ok (.atand (fld 21 5 v) (fld 16 5 v) (fld 11 5 v) (fld 4 3 v) (fld 3 1 v) (fld 0 3 v))
  else if fld 7 4 v = 0x6#4 then .ok (.ator (fld 21 5 v) (fld 16 5 v) (fld 11 5 v) (fld 4 3 v) (fld 3 1 v) (fld 0 3 v))
  else if fld 7 4 v = 0x7#4 then .ok (.atxor (fld 21 5 v) (fld 16 5 v) (fld 11 5 v) (fld 4 3 v) (fld 3 1 v) (fld 0 3 v))
  else if fld 7 4 v = 0x8#4 then .ok (.atmin (fld 21 5 v) (fld 16 5 v) (fld 11 5 v) (fld 4 3 v) (fld 3 1 v) (fld 0 3 v))
  else if fld 7 4 v = 0x9#4 then .ok (.atmax (fld 21 5 v) (fld 16 5 v) (fld 11 5 v) (fld 4 3 v) (fld 3 1 v) (fld 0 3 v))
  else if fld 7 4 v = 0xa#4 then .ok (.atminn (fld 21 5 v) (fld 16 5 v) (fld 11 5 v) (fld 4 3 v) (fld 3 1 v) (fld 0 3 v))
  else if fld 7 4 v = 0xb#4 then .ok (.atmaxn (fld 21 5 v) (fld 16 5 v) (fld 11 5 v) (fld 4 3 v) (fld 3 1 v) (fld 0 3 v))
  else if fld 7 4 v = 0xc#4 then (if fld 3 1 v = 0x0#1 then .ok (.atfadd (fld 21 5 v) (fld 16 5 v) (fld 11 5 v) (fld 4 3 v) (fld 0 3 v)) else .error .reserved)
  else if fld 7 4 v = 0xd#4 then (if fld 3 1 v = 0x0#1 then .ok (.atfmax (fld 21 5 v) (fld 16 5 v) (fld 11 5 v) (fld 4 3 v) (fld 0 3 v)) else .error .reserved)
  else if fld 7 4 v = 0xe#4 then (if fld 21 5 v = 0x0#5 then .ok (.ataddnr (fld 16 5 v) (fld 11 5 v) (fld 4 3 v) (fld 3 1 v) (fld 0 3 v)) else .error .reserved)
  else .error .code

/-- Major 0x16. -/
def decodeFence (v : IWord) : Except Reject Instr :=
  if fld 6 2 v = 0x0#2 then (if fld 21 5 v = 0x0#5 ∧ fld 3 2 v = 0x0#2 then .ok (.fenceFull (fld 16 5 v) (fld 11 5 v) (fld 8 3 v) (fld 5 1 v) (fld 0 3 v)) else .error .reserved)
  else if fld 6 2 v = 0x1#2 then (if fld 21 5 v = 0x0#5 ∧ fld 3 2 v = 0x0#2 then .ok (.fenceAcq (fld 16 5 v) (fld 11 5 v) (fld 8 3 v) (fld 5 1 v) (fld 0 3 v)) else .error .reserved)
  else if fld 6 2 v = 0x2#2 then (if fld 21 5 v = 0x0#5 ∧ fld 3 2 v = 0x0#2 then .ok (.fenceRel (fld 16 5 v) (fld 11 5 v) (fld 8 3 v) (fld 5 1 v) (fld 0 3 v)) else .error .reserved)
  else if fld 6 2 v = 0x3#2 then (if fld 21 5 v = 0x0#5 ∧ fld 16 5 v = 0x0#5 ∧ fld 11 5 v = 0x0#5 ∧ fld 8 3 v = 0x0#3 ∧ fld 5 1 v = 0x0#1 ∧ fld 3 2 v = 0x0#2 then .ok (.fenceEng (fld 0 3 v)) else .error .reserved)
  else .error .code

/-- Major 0x17. -/
def decodeXlat (v : IWord) : Except Reject Instr :=
  if fld 3 8 v = 0x0#8 then (if fld 11 5 v = 0x0#5 then .ok (.vwpin (fld 21 5 v) (fld 16 5 v) (fld 0 3 v)) else .error .reserved)
  else if fld 3 8 v = 0x1#8 then .ok (.vwset (fld 21 5 v) (fld 16 5 v) (fld 11 5 v) (fld 0 3 v))
  else if fld 3 8 v = 0x2#8 then (if fld 11 5 v = 0x0#5 then .ok (.vwclr (fld 21 5 v) (fld 16 5 v) (fld 0 3 v)) else .error .reserved)
  else if fld 3 8 v = 0x3#8 then (if fld 11 5 v = 0x0#5 then .ok (.vwget (fld 21 5 v) (fld 16 5 v) (fld 0 3 v)) else .error .reserved)
  else if fld 3 8 v = 0x4#8 then (if fld 21 5 v = 0x0#5 ∧ fld 11 5 v = 0x0#5 then .ok (.tlbiL (fld 16 5 v) (fld 0 3 v)) else .error .reserved)
  else if fld 3 8 v = 0x5#8 then (if fld 21 5 v = 0x0#5 then .ok (.tlbiB (fld 16 5 v) (fld 11 5 v) (fld 0 3 v)) else .error .reserved)
  else if fld 3 8 v = 0x6#8 then (if fld 21 5 v = 0x0#5 ∧ fld 11 5 v = 0x0#5 then .ok (.publish (fld 16 5 v) (fld 0 3 v)) else .error .reserved)
  else if fld 3 8 v = 0x7#8 then (if fld 11 5 v = 0x0#5 then .ok (.probe (fld 21 5 v) (fld 16 5 v) (fld 0 3 v)) else .error .reserved)
  else .error .code

/-- Major 0x18. -/
def decodeTile (v : IWord) : Except Reject Instr :=
  if fld 3 8 v = 0x0#8 then (if fld 11 5 v = 0x0#5 then .ok (.tileOpen (fld 21 5 v) (fld 16 5 v) (fld 0 3 v)) else .error .reserved)
  else if fld 3 8 v = 0x1#8 then (if fld 11 5 v = 0x0#5 then .ok (.tileClose (fld 21 5 v) (fld 16 5 v) (fld 0 3 v)) else .error .reserved)
  else if fld 3 8 v = 0x2#8 then (if fld 21 5 v = 0x0#5 ∧ fld 11 5 v = 0x0#5 then .ok (.tenR (fld 16 5 v) (fld 0 3 v)) else .error .reserved)
  else if fld 3 8 v = 0x3#8 then (if fld 21 5 v = 0x0#5 ∧ fld 11 5 v = 0x0#5 then .ok (.tenW (fld 16 5 v) (fld 0 3 v)) else .error .reserved)
  else if fld 3 8 v = 0x4#8 then (if fld 11 5 v = 0x0#5 then .ok (.tenTryr (fld 21 5 v) (fld 16 5 v) (fld 0 3 v)) else .error .reserved)
  else if fld 3 8 v = 0x5#8 then (if fld 11 5 v = 0x0#5 then .ok (.tenTryw (fld 21 5 v) (fld 16 5 v) (fld 0 3 v)) else .error .reserved)
  else if fld 3 8 v = 0x6#8 then (if fld 11 5 v = 0x0#5 then .ok (.tenRel (fld 21 5 v) (fld 16 5 v) (fld 0 3 v)) else .error .reserved)
  else if fld 3 8 v = 0x7#8 then (if fld 21 5 v = 0x0#5 ∧ fld 11 5 v = 0x0#5 then .ok (.tenDown (fld 16 5 v) (fld 0 3 v)) else .error .reserved)
  else if fld 3 8 v = 0x8#8 then .ok (.tileSplit (fld 21 5 v) (fld 16 5 v) (fld 11 5 v) (fld 0 3 v))
  else if fld 3 8 v = 0x9#8 then (if fld 11 5 v = 0x0#5 then .ok (.tileQry (fld 21 5 v) (fld 16 5 v) (fld 0 3 v)) else .error .reserved)
  else .error .code

/-- Major 0x19. -/
def decodeVmem (v : IWord) : Except Reject Instr :=
  if fld 3 5 v = 0x0#5 then (if fld 11 5 v = 0x0#5 ∧ fld 8 3 v = 0x0#3 then .ok (.vld (fld 21 5 v) (fld 16 5 v) (fld 0 3 v)) else .error .reserved)
  else if fld 3 5 v = 0x1#5 then (if fld 11 5 v = 0x0#5 ∧ fld 8 3 v = 0x0#3 then .ok (.vst (fld 21 5 v) (fld 16 5 v) (fld 0 3 v)) else .error .reserved)
  else if fld 3 5 v = 0x2#5 then .ok (.vlds (fld 21 5 v) (fld 16 5 v) (fld 11 5 v) (fld 8 3 v) (fld 0 3 v))
  else if fld 3 5 v = 0x3#5 then .ok (.vsts (fld 21 5 v) (fld 16 5 v) (fld 11 5 v) (fld 8 3 v) (fld 0 3 v))
  else if fld 3 5 v = 0x4#5 then .ok (.vgath (fld 21 5 v) (fld 16 5 v) (fld 11 5 v) (fld 8 3 v) (fld 0 3 v))
  else if fld 3 5 v = 0x5#5 then .ok (.vscat (fld 21 5 v) (fld 16 5 v) (fld 11 5 v) (fld 8 3 v) (fld 0 3 v))
  else .error .code

/-- Major 0x1A. -/
def decodeVint (v : IWord) : Except Reject Instr :=
  if fld 3 5 v = 0x0#5 then .ok (.vadd (fld 21 5 v) (fld 16 5 v) (fld 11 5 v) (fld 8 3 v) (fld 0 3 v))
  else if fld 3 5 v = 0x1#5 then .ok (.vsub (fld 21 5 v) (fld 16 5 v) (fld 11 5 v) (fld 8 3 v) (fld 0 3 v))
  else if fld 3 5 v = 0x2#5 then .ok (.vmul (fld 21 5 v) (fld 16 5 v) (fld 11 5 v) (fld 8 3 v) (fld 0 3 v))
  else if fld 3 5 v = 0x3#5 then .ok (.vmulh (fld 21 5 v) (fld 16 5 v) (fld 11 5 v) (fld 8 3 v) (fld 0 3 v))
  else if fld 3 5 v = 0x4#5 then .ok (.vmin (fld 21 5 v) (fld 16 5 v) (fld 11 5 v) (fld 8 3 v) (fld 0 3 v))
  else if fld 3 5 v = 0x5#5 then .ok (.vmax (fld 21 5 v) (fld 16 5 v) (fld 11 5 v) (fld 8 3 v) (fld 0 3 v))
  else if fld 3 5 v = 0x6#5 then .ok (.vminu (fld 21 5 v) (fld 16 5 v) (fld 11 5 v) (fld 8 3 v) (fld 0 3 v))
  else if fld 3 5 v = 0x7#5 then .ok (.vmaxu (fld 21 5 v) (fld 16 5 v) (fld 11 5 v) (fld 8 3 v) (fld 0 3 v))
  else if fld 3 5 v = 0x8#5 then .ok (.vadds (fld 21 5 v) (fld 16 5 v) (fld 11 5 v) (fld 8 3 v) (fld 0 3 v))
  else if fld 3 5 v = 0x9#5 then .ok (.vsubs (fld 21 5 v) (fld 16 5 v) (fld 11 5 v) (fld 8 3 v) (fld 0 3 v))
  else if fld 3 5 v = 0xa#5 then .ok (.vaddsn (fld 21 5 v) (fld 16 5 v) (fld 11 5 v) (fld 8 3 v) (fld 0 3 v))
  else if fld 3 5 v = 0xb#5 then (if fld 11 5 v = 0x0#5 then .ok (.vabs (fld 21 5 v) (fld 16 5 v) (fld 8 3 v) (fld 0 3 v)) else .error .reserved)
  else if fld 3 5 v = 0xc#5 then (if fld 11 5 v = 0x0#5 then .ok (.vneg (fld 21 5 v) (fld 16 5 v) (fld 8 3 v) (fld 0 3 v)) else .error .reserved)
  else if fld 3 5 v = 0xd#5 then .ok (.vmac (fld 21 5 v) (fld 16 5 v) (fld 11 5 v) (fld 8 3 v) (fld 0 3 v))
  else if fld 3 5 v = 0xe#5 then .ok (.vwmul (fld 21 5 v) (fld 16 5 v) (fld 11 5 v) (fld 8 3 v) (fld 0 3 v))
  else if fld 3 5 v = 0xf#5 then .ok (.vwmac (fld 21 5 v) (fld 16 5 v) (fld 11 5 v) (fld 8 3 v) (fld 0 3 v))
  else if fld 3 5 v = 0x10#5 then .ok (.vdot4 (fld 21 5 v) (fld 16 5 v) (fld 11 5 v) (fld 8 3 v) (fld 0 3 v))
  else .error .code

/-- Major 0x1B. -/
def decodeVflt (v : IWord) : Except Reject Instr :=
  if fld 3 5 v = 0x0#5 then .ok (.vfadd (fld 21 5 v) (fld 16 5 v) (fld 11 5 v) (fld 8 3 v) (fld 0 3 v))
  else if fld 3 5 v = 0x1#5 then .ok (.vfsub (fld 21 5 v) (fld 16 5 v) (fld 11 5 v) (fld 8 3 v) (fld 0 3 v))
  else if fld 3 5 v = 0x2#5 then .ok (.vfmul (fld 21 5 v) (fld 16 5 v) (fld 11 5 v) (fld 8 3 v) (fld 0 3 v))
  else if fld 3 5 v = 0x3#5 then .ok (.vfma (fld 21 5 v) (fld 16 5 v) (fld 11 5 v) (fld 8 3 v) (fld 0 3 v))
  else if fld 3 5 v = 0x4#5 then .ok (.vfnma (fld 21 5 v) (fld 16 5 v) (fld 11 5 v) (fld 8 3 v) (fld 0 3 v))
  else if fld 3 5 v = 0x5#5 then .ok (.vfmin (fld 21 5 v) (fld 16 5 v) (fld 11 5 v) (fld 8 3 v) (fld 0 3 v))
  else if fld 3 5 v = 0x6#5 then .ok (.vfmax (fld 21 5 v) (fld 16 5 v) (fld 11 5 v) (fld 8 3 v) (fld 0 3 v))
  else if fld 3 5 v = 0x7#5 then (if fld 11 5 v = 0x0#5 then .ok (.vfabs (fld 21 5 v) (fld 16 5 v) (fld 8 3 v) (fld 0 3 v)) else .error .reserved)
  else if fld 3 5 v = 0x8#5 then (if fld 11 5 v = 0x0#5 then .ok (.vfneg (fld 21 5 v) (fld 16 5 v) (fld 8 3 v) (fld 0 3 v)) else .error .reserved)
  else if fld 3 5 v = 0x9#5 then .ok (.vfwmul (fld 21 5 v) (fld 16 5 v) (fld 11 5 v) (fld 8 3 v) (fld 0 3 v))
  else if fld 3 5 v = 0xa#5 then .ok (.vfwma (fld 21 5 v) (fld 16 5 v) (fld 11 5 v) (fld 8 3 v) (fld 0 3 v))
  else if fld 3 5 v = 0xb#5 then (if fld 11 5 v = 0x0#5 then .ok (.vfexp2 (fld 21 5 v) (fld 16 5 v) (fld 8 3 v) (fld 0 3 v)) else .error .reserved)
  else if fld 3 5 v = 0xc#5 then (if fld 11 5 v = 0x0#5 then .ok (.vflog2 (fld 21 5 v) (fld 16 5 v) (fld 8 3 v) (fld 0 3 v)) else .error .reserved)
  else if fld 3 5 v = 0xd#5 then (if fld 11 5 v = 0x0#5 then .ok (.vfrcp (fld 21 5 v) (fld 16 5 v) (fld 8 3 v) (fld 0 3 v)) else .error .reserved)
  else if fld 3 5 v = 0xe#5 then (if fld 11 5 v = 0x0#5 then .ok (.vfrsq (fld 21 5 v) (fld 16 5 v) (fld 8 3 v) (fld 0 3 v)) else .error .reserved)
  else .error .code

/-- Major 0x1C. -/
def decodeVlog (v : IWord) : Except Reject Instr :=
  if fld 3 5 v = 0x0#5 then .ok (.vand (fld 21 5 v) (fld 16 5 v) (fld 11 5 v) (fld 8 3 v) (fld 0 3 v))
  else if fld 3 5 v = 0x1#5 then .ok (.vor (fld 21 5 v) (fld 16 5 v) (fld 11 5 v) (fld 8 3 v) (fld 0 3 v))
  else if fld 3 5 v = 0x2#5 then .ok (.vxor (fld 21 5 v) (fld 16 5 v) (fld 11 5 v) (fld 8 3 v) (fld 0 3 v))
  else if fld 3 5 v = 0x3#5 then .ok (.vandn (fld 21 5 v) (fld 16 5 v) (fld 11 5 v) (fld 8 3 v) (fld 0 3 v))
  else if fld 3 5 v = 0x4#5 then .ok (.vshl (fld 21 5 v) (fld 16 5 v) (fld 11 5 v) (fld 8 3 v) (fld 0 3 v))
  else if fld 3 5 v = 0x5#5 then .ok (.vshr (fld 21 5 v) (fld 16 5 v) (fld 11 5 v) (fld 8 3 v) (fld 0 3 v))
  else if fld 3 5 v = 0x6#5 then .ok (.vsar (fld 21 5 v) (fld 16 5 v) (fld 11 5 v) (fld 8 3 v) (fld 0 3 v))
  else if fld 3 5 v = 0x7#5 then .ok (.vcmpeq (fld 21 5 v) (fld 16 5 v) (fld 11 5 v) (fld 8 3 v) (fld 0 3 v))
  else if fld 3 5 v = 0x8#5 then .ok (.vcmplt (fld 21 5 v) (fld 16 5 v) (fld 11 5 v) (fld 8 3 v) (fld 0 3 v))
  else if fld 3 5 v = 0x9#5 then .ok (.vcmple (fld 21 5 v) (fld 16 5 v) (fld 11 5 v) (fld 8 3 v) (fld 0 3 v))
  else if fld 3 5 v = 0xa#5 then .ok (.vcmpltn (fld 21 5 v) (fld 16 5 v) (fld 11 5 v) (fld 8 3 v) (fld 0 3 v))
  else if fld 3 5 v = 0xb#5 then .ok (.vfcmpeq (fld 21 5 v) (fld 16 5 v) (fld 11 5 v) (fld 8 3 v) (fld 0 3 v))
  else if fld 3 5 v = 0xc#5 then .ok (.vfcmplt (fld 21 5 v) (fld 16 5 v) (fld 11 5 v) (fld 8 3 v) (fld 0 3 v))
  else if fld 3 5 v = 0xd#5 then .ok (.vfcmple (fld 21 5 v) (fld 16 5 v) (fld 11 5 v) (fld 8 3 v) (fld 0 3 v))
  else if fld 3 5 v = 0xe#5 then .ok (.vsel (fld 21 5 v) (fld 16 5 v) (fld 11 5 v) (fld 8 3 v) (fld 0 3 v))
  else if fld 3 5 v = 0xf#5 then .ok (.vmand (fld 21 5 v) (fld 16 5 v) (fld 11 5 v) (fld 8 3 v) (fld 0 3 v))
  else if fld 3 5 v = 0x10#5 then .ok (.vmor (fld 21 5 v) (fld 16 5 v) (fld 11 5 v) (fld 8 3 v) (fld 0 3 v))
  else if fld 3 5 v = 0x11#5 then .ok (.vmxor (fld 21 5 v) (fld 16 5 v) (fld 11 5 v) (fld 8 3 v) (fld 0 3 v))
  else if fld 3 5 v = 0x12#5 then (if fld 11 5 v = 0x0#5 then .ok (.vmnot (fld 21 5 v) (fld 16 5 v) (fld 8 3 v) (fld 0 3 v)) else .error .reserved)
  else if fld 3 5 v = 0x13#5 then (if fld 11 5 v = 0x0#5 then .ok (.vmpop (fld 21 5 v) (fld 16 5 v) (fld 8 3 v) (fld 0 3 v)) else .error .reserved)
  else if fld 3 5 v = 0x14#5 then (if fld 11 5 v = 0x0#5 then .ok (.vmfirst (fld 21 5 v) (fld 16 5 v) (fld 8 3 v) (fld 0 3 v)) else .error .reserved)
  else if fld 3 5 v = 0x15#5 then (if fld 11 5 v = 0x0#5 then .ok (.vmset (fld 21 5 v) (fld 16 5 v) (fld 8 3 v) (fld 0 3 v)) else .error .reserved)
  else .error .code

/-- Major 0x1D. -/
def decodeVxf (v : IWord) : Except Reject Instr :=
  if fld 3 5 v = 0x0#5 then .ok (.vcvt (fld 21 5 v) (fld 16 5 v) (fld 11 5 v) (fld 8 3 v) (fld 0 3 v))
  else if fld 3 5 v = 0x1#5 then .ok (.vqo4 (fld 21 5 v) (fld 16 5 v) (fld 11 5 v) (fld 8 3 v) (fld 0 3 v))
  else if fld 3 5 v = 0x2#5 then .ok (.vdqo4 (fld 21 5 v) (fld 16 5 v) (fld 11 5 v) (fld 8 3 v) (fld 0 3 v))
  else if fld 3 5 v = 0x3#5 then (if fld 11 5 v = 0x0#5 then .ok (.vrsum (fld 21 5 v) (fld 16 5 v) (fld 8 3 v) (fld 0 3 v)) else .error .reserved)
  else if fld 3 5 v = 0x4#5 then (if fld 11 5 v = 0x0#5 then .ok (.vrmax (fld 21 5 v) (fld 16 5 v) (fld 8 3 v) (fld 0 3 v)) else .error .reserved)
  else if fld 3 5 v = 0x5#5 then (if fld 11 5 v = 0x0#5 then .ok (.vrmin (fld 21 5 v) (fld 16 5 v) (fld 8 3 v) (fld 0 3 v)) else .error .reserved)
  else if fld 3 5 v = 0x6#5 then (if fld 11 5 v = 0x0#5 then .ok (.vramax (fld 21 5 v) (fld 16 5 v) (fld 8 3 v) (fld 0 3 v)) else .error .reserved)
  else if fld 3 5 v = 0x7#5 then .ok (.vdot (fld 21 5 v) (fld 16 5 v) (fld 11 5 v) (fld 8 3 v) (fld 0 3 v))
  else if fld 3 5 v = 0x8#5 then (if fld 11 5 v = 0x0#5 then .ok (.vbcast (fld 21 5 v) (fld 16 5 v) (fld 8 3 v) (fld 0 3 v)) else .error .reserved)
  else if fld 3 5 v = 0x9#5 then (if fld 11 5 v = 0x0#5 then .ok (.vmov (fld 21 5 v) (fld 16 5 v) (fld 8 3 v) (fld 0 3 v)) else .error .reserved)
  else if fld 3 5 v = 0xa#5 then .ok (.vperm (fld 21 5 v) (fld 16 5 v) (fld 11 5 v) (fld 8 3 v) (fld 0 3 v))
  else if fld 3 5 v = 0xb#5 then .ok (.vslide (fld 21 5 v) (fld 16 5 v) (fld 11 5 v) (fld 8 3 v) (fld 0 3 v))
  else if fld 3 5 v = 0xc#5 then .ok (.vext (fld 21 5 v) (fld 16 5 v) (fld 11 5 v) (fld 8 3 v) (fld 0 3 v))
  else if fld 3 5 v = 0xd#5 then .ok (.vins (fld 21 5 v) (fld 16 5 v) (fld 11 5 v) (fld 8 3 v) (fld 0 3 v))
  else if fld 3 5 v = 0xe#5 then .ok (.vhad (fld 21 5 v) (fld 16 5 v) (fld 11 5 v) (fld 8 3 v) (fld 0 3 v))
  else if fld 3 5 v = 0xf#5 then (if fld 16 5 v = 0x0#5 ∧ fld 11 5 v = 0x0#5 then .ok (.viota (fld 21 5 v) (fld 8 3 v) (fld 0 3 v)) else .error .reserved)
  else if fld 3 5 v = 0x10#5 then .ok (.vzip (fld 21 5 v) (fld 16 5 v) (fld 11 5 v) (fld 8 3 v) (fld 0 3 v))
  else if fld 3 5 v = 0x11#5 then .ok (.vunzip (fld 21 5 v) (fld 16 5 v) (fld 11 5 v) (fld 8 3 v) (fld 0 3 v))
  else .error .code

/-- Major 0x1E. -/
def decodeAcc (v : IWord) : Except Reject Instr :=
  if fld 3 8 v = 0x0#8 then (if fld 11 5 v = 0x0#5 then .ok (.accRd (fld 21 5 v) (fld 16 5 v) (fld 0 3 v)) else .error .reserved)
  else if fld 3 8 v = 0x1#8 then (if fld 11 5 v = 0x0#5 then .ok (.accWr (fld 21 5 v) (fld 16 5 v) (fld 0 3 v)) else .error .reserved)
  else if fld 3 8 v = 0x2#8 then (if fld 16 5 v = 0x0#5 ∧ fld 11 5 v = 0x0#5 then .ok (.accClr (fld 21 5 v) (fld 0 3 v)) else .error .reserved)
  else if fld 3 8 v = 0x3#8 then (if fld 21 5 v = 0x0#5 ∧ fld 11 5 v = 0x0#5 then .ok (.mwait (fld 16 5 v) (fld 0 3 v)) else .error .reserved)
  else if fld 3 8 v = 0x4#8 then (if fld 16 5 v = 0x0#5 ∧ fld 11 5 v = 0x0#5 then .ok (.mstat (fld 21 5 v) (fld 0 3 v)) else .error .reserved)
  else .error .code

/-- Major 0x20. -/
def decodeXeng (v : IWord) : Except Reject Instr :=
  if fld 3 8 v = 0x0#8 then .ok (.xsend (fld 21 5 v) (fld 16 5 v) (fld 11 5 v) (fld 0 3 v))
  else if fld 3 8 v = 0x1#8 then (if fld 21 5 v = 0x0#5 ∧ fld 11 5 v = 0x0#5 then .ok (.xwait (fld 16 5 v) (fld 0 3 v)) else .error .reserved)
  else if fld 3 8 v = 0x2#8 then .ok (.xstat (fld 21 5 v) (fld 16 5 v) (fld 11 5 v) (fld 0 3 v))
  else .error .code

/-- Major 0x21. -/
def decodeHelp (v : IWord) : Except Reject Instr :=
  if fld 3 8 v = 0x0#8 then .ok (.hstart (fld 21 5 v) (fld 16 5 v) (fld 11 5 v) (fld 0 3 v))
  else if fld 3 8 v = 0x1#8 then .ok (.hstartNb (fld 21 5 v) (fld 16 5 v) (fld 11 5 v) (fld 0 3 v))
  else if fld 3 8 v = 0x2#8 then (if fld 21 5 v = 0x0#5 ∧ fld 16 5 v = 0x0#5 ∧ fld 11 5 v = 0x0#5 then .ok (.hexit (fld 0 3 v)) else .error .reserved)
  else if fld 3 8 v = 0x3#8 then (if fld 11 5 v = 0x0#5 then .ok (.hjoin (fld 21 5 v) (fld 16 5 v) (fld 0 3 v)) else .error .reserved)
  else if fld 3 8 v = 0x4#8 then (if fld 11 5 v = 0x0#5 then .ok (.hstat (fld 21 5 v) (fld 16 5 v) (fld 0 3 v)) else .error .reserved)
  else if fld 3 8 v = 0x5#8 then (if fld 21 5 v = 0x0#5 ∧ fld 16 5 v = 0x0#5 ∧ fld 11 5 v = 0x0#5 then .ok (.yield (fld 0 3 v)) else .error .reserved)
  else if fld 3 8 v = 0x6#8 then (if fld 21 5 v = 0x0#5 ∧ fld 11 5 v = 0x0#5 then .ok (.hkill (fld 16 5 v) (fld 0 3 v)) else .error .reserved)
  else .error .code

/-- Major 0x22. -/
def decodeTroupe (v : IWord) : Except Reject Instr :=
  if fld 3 8 v = 0x0#8 then (if fld 11 5 v = 0x0#5 then .ok (.trForm (fld 21 5 v) (fld 16 5 v) (fld 0 3 v)) else .error .reserved)
  else if fld 3 8 v = 0x1#8 then (if fld 21 5 v = 0x0#5 ∧ fld 16 5 v = 0x0#5 ∧ fld 11 5 v = 0x0#5 then .ok (.trBreak (fld 0 3 v)) else .error .reserved)
  else if fld 3 8 v = 0x2#8 then (if fld 21 5 v = 0x0#5 ∧ fld 16 5 v = 0x0#5 ∧ fld 11 5 v = 0x0#5 then .ok (.trDetach (fld 0 3 v)) else .error .reserved)
  else if fld 3 8 v = 0x3#8 then (if fld 21 5 v = 0x0#5 ∧ fld 16 5 v = 0x0#5 ∧ fld 11 5 v = 0x0#5 then .ok (.trRejoin (fld 0 3 v)) else .error .reserved)
  else if fld 3 8 v = 0x4#8 then (if fld 16 5 v = 0x0#5 ∧ fld 11 5 v = 0x0#5 then .ok (.trStat (fld 21 5 v) (fld 0 3 v)) else .error .reserved)
  else .error .code

/-- Major 0x23. -/
def decodeSync (v : IWord) : Except Reject Instr :=
  if fld 8 3 v = 0x0#3 then (if fld 21 5 v = 0x0#5 ∧ fld 16 5 v = 0x0#5 ∧ fld 11 5 v = 0x0#5 ∧ fld 3 3 v = 0x0#3 then .ok (.sync (fld 6 2 v) (fld 0 3 v)) else .error .reserved)
  else if fld 8 3 v = 0x1#3 then (if fld 21 5 v = 0x0#5 ∧ fld 11 5 v = 0x0#5 ∧ fld 3 3 v = 0x0#3 then .ok (.djoin (fld 16 5 v) (fld 6 2 v) (fld 0 3 v)) else .error .reserved)
  else if fld 8 3 v = 0x2#3 then (if fld 21 5 v = 0x0#5 ∧ fld 16 5 v = 0x0#5 ∧ fld 11 5 v = 0x0#5 ∧ fld 3 3 v = 0x0#3 then .ok (.dleave (fld 6 2 v) (fld 0 3 v)) else .error .reserved)
  else if fld 8 3 v = 0x3#3 then (if fld 16 5 v = 0x0#5 ∧ fld 11 5 v = 0x0#5 ∧ fld 3 3 v = 0x0#3 then .ok (.dqry (fld 21 5 v) (fld 6 2 v) (fld 0 3 v)) else .error .reserved)
  else if fld 8 3 v = 0x4#3 then (if fld 21 5 v = 0x0#5 ∧ fld 16 5 v = 0x0#5 ∧ fld 11 5 v = 0x0#5 ∧ fld 3 3 v = 0x0#3 then .ok (.bar (fld 6 2 v) (fld 0 3 v)) else .error .reserved)
  else .error .code

/-- Major 0x24. -/
def decodeCode (v : IWord) : Except Reject Instr :=
  if fld 3 8 v = 0x0#8 then (if fld 11 5 v = 0x0#5 then .ok (.cfetch (fld 21 5 v) (fld 16 5 v) (fld 0 3 v)) else .error .reserved)
  else if fld 3 8 v = 0x1#8 then (if fld 21 5 v = 0x0#5 ∧ fld 11 5 v = 0x0#5 then .ok (.cwait (fld 16 5 v) (fld 0 3 v)) else .error .reserved)
  else if fld 3 8 v = 0x2#8 then (if fld 11 5 v = 0x0#5 then .ok (.cstat (fld 21 5 v) (fld 16 5 v) (fld 0 3 v)) else .error .reserved)
  else if fld 3 8 v = 0x3#8 then (if fld 21 5 v = 0x0#5 ∧ fld 11 5 v = 0x0#5 then .ok (.cevict (fld 16 5 v) (fld 0 3 v)) else .error .reserved)
  else .error .code

/-- Major 0x25. -/
def decodeEvt (v : IWord) : Except Reject Instr :=
  if fld 3 8 v = 0x0#8 then (if fld 21 5 v = 0x0#5 ∧ fld 11 5 v = 0x0#5 then .ok (.evwait (fld 16 5 v) (fld 0 3 v)) else .error .reserved)
  else if fld 3 8 v = 0x1#8 then (if fld 21 5 v = 0x0#5 ∧ fld 11 5 v = 0x0#5 then .ok (.evsig (fld 16 5 v) (fld 0 3 v)) else .error .reserved)
  else if fld 3 8 v = 0x2#8 then (if fld 11 5 v = 0x0#5 then .ok (.evrd (fld 21 5 v) (fld 16 5 v) (fld 0 3 v)) else .error .reserved)
  else if fld 3 8 v = 0x3#8 then (if fld 21 5 v = 0x0#5 ∧ fld 11 5 v = 0x0#5 then .ok (.evclr (fld 16 5 v) (fld 0 3 v)) else .error .reserved)
  else if fld 3 8 v = 0x4#8 then (if fld 21 5 v = 0x0#5 ∧ fld 16 5 v = 0x0#5 ∧ fld 11 5 v = 0x0#5 then .ok (.wfe (fld 0 3 v)) else .error .reserved)
  else .error .code

/-- Major 0x26. -/
def decodeCsr (v : IWord) : Except Reject Instr :=
  if fld 3 2 v = 0x0#2 then (if fld 16 5 v = 0x0#5 then .ok (.crr (fld 21 5 v) (fld 5 11 v) (fld 0 3 v)) else .error .reserved)
  else if fld 3 2 v = 0x1#2 then .ok (.crw (fld 21 5 v) (fld 16 5 v) (fld 5 11 v) (fld 0 3 v))
  else if fld 3 2 v = 0x2#2 then .ok (.crset (fld 21 5 v) (fld 16 5 v) (fld 5 11 v) (fld 0 3 v))
  else if fld 3 2 v = 0x3#2 then .ok (.crclr (fld 21 5 v) (fld 16 5 v) (fld 5 11 v) (fld 0 3 v))
  else .error .code

/-- Major 0x27. -/
def decodeSys (v : IWord) : Except Reject Instr :=
  if fld 3 8 v = 0x0#8 then (if fld 11 5 v = 0x0#5 then .ok (.trap (fld 16 10 v) (fld 0 3 v)) else .error .reserved)
  else if fld 3 8 v = 0x1#8 then (if fld 21 5 v = 0x0#5 ∧ fld 16 5 v = 0x0#5 ∧ fld 11 5 v = 0x0#5 then .ok (.sysc (fld 0 3 v)) else .error .reserved)
  else if fld 3 8 v = 0x2#8 then (if fld 21 5 v = 0x0#5 ∧ fld 16 5 v = 0x0#5 ∧ fld 11 5 v = 0x0#5 then .ok (.hcall (fld 0 3 v)) else .error .reserved)
  else if fld 3 8 v = 0x3#8 then (if fld 21 5 v = 0x0#5 ∧ fld 16 5 v = 0x0#5 ∧ fld 11 5 v = 0x0#5 then .ok (.eret (fld 0 3 v)) else .error .reserved)
  else if fld 3 8 v = 0x4#8 then (if fld 21 5 v = 0x0#5 ∧ fld 16 5 v = 0x0#5 ∧ fld 11 5 v = 0x0#5 then .ok (.bkpt (fld 0 3 v)) else .error .reserved)
  else if fld 3 8 v = 0x5#8 then (if fld 21 5 v = 0x0#5 ∧ fld 16 5 v = 0x0#5 ∧ fld 11 5 v = 0x0#5 then .ok (.halt (fld 0 3 v)) else .error .reserved)
  else if fld 3 8 v = 0x6#8 then (if fld 16 5 v = 0x0#5 ∧ fld 11 5 v = 0x0#5 then .ok (.tsread (fld 21 5 v) (fld 0 3 v)) else .error .reserved)
  else if fld 3 8 v = 0x7#8 then (if fld 21 5 v = 0x0#5 ∧ fld 16 5 v = 0x0#5 ∧ fld 11 5 v = 0x0#5 then .ok (.gexit (fld 0 3 v)) else .error .reserved)
  else if fld 3 8 v = 0x8#8 then (if fld 11 5 v = 0x0#5 then .ok (.cntrd (fld 21 5 v) (fld 16 5 v) (fld 0 3 v)) else .error .reserved)
  else if fld 3 8 v = 0x9#8 then (if fld 21 5 v = 0x0#5 ∧ fld 16 5 v = 0x0#5 ∧ fld 11 5 v = 0x0#5 then .ok (.gang (fld 0 3 v)) else .error .reserved)
  else .error .code

/-- Major 0x28. -/
def decodeRetry (v : IWord) : Except Reject Instr :=
  if fld 3 8 v = 0x0#8 then (if fld 16 5 v = 0x0#5 ∧ fld 11 5 v = 0x0#5 then .ok (.rpop (fld 21 5 v) (fld 0 3 v)) else .error .reserved)
  else if fld 3 8 v = 0x1#8 then (if fld 21 5 v = 0x0#5 then .ok (.rfix (fld 16 5 v) (fld 11 5 v) (fld 0 3 v)) else .error .reserved)
  else if fld 3 8 v = 0x2#8 then (if fld 21 5 v = 0x0#5 ∧ fld 11 5 v = 0x0#5 then .ok (.rreplay (fld 16 5 v) (fld 0 3 v)) else .error .reserved)
  else if fld 3 8 v = 0x3#8 then (if fld 21 5 v = 0x0#5 ∧ fld 11 5 v = 0x0#5 then .ok (.rkill (fld 16 5 v) (fld 0 3 v)) else .error .reserved)
  else .error .code

/-- Major 0x29. -/
def decodeVamo (v : IWord) : Except Reject Instr :=
  if fld 3 8 v = 0x0#8 then (if fld 21 5 v = 0x0#5 then .ok (.vamoF32 (fld 16 5 v) (fld 11 5 v) (fld 0 3 v)) else .error .reserved)
  else if fld 3 8 v = 0x1#8 then (if fld 21 5 v = 0x0#5 then .ok (.vamoBf16 (fld 16 5 v) (fld 11 5 v) (fld 0 3 v)) else .error .reserved)
  else if fld 3 8 v = 0x2#8 then (if fld 21 5 v = 0x0#5 then .ok (.vamoI32 (fld 16 5 v) (fld 11 5 v) (fld 0 3 v)) else .error .reserved)
  else .error .code

/-- Major 0x2A. -/
def decodeSched (v : IWord) : Except Reject Instr :=
  if fld 3 8 v = 0x0#8 then (if fld 11 5 v = 0x0#5 then .ok (.lnch (fld 21 5 v) (fld 16 5 v) (fld 0 3 v)) else .error .reserved)
  else if fld 3 8 v = 0x1#8 then (if fld 21 5 v = 0x0#5 ∧ fld 11 5 v = 0x0#5 then .ok (.lwait (fld 16 5 v) (fld 0 3 v)) else .error .reserved)
  else if fld 3 8 v = 0x2#8 then (if fld 11 5 v = 0x0#5 then .ok (.lqry (fld 21 5 v) (fld 16 5 v) (fld 0 3 v)) else .error .reserved)
  else if fld 3 8 v = 0x3#8 then (if fld 11 5 v = 0x0#5 then .ok (.lcancel (fld 21 5 v) (fld 16 5 v) (fld 0 3 v)) else .error .reserved)
  else .error .code

/-- Major 0x2B. -/
def decodePort (v : IWord) : Except Reject Instr :=
  if fld 3 8 v = 0x0#8 then (if fld 18 3 v = 0x7#3 ∧ fld 11 5 v = 0x0#5 then .ok (.qpeek (fld 21 5 v) (fld 16 2 v) (fld 0 3 v)) else .error .reserved)
  else if fld 3 8 v = 0x1#8 then (if fld 21 5 v = 0x0#5 ∧ fld 18 3 v = 0x7#3 ∧ fld 11 5 v = 0x0#5 then .ok (.qclr (fld 16 2 v) (fld 0 3 v)) else .error .reserved)
  else if fld 3 8 v = 0x2#8 then (if fld 18 3 v = 0x7#3 ∧ fld 11 5 v = 0x0#5 then .ok (.qstat (fld 21 5 v) (fld 16 2 v) (fld 0 3 v)) else .error .reserved)
  else .error .code

/-- Major 0x2C. -/
def decodeLptr (v : IWord) : Except Reject Instr :=
  if fld 3 8 v = 0x0#8 then (if fld 11 5 v = 0x0#5 then .ok (.pset (fld 21 5 v) (fld 16 5 v) (fld 0 3 v)) else .error .reserved)
  else if fld 3 8 v = 0x1#8 then (if fld 11 5 v = 0x0#5 then .ok (.pget (fld 21 5 v) (fld 16 5 v) (fld 0 3 v)) else .error .reserved)
  else if fld 3 8 v = 0x2#8 then .ok (.padd (fld 21 5 v) (fld 16 5 v) (fld 11 5 v) (fld 0 3 v))
  else .error .code

/-- The fields of a word as an instruction, before the limits of R38 are checked. -/
def decodeFields (v : IWord) : Except Reject Instr :=
  if fld 26 6 v = 0x01#6 then decodeAlu v
  else if fld 26 6 v = 0x02#6 then .ok (.addi (fld 21 5 v) (fld 16 5 v) (fld 3 13 v) (fld 0 3 v))
  else if fld 26 6 v = 0x03#6 then .ok (.andi (fld 21 5 v) (fld 16 5 v) (fld 3 13 v) (fld 0 3 v))
  else if fld 26 6 v = 0x04#6 then .ok (.ori (fld 21 5 v) (fld 16 5 v) (fld 3 13 v) (fld 0 3 v))
  else if fld 26 6 v = 0x05#6 then .ok (.xori (fld 21 5 v) (fld 16 5 v) (fld 3 13 v) (fld 0 3 v))
  else if fld 26 6 v = 0x06#6 then decodeShi v
  else if fld 26 6 v = 0x07#6 then .ok (.slti (fld 21 5 v) (fld 16 5 v) (fld 3 13 v) (fld 0 3 v))
  else if fld 26 6 v = 0x08#6 then .ok (.sltiu (fld 21 5 v) (fld 16 5 v) (fld 3 13 v) (fld 0 3 v))
  else if fld 26 6 v = 0x09#6 then .ok (.lui (fld 21 5 v) (fld 3 18 v) (fld 0 3 v))
  else if fld 26 6 v = 0x0a#6 then .ok (.adr (fld 21 5 v) (fld 3 18 v) (fld 0 3 v))
  else if fld 26 6 v = 0x0b#6 then decodeBitf v
  else if fld 26 6 v = 0x0c#6 then decodeFpu v
  else if fld 26 6 v = 0x0d#6 then decodeBr v
  else if fld 26 6 v = 0x0e#6 then .ok (.j (fld 3 23 v) (fld 0 3 v))
  else if fld 26 6 v = 0x0f#6 then .ok (.call (fld 3 23 v) (fld 0 3 v))
  else if fld 26 6 v = 0x10#6 then decodeJx v
  else if fld 26 6 v = 0x11#6 then .ok (.ld (fld 21 5 v) (fld 16 5 v) (fld 7 9 v) (fld 5 2 v) (fld 3 2 v) (fld 0 3 v))
  else if fld 26 6 v = 0x12#6 then .ok (.ldu (fld 21 5 v) (fld 16 5 v) (fld 7 9 v) (fld 5 2 v) (fld 3 2 v) (fld 0 3 v))
  else if fld 26 6 v = 0x13#6 then .ok (.st (fld 21 5 v) (fld 16 5 v) (fld 7 9 v) (fld 5 2 v) (fld 3 2 v) (fld 0 3 v))
  else if fld 26 6 v = 0x14#6 then decodeAmo v
  else if fld 26 6 v = 0x15#6 then (if fld 3 4 v = 0x0#4 then .ok (.sti (fld 21 5 v) (fld 16 5 v) (fld 11 5 v) (fld 9 2 v) (fld 8 1 v) (fld 7 1 v) (fld 0 3 v)) else .error .reserved)
  else if fld 26 6 v = 0x16#6 then decodeFence v
  else if fld 26 6 v = 0x17#6 then decodeXlat v
  else if fld 26 6 v = 0x18#6 then decodeTile v
  else if fld 26 6 v = 0x19#6 then decodeVmem v
  else if fld 26 6 v = 0x1a#6 then decodeVint v
  else if fld 26 6 v = 0x1b#6 then decodeVflt v
  else if fld 26 6 v = 0x1c#6 then decodeVlog v
  else if fld 26 6 v = 0x1d#6 then decodeVxf v
  else if fld 26 6 v = 0x1e#6 then decodeAcc v
  else if fld 26 6 v = 0x1f#6 then (if fld 3 3 v = 0x0#3 then .ok (.rpt (fld 21 5 v) (fld 15 6 v) (fld 11 4 v) (fld 10 1 v) (fld 9 1 v) (fld 8 1 v) (fld 6 2 v) (fld 0 3 v)) else .error .reserved)
  else if fld 26 6 v = 0x20#6 then decodeXeng v
  else if fld 26 6 v = 0x21#6 then decodeHelp v
  else if fld 26 6 v = 0x22#6 then decodeTroupe v
  else if fld 26 6 v = 0x23#6 then decodeSync v
  else if fld 26 6 v = 0x24#6 then decodeCode v
  else if fld 26 6 v = 0x25#6 then decodeEvt v
  else if fld 26 6 v = 0x26#6 then decodeCsr v
  else if fld 26 6 v = 0x27#6 then decodeSys v
  else if fld 26 6 v = 0x28#6 then decodeRetry v
  else if fld 26 6 v = 0x29#6 then decodeVamo v
  else if fld 26 6 v = 0x2a#6 then decodeSched v
  else if fld 26 6 v = 0x2b#6 then decodePort v
  else if fld 26 6 v = 0x2c#6 then decodeLptr v
  else if fld 26 6 v = 0x2d#6 then .ok (.paddi (fld 21 5 v) (fld 16 5 v) (fld 3 13 v) (fld 0 3 v))
  else .error .major

/-- The decoder: total, and rejecting by name (R38). -/
def decode (v : IWord) : Except Reject Instr :=
  match decodeFields v with
  | .ok i => if i.wf then .ok i else .error .limit
  | .error e => .error e

/-- The instruction whose bits are w; every instruction has one word of 32 bits (R37), stored little-endian, so that the
table's numbering of bits is the word's own. -/
def decodeTableWord (_nbits w : Nat) : Option Instr :=
  match decode (BitVec.ofNat 32 w) with
  | .ok i => some i
  | .error _ => none

end

end Sys2Proof
end

