-- ==== Sys2Proof/Machine/State.lean ====
section
/-!
DEFINITION. The state of the machine as plain data: contexts, cores, clusters, partitions and the package, the requests
and messages that are in flight between them, and the agenda that says which agent moves next. Each field's comment
names what it is, the rule that gives it and its reset value.
-/

namespace Sys2Proof.Machine

open Sys2Proof

/-- Why the machine itself stops. The spec describes every stop of the part as a trap, a halt or a poisoned response,
so no step of the model raises this fault (safe: it is never an outcome). -/
inductive Fault where
  /-- Raised by nobody. -/
  | notRaised
deriving DecidableEq, Repr

/-- Why a step is refused. -/
inductive Refusal where
  /-- Raised only by an arm of `exec` whose instruction has no meaning yet (safe). -/
  | notModelled (mnemonic : String)
deriving DecidableEq, Repr

/-- A byte-addressed memory: pairs of address and byte in strictly rising order of address, none equal to zero, which is
what an unlisted address reads as. -/
abbrev Memory := List Host.Cell

/-- A context, by its global core number (R2) and its index, 0 for ctx0 and 1–10 for h1–h10 (R93). -/
structure CtxId where
  core : Nat
  ctx  : Nat
deriving DecidableEq, Repr

/-- A fixed-latency result in flight (R44); `order` is the place of its instruction in the core's issue order, and `fpu` says that
a scalar FPU instruction produces it (R111). One for a port keeps the route that its instruction was checked against once cr.qroute is written
after it (R261). -/
structure Inflight where
  reg       : Reg
  value     : Word
  visibleAt : Nat
  pc        : Word
  flags     : BitVec 8
  order     : Nat
  fpu       : Bool
  route     : Option Word
deriving DecidableEq, Repr

/-- A result of DIV, DIVU, REM, REMU, FDIV, FSQRT or XLAT that is not written yet (R103, R309), with the place of its
instruction in the core's issue order, and its route as an `Inflight` keeps it (R261). -/
structure VarResult where
  reg   : Reg
  value : Word
  due   : Nat
  flags : BitVec 8
  order : Nat
  fpu   : Bool
  route : Option Word
deriving DecidableEq, Repr

/-- A repeat frame in progress (R134, R136). -/
structure Frame where
  base   : Word
  words  : List IWord
  smask  : BitVec 3
  stride : BitVec 2
  k      : Nat
  count  : Nat
  index  : Nat
deriving DecidableEq, Repr

/-- An instruction forwarded to a follower (R267): its word, the leader's address of it and after it, the leader's frame at
it, and its issue cycle. `last` ends the stream: the follower goes on at `pc` by itself (R268, R270). `taken` is the outcome of a conditional branch. -/
structure FwdEntry where
  word  : IWord
  pc    : Word
  next  : Word
  frame : Option Frame
  at_   : Nat
  last  : Bool
  taken : Bool
deriving DecidableEq, Repr

/-- A deferred trap that waits for its context's issue point, with the order of its access (R149, R155). -/
structure Deferred where
  cause : BitVec 6
  tval  : Word
  fpc   : Word
  order : Nat
deriving DecidableEq, Repr

/-- A scalar FPU instruction that waits to trap FPEXC: the cycle in which its flags are known, and the flags (R110). -/
structure FpHold where
  due   : Nat
  flags : BitVec 8
deriving DecidableEq, Repr

/-- The translation registers a unit keeps for the work a context handed it, those of stage 2 among them, and the cluster rank of the unit (R301,
R302). -/
structure Xctx where
  part  : Nat
  core  : Nat
  asid  : BitVec 16
  ttab  : Word
  pos   : Nat
  priv  : BitVec 2
  peertab : Word
  s2base : Word
  s2ctl : Bool
  vmid  : BitVec 16
  unit  : Nat
deriving DecidableEq, Repr

/-- A slot of a replica set that a write to HOME is multicast through: the address of the slot, before stage 2, the offset in the page, and the translation
that the access was made with (R307, R308). -/
structure RepSlot where
  at_ : Nat
  off : Nat
  x   : Xctx
deriving DecidableEq, Repr

/-- Where the bytes of an address are (R158, R229, R305, R431, R452). -/
inductive Loc where
  /-- A scratchpad byte. -/
  | spad (x : Nat)
  /-- Bonded DRAM or installed far memory at this physical address; `others` are the slots of the other replicas that a write may
  multicast to (R308). -/
  | mem (pa : Nat) (others : List RepSlot)
  | mmio (pa : Nat)
  | peer (q exp ra : Nat) (tc : Nat) (cache comb : Bool)
  /-- A far range that departed when the access was issued: answered with poison and FARGONE (R426). -/
  | departing
  /-- No populated range: answered with poison (R305). -/
  | nowhere
deriving DecidableEq, Repr

/-- A vector instruction in a context's queue, with what it read at issue (R163, R169, R174): the lines of its d, a and b
fields, the lines it reads and writes, its g sources, its rounding mode, and for a vector memory instruction the parts of
memory it accesses, each of `psize` bytes with its place in the line and its address. `slip` says that it broke the bank rule (R162); `order` is its place among the context's accesses. -/
structure VEntry where
  instr  : Instr
  seq    : Nat
  pc     : Word
  d      : Nat
  a      : Nat
  b      : Nat
  rd     : List Nat
  wr     : List Nat
  ga     : Word
  gb     : Word
  rm     : BitVec 2
  xctx   : Xctx
  passes : Nat
  slip   : Bool
  elems  : List (Nat × Word × Loc)
  psize  : Nat
  order  : Nat
deriving DecidableEq, Repr

/-- A store whose remote write failed and that no release has reported yet (R234). -/
structure FailedStore where
  pc    : Word
  va    : Word
  order : Nat
deriving DecidableEq, Repr

/-- An outstanding retry-ring entry, as its context holds it (R380); `acq` says that its access is an acquire (R237), and `route` is kept as an
`Inflight` keeps it (R261). -/
structure RingHold where
  entry : Nat
  reg   : Reg
  load  : Bool
  va    : Word
  size  : Nat
  order : Nat
  acq   : Bool
  route : Option Word
deriving DecidableEq, Repr

/-- An entry of a context's range scoreboard (R279). -/
structure RangeEntry where
  ticket : Nat
  lo     : Nat
  hi     : Nat
  seq    : Nat
deriving DecidableEq, Repr

/-- A pending matrix fault of a context (R222, R223). -/
structure MFault where
  seq  : BitVec 32
  kind : BitVec 4
  acc  : BitVec 3
  more : Bool
  mask : BitVec 32
deriving DecidableEq, Repr

/-- A port word on its way (R262, R292). `doms` are the intervals of the sender's valid levels, `cell` the place on the mesh of the router
that holds it, (64, 64) where none does, and `saved` marks a word that a resume brought back (R378). -/
structure PortWord where
  id     : Nat
  src    : Nat
  route  : Nat
  dest   : Nat
  port   : Nat
  launch : BitVec 32
  part   : Nat
  value  : Word
  doms   : List (Nat × Word)
  cell   : Nat × Nat
  saved  : Bool
deriving DecidableEq, Repr

/-- What a context waits for across steps, when the wait has a state of its own. [log DEDUCED 7] -/
inductive Wait where
  | none
  /-- TR.FORM with this mask since this cycle, with its d, a and W fields (R266). -/
  | trForm (mask : BitVec 16) (since : Nat) (d a : Reg) (w : BitVec 3)
  /-- TR.REJOIN since this cycle, with its W field (R269). -/
  | trRejoin (since : Nat) (w : BitVec 3)
  /-- A queued tenure request of this number, with its a and W fields (R320). -/
  | tenure (request : Nat) (a : Reg) (w : BitVec 3)
  /-- SYNC or BAR at this level, arrived, with its W field (R291). Where members at a BAR of the same barrier have gone on, `rest` holds the
  words that they and the ended members sent and received, which count for the SYNCs that still wait. -/
  | sync (level : Nat) (bar : Bool) (w : BitVec 3) (rest : Option (Nat × Nat))
  /-- A CSR write that resizes the scratchpad (R157). -/
  | resize (size : BitVec 2)
  /-- The resize is complete, and the CSR instruction retires at its next issue with the old size. -/
  | resized (old : BitVec 2)
  /-- RREPLAY has performed its access again and waits for it (R382). -/
  | replay (req : Nat)
  /-- RREPLAY of this entry of a SAVED partition waits until the partition's core has performed the access (R382). -/
  | replayOf (part entry : Nat)
  /-- The context is held, by a wait without a state of its own. -/
  | held
  /-- The reservation of a store with .rep, a fence or PUBLISH that has reached this step. -/
  | stage (n : Nat)
deriving DecidableEq, Repr

/-- A context (R93). -/
structure Ctx where
  /-- Live: ctx0 while its group runs, a helper between start and end (R93, R138; reset false). -/
  live      : Bool
  /-- PC, 64 bits, or the address of the instruction that issues next (R93; reset 0, set at start). -/
  pc        : Word
  /-- g0–g31, 64 bits each; g0 and g28–g31 have no storage and stay 0 here (R93, R94; reset 0). -/
  g         : Vector Word 32
  /-- Poison bits of g0–g31, cr.poison 0x010 (R96, R99; reset 0). -/
  poison    : BitVec 32
  /-- PC and VA recorded with each poison bit (R93, R96; reset 0). -/
  prec      : Vector (Word × Word) 32
  /-- Line pointers p0–p31, 16 bits each (R93, R170; reset 0). -/
  p         : Vector (BitVec 16) 32
  /-- Masks m0–m3, 1,024 bits each (R93, R170; reset all ones). -/
  m         : Vector Mask 4
  /-- Current privilege, cr.tstat.CPRV: 0 U, 1 S, 2 H (R98, R99; reset 0). -/
  priv      : BitVec 2
  /-- cr.frm 0x001 (R63, R73; reset 0). -/
  frm       : Word
  /-- cr.fflags 0x002 (R63, R74; reset 0). -/
  fflags    : BitVec 8
  /-- cr.chk.EN 0x003 (R63, R99; reset 0). -/
  chk       : Bool
  /-- cr.sbase 0x004 (R63, R126; reset 0, set at start). -/
  sbase     : Word
  /-- cr.slim 0x005 (R63, R126; reset 0, set at start). -/
  slim      : Word
  /-- cr.rptst 0x006 (R63, R136; reset 0). -/
  rptst     : Word
  /-- cr.tcause 0x008 (R63, R151; reset 0). -/
  tcause    : BitVec 6
  /-- cr.tpc 0x009 (R63, R151; reset 0). -/
  tpc       : Word
  /-- cr.tval 0x00A (R63, R151; reset 0). -/
  tval      : Word
  /-- cr.fpc 0x00B (R63, R151; reset 0). -/
  fpc       : Word
  /-- cr.tvec 0x00C, bits [11:0] zero (R63, R151; reset 0, set at start). -/
  tvec      : Word
  /-- cr.tstat.SPRV 0x00D (R63, R99; reset 0). -/
  sprv      : BitVec 2
  /-- cr.tstat.DEF 0x00D (R63, R99; reset 0). -/
  deff      : Bool
  /-- cr.icount 0x00E (R63, R101; reset 0). -/
  icount    : Word
  /-- cr.vshare.WEIGHT 0x00F (R63, R99; reset 8). -/
  vshare    : BitVec 4
  /-- cr.fjwait.EN 0x011 (R63, R99; reset 0). -/
  fjwait    : Bool
  /-- Repeat frame in progress (R134, R136; reset none). -/
  frame     : Option Frame
  /-- First cycle in which the next instruction may issue (R44; reset 0). -/
  nextIssue : Nat
  /-- Fixed-latency results in flight, in the order in which they become visible (R44, R93; reset empty). -/
  inflight  : List Inflight
  /-- Variable-latency results not yet written, in the order in which they are due (R103; reset empty). -/
  varRes    : List VarResult
  /-- FPU instruction that will trap FPEXC when its flags are known (R110; reset none). -/
  fpHold    : Option FpHold
  /-- Deferred traps pending (R149, R155; reset empty). -/
  deferred  : List Deferred
  /-- The send that no router has accepted yet, at most one (R95; reset empty). -/
  sends     : List PortWord
  /-- Matrix staging buffer, bytes 0–63 (R197; reset 0). -/
  stage     : CLine
  /-- Pending matrix fault (R222; reset none). -/
  mfault    : Option MFault
  /-- seq of this context's last matrix commit (R198; reset 0). -/
  mlast     : Word
  /-- WFE wake latch (R145; reset false). -/
  wake      : Bool
  /-- Last exit value of a helper (R140; reset 0). -/
  exitVal   : Word
  /-- The last exit was by HKILL (R140; reset false). -/
  killed    : Bool
  /-- HKILL asked this helper to end at its next issue point (R141; reset false). -/
  killReq   : Bool
  /-- Vector queue, oldest first, at most 4 (R163; reset empty). -/
  vq        : List VEntry
  /-- Deficit counter of the vector arbiter (R165; reset 0). -/
  deficit   : Nat
  /-- Flags of vector instructions that have run, with the cycle in which each completes and its flags accrue (R75; reset empty). -/
  vflags    : List (Nat × BitVec 8)
  /-- CNTRD counter 1: cycles ready and not selected (R146; reset 0). -/
  cntReady  : Word
  /-- CNTRD counter 2: cycles held (R146; reset 0). -/
  cntHeld   : Word
  /-- Failed stores not reported yet (R234; reset empty). -/
  failed    : List FailedStore
  /-- Outstanding retry-ring entries, at most four (R380; reset empty). -/
  ring      : List RingHold
  /-- Range scoreboard, at most 8 entries (R279; reset empty). -/
  ranges    : List RangeEntry
  /-- Contexts that must issue before this one after its YIELD (R142; reset empty). -/
  yieldTo   : List Nat
  /-- The next fetch is the context's first own fetch and is checked by Enter (R128, R139; reset false). -/
  enter     : Bool
  /-- Forwarded instruction a troupe follower issues next (R267; reset none). -/
  fwd       : Option FwdEntry
  /-- What the context waits for (R95, R266, R269, R291, R320; reset none). -/
  wait      : Wait
  /-- The context is the fault-service context, outside every group (R397; reset false). -/
  service   : Bool
  /-- A trap of this context met a vector that was not resident, and nothing of it issues (R148; reset false). -/
  missed    : Bool
  /-- Handlers under way from a deferred trap on; no other deferred trap is taken before its ERET (R155; reset 0). -/
  defDepth  : Nat
deriving DecidableEq, Repr

/-- The state of a code slot (R127). -/
inductive Slot where
  | empty
  | fetching (seg : Word) (seq : BitVec 32) (ctx : Nat) (owner : Xctx)
  | resident (seg : Word) (seq : BitVec 32)
  | failed (seg : Word) (seq : BitVec 32)
deriving DecidableEq, Repr

/-- The state of a line in an L1; I is the absence of the line (R230). -/
inductive L1State where
  | S | P | O | T
deriving DecidableEq, Repr

/-- A line held in an L1 (R230), with the cycle of its fill; a T copy keeps the address of the load that filled it, and the ranges of the range
fences since then, which its own address was not in (R253). `bad` says that the copy came poisoned, with a push (R245, R384). -/
structure L1Line where
  line  : Nat
  st    : L1State
  data  : CLine
  dirty : Bool
  fill  : Nat
  va    : Word
  spared : List (Nat × Nat)
  bad   : Bool
deriving DecidableEq, Repr

/-- The shadow or active set of the matrix unit: cr.fmta, cr.fmtb, cr.fmtd, cr.scla, cr.sclb, cr.scld (R201, R202). -/
structure MSet where
  fmta : Word
  fmtb : Word
  fmtd : Word
  scla : Word
  sclb : Word
  scld : Word
deriving DecidableEq, Repr

/-- What the matrix unit keeps of a record of MMA.R after its check (R213). -/
structure MRecord where
  fail  : Option (BitVec 3)
  first : Nat
  rows  : Nat
  tile  : Nat
  kr    : Nat
  w     : Nat
  ty    : BitVec 4
  planes : Word
  exps   : Word
deriving DecidableEq, Repr

/-- A matrix command in the queue, and how far it has been executed (R198, R199, R225); `orphan` says that the helper
that committed it has ended (R222). The accesses of its context that came before the commit are numbered below `before` (R218), and `pc` is the
address of the committing store. -/
structure MCmd where
  bytes   : CLine
  pc      : Word
  seq     : Word
  ctx     : Nat
  order   : Nat
  before  : Nat
  shadow  : Option MSet
  ranges  : List (CtxId × Nat)
  xctx    : Xctx
  started : Bool
  bad     : Option (BitVec 4)
  kb      : Nat
  rcd     : Nat
  records : List MRecord
  performed : Bool
  memFail : Bool
  fflags  : BitVec 8
  orphan  : Bool
deriving DecidableEq, Repr

/-- What runs on a core (R371, R373, R287). -/
structure GroupRef where
  part     : Nat
  launch   : BitVec 32
  index    : Nat
  first    : Nat
  log2     : Nat
  contexts : Nat
  lines    : Nat
  slots    : Nat
  yield    : Bool
  started  : Bool
  gexit    : Bool
  /-- Lines of the core's scratchpad that were reserved for the fault-service context as the group was placed (R370). -/
  kept     : Nat
deriving DecidableEq, Repr

/-- A core (R93, R156, R230, R259, R265). -/
structure Core where
  /-- The group the core runs (R371; reset none). -/
  group    : Option GroupRef
  /-- ctx0 and h1–h10 (R93; reset each as `Ctx.reset`). -/
  ctxs     : Vector Ctx 11
  /-- Context selected last by issue (R142; reset 10, so that ctx0 is first). -/
  rr       : Nat
  /-- First cycle in which the core may issue again (R142; reset 0). -/
  nextIssue : Nat
  /-- Number of instructions issued, the order of R167 (R167; reset 0). -/
  issueSeq : Nat
  /-- Stopped by HALT, a cross-trigger halt or the curtain tree (R146, R296, R386; reset false). -/
  halted   : Bool
  /-- cr.spsize.SIZE 0x045 (R63, R156; reset 0, set at start). -/
  spsize   : BitVec 2
  /-- cr.pquota.QUOTA 0x046 (R63, R247; reset 32). -/
  pquota   : BitVec 8
  /-- cr.prefused 0x047 (R63, R247; reset 0). -/
  prefused : Word
  /-- cr.pdenied 0x048 (R63, R247; reset 0). -/
  pdenied  : Word
  /-- cr.qroute0–3 0x04C–0x04F (R63, R260; reset 0). -/
  qroute   : Vector Word 4
  /-- cr.msgsent 0x050 (R63, R263; reset 0). -/
  msgsent  : Word
  /-- cr.msgrecv 0x051 (R63, R263; reset 0). -/
  msgrecv  : Word
  /-- cr.hstk 0x052 (R63, R139; reset 0). -/
  hstk     : Word
  /-- cr.hstksz 0x053 (R63, R139; reset 0). -/
  hstksz   : Word
  /-- cr.grp 0x055 (R63, R373; reset 0, set at start). -/
  grp      : Word
  /-- cr.ngrp 0x056 (R63, R373; reset 0, set at start). -/
  ngrp     : Word
  /-- cr.launch 0x057 (R63, R373; reset 0, set at start). -/
  launch   : Word
  /-- cr.dm1–cr.dm4 0x058–0x05B (R63, R287; reset 0, dm1 set at start). -/
  dm       : Vector Word 4
  /-- cr.trwait.LIMIT 0x05C (R63, R266; reset 65,536). -/
  trwait   : BitVec 32
  /-- cr.bankslip 0x05D (R63, R162; reset 0). -/
  bankslip : Word
  /-- Shadow set 0x080–0x085 (R63, R201, R202; reset 0). -/
  shadow   : MSet
  /-- Active set (R201, R207; reset 0). -/
  active   : MSet
  /-- cr.amaxp 0x086 (R63, R202; reset 0). -/
  amaxp    : Word
  /-- cr.amaxsc.SCOPE 0x087 (R63, R202; reset 5). -/
  amaxsc   : BitVec 3
  /-- cr.olist 0x088 (R63, R202; reset 0). -/
  olist    : Word
  /-- cr.olim.COUNT 0x089 (R63, R202; reset 0). -/
  olim     : BitVec 32
  /-- cr.ocnt 0x08A (R63, R202; reset 0). -/
  ocnt     : Word
  /-- cr.adtab 0x08B (R63, R203; reset 0). -/
  adtab    : Word
  /-- cr.rqtab 0x08C (R63, R203; reset 0). -/
  rqtab    : Word
  /-- cr.mflog 0x08D (R63, R204; reset 0). -/
  mflog    : Word
  /-- cr.mdone 0x08E (R63, R204; reset 0). -/
  mdone    : Word
  /-- cr.strcnt0–7 0x0C0–0x0C7 (R63, R255; reset 0). -/
  strcnt   : Vector Word 8
  /-- cr.strterm0–3 0x0C8–0x0CB (R63, R256; reset 0). -/
  strterm  : Vector Word 4
  /-- cr.strtgt 0x0CC (R63, R257; reset 0). -/
  strtgt   : Word
  /-- Cycle of the write that started the strings timer (R257; reset 0). -/
  timerAt  : Nat
  /-- Strings targets that have fired and not acted yet: WAKE in bit 0, HSTM in bit 1 (R258; reset 0). -/
  strDue   : BitVec 2
  /-- The sources that have pulsed in this cycle (R254; reset 0). -/
  strPulse : BitVec 16
  /-- The sources that pulsed in the last cycle, whose pulses reach their counters in this one (R254, R258; reset 0). -/
  strNext  : BitVec 16
  /-- Terms that consumed in this cycle already, with the cycle (R258; reset 0). -/
  strCons  : Nat × BitVec 4
  /-- The entry and the argument of the helper start that HPEND says is pending, as read when the trigger fired (R259; reset none). -/
  hpending : Option (Word × Word)
  /-- cr.evcnt0–7 0x0D0–0x0D7 (R63, R144; reset 0). -/
  evcnt    : Vector Word 8
  /-- cr.asid 0x100 (R63, R302; reset 0, set at start). -/
  asid     : BitVec 16
  /-- cr.ttab 0x101 (R63, R302; reset 0, set at start). -/
  ttab     : Word
  /-- cr.tenlease.LEASE 0x102 (R63, R325; reset 1,048,576). -/
  tenlease : BitVec 32
  /-- cr.peertab 0x103 (R63, R429; reset 0). -/
  peertab  : Word
  /-- cr.scopedemote 0x105 (R63, R401; reset 0). -/
  scopedemote : Word
  /-- cr.dly0–63 0x200–0x23F (R63, R297; reset 0). -/
  dly      : Vector Word 64
  /-- cr.dlyn0–63 0x240–0x27F (R63, R297; reset 0). -/
  dlyn     : Vector Word 64
  /-- Instruction memory, 64 KiB, byte slot × 2,048 + offset (R127; reset 0). -/
  imem     : Memory
  /-- The 32 code slots (R127; reset EMPTY). -/
  slots    : Vector Slot 32
  /-- Fetch sequence counter (R129; reset 0). -/
  fetchSeq : BitVec 32
  /-- Scratchpad, up to 240 KiB (R156, R158; reset 0). -/
  spad     : Memory
  /-- Accumulators acc0–acc7 (R196, R219; reset 0). -/
  accs     : Vector Acc 8
  /-- Matrix command queue, oldest first (R198, R199; reset empty). -/
  mq       : List MCmd
  /-- Matrix command counter (R198; reset 0). -/
  mseq     : Word
  /-- Input ports q0–q3, head first, at most 16 words each (R95; reset empty). -/
  ports    : Vector (List PortWord) 4
  /-- L1 lines, most recently used first (R230; reset empty). -/
  l1       : List L1Line
  /-- Last engine ticket (R274; reset 0). -/
  ticket   : BitVec 32
  /-- Context served last by the vector arbiter (R165; reset 10). -/
  vserved  : Nat
  /-- Cycle until which each lane group is taken (R161, R166; reset 0). -/
  lanes    : Vector Nat 4
  /-- Cycle in which the group started, for CNTRD 0 (R146; reset 0). -/
  startAt  : Nat
  /-- CNTRD counter 3: L1 misses (R146; reset 0). -/
  cntMiss  : Word
  /-- CNTRD counter 4: pushed lines used (R146; reset 0). -/
  cntPush  : Word
  /-- CNTRD counter 5: lane-group busy cycles (R146; reset 0). -/
  cntLane  : Word
  /-- CNTRD counter 6: matrix-unit busy cycles (R146; reset 0). -/
  cntMatrix : Word
  /-- CNTRD counter 7: engine commands sent (R146; reset 0). -/
  cntEngine : Word
  /-- Phase counts sent_L of levels 1–4 (R292; reset 0). -/
  sent     : Vector Word 4
  /-- Phase counts recv_L of levels 1–4 (R292; reset 0). -/
  recv     : Vector Word 4
  /-- SYNCs and BARs completed at levels 1–4 (R291, R294; reset 0). -/
  phase    : Vector (BitVec 32) 4
  /-- Forwarded instructions buffered here, oldest first, at most 8 (R267; reset empty). -/
  fwdBuf   : List FwdEntry
  /-- Last PC sampled for ctx0, DMPC (R295; reset 0). -/
  dmpc     : Word
deriving DecidableEq, Repr

/-- A troupe of a cluster (R266, R271). Masks are of local core numbers. -/
structure Troupe where
  members  : BitVec 16
  leader   : Nat
  detached : BitVec 16
deriving DecidableEq, Repr

/-- A leaf of stage 2, with the page of intermediate addresses it maps (R304). -/
structure S2Leaf where
  large : Bool
  page  : Nat
  leaf  : BitVec 128
deriving DecidableEq, Repr

/-- One completed walk held in a translation cache (R311): the page, its leaf, the slots of a REPLICA leaf's set, and the leaves of stage 2 that
accesses through it have met; or the peer entry and the window entry of a peer window (R431), whose page is its peer and window number.
[log DEDUCED 22] -/
structure TlbEntry where
  vmid   : BitVec 16
  asid   : Option (BitVec 16)
  large  : Bool
  page   : Nat
  leaf   : BitVec 128
  slots  : List Word
  peer   : Option (BitVec 128 × BitVec 128)
  s2     : List S2Leaf
deriving DecidableEq, Repr

/-- A cluster (R260, R265, R272, R295, R311). -/
structure Cluster where
  /-- Troupes formed among its cores (R266; reset none). -/
  troupes : List Troupe
  /-- Translation cache (R311; reset empty). -/
  tlb    : List TlbEntry
  /-- DMCTL.BKH, DMCTL.TRACE (R295; reset 0). -/
  dmctl  : BitVec 2
  /-- DMSTAT.HALTED (R295; reset 0). -/
  halted : Bool
  /-- DMSTAT.CAUSE (R295; reset 0). -/
  cause  : BitVec 3
  /-- DMSTAT.CORE (R295; reset 0). -/
  dcore  : BitVec 4
  /-- cr.pwmode.THR: throttled in the last microsecond (R410; reset 0). -/
  thr    : Bool
  /-- Throttled in the microsecond under way (R412; reset false). -/
  slowed : Bool
  /-- Grant left over in the last microsecond, five categories in 1/1,600 milliwatts (R411; reset 0). -/
  spare  : List Nat
deriving DecidableEq, Repr

/-- A launch (R32, R361, R363, R365, R368). -/
structure Launch where
  id       : BitVec 32
  issued   : Nat
  entry    : Word
  groups   : Nat
  log2     : Nat
  contexts : Nat
  lines    : Nat
  slots    : Nat
  prio     : Nat
  pinned   : Bool
  troupe   : Bool
  yield    : Bool
  dep0     : BitVec 2
  dep1     : BitVec 2
  pred0    : BitVec 32
  pred1    : BitVec 32
  /-- The issue numbers of the launches that `pred0` and `pred1` named as the launch was queued (R366). -/
  on0      : Option Nat
  on1      : Option Nat
  args     : Word
  seg      : Word
  place    : List Nat
  asid     : BitVec 16
  ttab     : Word
  tvec     : Word
  disp     : Nat
  ended    : Nat
  running  : Nat
  cancelled : Bool
  /-- Members whose group has ended: launch core index, core, domain words, sent and recv counts (R288). -/
  gone     : List (Nat × Nat × List Word × List Word × List Word)
deriving DecidableEq, Repr

/-- A tile (R317, R321): its physical footprint, element size, extents and pitches, and its page's instance. -/
structure Tile where
  base  : Nat
  min   : Nat
  max   : Nat
  esize : Nat
  ext   : List Nat
  pitch : List Nat
deriving DecidableEq, Repr

/-- An index of a partition's tile table (R318): the generation it carries and the tile open on it. -/
structure TileIndex where
  idx  : Nat
  gen  : Nat
  tile : Option Tile
deriving DecidableEq, Repr

/-- A tenure held, or lost and not released; it keeps its tile's first and last line, and the index 2^20 once the handle is gone
(R320, R322, R325, R326). -/
structure Tenure where
  id    : Nat
  idx   : Nat
  ctx   : CtxId
  write : Bool
  at_   : Nat
  lease : Nat
  lost  : Bool
  told  : Bool
  lo    : Nat
  hi    : Nat
deriving DecidableEq, Repr

/-- A tenure request queued at the tile home (R322). -/
structure TenReq where
  id    : Nat
  idx   : Nat
  gen   : Nat
  ctx   : CtxId
  write : Bool
deriving DecidableEq, Repr

/-- An entry of the retry ring that is not completed (R379, R382). -/
structure RingEntry where
  n      : Nat
  ctx    : CtxId
  pc     : Word
  va     : Word
  data   : Word
  word   : IWord
  load   : Bool
  reg    : Reg
  aux    : Word
  popped : Bool
deriving DecidableEq, Repr

/-- A partition and its control block (R389–R397). -/
structure Part where
  /-- PCTL.STATE: 0 FREE, 1 RUNNING, 2 STOPPING, 3 SAVED, 4 RESTORING, 5 HALTED (R390; reset 0). -/
  state    : BitVec 3
  /-- PCTL.ERR (R390; reset 0). -/
  err      : BitVec 4
  /-- PCTL.REASON (R386, R390; reset 0). -/
  reason   : BitVec 2
  /-- PRANGE.BASE, cr.ptbase 0x300 (R63, R390; reset 0, set by H). -/
  base     : BitVec 11
  /-- PRANGE.LEN, cr.ptlen 0x301 (R63, R390; reset 0, set by H). -/
  len      : BitVec 11
  /-- HVEC (R390, R394; reset 0). -/
  hvec     : Word
  /-- SAVE (R390, R395; reset 0). -/
  save     : Word
  /-- SWT.TICK (R390, R396; reset 0). -/
  swt      : Word
  /-- MBOX (R390, R398; reset 0). -/
  mbox     : Word
  /-- SVCPC (R390, R397; reset 0). -/
  svcpc    : Word
  /-- LDESC (R390, R393; reset 0). -/
  ldesc    : Word
  /-- LASID (R390, R393; reset 0). -/
  lasid    : BitVec 16
  /-- LTTAB (R390, R393; reset 0). -/
  lttab    : Word
  /-- LTVEC (R390, R393; reset 0). -/
  ltvec    : Word
  /-- LRES (R390, R393; reset 0). -/
  lres     : Word
  /-- cr.scopecap.CAP 0x104 (R63, R401; reset 7). -/
  scopecap : BitVec 3
  /-- cr.scopecapf.TRAP 0x106 (R63, R401; reset 0). -/
  scopecapf : Bool
  /-- cr.tsoff 0x181 (R63, R406; reset 0). -/
  tsoff    : Word
  /-- cr.tsscale.SCALE 0x182 (R63, R406; reset 65,536). -/
  tsscale  : BitVec 32
  /-- cr.tshide.HIDE 0x183 (R63, R406; reset 0). -/
  tshide   : Bool
  /-- cr.rring 0x184 (R63, R381; reset 0). -/
  rring    : Word
  /-- cr.rrsz.LOG2 0x185 (R63, R381; reset 0). -/
  rrsz     : BitVec 5
  /-- cr.rrhead.HEAD 0x186 (R63, R381; reset 0). -/
  rrhead   : BitVec 32
  /-- cr.rrtail.TAIL 0x187 (R63, R381; reset 0). -/
  rrtail   : BitVec 32
  /-- Entries of the ring not completed; their number is cr.rrtail.OUT (R381, R382; reset empty). -/
  ringEnts : List RingEntry
  /-- cr.yieldreq.REQ 0x302 (R63, R375; reset 0). -/
  yieldreq : Bool
  /-- cr.svccore 0x303 (R63, R370; reset 0). -/
  svccore  : Word
  /-- cr.pwmode.MODE 0x304 (R63, R410; reset 0). -/
  pwmode   : BitVec 3
  /-- cr.tslice.TICKS 0x305 (R63, R375; reset 0). -/
  tslice   : BitVec 32
  /-- Tick of the last resume, from which cr.tslice counts (R375; reset 0). -/
  sliceAt  : Nat
  /-- The slice that began there has expired (R375; reset false). -/
  sliced   : Bool
  /-- cr.s2base 0x400 (R63, R302; reset 0). -/
  s2base   : Word
  /-- cr.vmid.VMID 0x401 (R63, R302; reset 0). -/
  vmid     : BitVec 16
  /-- cr.vfnum 0x402: BOUND in bit 7, VF in [5:0] (R63, R398; reset 0). -/
  vfnum    : BitVec 8
  /-- cr.colmask.MASK 0x403 (R63, R405; reset 0). -/
  colmask  : Word
  /-- cr.fabto.TIMEOUT 0x404 (R63, R428; reset 0). -/
  fabto    : BitVec 24
  /-- cr.s2ctl.EN 0x405 (R63, R302; reset 0). -/
  s2ctl    : Bool
  /-- Launches known to the device, oldest first (R361, R365; reset empty). -/
  launches : List Launch
  /-- Number of launches issued; ids run 1 … 2^32 − 1 and wrap to 1 (R361; reset 0). -/
  issued   : Nat
  /-- Placement pointer (R372; reset 0). -/
  pointer  : Nat
  /-- Tile table: the indices that have ever been open (R318; reset empty). -/
  tiles    : List TileIndex
  /-- Tenures held (R320; reset empty). -/
  tenures  : List Tenure
  /-- Tenure requests queued, oldest first (R322; reset empty). -/
  tenReqs  : List TenReq
  /-- Tick at which a SWITCH or a yield stops the cores (R376, R392; reset none). -/
  switchAt : Option Nat
  /-- Tick at which the partition entered STOPPING (R408; reset 0). -/
  stopAt   : Nat
  /-- LEN at the SWITCH that saved the partition, which RESUME compares (R392; reset 0). -/
  savedLen : BitVec 11
  /-- The MODEL's own: a LAUNCH whose reads wait for a tenure or for copies that peers hold (R324, R393, R438; reset false). -/
  launching : Bool
deriving DecidableEq, Repr

/-- What a memory request does (R226, R239, R244, R252, R436). -/
inductive ReqKind where
  | load (signed : Bool)
  | store
  | amo (op : BitVec 4)
  | sti (rep : Bool) (targets : List (Nat × Nat))
  /-- `left` has a bit for each element that is not added yet (R345, R436). -/
  | vamo (ty : BitVec 2) (data : BitVec 1024) (left : BitVec 64)
  | fence (kind : BitVec 2) (lo hi : Nat)
deriving DecidableEq, Repr

/-- A request of a context that has issued and whose response has not come back (R236, R237). A fence that is not
complete stands among them, in program order (R252). `scope` is under the partition's ceiling, `asked` the scope that the instruction encodes, which
alone says whether an atomic executes in the L1 or at its home (R240, R402). -/
structure Req where
  id     : Nat
  ctx    : CtxId
  part   : Nat
  pc     : Word
  va     : Word
  loc    : Loc
  size   : Nat
  rt     : BitVec 2
  kind   : ReqKind
  scope  : BitVec 3
  asked  : BitVec 3
  acq    : Bool
  rel    : Bool
  dest   : Reg
  data   : Word
  expect : Word
  issuedAt : Nat
  sent   : Bool
  performed : Bool
  value  : Word
  poison : Bool
  gone   : Bool
  drop   : Bool
  replay : Option Nat
  /-- The route of a result for a port, as an `Inflight` keeps it (R261). -/
  route  : Option Word
deriving DecidableEq, Repr

/-- A push of an STI on its way (R244, R245), with the address of the STI, which range fences compare (R253). -/
structure Push where
  id     : Nat
  ctx    : CtxId
  req    : Nat
  part   : Nat
  target : Nat
  bit    : Nat
  line   : Nat
  data   : CLine
  va     : Word
deriving DecidableEq, Repr

/-- A replica write on its way to one replica (R308), with the address of the store, which range fences compare (R253). -/
structure RepUpdate where
  id    : Nat
  ctx   : CtxId
  part  : Nat
  pa    : Nat
  size  : Nat
  value : BitVec 512
  va    : Word
deriving DecidableEq, Repr

/-- A die copy of a far-memory line (R333); `inval` is the stamp of an invalidation on its way to it. -/
structure FarCopy where
  line  : Nat
  die   : Nat
  data  : CLine
  owned : Bool
  inval : Option Nat
deriving DecidableEq, Repr

/-- A far store that waits for invalidations up to a stamp at scope .pkg and wider (R334), with its address and size, which range fences compare
(R253). -/
structure FarWrite where
  ctx   : CtxId
  line  : Nat
  stamp : Nat
  va    : Word
  size  : Nat
deriving DecidableEq, Repr

/-- A copy of a line of this package that a peer holds (R434); `owned` says that it may have written it, and `till` is the cycle up to which an
invalidation or a recall sent to it may be answered (R438). -/
structure PeerCopy where
  peer  : Nat
  line  : Nat
  owned : Bool
  till  : Option Nat
deriving DecidableEq, Repr

/-- A request of a peer that waits at its home for the copies that other peers hold (R438). -/
structure PeerWait where
  src    : Nat
  exp    : Nat
  ra     : Nat
  op     : PeerOp
  value  : Word
  expect : Word
deriving DecidableEq, Repr

/-- A line that its home has marked poisoned, with a bit for each byte that has not been written since: it is poisoned until the whole line is (R384).
[log DEDUCED 94] -/
structure BadLine where
  line : Nat
  left : BitVec 64
deriving DecidableEq, Repr

/-- An access of the host, a message that lands, or a write that the package makes for a partition, that waits at its home for the copies that peers hold
(R438). -/
inductive DevOp where
  /-- The host writes at most eight bytes (R423). -/
  | write (pa size : Nat) (value : Word)
  /-- The host reads as many (R399, R423). -/
  | read (pa size : Nat)
  /-- The host writes the mailbox of a partition (R399). -/
  | mailbox (part pa size : Nat) (value : Word)
  /-- A message lands in a ring (R444). -/
  | landing (part job ring : Nat) (source : BitVec 128) (data : List Byte)
  /-- The package writes a partition's save area or its retry ring (R381, R386, R392). -/
  | own (part pa size value : Nat)
deriving DecidableEq, Repr

/-- What this package tells a peer: that it is severed, or that it has flushed that peer's lines (R438). -/
inductive Notice where
  | severed (peer : Nat)
  | flushed (peer : Nat)
deriving DecidableEq, Repr

/-- A virtual function after a reset (R439): until a cycle its partition's responses are awaited, and then its tag is dead. -/
structure DeadTag where
  vf     : Nat
  part   : Nat
  awaits : Bool
  till   : Nat
deriving DecidableEq, Repr

/-- An engine command and its progress record (R275, R281): its bytes and its tensor descriptor's as the engine read them, the
interval of its domain and the sender's launch core index, the members of a merged command or a collective, and the frames of
its shadow. A send that has left the package keeps the cycle in which it left and the one in which the receiver acknowledges it (R442). -/
structure XCmd where
  core    : Nat
  ticket  : Nat
  ctx     : CtxId
  order   : Nat
  bytes   : CLine
  desc    : List Byte
  engine  : Word
  xctx    : Xctx
  launch  : BitVec 32
  dom     : Word
  member  : Nat
  sentAt  : Nat
  state   : BitVec 4
  status  : BitVec 8
  phase   : BitVec 4
  ncomb   : Nat
  group   : List (Nat × Nat)
  index   : Nat
  va      : Word
  reported : Bool
  frames  : List Nat
  dva     : Word
  left    : Option (Nat × Nat)
deriving DecidableEq, Repr

/-- An edge group's control register (R422). -/
structure Edge where
  pers : BitVec 2
  next : BitVec 2
  up   : Bool
deriving DecidableEq, Repr

/-- The staged and the installed far range of a pair (R422, R425): first PA and size in 256 MiB units. -/
structure FarRange where
  valid : Bool
  base  : Nat
  size  : Nat
deriving DecidableEq, Repr

/-- The fabric page and the fabric behind it (R421–R426, R438). -/
structure Fabric where
  /-- FABID.PEER (R422; reset 0). -/
  peer    : BitVec 10
  /-- FABID.NORFEL (R422; reset 0). -/
  norfel  : Bool
  /-- TURN.STATE (R422; reset 0). -/
  state   : BitVec 3
  /-- TURN.RESULT (R422; reset 0). -/
  result  : BitVec 4
  /-- Cycle in which the turn under way left ACTIVE (R424, R426; reset 0). -/
  goAt    : Nat
  /-- TURN.FAILED, one bit for each group (R422; reset 0). -/
  failed  : BitVec 48
  /-- HOMETO (R422; reset 0). -/
  hometo  : BitVec 24
  /-- EXPTAB (R422, R432; reset 0). -/
  exptab  : Word
  /-- HWIN (R422, R423; reset 0). -/
  hwin    : Word
  /-- SEVLOST (R422, R438; reset 0). -/
  sevlost : Word
  /-- TCMIN0 (R422; reset 0x0808_0808_0808_0808). -/
  tcmin0  : Word
  /-- TCMIN1 (R422; reset 0x0808_0808_0808_0808). -/
  tcmin1  : Word
  /-- EGCTL0–47 (R422; reset PERS OFF, NEXT OFF, UP 0). -/
  edges   : Vector Edge 48
  /-- FBASE and FSIZE of pairs 1–23, index 0 unused (R422; reset 0). -/
  staged  : Vector FarRange 24
  /-- Far ranges installed (R425, R426; reset none). -/
  ranges  : Vector FarRange 24
  /-- SEVMASK, one bit for each peer (R422, R438; reset 0). -/
  sevmask : BitVec 1024
deriving DecidableEq, Repr

/-- A partition's network page (R441). -/
structure NetPage where
  /-- EPTAB (R441; reset 0). -/
  eptab   : Word
  /-- EPLEN (R441; reset 0). -/
  eplen   : BitVec 13
  /-- RINGTAB (R441; reset 0). -/
  ringtab : Word
  /-- RINGLEN (R441; reset 0). -/
  ringlen : BitVec 9
  /-- JOBID (R441; reset 0). -/
  jobid   : BitVec 24
deriving DecidableEq, Repr

/-- The security page and the boot state (R413–R415). -/
structure Security where
  /-- MEAS0–MEAS7 (R414; reset 0). -/
  meas    : Vector (BitVec 256) 8
  /-- NONCE (R414; reset 0, no value stated). -/
  nonce   : BitVec 256
  /-- Number of draws of UNONCE from the random source (R414; reset 0). -/
  draws   : Nat
  /-- REQ bit 1: a report is in progress (R414; reset 0). -/
  busy    : Bool
  /-- Report buffer 0x200–0x5FF (R414; reset 0). -/
  report  : List Byte
  /-- Token area 0x600–0x7FF (R415; reset 0). -/
  token   : List Byte
  /-- Debug scopes opened: bit p for partition p (R415; reset 0). -/
  opened  : BitVec 64
  /-- Boot stages verified so far; the first failed check stops the boot (R413; reset 0). -/
  stages  : Nat
  /-- The boot stopped at a failed check (R413; reset false). -/
  stopped : Bool
deriving DecidableEq, Repr

/-- How the last issued instruction of a context ended; the troupe's forwarding reads it (R267, R268). -/
inductive Note where
  | none | retired | held | trapped
deriving DecidableEq, Repr

/-- Who moves next. [log DESIGN CHOICE 3; DEDUCED 8] -/
inductive Act where
  /-- This context is selected by issue (R142). -/
  | issue (c : CtxId)
  /-- This event comes about. -/
  | event (i : Instr)
  /-- A doubleword reaches an MMIO register (R229, R452). -/
  | write (pa : Nat) (value : Word)
  /-- This many cycles pass, one a step. -/
  | pass (n : Nat)
  /-- The runtime copies bytes of a launch's spad image into the scratchpad of a core (R28, R373). -/
  | image (core at_ : Nat) (bytes : List Byte)
  /-- An external debugger reads a register of a debug module or of a partition control block, or writes it (R295, R415). -/
  | debugger (pa : Nat) (value : Option Word)
deriving DecidableEq, Repr

/-- The machine. -/
structure State where
  /-- Core clock cycles since reset; the package counter is 5/9 of it (R3, R406; reset 0). -/
  cycle    : Nat
  /-- The MODEL's own: the issue slots of this cycle are over, and what a unit updates in it comes on top of what its instructions
  wrote (R75, R120; reset false). -/
  late     : Bool
  /-- The MODEL's own: what moves in the next steps, first first; empty leaves it to the default order (reset empty). -/
  agenda   : List Act
  /-- The MODEL's own: the context whose instruction is being executed (reset core 0, ctx0). -/
  cur      : CtxId
  /-- The MODEL's own: how that instruction ended (reset none). -/
  note     : Note
  /-- The MODEL's own: number of free values drawn (reset 0). -/
  freeCtr  : Nat
  /-- Bonded DRAM, and far memory at its far homes (R332, R333; reset unlisted bytes 0). -/
  mem      : Memory
  /-- Lines marked poisoned by an uncorrectable error, with their bytes not written since (R384; reset empty). -/
  bad      : List BadLine
  /-- The 25,600 cores by global number; one that is not listed is as `Core.reset` (R2; reset none listed). Core r of a SAVED
  partition p stands under the number 2^20 × (p + 1) + r until it is restored (R377). -/
  cores    : List (Nat × Core)
  /-- The 1,600 clusters by rank; one that is not listed is as `Cluster.reset` (R1; reset none listed). Those of a SAVED
  partition stand under the ranks that belong to its cores' numbers (R377). -/
  clusters : List (Nat × Cluster)
  /-- Partitions 0–63 (R389; reset FREE). -/
  parts    : Vector Part 64
  /-- Requests in flight, oldest first (R236, R237; reset empty). -/
  reqs     : List Req
  /-- Number of the next request, push, update, tenure, request or port word (reset 0). -/
  nextId   : Nat
  /-- Pushes in flight (R244; reset empty). -/
  pushes   : List Push
  /-- Replica updates in flight (R308; reset empty). -/
  updates  : List RepUpdate
  /-- Port words accepted by the routers (R262; reset empty). -/
  net      : List PortWord
  /-- Die copies of far lines (R333; reset empty). -/
  far      : List FarCopy
  /-- Number of far invalidations sent (R333; reset 0). -/
  farStamp : Nat
  /-- Far stores not yet performed at .pkg (R334; reset empty). -/
  farWrites : List FarWrite
  /-- Directory of this package's lines held by peers (R434, R438; reset empty). -/
  peerDir  : List PeerCopy
  /-- Requests of peers that wait for those copies, oldest first (R438; reset empty). -/
  peerWaits : List PeerWait
  /-- Accesses of the host, messages and the package's own writes that wait for those copies, oldest first (R438; reset empty). -/
  devWaits : List DevOp
  /-- Notices sent to peers, oldest first (R438; reset empty). -/
  notices  : List Notice
  /-- Engine commands and their records, oldest first (R275, R281; reset empty). -/
  engine   : List XCmd
  /-- Fabric page and edge (R422; reset as `Fabric.reset`). -/
  fabric   : Fabric
  /-- Network pages 0–63 (R441; reset 0). -/
  netPages : Vector NetPage 64
  /-- Security page and boot (R413, R414; reset as `Security.reset`). -/
  security : Security
  /-- Microseconds whose grants have been settled (R411; reset 0). -/
  epochs   : Nat
  /-- Virtual functions whose partition's responses are awaited after a reset, or whose tag is dead (R439; reset empty). -/
  deadTags : List DeadTag
  /-- MSI-X messages sent to the host: function (0 PF, v + 1 VF v) and vector, oldest first (R392, R400; reset empty). -/
  msi      : List (Nat × Nat)
  /-- Value of the last host or debugger read (R415, R423; reset 0). -/
  hostRead : Word
  /-- SUPPLY.KW8, fused (R390; reset 0). -/
  kw8      : Bool
deriving DecidableEq, Repr

/-- A context that holds nothing: every register at its reset value (R63, R93). [log DESIGN CHOICE 2] -/
def Ctx.reset : Ctx :=
  ⟨false, 0, Vector.replicate 32 0, 0, Vector.replicate 32 (0, 0), Vector.replicate 32 0,
    Vector.replicate 4 (BitVec.allOnes 1024), 0, 0, 0, false, 0, 0, 0, 0, 0, 0, 0, 0, 0, false, 0, 8, false, none, 0, [], [],
    none, [], [], 0, none, 0, false, 0, false, false, [], 0, [], 0, 0, [], [], [], [], false, none, .none, false, false, 0⟩

/-- The matrix sets at reset (R63). -/
def MSet.reset : MSet := ⟨0, 0, 0, 0, 0, 0⟩

/-- A core of no group, every register at its reset value (R63). [log DESIGN CHOICE 2] -/
def Core.reset : Core where
  group := none
  ctxs := Vector.replicate 11 Ctx.reset
  rr := 10
  nextIssue := 0
  issueSeq := 0
  halted := false
  spsize := 0
  pquota := 32
  prefused := 0
  pdenied := 0
  qroute := Vector.replicate 4 0
  msgsent := 0
  msgrecv := 0
  hstk := 0
  hstksz := 0
  grp := 0
  ngrp := 0
  launch := 0
  dm := Vector.replicate 4 0
  trwait := 65536
  bankslip := 0
  shadow := MSet.reset
  active := MSet.reset
  amaxp := 0
  amaxsc := 5
  olist := 0
  olim := 0
  ocnt := 0
  adtab := 0
  rqtab := 0
  mflog := 0
  mdone := 0
  strcnt := Vector.replicate 8 0
  strterm := Vector.replicate 4 0
  strtgt := 0
  timerAt := 0
  strDue := 0
  strPulse := 0
  strNext := 0
  strCons := (0, 0)
  hpending := none
  evcnt := Vector.replicate 8 0
  asid := 0
  ttab := 0
  tenlease := 1048576
  peertab := 0
  scopedemote := 0
  dly := Vector.replicate 64 0
  dlyn := Vector.replicate 64 0
  imem := []
  slots := Vector.replicate 32 .empty
  fetchSeq := 0
  spad := []
  accs := Vector.replicate 8 0
  mq := []
  mseq := 0
  ports := Vector.replicate 4 []
  l1 := []
  ticket := 0
  vserved := 10
  lanes := Vector.replicate 4 0
  startAt := 0
  cntMiss := 0
  cntPush := 0
  cntLane := 0
  cntMatrix := 0
  cntEngine := 0
  sent := Vector.replicate 4 0
  recv := Vector.replicate 4 0
  phase := Vector.replicate 4 0
  fwdBuf := []
  dmpc := 0

/-- A cluster at reset (R295, R311). [log DESIGN CHOICE 2] -/
def Cluster.reset : Cluster := ⟨[], [], 0, false, 0, 0, false, false, []⟩

/-- A FREE partition (R390). [log DESIGN CHOICE 2] -/
def Part.reset : Part where
  state := 0
  err := 0
  reason := 0
  base := 0
  len := 0
  hvec := 0
  save := 0
  swt := 0
  mbox := 0
  svcpc := 0
  ldesc := 0
  lasid := 0
  lttab := 0
  ltvec := 0
  lres := 0
  scopecap := 7
  scopecapf := false
  tsoff := 0
  tsscale := 65536
  tshide := false
  rring := 0
  rrsz := 0
  rrhead := 0
  rrtail := 0
  ringEnts := []
  yieldreq := false
  svccore := 0
  pwmode := 0
  tslice := 0
  sliceAt := 0
  sliced := false
  s2base := 0
  vmid := 0
  vfnum := 0
  colmask := 0
  fabto := 0
  s2ctl := false
  launches := []
  issued := 0
  pointer := 0
  tiles := []
  tenures := []
  tenReqs := []
  switchAt := none
  stopAt := 0
  savedLen := 0
  launching := false

/-- The fabric page at reset (R421, R422). -/
def Fabric.reset : Fabric where
  peer := 0
  norfel := false
  state := 0
  result := 0
  goAt := 0
  failed := 0
  hometo := 0
  exptab := 0
  hwin := 0
  sevlost := 0
  tcmin0 := 0x0808080808080808
  tcmin1 := 0x0808080808080808
  edges := Vector.replicate 48 ⟨0, 0, false⟩
  staged := Vector.replicate 24 ⟨false, 0, 0⟩
  ranges := Vector.replicate 24 ⟨false, 0, 0⟩
  sevmask := 0

/-- The security page at reset (R414). [log DESIGN CHOICE 2] -/
def Security.reset : Security := ⟨Vector.replicate 8 0, 0, 0, false, [], [], 0, 0, false⟩

/-- The machine right after reset: the boot has not run, every partition is FREE and no core runs a group. [log DESIGN CHOICE 1; DESIGN CHOICE 2] -/
def State.reset : State where
  cycle := 0
  late := false
  agenda := []
  cur := ⟨0, 0⟩
  note := .none
  freeCtr := 0
  mem := []
  bad := []
  cores := []
  clusters := []
  parts := Vector.replicate 64 Part.reset
  reqs := []
  nextId := 0
  pushes := []
  updates := []
  net := []
  far := []
  farStamp := 0
  farWrites := []
  peerDir := []
  peerWaits := []
  devWaits := []
  notices := []
  engine := []
  fabric := Fabric.reset
  netPages := Vector.replicate 64 ⟨0, 0, 0, 0, 0⟩
  security := Security.reset
  epochs := 0
  deadTags := []
  msi := []
  hostRead := 0
  kw8 := false

end Sys2Proof.Machine
end

