-- ==== Sys2Proof/Machine/Base.lean ====
section
/-!
DEFINITION. The first operations over the state: memories, the tables of cores and clusters, partitions, and the trap
causes. Machine/Mem.lean and Machine/Ops.lean build on them.
-/

namespace Sys2Proof.Machine

open Sys2Proof

/-- The outcome of a step or of a meaning. -/
abbrev Out := Host.Outcome State Fault Refusal

/-! ### Memories -/

/-- The byte at an address; an unlisted address reads 0. [log DESIGN CHOICE 1] -/
def getByte (m : Memory) (a : Nat) : Byte :=
  match m with
  | [] => 0
  | (x, b) :: t => if x = a then b else getByte t a

/-- The n bytes from a up as one little-endian number (R5). -/
def readLe (m : Memory) (a n : Nat) : Nat :=
  match n with
  | 0 => 0
  | k + 1 => (getByte m a).toNat + 256 * readLe m (a + 1) k

/-- The cells of the n bytes from a up that hold the number v, the zero bytes left out. -/
def cellsLe (a n v : Nat) : Memory :=
  match n with
  | 0 => []
  | k + 1 =>
    if v % 256 = 0 then cellsLe (a + 1) k (v / 256)
    else (a, BitVec.ofNat 8 v) :: cellsLe (a + 1) k (v / 256)

/-- A memory with the n bytes from a up holding the number v. -/
def writeLe (m : Memory) (a n v : Nat) : Memory :=
  m.filter (fun c => decide (c.1 < a)) ++ cellsLe a n v ++ m.filter (fun c => decide (a + n ≤ c.1))

/-- The n bytes from a up, read in one pass over the memory. -/
def readRange (m : Memory) (a n : Nat) : Nat :=
  readLe (m.filter (fun c => decide (a ≤ c.1 ∧ c.1 < a + n))) a n

/-- The canonical form from an address on: addresses rise strictly and no byte is 0. -/
def Memory.wfFrom (lo : Nat) (m : Memory) : Bool :=
  match m with
  | [] => true
  | (a, b) :: t => decide (lo ≤ a) && decide (b ≠ 0) && Memory.wfFrom (a + 1) t

/-- The canonical form of a memory. [log DESIGN CHOICE 1] -/
def Memory.wf (m : Memory) : Bool := Memory.wfFrom 0 m

/-- A memory without the bytes outside [lo, hi). -/
def clipRange (m : Memory) (lo hi : Nat) : Memory :=
  m.filter (fun c => decide (lo ≤ c.1 ∧ c.1 < hi))

/-! ### Tables -/

/-- The entry of a table, or the default where the key is not listed. -/
def tget {α : Type} (l : List (Nat × α)) (k : Nat) (dflt : α) : α :=
  match l with
  | [] => dflt
  | (j, a) :: t => if j = k then a else tget t k dflt

/-- A table with the entry of a key set, keys rising. -/
def tset {α : Type} (l : List (Nat × α)) (k : Nat) (a : α) : List (Nat × α) :=
  match l with
  | [] => [(k, a)]
  | (j, b) :: t => if j = k then (k, a) :: t else if k < j then (k, a) :: (j, b) :: t else (j, b) :: tset t k a

/-- A core by its global number (R2). -/
def State.core (s : State) (n : Nat) : Core := tget s.cores n Core.reset

/-- The state with a core set. -/
def State.setCore (s : State) (n : Nat) (k : Core) : State := { s with cores := tset s.cores n k }

/-- A cluster by its rank (R1). -/
def State.cluster (s : State) (n : Nat) : Cluster := tget s.clusters n Cluster.reset

/-- The state with a cluster set. -/
def State.setCluster (s : State) (n : Nat) (k : Cluster) : State := { s with clusters := tset s.clusters n k }

/-- A context of a core. -/
def Core.ctx (k : Core) (i : Nat) : Ctx := k.ctxs[i]?.getD Ctx.reset

/-- A core with a context set. -/
def Core.setCtx (k : Core) (i : Nat) (x : Ctx) : Core := { k with ctxs := k.ctxs.setIfInBounds i x }

/-- A context by its name. -/
def State.ctx (s : State) (c : CtxId) : Ctx := (s.core c.core).ctx c.ctx

/-- The state with a context set. -/
def State.setCtx (s : State) (c : CtxId) (x : Ctx) : State := s.setCore c.core ((s.core c.core).setCtx c.ctx x)

/-- The context whose instruction is executed. -/
def State.me (s : State) : Ctx := s.ctx s.cur

/-- The core of the context whose instruction is executed. -/
def State.mine (s : State) : Core := s.core s.cur.core

/-- The state with the executing context set. -/
def State.setMe (s : State) (x : Ctx) : State := s.setCtx s.cur x

/-- The state with the executing context's core set. -/
def State.setMine (s : State) (k : Core) : State := s.setCore s.cur.core k

/-- A partition. -/
def State.part (s : State) (p : Nat) : Part := s.parts[p]?.getD Part.reset

/-- The state with a partition set. -/
def State.setPart (s : State) (p : Nat) (q : Part) : State := { s with parts := s.parts.setIfInBounds p q }

/-- A number of one of the 25,600 cores; the cores of a SAVED partition stand under other numbers, and nothing comes about on
them. [log DEDUCED 35] -/
def isCore (core : Nat) : Bool := decide (core < 25600)

/-- The cluster rank of a core (R2). -/
def rankOf (core : Nat) : Nat := core / 16

/-- A partition owns the cluster rank (R389); a SAVED one has no state in any cluster and owns none. [log DEDUCED 35] -/
def Part.owns (q : Part) (rank : Nat) : Bool :=
  q.state != 0 && q.state != 3 && decide (q.base.toNat ≤ rank) && decide (rank < q.base.toNat + q.len.toNat)

/-- The partition that owns a cluster rank, the lowest one; 0 where none does. -/
def State.partOfRank (s : State) (rank : Nat) : Nat :=
  ((List.range 64).find? (fun p => (s.part p).owns rank)).getD 0

/-- A core's partition is RUNNING (R389). -/
def partRuns (s : State) (core : Nat) : Bool :=
  let q := s.part (s.partOfRank (rankOf core))
  q.state == 1 && q.owns (rankOf core)

/-- The number of the partition of the executing context's core. -/
def State.myPartNo (s : State) : Nat := s.partOfRank (rankOf s.cur.core)

/-- The partition of the executing context's core. -/
def State.myPart (s : State) : Part := s.part s.myPartNo

/-- cr.ptlen of the executing context. -/
def State.ptlen (s : State) : Nat := s.myPart.len.toNat

/-- A core's position, its partition-relative cluster rank (R2). -/
def State.posOf (s : State) (core : Nat) : Nat := rankOf core - (s.part (s.partOfRank (rankOf core))).base.toNat

/-- The global number of a partition-relative core (R2). -/
def Part.coreNo (q : Part) (rel : Nat) : Nat := 16 * q.base.toNat + rel

/-- Scratchpad size in bytes for cr.spsize.SIZE (R156). -/
def spBytes (size : BitVec 2) : Nat :=
  if size = 0 then 131072 else if size = 1 then 196608 else if size = 2 then 229376 else 245760

/-- Scratchpad lines for cr.spsize.SIZE (R156). -/
def spLines (size : BitVec 2) : Nat := spBytes size / 512

/-- The L1's sets of eight 64-byte lines for cr.spsize.SIZE (R156, R230). -/
def l1Sets (size : BitVec 2) : Nat := (262144 - spBytes size) / 512

/-- The package counter in ticks of 1 ns at a core cycle of 1.8 GHz (R3, R406). [log DEDUCED 33] -/
def State.ticks (s : State) : Nat := s.cycle * 5 / 9

/-! ### Trap causes (R155) -/

def cILLEGAL : BitVec 6 := 0x01
def cSTALLSHORT : BitVec 6 := 0x02
def cBANKRULE : BitVec 6 := 0x03
def cSTACKFAULT : BitVec 6 := 0x04
def cCODEABSENT : BitVec 6 := 0x05
def cCODEEND : BitVec 6 := 0x06
def cCODELATE : BitVec 6 := 0x07
def cREPEATBAD : BitVec 6 := 0x08
def cMISALIGN : BitVec 6 := 0x09
def cPRIV : BitVec 6 := 0x0A
def cACCBUSY : BitVec 6 := 0x0B
def cMUCMD : BitVec 6 := 0x0C
def cRECORD : BitVec 6 := 0x0D
def cXLATE : BitVec 6 := 0x0E
def cVIEWPERM : BitVec 6 := 0x0F
def cTENLOST : BitVec 6 := 0x10
def cHANDLEDEAD : BitVec 6 := 0x11
def cPOISON : BitVec 6 := 0x12
def cFABSTORE : BitVec 6 := 0x13
def cTROUPEHANG : BitVec 6 := 0x14
def cPORTFAULT : BitVec 6 := 0x15
def cFPEXC : BitVec 6 := 0x16
def cTRAPINSTR : BitVec 6 := 0x17
def cSYSCALL : BitVec 6 := 0x18
def cHCALLTRAP : BitVec 6 := 0x19
def cBKPT : BitVec 6 := 0x1A
def cGANGSTOP : BitVec 6 := 0x1B
def cLAUNCHBAD : BitVec 6 := 0x1C
def cENGFAULT : BitVec 6 := 0x1D
def cLOCALRANGE : BitVec 6 := 0x1E
def cSCOPECAP : BitVec 6 := 0x1F
def cCODEBUSY : BitVec 6 := 0x20
def cINJTARGET : BitVec 6 := 0x21
def cADDRFORM : BitVec 6 := 0x22
def cFARGONE : BitVec 6 := 0x23

/-- What a trap carries: its cause, the value for cr.tval and, for POISON and FABSTORE, the PC for cr.fpc; a deferred trap says
that it is one (R147, R155). -/
structure Trap where
  cause : BitVec 6
  tval  : Word
  fpc   : Option Word
  isDeferred : Bool := false
deriving DecidableEq, Repr

/-- A trap without a PC for cr.fpc. -/
def Trap.mk' (cause : BitVec 6) (tval : Word) : Trap := ⟨cause, tval, none, false⟩

end Sys2Proof.Machine
end

