-- ==== Sys2Proof/Machine/Flags.lean ====
section
/-!
DEFINITION. The flags of cr.fflags, their accrual, and the enables of cr.frm (R73, R74, R75, R76).
-/

namespace Sys2Proof.Machine

open Sys2Proof

def fNX : BitVec 8 := 0x01
def fUF : BitVec 8 := 0x02
def fOF : BitVec 8 := 0x04
def fDZ : BitVec 8 := 0x08
def fNV : BitVec 8 := 0x10
def fOQ : BitVec 8 := 0x20
def fSAT : BitVec 8 := 0x40
def fOL : BitVec 8 := 0x80

/-- A flag where a condition holds. -/
def flagIf (c : Bool) (f : BitVec 8) : BitVec 8 := if c then f else 0

/-- Flags accrue into a context: an OR (R75). -/
def accrue (c : CtxId) (f : BitVec 8) (s : State) : State :=
  s.setCtx c { s.ctx c with fflags := (s.ctx c).fflags ||| f }

/-- The flags that accrue by the end of a cycle have accrued. -/
def Ctx.accrued (x : Ctx) (cycle : Nat) : Ctx :=
  { x with fflags := (x.vflags.filter (fun e => decide (e.1 ≤ cycle))).foldl (fun f e => f ||| e.2) x.fflags
           vflags := x.vflags.filter (fun e => !decide (e.1 ≤ cycle)) }

/-- The rounding mode of cr.frm (R73). -/
def Ctx.rm (x : Ctx) : BitVec 2 := x.frm.extractLsb' 0 2

/-- Scalar conversions to E4M3 and E5M2 saturate (R73). -/
def Ctx.fs (x : Ctx) : Bool := x.frm.getLsbD 2

/-- The FPEXC enables, in the order of the flags (R73). -/
def Ctx.te (x : Ctx) : BitVec 5 := x.frm.extractLsb' 4 5

/-- The flags raise an enabled exception (R76). -/
def Ctx.fpTraps (x : Ctx) (f : BitVec 8) : Bool := (x.te &&& f.extractLsb' 0 5) != 0

end Sys2Proof.Machine
end

