-- ==== Sys2Proof/Machine/Fp.lean ====
section
/-!
DEFINITION. The float formats and their exact arithmetic (chapter 03): decoding to an exact value, the one rounding step
that every result passes through, the arithmetic, comparisons and conversions, and the quantisers' block exponents.
-/

namespace Sys2Proof.Machine

open Sys2Proof

/-! ### Formats (R67) -/

/-- A float format: exponent and fraction bits, bias, the largest finite value's code, the code of +∞ if there is one, and
the canonical NaN. -/
structure Fmt where
  eb   : Nat
  fb   : Nat
  bias : Nat
  top  : Nat
  inf  : Option Nat
  nan  : Nat
deriving DecidableEq, Repr

def f32 : Fmt := ⟨8, 23, 127, 0x7F7FFFFF, some 0x7F800000, 0x7FC00000⟩
def bf16 : Fmt := ⟨8, 7, 127, 0x7F7F, some 0x7F80, 0x7FC0⟩
def e4m3 : Fmt := ⟨4, 3, 7, 0x7E, none, 0x7F⟩
def e5m2 : Fmt := ⟨5, 2, 15, 0x7B, some 0x7C, 0x7E⟩

/-- Width of a format in bits. -/
def Fmt.width (f : Fmt) : Nat := 1 + f.eb + f.fb

/-- Exponent of the smallest normal value. -/
def Fmt.emin (f : Fmt) : Int := 1 - (f.bias : Int)

/-- A value: a NaN, an infinity, or (−1)^neg × m × 2^e. -/
inductive Val where
  | nan (signalling : Bool)
  | inf (neg : Bool)
  | fin (neg : Bool) (m : Nat) (e : Int)
deriving DecidableEq, Repr

/-- The value of a code (R67, R69). -/
def Fmt.decode (f : Fmt) (bits : Nat) : Val :=
  let x := bits % 2 ^ f.width
  let neg := decide (2 ^ (f.eb + f.fb) ≤ x)
  let mag := x % 2 ^ (f.eb + f.fb)
  let ex := mag / 2 ^ f.fb
  let fr := mag % 2 ^ f.fb
  if f.top < mag then
    if some mag = f.inf then .inf neg
    else .nan (f.width ≠ 8 ∧ fr < 2 ^ (f.fb - 1))
  else if ex = 0 then .fin neg fr (f.emin - f.fb)
  else .fin neg (2 ^ f.fb + fr) ((ex : Int) - f.bias - f.fb)

/-- The sign bit of a format, set where the value is negative. -/
def Fmt.sign (f : Fmt) (neg : Bool) : Nat := if neg then 2 ^ (f.eb + f.fb) else 0

/-! ### Rounding (R73, R78) -/

/-- m × 2^k for an integer k, cut to an integer, with the rest's relation to one half: 0 exact, 1 below, 2 at, 3 above. -/
def scaleCut (m : Nat) (k : Int) : Nat × Nat :=
  if 0 ≤ k then (m * 2 ^ k.toNat, 0)
  else
    let d := 2 ^ (-k).toNat
    let r := m % d
    (m / d, if r = 0 then 0 else if 2 * r < d then 1 else if 2 * r = d then 2 else 3)

/-- The integer that a cut value of a sign rounds to: 0 RNE, 1 RTZ, 2 RUP, 3 RDN (R73). -/
def roundCut (rm : BitVec 2) (neg : Bool) (c : Nat × Nat) : Nat :=
  let up : Bool := if rm = 0 then c.2 == 3 || (c.2 == 2 && c.1 % 2 == 1)
    else if rm = 1 then false
    else if rm = 2 then c.2 != 0 && !neg
    else c.2 != 0 && neg
  if up then c.1 + 1 else c.1

/-- The magnitude code of n × 2^q, where q is a quantum of the format. -/
def Fmt.code (f : Fmt) (n : Nat) (q : Int) : Nat :=
  if n < 2 ^ f.fb then n
  else
    let t := if n = 2 ^ (f.fb + 1) then (2 ^ f.fb, q + 1) else (n, q)
    (t.2 + f.fb + f.bias).toNat * 2 ^ f.fb + (t.1 - 2 ^ f.fb)

/-- Round (−1)^neg × m × 2^e, m not zero, once into a format, with its flags; `sat` is saturation (R68, R78). -/
def Fmt.round (f : Fmt) (rm : BitVec 2) (sat : Bool) (neg : Bool) (m : Nat) (e : Int) : Nat × BitVec 8 :=
  let ex : Int := (Nat.log2 m : Int) + e
  let q := max ex f.emin - f.fb
  let c := scaleCut m (e - q)
  let n := roundCut rm neg c
  let inexact := c.2 ≠ 0
  let u := ex - f.fb
  let nu := roundCut rm neg (scaleCut m (e - u))
  let tiny := ex < f.emin ∧ ¬ (nu = 2 ^ (f.fb + 1) ∧ ex + 1 = f.emin)
  let mag := f.code n q
  if f.top < mag then
    if sat then (f.sign neg + f.top, fNX ||| fSAT)
    else
      let toInf := rm = 0 ∨ (rm = 2 ∧ neg = false) ∨ (rm = 3 ∧ neg = true)
      if toInf then
        match f.inf with
        | some i => (f.sign neg + i, fOF ||| fNX)
        | none => (f.nan, fOF ||| fNX ||| fNV)
      else (f.sign neg + f.top, fOF ||| fNX)
  else (f.sign neg + mag, flagIf inexact fNX ||| flagIf (inexact ∧ tiny) fUF)

/-- A value as a code of a format: rounded where finite; the canonical NaN for a NaN (R69, R78). -/
def Fmt.encode (f : Fmt) (rm : BitVec 2) (sat : Bool) (v : Val) : Nat × BitVec 8 :=
  match v with
  | .nan s => (f.nan, flagIf s fNV)
  | .inf neg =>
    match f.inf with
    | some i => (f.sign neg + i, 0)
    | none => if sat then (f.sign neg + f.top, fSAT) else (f.nan, fNV)
  | .fin neg m e => if m = 0 then (f.sign neg, 0) else f.round rm sat neg m e

/-! ### Arithmetic (R69, R112) -/

/-- The finite value of an integer times a power of two. -/
def Val.ofInt (i : Int) (e : Int) : Val := .fin (decide (i < 0)) i.natAbs e

/-- Signed mantissa of a finite value at a common exponent. -/
def alignTo (neg : Bool) (m : Nat) (e lo : Int) : Int :=
  let v : Int := (m * 2 ^ (e - lo).toNat : Nat)
  if neg then -v else v

/-- The exact sum of two values, with NV where it is invalid; the sign of an exact zero follows the mode. -/
def Val.add (rm : BitVec 2) (a b : Val) : Val × BitVec 8 :=
  match a, b with
  | .nan s, .nan t => (.nan false, flagIf (s || t) fNV)
  | .nan s, _ => (.nan false, flagIf s fNV)
  | _, .nan t => (.nan false, flagIf t fNV)
  | .inf p, .inf q => if p = q then (.inf p, 0) else (.nan false, fNV)
  | .inf p, .fin _ _ _ => (.inf p, 0)
  | .fin _ _ _, .inf q => (.inf q, 0)
  | .fin p m e, .fin q n d =>
    let lo := min e d
    let t := alignTo p m e lo + alignTo q n d lo
    if t = 0 then
      if m = 0 ∧ n = 0 ∧ p = q then (.fin p 0 0, 0) else (.fin (rm == 3) 0 0, 0)
    else (Val.ofInt t lo, 0)

/-- The negated value. -/
def Val.neg (a : Val) : Val :=
  match a with
  | .nan s => .nan s
  | .inf p => .inf !p
  | .fin p m e => .fin (!p) m e

/-- The exact product of two values, with NV where it is invalid. -/
def Val.mul (a b : Val) : Val × BitVec 8 :=
  match a, b with
  | .nan s, .nan t => (.nan false, flagIf (s || t) fNV)
  | .nan s, _ => (.nan false, flagIf s fNV)
  | _, .nan t => (.nan false, flagIf t fNV)
  | .inf p, .inf q => (.inf (p != q), 0)
  | .inf p, .fin q n _ => if n = 0 then (.nan false, fNV) else (.inf (p != q), 0)
  | .fin p m _, .inf q => if m = 0 then (.nan false, fNV) else (.inf (p != q), 0)
  | .fin p m e, .fin q n d => (.fin (p != q) (m * n) (e + d), 0)

/-- a + b, rounded once. -/
def Fmt.add (f : Fmt) (rm : BitVec 2) (a b : Nat) : Nat × BitVec 8 :=
  let s := Val.add rm (f.decode a) (f.decode b)
  let r := f.encode rm false s.1
  (r.1, r.2 ||| s.2)

/-- a − b, rounded once. -/
def Fmt.sub (f : Fmt) (rm : BitVec 2) (a b : Nat) : Nat × BitVec 8 :=
  let s := Val.add rm (f.decode a) (f.decode b).neg
  let r := f.encode rm false s.1
  (r.1, r.2 ||| s.2)

/-- a × b, rounded once. -/
def Fmt.mul (f : Fmt) (rm : BitVec 2) (a b : Nat) : Nat × BitVec 8 :=
  let s := Val.mul (f.decode a) (f.decode b)
  let r := f.encode rm false s.1
  (r.1, r.2 ||| s.2)

/-- a × b + d of exact values, negated product where `neg`, with the flags of both steps; 0 × ∞ is invalid whatever d is
(R112). -/
def Val.fma (rm : BitVec 2) (neg : Bool) (a b d : Val) : Val × BitVec 8 :=
  let p := Val.mul a b
  let s := Val.add rm (if neg then p.1.neg else p.1) d
  (s.1, p.2 ||| s.2)

/-- a × b + d, or d − a × b, rounded once. -/
def Fmt.fma (f : Fmt) (rm : BitVec 2) (neg : Bool) (a b d : Nat) : Nat × BitVec 8 :=
  let s := Val.fma rm neg (f.decode a) (f.decode b) (f.decode d)
  let r := f.encode rm false s.1
  (r.1, r.2 ||| s.2)

/-- The quotient of two values, cut well below the last bit of every format, the rest folded into the lowest bit. -/
def Val.div (a b : Val) : Val × BitVec 8 :=
  match a, b with
  | .nan s, .nan t => (.nan false, flagIf (s || t) fNV)
  | .nan s, _ => (.nan false, flagIf s fNV)
  | _, .nan t => (.nan false, flagIf t fNV)
  | .inf _, .inf _ => (.nan false, fNV)
  | .inf p, .fin q _ _ => (.inf (p != q), 0)
  | .fin p _ _, .inf q => (.fin (p != q) 0 0, 0)
  | .fin p m e, .fin q n d =>
    if n = 0 then (if m = 0 then (.nan false, fNV) else (.inf (p != q), fDZ))
    else
      let x := m * 2 ^ 64
      (.fin (p != q) (2 * (x / n) + (if x % n = 0 then 0 else 1)) (e - d - 65), 0)

/-- a ÷ b, rounded once. -/
def Fmt.div (f : Fmt) (rm : BitVec 2) (a b : Nat) : Nat × BitVec 8 :=
  let s := Val.div (f.decode a) (f.decode b)
  let r := f.encode rm false s.1
  (r.1, r.2 ||| s.2)

/-- The integer square root, one bit of the result for each unit of fuel, from bit `fuel` − 1 down. -/
def isqrt (fuel m r : Nat) : Nat :=
  match fuel with
  | 0 => r
  | k + 1 => if (r + 2 ^ k) * (r + 2 ^ k) ≤ m then isqrt k m (r + 2 ^ k) else isqrt k m r

/-- The square root of a value, cut well below the last bit of every format, the rest folded into the lowest bit. -/
def Val.sqrt (a : Val) : Val × BitVec 8 :=
  match a with
  | .nan s => (.nan false, flagIf s fNV)
  | .inf p => if p then (.nan false, fNV) else (.inf false, 0)
  | .fin p m e =>
    if m = 0 then (.fin p 0 0, 0)
    else if p then (.nan false, fNV)
    else
      let odd := e % 2 = 1
      let x := (if odd then 2 * m else m) * 2 ^ 64
      let h := (if odd then e - 1 else e) / 2 - 32
      let r := isqrt 64 x 0
      (.fin false (2 * r + (if r * r = x then 0 else 1)) (h - 1), 0)

/-- √a, rounded once. -/
def Fmt.sqrt (f : Fmt) (rm : BitVec 2) (a : Nat) : Nat × BitVec 8 :=
  let s := Val.sqrt (f.decode a)
  let r := f.encode rm false s.1
  (r.1, r.2 ||| s.2)

/-! ### Comparison, minimum, maximum (R113, R114) -/

/-- A value is a NaN. -/
def Val.isNan (a : Val) : Bool :=
  match a with
  | .nan _ => true
  | _ => false

/-- A value is a signalling NaN. -/
def Val.isSnan (a : Val) : Bool :=
  match a with
  | .nan s => s
  | _ => false

/-- a < b, of values that are no NaNs; −0 equals +0. -/
def Val.lt (a b : Val) : Bool :=
  match a, b with
  | .inf p, .inf q => p && !q
  | .inf p, .fin _ _ _ => p
  | .fin _ _ _, .inf q => !q
  | .fin p m e, .fin q n d => decide (alignTo p m e (min e d) < alignTo q n d (min e d))
  | _, _ => false

/-- a = b, of values; −0 equals +0 and a NaN equals nothing. -/
def Val.eq (a b : Val) : Bool := !a.isNan && !b.isNan && !Val.lt a b && !Val.lt b a

/-- The sign of a value that is no NaN. -/
def Val.isNeg (a : Val) : Bool :=
  match a with
  | .nan _ => false
  | .inf p => p
  | .fin p _ _ => p

/-- FMIN or FMAX of two codes (R113). -/
def Fmt.minMax (f : Fmt) (mx : Bool) (a b : Nat) : Nat × BitVec 8 :=
  let x := f.decode a
  let y := f.decode b
  let nv := flagIf (x.isSnan || y.isSnan) fNV
  let a := a % 2 ^ f.width
  let b := b % 2 ^ f.width
  if x.isNan then (if y.isNan then f.nan else b, nv)
  else if y.isNan then (a, nv)
  else
    let less := Val.lt x y || (Val.eq x y && x.isNeg && !y.isNeg)
    (if less != mx then a else b, nv)

/-- FEQ of two codes. -/
def Fmt.feq (f : Fmt) (a b : Nat) : Bool × BitVec 8 :=
  let x := f.decode a
  let y := f.decode b
  (Val.eq x y, flagIf (x.isSnan || y.isSnan) fNV)

/-- FLT of two codes. -/
def Fmt.flt (f : Fmt) (a b : Nat) : Bool × BitVec 8 :=
  let x := f.decode a
  let y := f.decode b
  (!x.isNan && !y.isNan && Val.lt x y, flagIf (x.isNan || y.isNan) fNV)

/-- FLE of two codes. -/
def Fmt.fle (f : Fmt) (a b : Nat) : Bool × BitVec 8 :=
  let x := f.decode a
  let y := f.decode b
  (!x.isNan && !y.isNan && !Val.lt y x, flagIf (x.isNan || y.isNan) fNV)

/-! ### Conversions (R78–R81) -/

/-- A float code converted to another float format (R78, R79). -/
def Fmt.convert (src dst : Fmt) (rm : BitVec 2) (sat : Bool) (a : Nat) : Nat × BitVec 8 :=
  dst.encode rm sat (src.decode a)

/-- A float value rounded to an integer: the integer and whether it is inexact. -/
def roundToInt (rm : BitVec 2) (neg : Bool) (m : Nat) (e : Int) : Int × Bool :=
  let c := scaleCut m e
  let n := roundCut rm neg c
  (if neg then -(n : Int) else n, c.2 ≠ 0)

/-- A float code converted to an integer range (R80). -/
def Fmt.toInt (f : Fmt) (rm : BitVec 2) (lo hi : Int) (a : Nat) : Int × BitVec 8 :=
  match f.decode a with
  | .nan _ => (0, fNV)
  | .inf neg => (if neg then lo else hi, fNV)
  | .fin neg m e =>
    let r := roundToInt rm neg m e
    if r.1 < lo then (lo, fNV) else if hi < r.1 then (hi, fNV) else (r.1, flagIf r.2 fNX)

/-- An integer converted to a float format (R81). -/
def Fmt.ofInt (f : Fmt) (rm : BitVec 2) (sat : Bool) (i : Int) : Nat × BitVec 8 := f.encode rm sat (Val.ofInt i 0)

/-- FRND: an F32 value rounded to an integral F32 value (R118). -/
def frnd (rm : BitVec 2) (a : Nat) : Nat × BitVec 8 :=
  match f32.decode a with
  | .nan s => (f32.nan, flagIf s fNV)
  | .inf _ => (a % 2 ^ 32, 0)
  | .fin neg m e =>
    let r := roundToInt rm neg m e
    ((f32.encode rm false (.fin neg r.1.natAbs 0)).1, flagIf r.2 fNX)

/-- The class record of an F32 value (R115). -/
def fclass (a : Nat) : Nat :=
  let x := a % 2 ^ 32
  let ex := x / 2 ^ 23 % 256
  let fr := x % 2 ^ 23
  let kind := if ex = 255 then (if fr = 0 then 3 else if 2 ^ 22 ≤ fr then 4 else 5)
    else if ex = 0 then (if fr = 0 then 0 else 1) else 2
  kind + 8 * (x / 2 ^ 31) + 256 * ex

/-- An integer clamped to a range, with SAT where that changes it (R65). -/
def satInt (lo hi i : Int) : Int × BitVec 8 :=
  if i < lo then (lo, fSAT) else if hi < i then (hi, fSAT) else (i, 0)

/-! ### Fixed summation order (R89) -/

/-- One level of the tree: neighbours are added, the lower index on the left. -/
def treeLevel (l : List Nat) : List Nat × BitVec 8 :=
  match l with
  | a :: b :: t =>
    let s := f32.add 0 a b
    let r := treeLevel t
    (s.1 :: r.1, s.2 ||| r.2)
  | l => (l, 0)

/-- The sum of F32 leaves by the tree of R89, with `levels` = log2 of their number, and the flags of its additions. -/
def treeSum (levels : Nat) (l : List Nat) : Nat × BitVec 8 :=
  match levels with
  | 0 => (l.head?.getD 0, 0)
  | k + 1 =>
    let r := treeLevel l
    let u := treeSum k r.1
    (u.1, r.2 ||| u.2)

/-! ### Scales and quantisation (R70, R71, R83, R84) -/

/-- The exponent of an E8M0 code; 0xFF is NaN (R70). -/
def e8m0Exp (c : Nat) : Int := (c % 256 : Nat) - 127

/-- The magnitude of a finite value is at most another's. -/
def magLe (m : Nat) (e : Int) (n : Nat) (d : Int) : Bool :=
  decide (m * 2 ^ (e - min e d).toNat ≤ n * 2 ^ (d - min e d).toNat)

/-- The smallest e with m × 2^x ≤ qmax × 2^e, for m not zero: the estimate from the leading bits, or one more (R83). -/
def blockExp (qmax m : Nat) (x : Int) : Int :=
  let t : Int := (Nat.log2 m : Int) + x - (Nat.log2 qmax : Int)
  if magLe m x qmax t then t else t + 1

/-- A block exponent clamped to [−127, 127]. -/
def clampExp (e : Int) : Int := max (-127) (min 127 e)

/-- The largest and the second-largest magnitude of a list of finite values, equal ones counted separately. -/
def topTwo (l : List Val) : (Nat × Int) × (Nat × Int) :=
  l.foldl (fun t v =>
    match v with
    | .fin _ m e =>
      if m = 0 then t
      else if !magLe m e t.1.1 t.1.2 then ((m, e), t.1)
      else if !magLe m e t.2.1 t.2.2 then (t.1, (m, e))
      else t
    | _ => t) ((0, 0), (0, 0))

/-- The values hold a NaN or an infinity. -/
def nonFinite (l : List Val) : Bool :=
  l.any (fun v => match v with
    | .fin _ _ _ => false
    | _ => true)

/-- The E8M0 byte a quantiser computes for a block (R83); `o4` asks for the second-largest magnitude. -/
def scaleByte (qmax : Nat) (o4 : Bool) (l : List Val) : Nat :=
  if nonFinite l then 0xFF
  else
    let t := topTwo l
    let a := if o4 then (if t.2.1 = 0 then t.1 else t.2) else t.1
    if a.1 = 0 then 0 else (clampExp (blockExp qmax a.1 a.2) + 127).toNat

/-- A value times 2^k. -/
def Val.scale (v : Val) (k : Int) : Val :=
  match v with
  | .fin neg m e => .fin neg m (e + k)
  | v => v

/-- Element i of a quad of a 16-bit number of four slots. -/
def slotOfQuad (q i : Nat) : Nat := q / 16 ^ i % 16

/-- A 4-bit code as a two's complement integer. -/
def int4 (c : Nat) : Int := if c < 8 then c else (c : Int) - 16

/-- The elements of an O4 quad, or none where it is invalid (R71). [log DEDUCED 12] -/
def decodeQuad (q : Nat) : Option (List Val) :=
  let s := slotOfQuad q
  let int := fun i => Val.ofInt (int4 (s i)) 0
  let zero := Val.fin false 0 0
  let b := s 3 * 16 + s 2
  let out := e4m3.decode b
  if s 0 = 8 then (if s 1 = 8 ∨ b % 128 = 127 then none else some [out, int 1, zero, zero])
  else if s 1 = 8 then (if b % 128 = 127 then none else some [int 0, out, zero, zero])
  else if s 2 = 8 ∨ s 3 = 8 then none
  else some [int 0, int 1, int 2, int 3]

/-- A scaled value rounded to an integer, ties to even. -/
def rneInt (v : Val) : Int :=
  match v with
  | .fin neg m e => (roundToInt 0 neg m e).1
  | _ => 0

/-- A quad of values quantised to O4 with a block exponent: the slots as a 16-bit number, and the outlier entries by
position in the quad (R84). -/
def quantQuad (e : Int) (x : List Val) : Nat × List Nat :=
  let sv := x.map (fun v => v.scale (-e))
  let n : List Int := sv.map rneInt
  let at_ : Nat → Int := fun i => n[i]?.getD 0
  let miss := (List.range 4).filter (fun i => decide (7 < (at_ i).natAbs))
  let code := fun i => ((at_ i) % 16).toNat
  let small : Nat → Bool := fun i => match sv[i]?.getD (.fin false 0 0) with
    | .fin _ m d => magLe m d 448 0
    | _ => false
  let outl := fun i => (e4m3.encode 0 false (sv[i]?.getD (.fin false 0 0))).1
  match miss with
  | [0] => if at_ 2 = 0 ∧ at_ 3 = 0 ∧ small 0 then (8 + 16 * code 1 + 256 * outl 0, [])
    else (16 * code 1 + 256 * code 2 + 4096 * code 3, [0])
  | [1] => if at_ 2 = 0 ∧ at_ 3 = 0 ∧ small 1 then (code 0 + 16 * 8 + 256 * outl 1, [])
    else (code 0 + 256 * code 2 + 4096 * code 3, [1])
  | miss =>
    ((List.range 4).foldl (fun a i => a + (if miss.contains i then 0 else code i) * 16 ^ i) 0, miss)

end Sys2Proof.Machine
end

