-- ==== Sys2Proof/Machine/Mem.lean ====
section
/-!
DEFINITION. Home slices and L1s: where a cluster lies, which addresses exist, the directory actions of a line's home, far
homes and die copies, and what a request type does in the issuing core's L1 (R230–R233, R244–R248, R333, R334, R388,
R403, R451, R452).
-/

namespace Sys2Proof.Machine

open Sys2Proof

/-! ### Ranks and coordinates (R1, R388) -/

/-- One level of the inverse of the Hilbert index: the state is (remaining index, x, y), the side is s. -/
def hilbertStep (s : Nat) (t : Nat × Nat × Nat) : Nat × Nat × Nat :=
  let rx := (t.1 / 2) % 2
  let ry := (t.1 + rx) % 2
  let p := if ry = 0 then (if rx = 1 then (s - 1 - t.2.1, s - 1 - t.2.2) else (t.2.1, t.2.2)) else (t.2.1, t.2.2)
  let q := if ry = 0 then (p.2, p.1) else p
  (t.1 / 4, q.1 + s * rx, q.2 + s * ry)

/-- The cell of an index along the order-6 Hilbert curve (R388). -/
def hilbertCell (d : Nat) : Nat × Nat :=
  let t := [1, 2, 4, 8, 16, 32].foldl (fun t s => hilbertStep s t) (d, 0, 0)
  (t.2.1, t.2.2)

/-- The cell of the rank-th grid cell along the curve, from an index on. -/
def rankCellFrom (fuel d rank : Nat) : Nat × Nat :=
  match fuel with
  | 0 => (0, 0)
  | f + 1 =>
    let c := hilbertCell d
    if c.1 < 40 ∧ c.2 < 40 then (if rank = 0 then c else rankCellFrom f (d + 1) (rank - 1))
    else rankCellFrom f (d + 1) rank

/-- The coordinates (X, Y) of a cluster rank (R388). -/
def rankCell (rank : Nat) : Nat × Nat := rankCellFrom 4096 0 rank

/-- The die of a cluster rank (R1). -/
def dieOfRank (rank : Nat) : Nat := (rankCell rank).1 / 20 + 2 * ((rankCell rank).2 / 10)

/-- The district of a cluster rank (R1). -/
def districtOfRank (rank : Nat) : Nat := 2 * dieOfRank rank + ((rankCell rank).1 % 20) / 10

/-- The die of a core. -/
def dieOfCore (core : Nat) : Nat := dieOfRank (rankOf core)

/-- The XOR of the 5-bit fields of a physical address that choose the slice of a die (R403). -/
def sliceHash (pa : Nat) : Nat :=
  let f := fun lo => pa / 2 ^ lo % 32
  (f 6 ^^^ f 11 ^^^ f 16 ^^^ f 21 ^^^ f 26 ^^^ f 31)

/-- The channel within a die of a far line (R403). -/
def farHash (pa : Nat) : Nat :=
  let f := fun lo => pa / 2 ^ lo % 32
  sliceHash pa ^^^ f 36 ^^^ f 41 ^^^ f 46

/-- The set of its slice that a physical address falls in, and the tag that tells the lines of the set apart (R403). -/
def sliceSet (pa : Nat) : Nat := pa / 2 ^ 11 % 2 ^ 14 ^^^ pa / 2 ^ 25 % 2 ^ 11
def sliceTag (pa : Nat) : Nat := pa / 2 ^ 25 % 2 ^ 11

/-- The mesh distance of two cells. -/
def hops (a b : Nat × Nat) : Nat :=
  (if a.1 ≤ b.1 then b.1 - a.1 else a.1 - b.1) + (if a.2 ≤ b.2 then b.2 - a.2 else a.2 - b.2)

/-- The cluster coordinates above slice 32d + C (R451). -/
def sliceCell (d c : Nat) : Nat × Nat := (20 * (d % 2) + 2 + c % 16, 10 * (d / 2) + 9 * (c / 16))

/-! ### Which physical addresses exist (R305, R403, R425, R452) -/

/-- Bonded DRAM: 512 GiB from 0 (R403). -/
def isDram (pa : Nat) : Bool := decide (pa < 0x8000000000)

/-- The pair whose installed far range holds an address (R425, R426). -/
def farPair (s : State) (pa : Nat) : Option Nat :=
  (List.range 24).find? (fun k =>
    let r := s.fabric.ranges[k]?.getD ⟨false, 0, 0⟩
    r.valid && decide (r.base * 0x10000000 ≤ pa) && decide (pa < (r.base + r.size) * 0x10000000))

/-- An address of an installed far range. -/
def isFar (s : State) (pa : Nat) : Bool := (farPair s pa).isSome

/-- A pair is departing in the turn under way: it is CXL and its next personality is another (R424). -/
def pairDeparts (s : State) (k : Nat) : Bool :=
  let e := s.fabric.edges[2 * k]?.getD ⟨0, 0, false⟩
  s.fabric.state != 0 && e.pers == 1 && e.next != 1

/-- A far address that departs in the turn under way (R426). -/
def isDeparting (s : State) (pa : Nat) : Bool :=
  match farPair s pa with
  | some k => pairDeparts s k
  | none => false

/-- An address of a send aperture (R442, R452). -/
def isAperture (pa : Nat) : Bool := decide (0xF0100000000 ≤ pa) && decide (pa < 0xF0100000000 + 64 * 0x100000000)

/-- An address of an MMIO page or aperture (R452). -/
def isMmio (pa : Nat) : Bool :=
  (decide (0xF0000000000 ≤ pa) && decide (pa < 0xF0000001000)) ||
  (decide (0xF0010000000 ≤ pa) && decide (pa < 0xF0010000000 + 1600 * 0x1000)) ||
  (decide (0xF0020000000 ≤ pa) && decide (pa < 0xF0020000000 + 64 * 0x1000)) ||
  (decide (0xF0030000000 ≤ pa) && decide (pa < 0xF0030001000)) ||
  (decide (0xF0040000000 ≤ pa) && decide (pa < 0xF0040000000 + 64 * 0x1000)) ||
  isAperture pa

/-- An address with memory behind it. -/
def isPopulated (s : State) (pa : Nat) : Bool := isDram pa || isFar s pa

/-- The home slice 32 × die + channel of an address: by its own bits in bonded DRAM, on the attaching die of the pair for
far memory (R333, R403, R421). -/
def homeSlice (s : State) (pa : Nat) : Nat :=
  if isDram pa then 32 * (pa / 2 ^ 36 % 8) + sliceHash pa
  else 32 * (((farPair s pa).getD 0) % 8) + farHash pa

/-! ### Lines -/

/-- The n bytes from offset off of a line, as a number. -/
def lineGet (d : CLine) (off n : Nat) : Nat := d.toNat / 256 ^ off % 256 ^ n

/-- A line with the n bytes from offset off replaced. -/
def linePut (d : CLine) (off n v : Nat) : CLine :=
  BitVec.ofNat 512 (d.toNat - lineGet d off n * 256 ^ off + (v % 256 ^ n) * 256 ^ off)

/-- The copy of a line in a core's L1. -/
def Core.l1Find (k : Core) (line : Nat) : Option L1Line := k.l1.find? (fun e => e.line == line)

/-- A core without its copy of a line. -/
def Core.l1Drop (k : Core) (line : Nat) : Core := { k with l1 := k.l1.filter (fun e => e.line != line) }

/-- A core with its copy of a line replaced and most recently used. [log DEDUCED 55] -/
def Core.l1Put (k : Core) (e : L1Line) : Core := { k with l1 := e :: k.l1.filter (fun x => x.line != e.line) }

/-- The number of pushed and unused lines of a core (R246). -/
def Core.pushed (k : Core) : Nat := (k.l1.filter (fun e => e.st == .P)).length

/-- Apply a function to every listed core. -/
def State.mapCores (s : State) (f : Nat → Core → Core) : State :=
  { s with cores := s.cores.map (fun c => (c.1, f c.1 c.2)) }

/-- The data of a line at the home: bonded DRAM, or far memory's far home. -/
def homeData (s : State) (line : Nat) : CLine := BitVec.ofNat 512 (readRange s.mem (64 * line) 64)

/-- The state with n bytes at a physical address written in memory itself, no cache looked at. -/
def rawWrite (s : State) (pa n v : Nat) : State := { s with mem := writeLe s.mem pa n v }

/-- The die copy of a far line. -/
def farCopy (s : State) (line die : Nat) : Option FarCopy := s.far.find? (fun c => c.line == line && c.die == die)

/-- The state with a die copy replaced. -/
def setFar (s : State) (c : FarCopy) : State :=
  { s with far := c :: s.far.filter (fun x => !(x.line == c.line && x.die == c.die)) }

/-- What a line's L1s treat as its home: the die copy of the core's die for far memory, the home slice otherwise. -/
def backing (s : State) (die line : Nat) : CLine :=
  match farCopy s line die with
  | some c => c.data
  | none => homeData s line

/-- The state with the line's backing written. -/
def setBacking (s : State) (die line : Nat) (d : CLine) : State :=
  match farCopy s line die with
  | some c => setFar s { c with data := d }
  | none => rawWrite s (64 * line) 64 d.toNat

/-- The line is poisoned (R384). -/
def isBad (s : State) (line : Nat) : Bool := s.bad.any (fun b => b.line == line)

/-- The bytes of a line from an offset on, a bit for each. -/
def byteMask (off n : Nat) : BitVec 64 := BitVec.ofNat 64 ((2 ^ n - 1) * 2 ^ off)

/-- A poisoned line of which n bytes from an offset on have been written, or none where that was the last of it. -/
def BadLine.wrote (line off n : Nat) (b : BadLine) : Option BadLine :=
  if b.line ≠ line then some b
  else
    let left := b.left &&& ~~~byteMask off n
    if left = 0 then none else some { b with left := left }

/-- n bytes of a line are written at its home: once the whole line has been, it is poisoned no longer (R384). [log DEDUCED 94] -/
def cleanse (s : State) (line off n : Nat) : State := { s with bad := s.bad.filterMap (BadLine.wrote line off n) }

/-- A whole line is written to its backing. -/
def writeBack (s : State) (die line : Nat) (d : CLine) : State := cleanse (setBacking s die line d) line 0 64

/-- The number that a line of a peer's memory has in this package: those of peer q stand above (q + 1) × 2^60, those of an export of it
above a multiple of 2^51. [log DEDUCED 24] -/
def peerLine (q exp ra : Nat) : Nat := (q + 1) * 2 ^ 60 + exp * 2 ^ 51 + ra / 64

/-- The number of a line lies among those of a peer's memory. [log DEDUCED 24] -/
def homedAt (peer line : Nat) : Bool := line / 2 ^ 60 == peer + 1

/-- A line is cached in dies' copies: far memory, and a peer's line under its home's directory (R333, R334, R434). -/
def underDies (s : State) (line : Nat) : Bool := isFar s (64 * line) || decide (2 ^ 60 ≤ line)

/-- The core counts as a holder for a home action on a line: where dies hold copies, only the L1s of the die. -/
def underHome (s : State) (line die core : Nat) : Bool := !underDies s line || dieOfCore core == die

/-- Recall the O copy of a line, wherever it is: its data go to the backing and the copy becomes S (R230, R231). [log DESIGN CHOICE 81] -/
def recallO (s : State) (die line : Nat) : State :=
  match s.cores.find? (fun c => underHome s line die c.1 &&
      (c.2.l1Find line).any (fun e => e.st == .O)) with
  | none => s
  | some c =>
    match c.2.l1Find line with
    | none => s
    | some e =>
      let s := if e.dirty then writeBack s die line e.data else s
      s.setCore c.1 ((s.core c.1).l1Put { e with st := .S, dirty := false })

/-- Drop every S, P and O copy of a line but the one of core `keep`; T copies are not known to the home (R230). -/
def invalidate (s : State) (die line : Nat) (keep : Option Nat) : State :=
  let s := recallO s die line
  s.mapCores (fun n k =>
    if some n ≠ keep ∧ underHome s line die n ∧ (k.l1Find line).any (fun e => e.st != .T) then k.l1Drop line else k)

/-- The line of an address overlaps a range of addresses (R253). -/
def lineInRange (va : Word) (lo hi : Nat) : Bool := decide (va.toNat / 64 * 64 < hi) && decide (lo < va.toNat / 64 * 64 + 64)

/-- What an acquire leaves of a line in an L1: a T copy goes, and one that an acquire over a range spares, by the address that filled it, keeps the
range (R232, R253). -/
def L1Line.spare (range : Option (Nat × Nat)) (e : L1Line) : Option L1Line :=
  match e.st, range with
  | .T, none => none
  | .T, some r => if lineInRange e.va r.1 r.2 then none else some { e with spared := e.spared ++ [r] }
  | _, _ => some e

/-- Drop a core's T copies; with a range only those of lines that overlap it (R232, R253). -/
def dropT (k : Core) (range : Option (Nat × Nat)) : Core := { k with l1 := k.l1.filterMap (L1Line.spare range) }

/-- Drop a core's T copy of a line: an access by the core is performed at the line's home (R232). -/
def dropOwnT (s : State) (core line : Nat) : State :=
  let k := s.core core
  s.setCore core { k with l1 := k.l1.filter (fun e => !(e.line == line && e.st == .T)) }

/-! ### Far homes (R333) -/

/-- A die's copy of a line goes, with the copies in the L1s below it, whose dirty data it takes first. -/
def dropFar (s : State) (line die : Nat) : State :=
  let s := invalidate s die line none
  { s with far := s.far.filter (fun x => !(x.line == line && x.die == die)) }

/-- The far home recalls a line from the die that owns it, with its data; that die keeps no copy. -/
def farRecall (s : State) (line : Nat) : State :=
  match s.far.find? (fun c => c.line == line && c.owned) with
  | none => s
  | some c =>
    let s := invalidate s c.die line none
    let d := backing s c.die line
    rawWrite (dropFar s line c.die) (64 * line) 64 d.toNat

/-- A die copy lies in the set of the die's slice in which a far line's copy would lie (R333, R403). -/
def inFarSet (die line : Nat) (c : FarCopy) : Bool :=
  c.die == die && decide (c.line < 2 ^ 60) && farHash (64 * c.line) == farHash (64 * line) && sliceSet (64 * c.line) == sliceSet (64 * line)

/-- A die's copy of a far line leaves its slice: an owned one goes to the far home. -/
def farEvict (s : State) (line die : Nat) : State :=
  if (farCopy s line die).any (fun c => c.owned) then farRecall s line else dropFar s line die

/-- Make room for a far line in its set of a die's slice: the far portion has three ways, and the least recently used copy goes (R403).
[log DEDUCED 69] -/
def farRoom (s : State) (die line : Nat) : State :=
  let l := s.far.filter (inFarSet die line)
  if l.length < 3 then s else l.getLast?.elim s (fun c => farEvict s c.line die)

/-- A die obtains a copy of a far line: its own where it has one, which is now the most recently used of its set, else the far home's. -/
def farFetch (s : State) (die line : Nat) : State :=
  match farCopy s line die with
  | some c => setFar s c
  | none =>
    let s := farRoom (farRecall s line) die line
    setFar s ⟨line, die, homeData s line, false, none⟩

/-- Every other die's copy of a line gets an invalidation, and a die owns the line with the data given. -/
def farGrant (s : State) (die line : Nat) (d : CLine) : State :=
  let stamp := s.farStamp + 1
  let others := s.far.any (fun x => x.line == line && x.die != die)
  let s := { s with farStamp := if others then stamp else s.farStamp
                    far := s.far.map (fun x =>
                      if x.line = line ∧ x.die ≠ die ∧ x.inval = none then { x with inval := some stamp } else x) }
  setFar s ⟨line, die, d, true, none⟩

/-- The copies in a die's L1s of a line whose die copy has an invalidation pending: they go when the die receives newer data. -/
def freshen (s : State) (die line : Nat) : State :=
  if (farCopy s line die).any (fun c => c.inval.isSome) then invalidate s die line none else s

/-- A die obtains ownership of a far line: a line that it owns already is now the most recently used of its set; else the owner's data are recalled,
every other copy gets an invalidation, and a pending one of its own is dropped, with the stale copies below it, for the data that come with the
grant. -/
def farOwn (s : State) (die line : Nat) : State :=
  match (farCopy s line die).filter (fun c => c.owned) with
  | some c => setFar s c
  | none =>
    let s := farRecall (freshen s die line) line
    farGrant (if (farCopy s line die).isSome then s else farRoom s die line) die line (homeData s line)

/-- An invalidation reaches a die copy and the die's L1s. -/
def farInvalidated (s : State) (line die : Nat) : State :=
  if (farCopy s line die).any (fun c => c.inval.isSome) then dropFar s line die else s

/-- Every invalidation of a line that is pending is finished, and the line is recalled: what a .sys access and the host do
at the far home (R334, R423). -/
def farSettle (s : State) (line : Nat) : State :=
  let s := (s.far.filter (fun c => c.line == line && c.inval.isSome)).foldl (fun s c => farInvalidated s line c.die) s
  farRecall s line

/-- No die and no L1 keeps a copy of a far line: what a write at the far home itself comes after (R333, R423). -/
def farClear (s : State) (line : Nat) : State :=
  let s := farSettle s line
  (s.far.filter (fun c => c.line == line)).foldl (fun s c => dropFar s line c.die) s

/-- Invalidations of the line with a stamp up to the one given are pending. -/
def farPending (s : State) (line stamp : Nat) : Bool :=
  s.far.any (fun c => c.line == line && c.inval.any (fun i => decide (i ≤ stamp)))

/-- The line's backing for a die exists: far memory needs a die copy. -/
def bring (s : State) (die line : Nat) : State := if isFar s (64 * line) then farFetch s die line else s

/-- The line may be written through a die: far memory needs die ownership. -/
def bringOwned (s : State) (die line : Nat) : State := if isFar s (64 * line) then farOwn s die line else s

/-- A die may write a line: bonded DRAM has no die copies, and of any other line the die owns its copy (R333, R434). -/
def dieOwns (s : State) (die line : Nat) : Bool := !underDies s line || (farCopy s line die).any (fun c => c.owned)

/-! ### Fills and pushes -/

/-- The L1 set of a line. [log DESIGN CHOICE 56] -/
def l1Set (k : Core) (line : Nat) : Nat := line % l1Sets k.spsize

/-- A copy that counts: a T copy of 4,096 cycles is as good as gone (R232). [log DESIGN CHOICE 83] -/
def L1Line.lives (e : L1Line) (cycle : Nat) : Bool := !(e.st == .T && decide (e.fill + 4096 ≤ cycle))

/-- Make room in the set of a line: with eight lines there that count, the least recently used one goes, written back where it is
dirty (R230, R232). [log DEDUCED 55; DESIGN CHOICE 56] -/
def evictFor (s : State) (core line : Nat) : State :=
  let k := { s.core core with l1 := (s.core core).l1.filter (fun e => e.lives s.cycle) }
  let s := s.setCore core k
  let inSet := k.l1.filter (fun e => l1Set k e.line == l1Set k line)
  if inSet.length < 8 then s
  else match inSet.getLast? with
    | none => s
    | some v =>
      let s := if v.st == .O && v.dirty then writeBack s (dieOfCore core) v.line v.data else s
      s.setCore core ((s.core core).l1Drop v.line)

/-- Install a line in a core's L1. -/
def fillLine (s : State) (core line : Nat) (st : L1State) (data : CLine) (va : Word := 0) (bad : Bool := false) : State :=
  let s := s.setCore core ((s.core core).l1Drop line)
  let s := evictFor s core line
  s.setCore core ((s.core core).l1Put ⟨line, st, data, false, s.cycle, va, [], bad⟩)

/-- The context and every group of the core: the core runs a group. -/
def Core.runs (k : Core) : Bool := k.group.isSome

/-- The request of an STI learns that one of its pushes was accepted (R244). -/
def noteAccepted (s : State) (p : Push) : State :=
  { s with reqs := s.reqs.map (fun q =>
      if q.id = p.req then { q with value := q.value ||| (1#64 <<< p.bit) } else q) }

/-- A push is decided at its target by the first row of R245 that matches. It arrives behind every invalidation of its line, and a far line is
pushed under a copy of the target's die; a poisoned line is installed with its poison (R384). [log DEDUCED 55; DEDUCED 94] -/
def pushArrive (s : State) (p : Push) : State :=
  let s := farInvalidated { s with pushes := s.pushes.filter (fun x => x.id != p.id) } p.line (dieOfCore p.target)
  let k := s.core p.target
  let deny := fun (s : State) => s.setCore p.ctx.core { s.core p.ctx.core with pdenied := (s.core p.ctx.core).pdenied + 1 }
  let refuse := fun (s : State) =>
    deny (s.setCore p.target { s.core p.target with prefused := (s.core p.target).prefused + 1 })
  if !k.runs then deny s
  else if (k.l1Find p.line).any (fun e => e.st != .T) then noteAccepted s p
  else if k.pquota.toNat ≤ k.pushed then refuse s
  else if (k.l1.filter (fun e => l1Set k e.line == l1Set k p.line && e.st == .P)).length ≥ 8 then refuse s
  else noteAccepted (fillLine (bring s (dieOfCore p.target) p.line) p.target p.line .P p.data 0 (isBad s p.line)) p

/-- Decide the pushes of a line that are on their way, in the order they were sent: an invalidation follows them (R244). -/
def flushPushes (s : State) (line : Nat) : State :=
  (s.pushes.filter (fun p => p.line == line)).foldl pushArrive s

/-! ### Accesses at the home -/

/-- Read a line at its home: an O copy is recalled first. -/
def homeRead (s : State) (die line : Nat) : State × CLine :=
  let s := recallO (bring s die line) die line
  (s, backing s die line)

/-- Write n bytes at their home: the pushes of the line arrive, every S and P copy is dropped and an O copy recalled, and then
the write is performed (R230, R244, R248). -/
def homeWrite (s : State) (die pa n v : Nat) : State :=
  let line := pa / 64
  let s := flushPushes s line
  let s := bringOwned s die line
  let s := invalidate s die line none
  cleanse (setBacking s die line (linePut (backing s die line) (pa % 64) n v)) line (pa % 64) n

/-- A line of another core counts as used or missed in the counters of R146. -/
def countMiss (s : State) (core : Nat) : State := s.setCore core { s.core core with cntMiss := (s.core core).cntMiss + 1 }

/-- A pushed line was used (R146, R246). -/
def countPush (s : State) (core : Nat) : State := s.setCore core { s.core core with cntPush := (s.core core).cntPush + 1 }

/-- The L1 line, with P turned into S where it was unused (R231, R246). -/
def useLine (s : State) (core : Nat) (e : L1Line) : State :=
  match e.st with
  | .P => countPush (s.setCore core ((s.core core).l1Put { e with st := .S })) core
  | _ => s.setCore core ((s.core core).l1Put e)

/-- Obtain ownership of a line for a core and fill it as O, to be written (R231). -/
def fillOwned (s : State) (core line : Nat) : State :=
  let die := dieOfCore core
  let s := bringOwned (flushPushes s line) die line
  let s := invalidate s die line (some core)
  fillLine s core line .O (backing s die line)

/-- Fill a line as O for a load: the line's home is the die copy where there is one, and the die asks for its ownership only when it writes (R231,
R333, R334). -/
def fillExclusive (s : State) (core line : Nat) : State :=
  let die := dieOfCore core
  let s := bring (flushPushes s line) die line
  let s := invalidate s die line (some core)
  fillLine s core line .O (backing s die line)

/-- The copy of a line in a core's L1 that counts (R232). -/
def l1Live (s : State) (core line : Nat) : Option L1Line := ((s.core core).l1Find line).filter (fun e => e.lives s.cycle)

/-- A T copy serves an SI load (R231), unless an acquire over a range that holds the load's address has come since the fill: for that load the copy
is discarded (R253). [log DEDUCED 23] -/
def servesT (e : L1Line) (rt : BitVec 2) (va : Word) : Bool := rt == 2 && e.spared.all (fun r => !lineInRange va r.1 r.2)

/-- A load of n bytes of one line by a core with a request type, performed now: the state, the value, and whether the
response is poisoned (R231). Request types: 0 OW, 1 WT, 2 SI, 3 UC. -/
def loadLine (s : State) (core : Nat) (rt : BitVec 2) (pa n : Nat) (va : Word := 0) : State × Nat × Bool :=
  let line := pa / 64
  let off := pa % 64
  let die := dieOfCore core
  let hit := fun (s : State) (e : L1Line) => (useLine s core e, if e.bad then 0 else lineGet e.data off n, e.bad)
  let atHome := fun (s : State) =>
    let r := homeRead (countMiss s core) die line
    if isBad r.1 line then (r.1, 0, true) else (r.1, lineGet r.2 off n, false)
  let fill := fun (s : State) (st : L1State) =>
    let r := homeRead (countMiss s core) die line
    if isBad r.1 line then (r.1, 0, true)
    else
      (fillLine r.1 core line st r.2 va, lineGet r.2 off n, false)
  let fillO := fun (s : State) =>
    let s := (homeRead (countMiss s core) die line).1
    if isBad s line then (s, 0, true)
    else
      let s := fillExclusive s core line
      (s, lineGet (backing s die line) off n, false)
  let absent := fun (s : State) =>
    if rt = 0 then fillO s
    else if rt = 1 then fill s .S
    else if rt = 2 then fill s .T
    else atHome s
  match l1Live s core line with
  | some e =>
    match e.st with
    | .T => if servesT e rt va then hit s e else absent (s.setCore core ((s.core core).l1Drop line))
    | .O =>
      if rt = 3 then
        let s := if e.dirty then writeBack s die line e.data else s
        atHome (s.setCore core ((s.core core).l1Put { e with st := .S, dirty := false }))
      else hit s e
    | .S => if rt = 3 then atHome s else hit s e
    | .P => if rt = 3 then atHome (useLine s core e) else hit s e
  | none => absent s

/-- A core's copy of a line takes n bytes. -/
def l1Write (s : State) (core pa n v : Nat) : State :=
  match (s.core core).l1Find (pa / 64) with
  | some e => s.setCore core ((s.core core).l1Put { e with data := linePut e.data (pa % 64) n v, dirty := true })
  | none => s

/-- A core may write a line in its own L1: it holds it in O, and its die owns it (R231, R333). -/
def ownsLine (s : State) (core line : Nat) : Bool :=
  ((s.core core).l1Find line).any (fun e => e.st == .O) && dieOwns s (dieOfCore core) line

/-- An OW store that has to fetch its line from the home is answered with poison where the line is poisoned there; it is not performed (R234,
R384). -/
def storeFails (s : State) (core : Nat) (rt : BitVec 2) (pa : Nat) : Bool :=
  rt == 0 && isBad s (pa / 64) && !(l1Live s core (pa / 64)).any (fun e => e.st != .T && !e.bad)

/-- A store of n bytes of one line by a core with a request type, performed now (R231). The pushes of the line that are on their way arrive before
anything is written at the home (R244, R245). -/
def storeLine (s : State) (core : Nat) (rt : BitVec 2) (pa n v : Nat) : State :=
  let line := pa / 64
  let die := dieOfCore core
  let own := fun (s : State) => l1Write (fillOwned s core line) core pa n v
  let through := fun (s : State) =>
    let s := homeWrite (s.setCore core ((s.core core).l1Drop line)) die pa n v
    fillLine s core line .S (backing s die line) 0 (isBad s line)
  if rt ≠ 3 ∧ ownsLine s core line then l1Write s core pa n v
  else
    let s := flushPushes s line
    match l1Live s core line with
    | some e =>
      let s := if e.st == .P then countPush s core else s
      if rt = 3 then
        let s := if e.st == .O && e.dirty then writeBack s die line e.data else s
        homeWrite (s.setCore core ((s.core core).l1Drop line)) die pa n v
      else if rt = 0 ∨ e.st = .O then own s
      else through s
    | none => if rt = 0 then own (countMiss s core) else homeWrite (countMiss s core) die pa n v

/-- A store that is performed at the home whatever its line's state is, as an STI's: a line held in O here is written back and kept in S first, and
is then written, copy and home (R231, R244). [log DEDUCED 66] -/
def storeHome (s : State) (core pa n v : Nat) : State :=
  let line := pa / 64
  let s := match (s.core core).l1Find line with
    | some e =>
      if e.st = .O then
        (if e.dirty then writeBack s (dieOfCore core) line e.data else s).setCore core ((s.core core).l1Put { e with st := .S, dirty := false })
      else s
    | none => s
  storeLine s core 1 pa n v

/-- The load is served by the core's own L1: no request leaves the core (R231). -/
def l1Serves (s : State) (core : Nat) (rt : BitVec 2) (pa : Nat) (va : Word := 0) : Bool :=
  match l1Live s core (pa / 64) with
  | some e => rt != 3 && (e.st != .T || servesT e rt va)
  | none => false

/-! ### Copies that peers hold (R434, R438) -/

/-- The copies that peers hold of a line stand against an access: any of them against one that needs the line `alone`, the owner's against every one. -/
def PeerCopy.against (line : Nat) (alone : Bool) (d : PeerCopy) : Bool := d.line == line && (alone || d.owned)

/-- An access to a line waits for copies that peers hold. -/
def peerHolds (s : State) (line : Nat) (alone : Bool) : Bool := s.peerDir.any (PeerCopy.against line alone)

/-- The holders of some lines get an invalidation or a recall, which they are to answer by a cycle. -/
def askPeers (lines : List Nat) (alone : Bool) (till : Nat) (s : State) : State :=
  { s with peerDir := s.peerDir.map (fun d =>
      if lines.any (fun l => d.against l alone) then { d with till := some (d.till.elim till (min till)) } else d) }

/-- Some of a number of lines are held by peers against an access. -/
def linesHeld (s : State) (lines : List Nat) (alone : Bool) : Bool := lines.any (fun l => peerHolds s l alone)

/-- The lines of a range of addresses of which peers hold copies. -/
def heldIn (s : State) (lo hi : Nat) : List Nat :=
  (s.peerDir.map (fun d => d.line)).filter (fun l => decide (lo < 64 * l + 64) && decide (64 * l < hi))

/-- The bytes of a line that a peer sends: 8 doublewords, each a free value. [log DESIGN CHOICE 4] -/
def drawLine (n : Nat) (s : State) : Nat × State :=
  match n with
  | 0 => (0, s)
  | k + 1 =>
    let t := drawLine k { s with freeCtr := s.freeCtr + 1 }
    ((Config.freeValue s.freeCtr).toNat + 2 ^ 64 * t.1, t.2)

/-- A device's access takes the copies against it, in the step in which the last holder has answered; whether an owner had written the line, and what, is that peer's. [log DEDUCED 24] -/
def takePeerCopies (line : Nat) (alone : Bool) (s : State) : State :=
  if peerHolds s line alone then
    let written := s.peerDir.any (PeerCopy.against line false) && (Config.freeValue s.freeCtr).getLsbD 0
    let s := { s with peerDir := s.peerDir.filter (fun d => !d.against line alone), freeCtr := s.freeCtr + 1 }
    if written then (let r := drawLine 8 s; cleanse (rawWrite r.2 (64 * line) 64 r.1) line 0 64) else s
  else s

/-- A device's own write of n bytes, at the home and coherent with every copy: the save area, the ring, landed messages,
the host (R377, R381, R423, R444). -/
def deviceWrite (s : State) (pa n v : Nat) : State :=
  let s := takePeerCopies (pa / 64) true s
  if isFar s pa then
    cleanse (rawWrite (farClear (flushPushes s (pa / 64)) (pa / 64)) pa n v) (pa / 64) (pa % 64) n
  else homeWrite s 0 pa n v

/-- The cycles of a time in microseconds, of which 0 means 1,000 (R3, R422, R428). [log DEDUCED 50] -/
def cyclesOf (us : Nat) : Nat := 1800 * (if us = 0 then 1000 else us)

/-- The cycles of a partition's cr.fabto (R428). -/
def fabricCycles (q : Part) : Nat := cyclesOf q.fabto.toNat

/-- A write of the package's own for a partition that waits at a line's home. -/
def DevOp.ownAt (o : DevOp) (line : Nat) : Bool :=
  match o with
  | .own _ pa _ _ => pa / 64 == line
  | _ => false

/-- The package writes n bytes of one line for a partition, of its save area or its ring: at once, or, where peers hold copies of the line or an earlier
one waits there, after they have given them up or been severed at the partition's cr.fabto (R381, R386, R392, R438). -/
def ownWrite (p pa n v : Nat) (s : State) : State :=
  let line := pa / 64
  if peerHolds s line true ∨ s.devWaits.any (fun o => o.ownAt line) then
    { askPeers [line] true (s.cycle + fabricCycles (s.part p)) s with devWaits := s.devWaits ++ [.own p pa n v] }
  else deviceWrite s pa n v

/-- A device's own read of n bytes of one line at the home (R303, R423). -/
def deviceRead (s : State) (pa n : Nat) : State × Nat :=
  let s := takePeerCopies (pa / 64) false s
  let s := if isFar s pa then farSettle s (pa / 64) else s
  let r := if isFar s pa then (s, homeData s (pa / 64)) else homeRead s 0 (pa / 64)
  (r.1, lineGet r.2 (pa % 64) n)

/-- A device's write of a run of bytes, line by line. -/
def deviceWriteBytes (s : State) (pa : Nat) (bs : List Byte) : State :=
  match bs with
  | [] => s
  | b :: t => deviceWriteBytes (deviceWrite s pa 1 b.toNat) (pa + 1) t

/-- What the home holds of n bytes, whatever copy is the current one, without changing anything: for walks, which read
entries at their home (R303). -/
def peekLine (s : State) (line : Nat) : CLine :=
  match s.cores.find? (fun c => ownsLine s c.1 line) with
  | some c => match c.2.l1Find line with
    | some e => e.data
    | none => homeData s line
  | none => match s.far.find? (fun c => c.line == line && c.owned) with
    | some c => c.data
    | none => homeData s line

/-- The n bytes at a physical address as the home would read them; they lie in one line. -/
def peek (s : State) (pa n : Nat) : Nat := lineGet (peekLine s (pa / 64)) (pa % 64) n

end Sys2Proof.Machine
end

