-- ==== Sys2Proof/Machine/Ops.lean ====
section
/-!
DEFINITION. The named operations every meaning is written over: registers, ports and results in flight, what holds or
traps an instruction before its own checks, how an instruction ends, taking an exception and returning from one, and the
curtain tree.
-/

namespace Sys2Proof.Machine

open Sys2Proof

/-! ### Registers and ports -/

/-- A register field of 28–31 names a port (R41). -/
def isPort (r : Reg) : Bool := decide (28 ≤ r.toNat)

/-- The port a field of 28–31 names. -/
def portNo (r : Reg) : Nat := r.toNat - 28

/-- The words waiting in an input port. -/
def Core.port (k : Core) (q : Nat) : List PortWord := k.ports[q]?.getD []

/-- A context's register as storage: g0 reads zero (R94). -/
def Ctx.reg (x : Ctx) (r : Reg) : Word := if r = 0 then 0 else x.g[r.toNat]?.getD 0

/-- A register written: g0 and the ports have no storage, and the write clears the poison bit (R94, R96). -/
def Ctx.setReg (x : Ctx) (r : Reg) (v : Word) : Ctx :=
  if r = 0 ∨ isPort r then x
  else { x with g := x.g.setIfInBounds r.toNat v, poison := x.poison &&& ~~~(1#32 <<< r.toNat) }

/-- The register is poisoned (R96). -/
def Ctx.isPoisoned (x : Ctx) (r : Reg) : Bool := x.poison.getLsbD r.toNat

/-- A register marked poisoned with the PC and VA of the access (R96). -/
def Ctx.setPoison (x : Ctx) (r : Reg) (pc va : Word) : Ctx :=
  if r = 0 ∨ isPort r then x
  else { x with poison := x.poison ||| (1#32 <<< r.toNat), prec := x.prec.setIfInBounds r.toNat (pc, va) }

/-- How often a register stands in a list. -/
def countReg (rs : List Reg) (r : Reg) : Nat := (rs.filter (fun x => x == r)).length

/-- A source as the executing context reads it: the n-th word of a port, or the register (R41). -/
def State.src (s : State) (r : Reg) (n : Nat) : Word :=
  if isPort r then ((s.mine.port (portNo r))[n]?).elim 0 (fun w => w.value) else s.me.reg r

/-- The sources of an instruction in the order a, b, d: each reads the word of its port that the earlier ones leave. -/
def State.srcs (s : State) (rs : List Reg) : List Word :=
  (List.range rs.length).map (fun i => s.src (rs[i]?.getD 0) (countReg (rs.take i) (rs[i]?.getD 0)))

/-- The first source. -/
def State.rdA (s : State) (a : Reg) : Word := s.src a 0

/-- The second source. -/
def State.rdB (s : State) (a b : Reg) : Word := s.src b (countReg [a] b)

/-- The third source. -/
def State.rdD (s : State) (a b d : Reg) : Word := s.src d (countReg [a, b] d)

/-- The phase counts of a core with one word more received from the intervals it carries (R292). -/
def Core.countRecv (k : Core) (w : PortWord) : Core :=
  { k with msgrecv := k.msgrecv + 1
           recv := Vector.ofFn (fun (i : Fin 4) =>
             let d := k.dm[i.val]?.getD 0
             k.recv[i.val]?.getD 0 + ofBool (w.doms.any (fun x => x.1 == i.val && x.2 == d))) }

/-- Remove the head word of a port; it counts as received (R263). -/
def Core.pop (k : Core) (q : Nat) : Core :=
  match k.port q with
  | [] => k
  | w :: t => ({ k with ports := k.ports.setIfInBounds q t }).countRecv w

/-- Consume the ports among the sources, at completion (R41). -/
def popPorts (rs : List Reg) (s : State) : State :=
  rs.foldl (fun s r => if isPort r then s.setMine (s.mine.pop (portNo r)) else s) s

/-- The levels of a core that are valid, with the intervals a word carries (R287, R292). -/
def Core.doms (k : Core) : List (Nat × Word) :=
  (List.range 4).filterMap (fun i =>
    let d := k.dm[i]?.getD 0
    if (i = 0 ∧ k.group.isSome) ∨ (i ≠ 0 ∧ d.getLsbD 63) then some (i, d) else none)

/-- A context sends a word on a route of its core, or on the one that `kept` says its instruction was checked against (R95, R260, R261, R292). -/
def sendWord (s : State) (c : CtxId) (q : Nat) (v : Word) (kept : Option Word := none) : State :=
  let k := s.core c.core
  let route := kept.getD (k.qroute[q]?.getD 0)
  let p := s.partOfRank (rankOf c.core)
  let w : PortWord := ⟨s.nextId, c.core, q, (s.part p).coreNo (route.extractLsb' 0 15).toNat,
    (route.extractLsb' 16 2).toNat, k.launch.setWidth 32, p, v, k.doms, (64, 64), false⟩
  let k := { k with sent := Vector.ofFn (fun (i : Fin 4) =>
    k.sent[i.val]?.getD 0 + ofBool (w.doms.any (fun x => x.1 == i.val))) }
  let s := { s with nextId := s.nextId + 1 }
  let s := s.setCore c.core k
  s.setCtx c { s.ctx c with sends := (s.ctx c).sends ++ [w] }

/-- A result becomes visible: its flags accrue, a port sends it, a register takes it (R41, R44, R75). -/
def writeResult (s : State) (c : CtxId) (r : Reg) (v : Word) (flags : BitVec 8) (kept : Option Word := none) : State :=
  let s := s.setCtx c { s.ctx c with fflags := (s.ctx c).fflags ||| flags }
  if isPort r then sendWord s c (portNo r) v kept else s.setCtx c ((s.ctx c).setReg r v)

/-- Results in flight in the order in which they become visible; of two that become visible in one cycle the later-issued
stands later and prevails (R44, R46). -/
def insertInflight (l : List Inflight) (e : Inflight) : List Inflight :=
  match l with
  | [] => [e]
  | x :: t => if e.visibleAt < x.visibleAt then e :: x :: t else x :: insertInflight t e

/-- Variable-latency results in the order in which they are due, the earlier-issued first (R103). -/
def insertVar (l : List VarResult) (e : VarResult) : List VarResult :=
  match l with
  | [] => [e]
  | x :: t => if e.due < x.due then e :: x :: t else x :: insertVar t e

/-- A result for a register may be produced now: one for a port waits while a send of its context has not been accepted, so that a
context never has more than one (R95). -/
def Ctx.mayProduce (x : Ctx) (r : Reg) : Bool := !isPort r || x.sends.isEmpty

/-- The fixed-latency result that becomes visible next, of those due by a cycle. -/
def Ctx.dueFixed (x : Ctx) (cycle : Nat) : Option Inflight :=
  x.inflight.find? (fun e => decide (e.visibleAt ≤ cycle) && x.mayProduce e.reg)

/-- The variable-latency result that is written next, of those due by a cycle. -/
def Ctx.dueVar (x : Ctx) (cycle : Nat) : Option VarResult :=
  x.varRes.find? (fun e => decide (e.due ≤ cycle) && x.mayProduce e.reg)

/-- Of a due fixed-latency and a due variable-latency result, the fixed one comes first: the one due earlier does, and of two due in one
cycle the earlier-issued, so that the later-issued prevails and sends leave in the order in which they were produced (R44, R46, R95, R103). -/
def fixedFirst (e : Inflight) (v : VarResult) : Bool :=
  decide (e.visibleAt < v.due) || (decide (e.visibleAt = v.due) && decide (e.order ≤ v.order))

/-- The result of a context that is produced next. -/
def Ctx.nextDue (x : Ctx) (cycle : Nat) : Option (Inflight ⊕ VarResult) :=
  match x.dueFixed cycle, x.dueVar cycle with
  | none, none => none
  | some e, none => some (.inl e)
  | none, some v => some (.inr v)
  | some e, some v => if fixedFirst e v then some (.inl e) else some (.inr v)

/-- Flags accrue into a context at the end of a cycle, on top of what is written in it (R75, R120). -/
def accrueAt (c : CtxId) (due : Nat) (f : BitVec 8) (s : State) : State :=
  if f = 0 then s else s.setCtx c { s.ctx c with vflags := (s.ctx c).vflags ++ [(due, f)] }

/-- A fixed-latency result in flight becomes visible (R44). A CSR instruction waits for the flags of a scalar FPU instruction (R111); those of a
vector instruction that writes a register accrue in this cycle on top of what a CSR instruction writes in it (R75, R120). -/
def showFixed (c : CtxId) (e : Inflight) (s : State) : State :=
  let s := s.setCtx c { s.ctx c with inflight := (s.ctx c).inflight.erase e }
  if e.fpu then writeResult s c e.reg e.value e.flags e.route
  else accrueAt c s.cycle e.flags (writeResult s c e.reg e.value 0 e.route)

/-- A variable-latency result is written (R103). -/
def showVar (c : CtxId) (e : VarResult) (s : State) : State :=
  writeResult (s.setCtx c { s.ctx c with varRes := (s.ctx c).varRes.erase e }) c e.reg e.value e.flags e.route

/-- Up to n results of a context that are due are produced, in their order. -/
def settleDue (c : CtxId) (n : Nat) (s : State) : State :=
  match n with
  | 0 => s
  | n + 1 =>
    match (s.ctx c).nextDue s.cycle with
    | none => s
    | some (.inl e) => settleDue c n (showFixed c e s)
    | some (.inr e) => settleDue c n (showVar c e s)

/-- Every result of a context that is due by the current cycle is produced. -/
def settle (s : State) (c : CtxId) : State :=
  settleDue c ((s.ctx c).inflight.length + (s.ctx c).varRes.length) s

/-- Up to n due fixed-latency results of a context become visible, in their order. -/
def settleFixed (c : CtxId) (n : Nat) (s : State) : State :=
  match n with
  | 0 => s
  | n + 1 =>
    match (s.ctx c).dueFixed s.cycle with
    | none => s
    | some e => settleFixed c n (showFixed c e s)

/-- A result in flight that has become due by a cycle. -/
def Inflight.dueBy (cycle : Nat) (e : Inflight) : Inflight := { e with visibleAt := min e.visibleAt cycle }

/-- Every fixed-latency result of a context that is in flight becomes visible (R47); one for a port is sent as soon as the send before it
has been accepted, and nothing of the context issues before (R95). [log DEDUCED 60] -/
def settleAll (s : State) (c : CtxId) : State :=
  settleFixed c (s.ctx c).inflight.length
    (s.setCtx c { s.ctx c with inflight := (s.ctx c).inflight.map (Inflight.dueBy s.cycle) })

/-- The executing context produces a fixed-latency result: it is in flight from now on (R44, R45). A result for g0 that
raises no flag needs no flight. -/
def produce (latency : Nat) (d : Reg) (v : Word) (flags : BitVec 8) (s : State) : State :=
  if d = 0 ∧ flags = 0 then s
  else s.setMe { s.me with
    inflight := insertInflight s.me.inflight ⟨d, v, s.cycle + latency, s.me.pc, flags, s.mine.issueSeq, false, none⟩ }

/-- A scalar FPU instruction of the executing context produces a fixed-latency result with its flags (R44, R75, R111). -/
def produceFpu (latency : Nat) (d : Reg) (v : Word) (flags : BitVec 8) (s : State) : State :=
  s.setMe { s.me with
    inflight := insertInflight s.me.inflight ⟨d, v, s.cycle + latency, s.me.pc, flags, s.mine.issueSeq, true, none⟩ }

/-- The executing context gets an interlocked result that is written in this step (R45). -/
def deliver (d : Reg) (v : Word) (s : State) : State := writeResult s s.cur d v 0

/-- The executing context gets a variable-latency result after a number of cycles (R103). -/
def produceLater (latency : Nat) (d : Reg) (v : Word) (flags : BitVec 8) (s : State) : State :=
  s.setMe { s.me with varRes := insertVar s.me.varRes ⟨d, v, s.cycle + latency, flags, s.mine.issueSeq, false, none⟩ }

/-- A scalar FPU instruction of the executing context gets a variable-latency result with its flags (R75, R103, R111). -/
def produceFpuLater (latency : Nat) (d : Reg) (v : Word) (flags : BitVec 8) (s : State) : State :=
  s.setMe { s.me with varRes := insertVar s.me.varRes ⟨d, v, s.cycle + latency, flags, s.mine.issueSeq, true, none⟩ }

/-! ### Code slots and segments (R127) -/

/-- The slot of a code address. -/
def slotOf (va : Word) : Nat := (va.toNat / 2048) % 32

/-- The segment of a code address. -/
def segOf (va : Word) : Word := va &&& ~~~0x7FF#64

/-- A code slot of a core. -/
def Core.slot (k : Core) (i : Nat) : Slot := k.slots[i]?.getD .empty

/-- The address's segment is in its slot in state RESIDENT (R122). -/
def Core.isResident (k : Core) (va : Word) : Bool :=
  match k.slot (slotOf va) with
  | .resident seg _ => seg == segOf va
  | _ => false

/-- The address's segment is in its slot in state FAILED. -/
def Core.isFailed (k : Core) (va : Word) : Bool :=
  match k.slot (slotOf va) with
  | .failed seg _ => seg == segOf va
  | _ => false

/-- The check of a control-transfer target (chapter 05, Enter). -/
def enterCheck (k : Core) (t : Word) : Option Trap :=
  if k.isResident t then none
  else if k.isFailed t then some (.mk' cXLATE t)
  else some (.mk' cCODEABSENT t)

/-- The instruction word at a code address, from instruction memory. [log DEDUCED 53] -/
def Core.fetch (k : Core) (va : Word) : IWord := BitVec.ofNat 32 (readLe k.imem (slotOf va * 2048 + va.toNat % 2048) 4)

/-! ### The curtain tree (R386) -/

/-- The place of a core's region in the save area (R377). -/
def saveCore (q : Part) (core : Nat) : Nat :=
  q.save.toNat + 0x10000 + (rankOf core - q.base.toNat) * 0x640000 + (core % 16) * 0x60000

/-- Write cr.icount of each context, cr.msgsent and cr.msgrecv of a core of a partition to their places in its region (R377, R386). [log DEDUCED 39] -/
def discloseCore (p : Nat) (s : State) (core : Nat) : State :=
  let k := s.core core
  let at_ := saveCore (s.part p) core
  let s := ownWrite p (at_ + 8 * 0x50) 8 k.msgsent.toNat s
  let s := ownWrite p (at_ + 8 * 0x51) 8 k.msgrecv.toNat s
  (List.range 11).foldl (fun s i => ownWrite p (at_ + 0x4000 + 0x600 * i + 0x340 + 8 * 13) 8 (k.ctx i).icount.toNat s) s

/-- The curtain tree stops a partition with a reason: it enters HALTED, every core discloses how far it went, the reason
goes to the header, and the physical function signals vector p (R386, R392). What peers hold copies of is written once they have given them up (R438).
[log DEDUCED 39] -/
def curtainStop (p : Nat) (reason : BitVec 2) (s : State) : State :=
  let q := s.part p
  if q.state = 1 then
    let s := s.setPart p { q with state := 5, reason := reason }
    let s := { s with msi := s.msi ++ [(0, p)] }
    let s := (List.range q.len.toNat).foldl (fun s i =>
      let r := q.base.toNat + i
      let s := s.setCluster r { s.cluster r with cause := 4 }
      (List.range 16).foldl (fun s j => discloseCore p s (16 * r + j)) s) s
    ownWrite p q.save.toNat 8 reason.toNat s
  else s

/-! ### Troupes: detachment (R268) -/

/-- The troupe of a core's cluster, where the core is a member. -/
def troupeOf (s : State) (core : Nat) : Option Troupe :=
  (s.cluster (rankOf core)).troupes.find? (fun t => t.members.getLsbD (core % 16))

/-- The core is an attached follower. -/
def isFollower (s : State) (core : Nat) : Bool :=
  (troupeOf s core).any (fun t => t.leader != core % 16 && !t.detached.getLsbD (core % 16))

/-- The core leads a troupe. -/
def isLeader (s : State) (core : Nat) : Bool := (troupeOf s core).any (fun t => t.leader == core % 16)

/-- The troupe that a core is a member of is changed; where `f` gives none, it is dissolved. -/
def mapTroupe (core : Nat) (f : Troupe → Option Troupe) (s : State) : State :=
  let c := s.cluster (rankOf core)
  s.setCluster (rankOf core) { c with
    troupes := c.troupes.filterMap (fun t => if t.members.getLsbD (core % 16) then f t else some t) }

/-- A core of a troupe is marked detached. -/
def markDetached (core : Nat) (s : State) : State :=
  mapTroupe core (fun t => some { t with detached := t.detached ||| (1#16 <<< (core % 16)) }) s

/-- A follower leaves the stream by itself: what was forwarded to it and not issued is dropped, and its next fetch is its
own, checked by Enter (R268). -/
def detach (core : Nat) (s : State) : State :=
  let s := markDetached core s
  let k := s.core core
  s.setCore core ({ k with fwdBuf := [] }.setCtx 0 { k.ctx 0 with enter := true, fwd := none })

/-- The attached followers of a leader's troupe, by global number. -/
def followers (s : State) (core : Nat) : List Nat :=
  match troupeOf s core with
  | none => []
  | some t => if t.leader = core % 16 then
      ((List.range 16).filter (fun i => t.members.getLsbD i && i != t.leader && !t.detached.getLsbD i)).map
        (fun i => 16 * rankOf core + i)
    else []

/-- An entry is forwarded to a follower. -/
def forward (e : FwdEntry) (s : State) (core : Nat) : State :=
  s.setCore core { s.core core with fwdBuf := (s.core core).fwdBuf ++ [e] }

/-- The word that the executing leader's ctx0 has issued goes to each attached follower; `s0` is the state before it (R267). -/
def forwardIssued (w : IWord) (taken : Bool) (s0 s : State) : State :=
  if s0.cur.ctx = 0 then
    ((followers s0 s0.cur.core).filter (fun f => (followers s s.cur.core).contains f)).foldl
      (forward ⟨w, s0.me.pc, s.me.pc, s0.me.frame, s0.cycle, false, taken⟩) s
  else s

/-- The stream to every attached follower of the executing leader ends at an address; with `mark` they count as detached. [log DESIGN CHOICE 30] -/
def endStream (pc : Word) (frame : Option Frame) (mark : Bool) (s : State) : State :=
  if s.cur.ctx = 0 then
    (followers s s.cur.core).foldl (fun s f =>
      let s := forward ⟨0, pc, pc, frame, s.cycle, true, false⟩ s f
      if mark then markDetached f s else s) s
  else s

/-- The check of a control transfer of the executing context: an attached follower makes none (R122, R128). -/
def State.enter (s : State) (t : Word) : Option Trap :=
  if s.me.fwd.isSome then none else enterCheck s.mine t

/-- Something done by a context in place of the executing one. -/
def asCtx (c : CtxId) (f : State → State) (s : State) : State :=
  let o := s.cur
  { f { s with cur := c } with cur := o }

/-! ### Taking an exception -/

/-- The frame state in the layout of cr.rptst (R136). [log DEDUCED 18] -/
def frameWord (f : Option Frame) : Word :=
  match f with
  | none => 0
  | some f => BitVec.ofNat 64 (f.index % 16 + 16 * ((f.words.length - 1) % 16) + 256 * f.smask.toNat + 2048 * f.stride.toNat +
      8192 * (f.k % 65536) + 2 ^ 29 * ((f.count - 1) % 65536) + 2 ^ 63)

/-- The level a trap enters: S from U or S, H from H, and H for HCALLTRAP and SCOPECAP (R147). -/
def trapLevel (priv : BitVec 2) (cause : BitVec 6) : BitVec 2 :=
  if cause = cHCALLTRAP ∨ cause = cSCOPECAP then 2 else if priv.toNat ≤ 1 then 1 else 2

/-- The address a trap goes to: 64 bytes for each cause from the context's vector, at H from the partition's (R147, R394). -/
def trapVector (q : Part) (x : Ctx) (level : BitVec 2) (cause : BitVec 6) : Word :=
  (if level = 2 then q.hvec else x.tvec) + BitVec.ofNat 64 (64 * cause.toNat)

/-- Trap entry of the executing context (R147): results in flight become visible, the trap registers are written, the
privilege rises and the PC goes to the vector. A vector that is not resident stops the partition (R148). A trap of a
troupe's leader detaches its followers at the trapping instruction, and a follower's trap detaches it (R268). The handler's first instruction may
issue in the next cycle, and no earlier than the context's next instruction might (R44): an instruction that traps at its issue has no W of its
own. [log DESIGN CHOICE 104] -/
def takeTrap (t : Trap) (tpc : Word) (s : State) : State :=
  let s := settleAll s s.cur
  let x := s.me
  let level := trapLevel x.priv t.cause
  let vec := trapVector s.myPart x level t.cause
  let resident := s.mine.isResident vec
  let s := endStream x.pc x.frame true s
  let s := if x.fwd.isSome then detach s.cur.core s else s
  let s := s.setMe { s.me with
    tpc := tpc, tcause := t.cause, tval := t.tval
    fpc := t.fpc.getD x.fpc, deff := t.fpc.isSome
    rptst := frameWord x.frame, frame := none
    sprv := x.priv, priv := level, pc := vec
    fwd := none, wait := .none, enter := false
    defDepth := if t.isDeferred then 1 else if x.defDepth = 0 then 0 else x.defDepth + 1
    nextIssue := Nat.max x.nextIssue (s.cycle + 1), missed := !resident }
  let s := { s with note := .trapped }
  if resident then s
  else
    let cl := s.cluster (rankOf s.cur.core)
    curtainStop s.myPartNo 0
      (s.setCluster (rankOf s.cur.core) { cl with dcore := BitVec.ofNat 4 (s.cur.core % 16) })

/-- The executing context has been selected in this cycle: the core selects no other in it, the next look begins after it, and a context
that has yielded to it waits for it no longer (R142). -/
def slotTaken (s : State) : State :=
  let k := s.mine
  s.setMine { k with nextIssue := s.cycle + 1, rr := s.cur.ctx
                     ctxs := k.ctxs.map (fun x => { x with yieldTo := x.yieldTo.filter (fun i => i != s.cur.ctx) }) }

/-- A precise trap at the executing instruction (R149). -/
def trap (t : Trap) (s : State) : Out := .next (slotTaken (takeTrap t s.me.pc s))

/-- A precise trap without a PC for cr.fpc. -/
def trapAt (cause : BitVec 6) (tval : Word) (s : State) : Out := trap (.mk' cause tval) s

/-! ### How a helper ends (R140, R141, R327) -/

/-- A context's tenures end and its waiting requests leave the queue (R327). -/
def dropTenures (c : CtxId) (s : State) : State :=
  let p := s.partOfRank (rankOf c.core)
  let q := s.part p
  s.setPart p { q with tenures := q.tenures.filter (fun t => t.ctx != c), tenReqs := q.tenReqs.filter (fun t => t.ctx != c) }

/-- The results of a context's requests that have not come back will be discarded. -/
def dropResults (c : CtxId) (s : State) : State :=
  { s with reqs := s.reqs.map (fun q => if q.ctx = c then { q with drop := true } else q) }

/-- A helper's life ends with an exit value; what it has issued stands, its results in flight are discarded, those on their way to a port
with the others. [log DESIGN CHOICE 62] -/
def endHelper (c : CtxId) (value : Word) (killed : Bool) (s : State) : State :=
  let s := dropResults c (dropTenures c s)
  let k := s.core c.core
  let s := s.setCore c.core { k with mq := k.mq.map (fun m => if m.ctx = c.ctx then { m with orphan := true } else m) }
  s.setCtx c { s.ctx c with
    live := false, exitVal := value, killed := killed, killReq := false, wait := .none, frame := none
    inflight := [], varRes := [], fpHold := none, deferred := [], mfault := none, enter := false, yieldTo := [], missed := false, defDepth := 0
    ring := (s.ctx c).ring.map (fun h => { h with reg := 0 }) }

/-! ### How an instruction ends -/

/-- The address after the executing instruction: the next word of a frame's replay, the next replay, or the word after
(R134). [log DEDUCED 57] -/
def nextInFrame (f : Frame) : Option Frame :=
  if f.index + 1 < f.words.length then some { f with index := f.index + 1 }
  else if f.k + 1 < f.count then some { f with index := 0, k := f.k + 1 }
  else none

/-- The PC and the frame after the executing instruction. -/
def Ctx.advance (x : Ctx) : Ctx :=
  match x.frame with
  | none => { x with pc := x.pc + 4 }
  | some f =>
    match nextInFrame f with
    | some g => { x with frame := some g, pc := g.base + BitVec.ofNat 64 (4 * g.index) }
    | none => { x with frame := none, pc := f.base + BitVec.ofNat 64 (4 * f.words.length) }

/-- A context that is ready in a cycle: live, its time come and not held (R142). -/
def Ctx.isReady (x : Ctx) (cycle : Nat) : Bool :=
  x.live && !x.missed && x.fpHold.isNone && decide (x.nextIssue ≤ cycle) && x.wait == .none

/-- The executing context has issued: its next issue comes no earlier than 1 + W cycles later, and its core's next issue in
the next cycle (R44, R142). -/
def issued (w : BitVec 3) (s : State) : State :=
  let s := slotTaken s
  let s := s.setMine { s.mine with issueSeq := s.mine.issueSeq + 1 }
  s.setMe { s.me with nextIssue := s.cycle + 1 + w.toNat, fwd := none, wait := .none }

/-- The executing instruction is retired: it counts, and its context goes on; its next fetch is not its first (R101, R128). -/
def retireAt (w : BitVec 3) (move : Ctx → Ctx) (s : State) : State :=
  let s := issued w s
  { s.setMe (move { s.me with icount := s.me.icount + 1, enter := false }) with note := .retired }

/-- The context's next instruction comes no earlier than 1 + W cycles after this one (R44). -/
def spaced (w : BitVec 3) (s : State) : State := s.setMe { s.me with nextIssue := s.cycle + 1 + w.toNat }

/-- The executing instruction is complete: its ports are consumed and the PC advances. [log DEDUCED 7] -/
def finish (w : BitVec 3) (rs : List Reg) (s : State) : State := retireAt w Ctx.advance (popPorts rs s)

/-- The executing instruction is complete and control goes to a target. -/
def finishAt (w : BitVec 3) (rs : List Reg) (t : Word) (s : State) : State :=
  retireAt w (fun x => { x with pc := t, frame := none }) (popPorts rs s)

/-- The context is held: the instruction has not issued, and the core may select another context in this cycle. A context that is held
is not ready, and no YIELD waits for it (R142). [log DEDUCED 7] -/
def held (s : State) : State :=
  let k := s.mine
  let s := s.setMine { k with ctxs := k.ctxs.map (fun x => { x with yieldTo := x.yieldTo.filter (fun i => i != s.cur.ctx) }) }
  { s.setMe { s.me with wait := if s.me.wait = .none then .held else s.me.wait } with note := .held }

/-- An instruction that does not issue yet. [log DEDUCED 7] -/
def hold (s : State) : Out := .next (held s)

/-! ### Returning from an exception -/

/-- The words of a frame of some length, read from instruction memory at its base. -/
def Core.frameWords (k : Core) (base : Word) (len : Nat) : List IWord := (List.range len).map (fun i => k.fetch (base + BitVec.ofNat 64 (4 * i)))

/-- The frame that cr.rptst and cr.tpc describe, with its words read again (R137). [log DEDUCED 18; DEDUCED 57] -/
def frameOf (k : Core) (st tpc : Word) : Frame :=
  let base := tpc - 4 * zext (st.extractLsb' 0 4)
  { base := base
    words := k.frameWords base ((st.extractLsb' 4 4).toNat + 1)
    smask := st.extractLsb' 8 3
    stride := st.extractLsb' 11 2
    k := (st.extractLsb' 13 16).toNat
    count := (st.extractLsb' 29 16).toNat + 1
    index := (st.extractLsb' 0 4).toNat }

/-- The addresses of a frame's captured words. -/
def Frame.vas (f : Frame) : List Word := (List.range f.words.length).map (fun i => f.base + BitVec.ofNat 64 (4 * i))

/-- Every captured word of a frame lies in a resident segment. [log DEDUCED 17] -/
def frameResident (k : Core) (f : Frame) : Bool := f.vas.all k.isResident

/-- Return from a trap (R152): the saved privilege is restored and control goes to cr.tpc through Enter, or back into the
frame of cr.rptst; a check that fails traps at the new privilege, at the target, with the handler spaced by the ERET's W (R44). [log DEDUCED 17] -/
def returnFrom (w : BitVec 3) (s : State) : Out :=
  let x := s.me
  let t := x.tpc
  let f := if x.rptst.getLsbD 63 then some (frameOf s.mine x.rptst t) else none
  let s := s.setMe { x with priv := x.sprv, sprv := 0, defDepth := x.defDepth - 1, frame := f }
  match f with
  | some f =>
    if frameResident s.mine f then .next (retireAt w (fun x => { x with pc := t }) s)
    else .next (slotTaken (takeTrap (.mk' cCODEABSENT t) t (spaced w s)))
  | none =>
    match s.enter t with
    | some e => .next (slotTaken (takeTrap e t (spaced w s)))
    | none => .next (retireAt w (fun x => { x with pc := t }) s)

/-! ### What comes before an instruction's own checks -/

/-- A register awaits an interlocked result of the executing context: DIV and its like, a load or atomic in flight, or an
entry of the retry ring, an STI's mask among them (R45, R103, R244, R380). -/
def State.awaits (s : State) (r : Reg) : Bool :=
  r != 0 && !isPort r &&
    (s.me.varRes.any (fun e => e.reg == r) || s.me.ring.any (fun h => h.reg == r) ||
      s.reqs.any (fun q => q.ctx == s.cur && q.dest == r && !q.drop))

/-- The register's fixed-latency result in flight, if any; where several are, the one that becomes visible first, whose producer STALLSHORT
reports (R46). [log DESIGN CHOICE 61] -/
def State.stalled (s : State) (r : Reg) : Option Inflight :=
  if r = 0 ∨ isPort r then none else s.me.inflight.find? (fun e => e.reg == r)

/-- What becomes of an instruction before its own checks. -/
inductive Hazard where
  | clear
  | hold
  | trap (t : Trap)
deriving DecidableEq, Repr

/-- The ports among the sources hold as many words as are read from them (R41, R95). -/
def State.portsReady (s : State) (rs : List Reg) : Bool :=
  rs.all (fun r => !isPort r || decide (countReg rs r ≤ (s.mine.port (portNo r)).length))

/-- The checks before an instruction's own: interlocks and empty ports hold it, the checking scoreboard traps STALLSHORT at a
read or write of a register whose result is in flight, a poisoned source traps POISON (R46, R61, R95, R96, R103). Of several registers the
first in the order a, b, d counts, for STALLSHORT and for POISON alike. [log DEDUCED 19; DESIGN CHOICE 61] -/
def hazard (rs ds : List Reg) (s : State) : Hazard :=
  if (rs ++ ds).any s.awaits then .hold
  else if !s.portsReady rs then .hold
  else
    match (if s.me.chk then (rs ++ ds).findSome? s.stalled else none) with
    | some e => .trap (.mk' cSTALLSHORT e.pc)
    | none =>
      match rs.find? (fun r => s.me.isPoisoned r && r != 0 && !isPort r) with
      | some r =>
        let rc := s.me.prec[r.toNat]?.getD (0, 0)
        .trap ⟨cPOISON, rc.2, some rc.1, false⟩
      | none => .clear

/-- Go on with an instruction once nothing before its own checks holds or traps it. -/
def issueThen (rs ds : List Reg) (s : State) (k : State → Out) : Out :=
  match hazard rs ds s with
  | .hold => hold s
  | .trap t => trap t s
  | .clear => k s

/-- The route behind a port destination may not be used: it is not valid or leaves the partition (R261). [log DEDUCED 19] -/
def portFault (s : State) (d : Reg) : Option Trap :=
  if isPort d then
    let r := s.mine.qroute[portNo d]?.getD 0
    if r.getLsbD 31 ∧ (r.extractLsb' 0 15).toNat < 16 * s.ptlen then none else some (.mk' cPORTFAULT r)
  else none

/-- Go on unless the destination is a port whose route may not be used. [log DEDUCED 19] -/
def destThen (d : Reg) (s : State) (k : State → Out) : Out :=
  match portFault s d with
  | some t => trap t s
  | none => k s

/-- Go on where nothing holds the instruction. -/
def holdThen (b : Bool) (s : State) (k : State → Out) : Out := if b then hold s else k s

/-- Go on where a trap's condition does not hold. -/
def failThen (t : Option Trap) (s : State) (k : State → Out) : Out :=
  match t with
  | some t => trap t s
  | none => k s

/-- An instruction that only the given privilege and wider may issue traps PRIV below it, with the word (R57, R61). -/
def privThen (level : BitVec 2) (word : IWord) (s : State) (k : State → Out) : Out :=
  if s.me.priv.toNat < level.toNat then trapAt cPRIV (zext word) s else k s

/-- An instruction that only ctx0 may issue traps ILLEGAL in a helper, with the word (R138, R265, R289); like the ILLEGAL of a level that DJOIN, DLEAVE, SYNC
or BAR does not admit (R289, R291), it comes before STALLSHORT, POISON and the wait for a port's word (R61). [log DESIGN CHOICE 84] -/
def ctx0Then (word : IWord) (s : State) (k : State → Out) : Out :=
  if s.cur.ctx ≠ 0 then trapAt cILLEGAL (zext word) s else k s

/-- A result that the scoreboard interlocks, written at completion. -/
def completeWith (w : BitVec 3) (rs : List Reg) (d : Reg) (v : Word) (s : State) : Out :=
  destThen d s (fun s => .next (finish w rs (deliver d v s)))

/-- Draw a free value. [log DESIGN CHOICE 4] -/
def draw (s : State) : Word × State := (Config.freeValue s.freeCtr, { s with freeCtr := s.freeCtr + 1 })

end Sys2Proof.Machine
end

