-- ==== Sys2Proof/Machine/Mmio.lean ====
section
/-!
DEFINITION. What a read of an MMIO register gives (R7, R295, R390, R392, R414, R422, R441, R452).
-/

namespace Sys2Proof.Machine

open Sys2Proof

/-! ### Which register an address names (R452) -/

/-- A page of MMIO, by the table of R452. -/
inductive Page where
  | security
  | debug (rank : Nat)
  | pcb (p : Nat)
  | fabric
  | network (p : Nat)
  | none
deriving DecidableEq, Repr

/-- The page of an address. -/
def pageAt (pa : Nat) : Page :=
  if 0xF0000000000 ≤ pa ∧ pa < 0xF0000001000 then .security
  else if 0xF0010000000 ≤ pa ∧ pa < 0xF0010000000 + 1600 * 0x1000 then .debug ((pa - 0xF0010000000) / 0x1000)
  else if 0xF0020000000 ≤ pa ∧ pa < 0xF0020000000 + 64 * 0x1000 then .pcb ((pa - 0xF0020000000) / 0x1000)
  else if 0xF0030000000 ≤ pa ∧ pa < 0xF0030001000 then .fabric
  else if 0xF0040000000 ≤ pa ∧ pa < 0xF0040000000 + 64 * 0x1000 then .network ((pa - 0xF0040000000) / 0x1000)
  else .none

/-! ### Reads -/

/-- Eight bytes of a list from an offset. -/
def bytes8 (l : List Byte) (off : Nat) : Word :=
  BitVec.ofNat 64 ((List.range 8).foldr (fun i v => ((l[off + i]?.getD 0).toNat + 256 * v)) 0)

/-- The security page (R414). What a read of the token area gives is not stated: R415 has tokens written to it and gives it no access code; here
it reads as the bytes written last. [log DESIGN CHOICE 71] -/
def readSecurity (s : State) (off : Nat) : Word :=
  let x := s.security
  if off < 0x100 then (x.meas[off / 32]?.getD 0).extractLsb' (8 * (off % 32)) 64
  else if off < 0x120 then x.nonce.extractLsb' (8 * (off - 0x100)) 64
  else if off = 0x120 then (if x.busy then 2 else 0)
  else if 0x140 ≤ off ∧ off < 0x160 then (Config.unonce x.draws).extractLsb' (8 * (off - 0x140)) 64
  else if 0x200 ≤ off ∧ off < 0x600 then bytes8 x.report (off - 0x200)
  else if 0x600 ≤ off ∧ off < 0x800 then bytes8 x.token (off - 0x600)
  else 0

/-- A debug module (R295). A cluster whose partition the curtain tree has stopped is halted too (R386). -/
def readDebug (s : State) (rank off : Nat) : Word :=
  let c := s.cluster rank
  let q := s.part (s.partOfRank rank)
  if off = 0 then zext c.dmctl <<< 2
  else if off = 8 then
    BitVec.ofNat 64 ((if c.halted ∨ (q.state = 5 ∧ q.owns rank) then 1 else 0) + 2 * c.cause.toNat + 16 * c.dcore.toNat + 2 ^ 48 * rank)
  else if 0x100 ≤ off ∧ off < 0x180 then (s.core (16 * rank + (off - 0x100) / 8)).dmpc
  else 0

/-- PCTL.STATE as it reads: a partition is STOPPING from the timestamp of its switch on (R392). -/
def shownState (s : State) (q : Part) : BitVec 3 :=
  if (q.state = 1 ∨ q.state = 5) ∧ q.switchAt.any (fun t => decide (t ≤ s.ticks)) then 2 else q.state

/-- A partition control block (R390). -/
def readPcb (s : State) (p off : Nat) : Word :=
  let q := s.part p
  if off = 0x00 then BitVec.ofNat 64 ((shownState s q).toNat + 2 ^ 12 * q.err.toNat + 2 ^ 16 * q.reason.toNat)
  else if off = 0x08 then BitVec.ofNat 64 (q.base.toNat + 2 ^ 16 * q.len.toNat)
  else if off = 0x10 then q.hvec
  else if off = 0x18 then q.save
  else if off = 0x20 then q.swt
  else if off = 0x28 then q.mbox
  else if off = 0x30 then q.svcpc
  else if off = 0x38 then ofBool s.kw8
  else if off = 0x40 then q.ldesc
  else if off = 0x48 then zext q.lasid
  else if off = 0x50 then q.lttab
  else if off = 0x58 then q.ltvec
  else if off = 0x60 then q.lres
  else 0

/-- EGCTL (R422). -/
def edgeWord (e : Edge) (n : Nat) : Word :=
  BitVec.ofNat 64 (e.pers.toNat + 2 ^ 4 * e.next.toNat + (if e.up then 2 ^ 8 else 0) + (if n ≤ 1 then 2 ^ 9 else 0))

/-- The fabric page (R422). -/
def readFabric (s : State) (off : Nat) : Word :=
  let f := s.fabric
  if off = 0x00 then BitVec.ofNat 64 (f.peer.toNat + (if f.norfel then 2 ^ 16 else 0))
  else if off = 0x08 then BitVec.ofNat 64 (2 * f.state.toNat + 2 ^ 4 * f.result.toNat + 2 ^ 8 * f.failed.toNat)
  else if off = 0x10 then zext f.hometo
  else if off = 0x18 then f.exptab
  else if off = 0x20 then f.hwin
  else if off = 0x28 then f.sevlost
  else if off = 0x30 then f.tcmin0
  else if off = 0x38 then f.tcmin1
  else if 0x100 ≤ off ∧ off < 0x280 then edgeWord (f.edges[(off - 0x100) / 8]?.getD ⟨0, 0, false⟩) ((off - 0x100) / 8)
  else if 0x410 ≤ off ∧ off < 0x580 then
    let r := f.staged[(off - 0x400) / 16]?.getD ⟨false, 0, 0⟩
    if off % 16 = 0 then BitVec.ofNat 64 ((if r.valid then 1 else 0) + 2 ^ 28 * r.base) else BitVec.ofNat 64 r.size
  else if 0x800 ≤ off ∧ off < 0x880 then f.sevmask.extractLsb' (8 * (off - 0x800)) 64
  else 0

/-- A network page (R441). -/
def readNetwork (s : State) (p off : Nat) : Word :=
  let g := s.netPages[p]?.getD ⟨0, 0, 0, 0, 0⟩
  if off = 0x00 then g.eptab
  else if off = 0x08 then zext g.eplen
  else if off = 0x10 then g.ringtab
  else if off = 0x18 then zext g.ringlen
  else if off = 0x20 then zext g.jobid
  else 0

/-- The value of the doubleword register at an MMIO address; an offset that no table assigns reads zero (R452). -/
def mmioRead (s : State) (pa : Nat) : Word :=
  let off := pa % 0x1000
  match pageAt pa with
  | .security => readSecurity s off
  | .debug rank => readDebug s rank off
  | .pcb p => readPcb s p off
  | .fabric => readFabric s off
  | .network p => readNetwork s p off
  | .none => 0

/-- The n bytes of MMIO registers from an address on. -/
def mmioBytes (s : State) (pa n : Nat) : Nat :=
  match n with
  | 0 => 0
  | k + 1 => (mmioRead s (pa / 8 * 8)).toNat / 256 ^ (pa % 8) % 256 + 256 * mmioBytes s (pa + 1) k

end Sys2Proof.Machine
end

