-- ==== Sys2Proof/Machine/Translate.lean ====
section
/-!
DEFINITION. Address classes and translation: the walk of both stages, the leaf kinds, the cluster's translation cache and
peer windows (R300–R308, R311, R394, R405, R430, R431).
-/

namespace Sys2Proof.Machine

open Sys2Proof

/-! ### Address classes (R158, R300) -/

/-- The view field of an address. -/
def viewOf (va : Word) : Nat := va.toNat / 2 ^ 52

/-- The location of an address. -/
def locOf (va : Word) : Nat := va.toNat % 2 ^ 52

/-- An address of the local class. -/
def isLocal (va : Word) : Bool := decide (locOf va < 0x100000)

/-- An address of the peer-window class. -/
def isPeer (va : Word) : Bool := decide (2 ^ 51 ≤ locOf va)

/-- Step 1 of R227: ADDRFORM for a view field where none may stand, a position outside the partition, and the last gap of
the local class (R158, R300). -/
def formCheck (ptlen : Nat) (va : Word) : Option Trap :=
  if viewOf va ≠ 0 ∧ (isLocal va ∨ isPeer va ∨ ptlen ≤ viewOf va - 1) then some (.mk' cADDRFORM va)
  else if isLocal va ∧ 0x41000 ≤ locOf va then some (.mk' cADDRFORM va)
  else none

/-! ### Needs and results -/

/-- What an access needs of a leaf (R305): to read, to write, to fetch code; an AMO of ops 2–E or a VAMO needs a peer
window's A; an STI never takes a REPLICA page. -/
structure Need where
  r   : Bool
  w   : Bool
  x   : Bool
  amo : Bool
  sti : Bool
deriving DecidableEq, Repr

def needR : Need := ⟨true, false, false, false, false⟩
def needW : Need := ⟨false, true, false, false, false⟩
def needX : Need := ⟨false, false, true, false, false⟩
def needRW : Need := ⟨true, true, false, true, false⟩
def needSti : Need := ⟨false, true, false, false, true⟩

/-- A successful translation: the output address, the leaf's kind, W and V, the district of a REPLICA slot, and the slots
of the other replicas that a write may multicast to. -/
structure Xl where
  pa     : Nat
  kind   : BitVec 2
  w      : Bool
  v      : Bool
  dst    : Nat
  large  : Bool
  others : List RepSlot
deriving DecidableEq, Repr

/-- A failed translation: VIEWPERM, or XLATE of a kind of R305. -/
inductive XlErr where
  | viewperm
  | kind (k : BitVec 3)
deriving DecidableEq, Repr

/-! ### Walks (R303, R304) -/

/-- The permissions and the frame of a leaf, or why the walk failed, and the page's size. -/
inductive Walked where
  | leaf (large : Bool) (e : Nat)
  | fault (k : BitVec 3)
deriving DecidableEq, Repr

/-- The reserved bits of a table entry are zero. -/
def tableOk (e : Nat) : Bool := decide (e / 4 % 2 ^ 14 = 0) && decide (e / 2 ^ 52 = 0)

/-- The table that a table entry names. -/
def nextTable (e : Nat) : Nat := e / 2 ^ 16 % 2 ^ 36 * 2 ^ 16

/-- A walk over entries that `read` gives; it answers none of an address that stage 2 refuses. `idx` are the level indices
left, with the sizes of a leaf there: none, a 256 MiB page, a 64 KiB page. -/
def walkFrom (read : Nat → Option Nat) (base : Nat) (idx : List (Nat × Option Bool)) : Walked :=
  match idx with
  | [] => .fault 7
  | (i, leafAt) :: rest =>
    match read (base + 16 * i) with
    | none => .fault 6
    | some e =>
      if e % 4 = 0 then .fault 1
      else if e % 4 = 1 then
        if rest = [] ∨ !tableOk e then .fault 7 else walkFrom read (nextTable e) rest
      else if e % 4 = 2 then
        match leafAt with
        | none => .fault 7
        | some large => .leaf large e
      else .fault 7

/-- The level indices of a 51-bit address. -/
def walkIndices (a : Nat) : List (Nat × Option Bool) :=
  [(a / 2 ^ 40 % 2048, none), (a / 2 ^ 28 % 4096, some true), (a / 2 ^ 16 % 4096, some false)]

/-! ### Leaves (R303, R306) -/

def leafKind (e : Nat) : BitVec 2 := BitVec.ofNat 2 (e / 4)
def leafR (e : Nat) : Bool := e.testBit 4
def leafW (e : Nat) : Bool := e.testBit 5
def leafX (e : Nat) : Bool := e.testBit 6
def leafU (e : Nat) : Bool := e.testBit 7
def leafV (e : Nat) : Bool := e.testBit 8
def leafG (e : Nat) : Bool := e.testBit 9
def leafWP (e : Nat) : Bool := e.testBit 10
def leafFrame (e : Nat) : Nat := e / 2 ^ 16 % 2 ^ 36 * 2 ^ 16
def leafIcount (e : Nat) : Nat := e / 2 ^ 64 % 2 ^ 12
def leafStride (e : Nat) : Nat := e / 2 ^ 76 % 2 ^ 6
def leafHome (e : Nat) : Nat := e / 2 ^ 64 % 2 ^ 4
def leafRset (e : Nat) : Nat := e / 2 ^ 71 % 2 ^ 45 * 128

/-- A leaf holds no reserved encoding (R303). -/
def leafOk (large : Bool) (e : Nat) : Bool :=
  let hi := e / 2 ^ 64
  decide (e / 2 ^ 11 % 32 = 0) && decide (e / 2 ^ 52 % 2 ^ 12 = 0) &&
  (!large || decide (leafFrame e % 2 ^ 28 = 0)) &&
  (if leafKind e = 0 then decide (hi = 0)
   else if leafKind e = 1 then
     decide (hi / 2 ^ 18 = 0) && decide (leafIcount e ≠ 0) && decide (16 ≤ leafStride e) && decide (leafStride e ≤ 43) &&
       (!large || decide (28 ≤ leafStride e))
   else if leafKind e = 2 then decide (hi / 16 % 8 = 0) && decide (hi / 2 ^ 52 = 0) && decide (leafFrame e = 0)
   else false)

/-- Bytes of a page. -/
def pageSize (large : Bool) : Nat := if large then 2 ^ 28 else 2 ^ 16

/-! ### Stage 2 and colour (R304, R394, R404, R405) -/

/-- The colour of a frame in bonded DRAM (R404). -/
def colourOf (pa : Nat) : Nat := 8 * (pa / 2 ^ 22 % 8) + ((pa / 2 ^ 19 % 8) ^^^ (pa / 2 ^ 33 % 8))

/-- The page number of a location, for the two page sizes. -/
def pageNo (large : Bool) (loc : Nat) : Nat := if large then loc / 2 ^ 28 else loc / 2 ^ 16

/-- The leaf of stage 2 for an intermediate address: one kept with a completed walk, else by walking the tables (R304, R311). -/
def stage2Leaf (s : State) (x : Xctx) (kept : List S2Leaf) (ipa : Nat) : Option S2Leaf :=
  match kept.find? (fun e => e.page == pageNo e.large ipa) with
  | some e => some e
  | none =>
    match walkFrom (fun a => some (peek s a 16)) (x.s2base.toNat / 2 ^ 15 % 2 ^ 37 * 2 ^ 15) (walkIndices ipa) with
    | .fault _ => none
    | .leaf large e => some ⟨large, pageNo large ipa, BitVec.ofNat 128 e⟩

/-- What a leaf of stage 2 gives an access: it must be SHARED and permit it (R304). -/
def S2Leaf.output (l : S2Leaf) (n : Need) (ipa : Nat) : Option Nat :=
  let e := l.leaf.toNat
  if leafOk l.large e ∧ leafKind e = 0 ∧ (!n.r || leafR e) ∧ (!n.w || leafW e) ∧ (!n.x || leafX e) then
    some (leafFrame e + ipa % pageSize l.large)
  else none

/-- An intermediate address through stage 2 where it is on, with the permissions needed; at H it does not apply. None is XLATE kind 6. The leaf used
joins those kept (R304, R394). -/
def stage2Using (s : State) (x : Xctx) (n : Need) (kept : List S2Leaf) (ipa : Nat) : Option (Nat × List S2Leaf) :=
  if x.priv = 2 ∨ !x.s2ctl then some (ipa, kept)
  else if 2 ^ 51 ≤ ipa then none
  else (stage2Leaf s x kept ipa).bind (fun l => (l.output n ipa).map (fun pa => (pa, if kept.contains l then kept else kept ++ [l])))

/-- The same by a walk of stage 2. -/
def stage2 (s : State) (x : Xctx) (n : Need) (ipa : Nat) : Option Nat := (stage2Using s x n [] ipa).map (fun r => r.1)

/-- The partition's colours admit the output of a final translation; they are not asked at H (R405). -/
def colourOk (s : State) (x : Xctx) (pa : Nat) : Bool :=
  let m := (s.part x.part).colmask
  x.priv == 2 || m == 0 || !isDram pa || m.getLsbD (colourOf pa)

/-- The final address of a stage-1 output: through stage 2, and of a colour that is admitted. None is XLATE kind 6 (R304, R405). -/
def finalUsing (s : State) (x : Xctx) (n : Need) (kept : List S2Leaf) (ipa : Nat) : Option (Nat × List S2Leaf) :=
  (stage2Using s x n kept ipa).filter (fun r => colourOk s x r.1)

/-- The same by a walk of stage 2. -/
def final (s : State) (x : Xctx) (n : Need) (ipa : Nat) : Option Nat := (finalUsing s x n [] ipa).map (fun r => r.1)

/-- A table's entry or slot of n bytes, at a stage-1 address: no final translation, of which the colours would be asked (R304, R405). -/
def readTable (s : State) (x : Xctx) (n a : Nat) : Option Nat := (stage2 s x needR a).map (fun pa => peek s pa n)

/-! ### The translation of an access (R305–R308, R311) -/

/-- The physical district of the unit that performs an access (R301, R307). -/
def unitDistrict (x : Xctx) : Nat := districtOfRank x.unit

/-- The order in which a district looks for a replica (R307). -/
def replicaOrder (d : Nat) : List Nat :=
  d :: (d ^^^ 1) :: ((List.range 8).filter (fun e => e != d / 2)).flatMap (fun e => [2 * e, 2 * e + 1])

/-- A slot of a replica set is valid. -/
def slotValid (l : List Word) (i : Nat) : Bool := (l[i]?.getD 0).getLsbD 0

/-- The frame of a slot. -/
def slotFrame (l : List Word) (i : Nat) : Nat := (l[i]?.getD 0).toNat / 2 ^ 16 % 2 ^ 36 * 2 ^ 16

/-- A slot holds no reserved bit. -/
def slotOk (v : Word) : Bool := decide (v.toNat / 2 % 2 ^ 15 = 0) && decide (v.toNat / 2 ^ 52 = 0)

/-- The position of an access: its view where it has one (R301). -/
def positionOf (x : Xctx) (va : Word) : Nat := if viewOf va = 0 then x.pos else viewOf va - 1

/-- A translation-cache entry answers for a location. -/
def TlbEntry.matches (e : TlbEntry) (vmid asid : BitVec 16) (loc : Nat) : Bool :=
  e.peer.isNone && e.vmid == vmid && (e.asid.isNone || e.asid == some asid) && e.page == pageNo e.large loc

/-- The completed walk for a location: from the cluster's cache, else by walking the tables. A replica set that stage 2 refuses fails the walk with kind 6,
before anything of the leaf is checked (R304, R306). [log DESIGN CHOICE 85] -/
def findLeaf (s : State) (x : Xctx) (loc : Nat) : TlbEntry ⊕ BitVec 3 :=
  match (s.cluster x.unit).tlb.find? (fun e => e.matches x.vmid x.asid loc) with
  | some e => .inl e
  | none =>
    match walkFrom (readTable s x 16) (x.ttab.toNat / 2 ^ 15 % 2 ^ 37 * 2 ^ 15) (walkIndices loc) with
    | .fault k => .inr k
    | .leaf large e =>
      let slots := if leafKind e = 2 ∧ leafOk large e then
          (List.range 16).map (fun i => readTable s x 8 (leafRset e + 8 * i)) else []
      if slots.any Option.isNone then .inr 6
      else .inl ⟨x.vmid, if leafG e then none else some x.asid, large, pageNo large loc, BitVec.ofNat 128 e,
        slots.map (fun v => BitVec.ofNat 64 (v.getD 0)), none, []⟩

/-- The checks of a leaf in their order, and the stage-1 output address, with the district of a REPLICA slot and, for a write, the slots of the set but
HOME (R306, R308). -/
def checkLeaf (x : Xctx) (va : Word) (n : Need) (t : TlbEntry) : Except XlErr (Nat × Nat × List RepSlot) :=
  let e := t.leaf.toNat
  let p := positionOf x va
  let off := locOf va % pageSize t.large
  let k := leafKind e
  if k = 1 ∧ p ≠ x.pos ∧ !leafV e then .error .viewperm
  else if !leafOk t.large e ∨ t.slots.any (fun v => !slotOk v) then .error (.kind 7)
  else if (n.r && !leafR e) || (n.w && !leafW e) || (n.x && !leafX e) || (x.priv == 0 && !leafU e) then .error (.kind 2)
  else if k = 1 ∧ leafIcount e ≤ p then .error (.kind 3)
  else if k = 2 then
    let home := leafHome e
    match (replicaOrder (unitDistrict x)).find? (slotValid t.slots) with
    | none => .error (.kind 4)
    | some d =>
      if n.w ∧ !slotValid t.slots home then .error (.kind 4)
      else if n.sti ∨ (n.w ∧ !leafWP e) then .error (.kind 5)
      else if n.w then
        .ok (slotFrame t.slots home + off, home, ((List.range 16).filter (fun i => i != home)).map (fun i => ⟨leafRset e + 8 * i, off, x⟩))
      else .ok (slotFrame t.slots d + off, d, [])
  else if k = 1 then .ok ((leafFrame e + p * 2 ^ leafStride e + off) % 2 ^ 52, 0, [])
  else .ok (leafFrame e + off, 0, [])

/-- The translation of an address of translated space for an access, and the walk as the cache keeps it; nothing is changed. [log DEDUCED 22] -/
def walked (s : State) (x : Xctx) (va : Word) (n : Need) : Except XlErr (Xl × TlbEntry) :=
  match findLeaf s x (locOf va) with
  | .inr k => .error (.kind k)
  | .inl t =>
    match checkLeaf x va n t with
    | .error e => .error e
    | .ok (a, d, others) =>
      match finalUsing s x n t.s2 a with
      | some (pa, kept) =>
        .ok (⟨pa, leafKind t.leaf.toNat, leafW t.leaf.toNat, leafV t.leaf.toNat, d, t.large, others⟩, { t with s2 := kept })
      | none => .error (.kind 6)

/-- Where the replica of a slot is, as the set and stage 2 are now: none where the slot is not valid, or stage 2 or the colours refuse its frame (R307,
R308). -/
def RepSlot.place (s : State) (r : RepSlot) : Option Nat :=
  ((readTable s r.x 8 r.at_).filter (fun v => v.testBit 0 && slotOk (BitVec.ofNat 64 v))).bind (fun v =>
    final s r.x needW (v / 2 ^ 16 % 2 ^ 36 * 2 ^ 16 + r.off))

/-- The addresses that the home of a REPLICA page's line multicasts a write to when it performs it: the set's other valid slots at that time, which an entry
of a translation cache does not keep (R308, R311). [log DEDUCED 22] -/
def replicasAt (s : State) (l : List RepSlot) : List Nat := l.filterMap (RepSlot.place s)

/-- A page of MMIO that only a context at H reaches: partition control blocks, debug modules, the fabric page, network pages, and the
security page's nonce (R295, R389, R414, R422, R441). [log DEDUCED 41] -/
def isHPage (pa : Nat) : Bool :=
  isMmio pa && !isAperture pa && decide (0xF0000001000 ≤ pa ∨ (0xF0000000100 ≤ pa ∧ pa < 0xF0000000120))

/-- The translation of an address of translated space; a page that only H reaches faults below H (R389). [log DEDUCED 41] -/
def translated (s : State) (x : Xctx) (va : Word) (n : Need) : Except XlErr (Xl × TlbEntry) :=
  match walked s x va n with
  | .error e => .error e
  | .ok (t, e) => if x.priv ≠ 2 ∧ isHPage t.pa then .error (.kind 6) else .ok (t, e)

/-- Two entries of a cache answer for the same page. -/
def TlbEntry.sameKey (a b : TlbEntry) : Bool :=
  a.vmid == b.vmid && a.asid == b.asid && a.large == b.large && a.page == b.page && a.peer.isSome == b.peer.isSome

/-- A walk is put into the cluster's translation cache, 2,048 entries, most recent first (R311). [log DEDUCED 22] -/
def tlbFill (x : Xctx) (t : TlbEntry) (s : State) : State :=
  let c := s.cluster x.unit
  s.setCluster x.unit { c with tlb := (t :: c.tlb.filter (fun e => !e.sameKey t)).take 2048 }

/-! ### Peer windows (R430, R431) -/

/-- The peer table's address. -/
def peerBase (x : Xctx) : Nat := x.peertab.toNat / 2 ^ 12 % 2 ^ 40 * 2 ^ 12

/-- The peer entry and the window entry of a peer-window address, from the cache or the tables. -/
def findWindow (s : State) (x : Xctx) (va : Word) : Except XlErr (TlbEntry) :=
  let page := locOf va / 2 ^ 32
  match (s.cluster x.unit).tlb.find? (fun e =>
      e.peer.isSome && e.vmid == x.vmid && e.asid == some x.asid && e.page == page) with
  | some e => .ok e
  | none =>
    match readTable s x 16 (peerBase x + 16 * (page / 2 ^ 9 % 2 ^ 10)) with
    | none => .error (.kind 6)
    | some p =>
      if p % 2 = 0 then .error (.kind 1)
      else
        match readTable s x 16 (p / 2 ^ 77 % 2 ^ 39 * 2 ^ 13 + 16 * (page % 2 ^ 9)) with
        | none => .error (.kind 6)
        | some wn =>
          if wn % 2 = 0 then .error (.kind 1)
          else .ok ⟨x.vmid, some x.asid, false, page, 0, [], some (BitVec.ofNat 128 p, BitVec.ofNat 128 wn), []⟩

/-- No reserved bit of a peer entry is set. -/
def peerEntryOk (p : Nat) : Bool :=
  decide (p / 2 % 8 = 0) && decide (p / 2 ^ 8 % 2 ^ 8 = 0) && decide (p / 2 ^ 26 % 2 ^ 51 = 0) && decide (p / 2 ^ 116 = 0)

/-- No reserved bit of a window entry is set. -/
def windowOk (w : Nat) : Bool :=
  decide (w / 2 ^ 6 % 2 ^ 10 = 0) && decide (w / 2 ^ 32 % 2 ^ 32 = 0) && decide (w / 2 ^ 73 % 2 ^ 7 = 0)

/-- The route of a peer-window access: the peer it goes to, whose DEST the fabric routes by, whether this package may cache its line, for which the window has
CACHE and the switches are Norfel's, and the entries to keep (R431, R434). -/
def peerRoute (s : State) (x : Xctx) (va : Word) (size : Nat) (n : Need) : Except XlErr (Loc × TlbEntry) :=
  if !x.peertab.getLsbD 0 then .error (.kind 1)
  else
    match findWindow s x va with
    | .error e => .error e
    | .ok t =>
      match t.peer with
      | none => .error (.kind 1)
      | some (p, wn) =>
        let w := wn.toNat
        let off := va.toNat % 2 ^ 32
        if (w / 2 ^ 16 % 2 ^ 16 + 1) * 2 ^ 16 < off + size then .error (.kind 1)
        else if (if n.amo then !w.testBit 3 else (n.r && !w.testBit 1) || (n.w && !w.testBit 2)) then .error (.kind 2)
        else if !peerEntryOk p.toNat ∨ !windowOk w then .error (.kind 7)
        else .ok (.peer (locOf va / 2 ^ 41 % 2 ^ 10) (w / 2 ^ 64 % 2 ^ 9) (w / 2 ^ 80 * 2 ^ 16 + off) (p.toNat / 16 % 16)
          (w.testBit 5 && s.fabric.norfel) (w.testBit 4), t)

/-! ### From an address to a location -/

/-- Where an output address lies; a send aperture answers no context's access, and a far range that departs when the access is issued none
either (R229, R305, R426, R452). -/
def locate (s : State) (t : Xl) : Loc :=
  if isAperture t.pa then .nowhere
  else if isMmio t.pa then .mmio t.pa
  else if isDeparting s t.pa then .departing
  else if isPopulated s t.pa then .mem t.pa t.others
  else .nowhere

/-- Step 7 of R227: an address that is not local, resolved for an access of a size; the walk is kept in the cache. -/
def resolve (s : State) (x : Xctx) (va : Word) (size : Nat) (n : Need) : State × Except XlErr Loc :=
  if isPeer va then
    match peerRoute s x va size n with
    | .error e => (s, .error e)
    | .ok (l, t) => (tlbFill x t s, .ok l)
  else
    match translated s x va n with
    | .error e => (s, .error e)
    | .ok (t, e) => (tlbFill x e s, .ok (locate s t))

/-- An access below H to such a page with no stage 2 in its way: it traps PRIV where one through stage 2 faults (R389). [log DEDUCED 41] -/
def privPage (s : State) (x : Xctx) (va : Word) (n : Need) : Bool :=
  !isPeer va && x.priv != 2 && !x.s2ctl &&
    (match walked s x va n with
     | .ok (t, _) => isHPage t.pa
     | .error _ => false)

/-- Translation registers for a unit of partition p, with those of stage 2 as they stand (R301, R302). -/
def Part.xctx (q : Part) (p core : Nat) (asid : BitVec 16) (ttab : Word) (pos : Nat) (priv : BitVec 2) (peertab : Word) (unit : Nat) : Xctx :=
  ⟨p, core, asid, ttab, pos, priv, peertab, q.s2base, q.s2ctl, q.vmid, unit⟩

/-- The translation registers of a context (R301). -/
def State.xctx (s : State) (c : CtxId) : Xctx :=
  let k := s.core c.core
  let p := s.partOfRank (rankOf c.core)
  (s.part p).xctx p c.core k.asid k.ttab (s.posOf c.core) (s.ctx c).priv k.peertab (rankOf c.core)

end Sys2Proof.Machine
end

