-- ==== Sys2Proof/Machine/Access.lean ====
section
/-!
DEFINITION. Requests: what orders them within a context, when one may be performed, what performing it does at its home, its
L1, the MMIO or a peer, and how its response ends it; tiles and tenures as far as accesses meet them (R226–R253, R297,
R308, R320–R326, R333, R334, R378–R384, R426, R431–R436).
-/

namespace Sys2Proof.Machine

open Sys2Proof

/-! ### Tiles and tenures (R317, R321, R324, R326) -/

/-- First and last line of a tile's footprint. -/
def Tile.loLine (t : Tile) : Nat := t.min / 64
def Tile.hiLine (t : Tile) : Nat := t.max / 64

/-- Some row of a tile, over the pitches of its outer dimensions, has a byte in a line. -/
def rowsTouch (line lo row : Nat) (dims : List (Nat × Nat)) : Bool :=
  match dims with
  | [] => decide (lo / 64 ≤ line) && decide (line ≤ (lo + row - 1) / 64)
  | (ext, pitch) :: t => (List.range ext).any (fun i => rowsTouch line (lo + i * pitch) row t)

/-- A tile has a byte of an element in a line. -/
def Tile.touches (t : Tile) (line : Nat) : Bool :=
  decide (t.loLine ≤ line) && decide (line ≤ t.hiLine) &&
    rowsTouch line t.base ((t.ext.head?.getD 1) * 2 ^ t.esize) (t.ext.tail.zip t.pitch)

/-- Two tiles have equal geometry (R321). -/
def sameGeometry (a b : Tile) : Bool :=
  a.esize == b.esize && a.ext.length == b.ext.length && a.pitch == b.pitch

/-- Two tiles overlap (R321). -/
def tilesOverlap (a b : Tile) : Bool :=
  if sameGeometry a b then
    (List.range (min a.hiLine b.hiLine + 1 - max a.loLine b.loLine)).any (fun i =>
      a.touches (max a.loLine b.loLine + i) && b.touches (max a.loLine b.loLine + i))
  else decide (a.loLine ≤ b.hiLine) && decide (b.loLine ≤ a.hiLine)

/-- The tile open on an index of a partition. -/
def Part.tile (q : Part) (idx : Nat) : Option Tile :=
  match q.tiles.find? (fun t => t.idx == idx) with
  | some t => t.tile
  | none => none

/-- The tenures held in the package, each with its tile. -/
def heldTenures (s : State) : List (Tenure × Tile) :=
  s.parts.toList.flatMap (fun q => q.tenures.filterMap (fun t => if t.lost then none else (q.tile t.idx).map (fun u => (t, u))))

/-- The line lies in a tile's line range. -/
def Tile.inRange (t : Tile) (line : Nat) : Bool := decide (t.loLine ≤ line) && decide (line ≤ t.hiLine)

/-- A tenure stands in the way of an implicit request of a context for a line (R324). -/
def tenureAgainst (s : State) (c : CtxId) (line : Nat) (write : Bool) (h : Tenure × Tile) : Bool :=
  h.1.ctx != c && h.2.inRange line && (write || h.1.write) &&
    !(heldTenures s).any (fun u => u.1.ctx == c && u.2.touches line && (!write || u.1.write) &&
      !(tilesOverlap u.2 h.2 && (u.1.write || h.1.write)))

/-- The tenures that an implicit request waits for. -/
def tenuresAgainst (s : State) (c : CtxId) (line : Nat) (write : Bool) : List (Tenure × Tile) :=
  (heldTenures s).filter (tenureAgainst s c line write)

/-- An access of a context to a line waits for a tenure. -/
def tenureBlocks (s : State) (c : CtxId) (line : Nat) (write : Bool) : Bool := !(tenuresAgainst s c line write).isEmpty

/-- A held tenure's lease has run out (R325). [log DEDUCED 50] -/
def Tenure.expired (t : Tenure) (cycle : Nat) : Bool := t.lease != 0 && decide (t.at_ + t.lease ≤ cycle)

/-- The request type of an access under its context's tenure on the line's tile: a write holder's core takes the line in O, and a read holder's
loads fill it in S (R323). [log DEDUCED 67] -/
def tenureType (s : State) (c : CtxId) (line : Nat) (write : Bool) (rt : BitVec 2) : BitVec 2 :=
  let own := (heldTenures s).filter (fun h => h.1.ctx == c && h.2.inRange line)
  if own.any (fun h => h.1.write) then 0
  else if !own.isEmpty ∧ !write ∧ (rt = 0 ∨ rt = 2) then 1
  else rt

/-- A core's copies of the lines of a range go, dirty ones written back. -/
def dropLines (core lo hi : Nat) (s : State) : State :=
  let hit := fun (e : L1Line) => decide (lo ≤ e.line) && decide (e.line ≤ hi)
  let s := ((s.core core).l1.filter hit).foldl (fun s e =>
    if e.st == .O && e.dirty then writeBack s (dieOfCore core) e.line e.data else s) s
  s.setCore core { s.core core with l1 := (s.core core).l1.filter (fun e => !hit e) }

/-- The tile home revokes a tenure (R325). -/
def revoke (h : Tenure × Tile) (s : State) : State :=
  let s := dropLines h.1.ctx.core h.2.loLine h.2.hiLine s
  { s with parts := s.parts.map (fun q => { q with tenures := q.tenures.map (fun t =>
    if t.id = h.1.id then { t with lost := true, told := false, lo := h.2.loLine, hi := h.2.hiLine } else t) }) }

/-- An access of a context to a line arrives: the tenures against it whose lease has run out are revoked. -/
def revokeFor (c : CtxId) (line : Nat) (write : Bool) (s : State) : State :=
  ((tenuresAgainst s c line write).filter (fun h => h.1.expired s.cycle)).foldl (fun s h => revoke h s) s

/-- A tenure of the context that was revoked over the line and whose loss it has not met yet (R326). -/
def lostTenure (s : State) (c : CtxId) (line : Nat) : Option Tenure :=
  let q := s.part (s.partOfRank (rankOf c.core))
  q.tenures.find? (fun t => t.ctx == c && t.lost && !t.told && decide (t.lo ≤ line) && decide (line ≤ t.hi))

/-- The context has met the loss of a tenure. -/
def tellLost (s : State) (c : CtxId) (id : Nat) : State :=
  let p := s.partOfRank (rankOf c.core)
  let q := s.part p
  s.setPart p { q with tenures := q.tenures.map (fun t => if t.id = id then { t with told := true } else t) }

/-! ### Order of requests (R236, R237, R241, R252, R253) -/

/-- Two locations share a byte; a write to a REPLICA page is a write to every replica (R308). -/
def locOverlap (s : State) (a : Loc) (n : Nat) (b : Loc) (m : Nat) : Bool :=
  match a, b with
  | .mem x xs, .mem y ys => (x :: replicasAt s xs).any (fun x => (y :: replicasAt s ys).any (fun y => decide (x < y + m) && decide (y < x + n)))
  | .mmio x, .mmio y => decide (x < y + m) && decide (y < x + n)
  | .peer q e x _ _ _, .peer q' e' y _ _ _ => q == q' && e == e' && decide (x < y + m) && decide (y < x + n)
  | _, _ => false

/-- The lines of bonded DRAM or far memory that an access of a size to a location touches. -/
def linesOf (l : Loc) (n : Nat) : List Nat :=
  match l with
  | .mem pa _ => (List.range ((pa + n - 1) / 64 + 1 - pa / 64)).map (fun i => pa / 64 + i)
  | _ => []

/-! ### Exports of this package (R431–R433) -/

/-- The address of an export's entry. -/
def exportEntry (s : State) (exp : Nat) : Nat := s.fabric.exptab.toNat / 2 ^ 14 % 2 ^ 38 * 2 ^ 14 + 32 * exp

/-- The first byte of an export's entry: whether it is valid, and whether peers may hold copies (R432). -/
def exportHead (s : State) (exp : Nat) : Nat := peek s (exportEntry s exp) 1

/-- The bits of an export's entry that are to be zero are; one where they are not has no effect, as one that is not VALID (R8, R432).
[log DEDUCED 88] -/
def exportWhole (s : State) (exp : Nat) : Bool :=
  let other := fun (v lo n : Nat) => v % 2 ^ lo == 0 && v / 2 ^ (lo + n) == 0
  exportHead s exp / 4 == 0 && other (peek s (exportEntry s exp + 8) 8) 16 36 && other (peek s (exportEntry s exp + 24) 8) 10 42

/-- The physical base of an export of this package (R432). -/
def exportBase (s : State) (exp : Nat) : Nat := peek s (exportEntry s exp + 8) 8 / 2 ^ 16 % 2 ^ 36 * 2 ^ 16

/-- The physical address of n bytes of an export of this package, where it has them (R433). -/
def exportHome (s : State) (exp ra n : Nat) : Option Nat :=
  if s.fabric.exptab.toNat % 2 = 0 ∨ exportHead s exp % 2 = 0 ∨ !exportWhole s exp ∨ peek s (exportEntry s exp + 16) 4 * 2 ^ 16 < ra + n then none
  else some (exportBase s exp + ra)

/-- Where an access of n bytes is performed: one to the own peer number is looped back to the home of what the export shows (R431, R433). -/
def homeLoc (s : State) (l : Loc) (n : Nat) : Loc :=
  match l with
  | .peer q exp ra _ _ _ => if q = s.fabric.peer.toNat then (exportHome s exp ra n).elim l (fun pa => .mem pa []) else l
  | _ => l

/-- The lines of this package that an access of n bytes reaches, also through an export of its own (R431). -/
def homeLines (s : State) (l : Loc) (n : Nat) : List Nat := linesOf (homeLoc s l n) n

/-- Two accesses share a byte, by whatever window either reaches it (R236, R431). -/
def overlaps (s : State) (a : Loc) (n : Nat) (b : Loc) (m : Nat) : Bool := locOverlap s (homeLoc s a n) n (homeLoc s b m) m

/-- A request writes. -/
def Req.writes (q : Req) : Bool :=
  match q.kind with
  | .load _ => false
  | .store => true
  | .amo op => op != 0
  | .sti _ _ => true
  | .vamo _ _ _ => true
  | .fence _ _ _ => false

/-- A request is the mark of a fence. -/
def Req.isFence (q : Req) : Bool :=
  match q.kind with
  | .fence _ _ _ => true
  | _ => false

/-- A request has no register result and no poison to report to a register (R234). -/
def Req.isStore (q : Req) : Bool :=
  match q.kind with
  | .store => true
  | .amo op => op == 1 || op == 14
  | .sti _ _ => true
  | .vamo _ _ _ => true
  | _ => false

/-- An STI that writes the mask of its accepted targets (R244). -/
def Req.hasMask (q : Req) : Bool :=
  match q.kind with
  | .sti rep _ => rep
  | _ => false

/-- The bytes of an access meet a range of virtual addresses (R253). -/
def bytesInRange (va : Word) (size lo hi : Nat) : Bool := decide (va.toNat < hi) && decide (lo < va.toNat + size)

/-- A request's bytes meet a range of virtual addresses. -/
def Req.inRange (q : Req) (lo hi : Nat) : Bool := bytesInRange q.va q.size lo hi

/-- A fence's mark keeps a later request back until it is complete. -/
def fenceBlocks (kind : BitVec 2) (lo hi : Nat) (q : Req) : Bool :=
  match q.kind with
  | .fence _ _ _ => false
  | _ => q.inRange lo hi && (kind != 2 || q.writes)

/-- An earlier request of the same context keeps a later one back. -/
def Req.blocks (s : State) (e q : Req) : Bool :=
  match e.kind with
  | .fence k lo hi => fenceBlocks k lo hi q
  | _ => !e.performed && (overlaps s e.loc e.size q.loc q.size || e.acq || q.rel)

/-- The requests of a context that stand before one. -/
def earlier (s : State) (q : Req) : List Req := (s.reqs.takeWhile (fun e => e.id != q.id)).filter (fun e => e.ctx == q.ctx)

/-- A context's pushes, replica writes and far writes that a release of a scope over a range waits for are done (R237, R250, R253, R308, R334).
[log DEDUCED 54] -/
def sideDone (s : State) (c : CtxId) (scope : BitVec 3) (lo hi : Nat) : Bool :=
  !s.pushes.any (fun p => p.ctx == c && lineInRange p.va lo hi) &&
    (decide (scope.toNat < 5) ||
      (!s.updates.any (fun u => u.ctx == c && bytesInRange u.va u.size lo hi) &&
        !s.farWrites.any (fun f => f.ctx == c && bytesInRange f.va f.size lo hi && farPending s f.line f.stamp)))

/-- Everything a context has issued is performed at a scope (R237): what a release waits for. -/
def released (s : State) (c : CtxId) (scope : BitVec 3) : Bool :=
  s.reqs.all (fun q => q.ctx != c || q.performed) && sideDone s c scope 0 (2 ^ 64) && (s.ctx c).ring.isEmpty

/-- A fence's mark is complete: every earlier access that it orders is performed. [log DEDUCED 23] -/
def fenceDone (s : State) (q : Req) (kind : BitVec 2) (lo hi : Nat) : Bool :=
  (earlier s q).all (fun e => e.performed || !e.inRange lo hi || (kind == 1 && e.isStore) || e.isFence) &&
    (kind == 1 || sideDone s q.ctx q.scope lo hi)

/-- A replica write of the context is on its way to the bytes of a load (R308). [log DEDUCED 54] -/
def replicaPending (s : State) (c : CtxId) (l : Loc) : Bool :=
  match homeLoc s l 1 with
  | .mem pa _ => s.updates.any (fun u => u.ctx == c && u.pa / 64 == pa / 64)
  | _ => false

/-- A partition's virtual function was reset: its fabric requests are stopped while the responses of that time are awaited, and held while the tag is
dead (R439). -/
def tagDead (s : State) (p : Nat) : Bool :=
  let v := (s.part p).vfnum
  v.getLsbD 7 && s.deadTags.any (fun d => d.vf == v.toNat % 64)

/-- A request needs its line alone: it writes, or its load fills the line in O (R231). -/
def Req.alone (q : Req) (s : State) (line : Nat) : Bool :=
  q.writes || (match q.kind with
    | .load _ => tenureType s q.ctx line false q.rt == 0
    | _ => false)

/-- A request is served by its core's own L1, and asks no home. -/
def Req.inL1 (q : Req) (s : State) : Bool :=
  match q.loc, q.kind with
  | .mem pa _, .load _ => l1Serves s q.ctx.core (tenureType s q.ctx (pa / 64) false q.rt) pa q.va
  | _, _ => false

/-- A request waits for copies that peers hold (R434, R438). -/
def peersBlock (s : State) (q : Req) : Bool := !q.inL1 s && (homeLines s q.loc q.size).any (fun l => peerHolds s l (q.alone s l))

/-- The address of an entry's slot (R381). -/
def ringSlot (q : Part) (n : Nat) : Nat := q.rring.toNat / 2 ^ 5 % 2 ^ 47 * 2 ^ 5 + 32 * (n % 2 ^ q.rrsz.toNat)

/-- The line of the ring's slot that the end of a replay clears. -/
def Req.slotLines (q : Req) (s : State) : List Nat := (q.replay.map (fun n => ringSlot (s.part q.part) n / 64)).toList

/-- A request may be performed now. -/
def mayPerform (s : State) (q : Req) : Bool :=
  (earlier s q).all (fun e => !e.blocks s q) && (!q.rel || sideDone s q.ctx q.scope 0 (2 ^ 64)) &&
    !replicaPending s q.ctx q.loc && !peersBlock s q && !linesHeld s (q.slotLines s) true && (homeLines s q.loc q.size).all (fun l => !tenureBlocks s q.ctx l q.writes) &&
    (match q.loc with
     | .peer _ _ _ _ _ _ => !tagDead s q.part
     | _ => true)

/-! ### Atomics (R239) -/

/-- The signed value of the low n bits. -/
def toSigned (n : Nat) (x : Nat) : Int := if x < 2 ^ (n - 1) then x else (x : Int) - 2 ^ n

/-- The new value of the word of n bits for an op, or none where it writes nothing (R239). -/
def amoNew (op : BitVec 4) (n : Nat) (old x expect : Nat) : Option Nat :=
  if op = 0 then none
  else if op = 1 ∨ op = 2 then some x
  else if op = 3 then (if old = expect then some x else none)
  else if op = 4 ∨ op = 14 then some ((old + x) % 2 ^ n)
  else if op = 5 then some (old &&& x)
  else if op = 6 then some (old ||| x)
  else if op = 7 then some (old ^^^ x)
  else if op = 8 then some (if toSigned n old ≤ toSigned n x then old else x)
  else if op = 9 then some (if toSigned n old ≤ toSigned n x then x else old)
  else if op = 10 then some (min old x)
  else if op = 11 then some (max old x)
  else if op = 12 then some (f32.add 0 old x).1
  else if op = 13 then some (f32.minMax true old x).1
  else none

/-- The register result of an op (R239). -/
def amoResult (op : BitVec 4) (n : Nat) (old : Nat) : Word :=
  if n = 64 ∨ op = 12 ∨ op = 13 then BitVec.ofNat 64 old else sext (BitVec.ofNat 32 old)

/-- The element adds of a VAMO on a list of element values (R436). -/
def vamoElem (ty : BitVec 2) (old src : Nat) : Nat :=
  if ty = 0 then (f32.add 0 old src).1
  else if ty = 1 then (bf16.add 0 old src).1
  else (old + src) % 2 ^ 32

/-- The bytes of an element of a VAMO, and a bit for each of its elements (R436). -/
def vamoSize (ty : BitVec 2) : Nat := if ty = 1 then 2 else 4
def vamoAll (ty : BitVec 2) : BitVec 64 := if ty = 1 then BitVec.allOnes 64 else 0xFFFFFFFF

/-- The elements of a VAMO that are not added yet. -/
def vamoLeft (left : BitVec 64) : List Nat := (List.range 64).filter (fun i => left.getLsbD i)

/-! ### The retry ring (R379–R382) -/

/-- An entry is completed: VALID is cleared, OUT falls and the holds of its context end (R382). -/
def completeEntry (p n : Nat) (s : State) : State :=
  let q := s.part p
  match q.ringEnts.find? (fun e => e.n == n) with
  | none => s
  | some e =>
    let s := ownWrite p (ringSlot q n + 31) 1 (peek s (ringSlot q n + 31) 1 / 2 * 2) s
    let q := s.part p
    let s := s.setPart p { q with ringEnts := q.ringEnts.filter (fun e => e.n != n) }
    s.setCtx e.ctx { s.ctx e.ctx with ring := (s.ctx e.ctx).ring.filter (fun h => h.entry != n) }

/-- The wake latch of the context that serves the partition's ring is set (R381). -/
def wakeService (p : Nat) (s : State) : State :=
  let q := s.part p
  let c : CtxId := ⟨q.coreNo (q.svccore.extractLsb' 0 15).toNat, (q.svccore.extractLsb' 16 4).toNat⟩
  if c.ctx < 11 then s.setCtx c { s.ctx c with wake := true } else s

/-- The slot of the next entry is free (R381). -/
def ringHasRoom (s : State) (q : Part) : Bool := peek s (ringSlot q q.rrtail.toNat + 31) 1 % 2 == 0

/-- The cause kind, in an entry's byte 30. -/
def entryTail (q : Part) (c : CtxId) (kind : BitVec 3) : Nat :=
  (c.core - 16 * q.base.toNat) + 2 ^ 16 * (c.ctx + 16 * kind.toNat) + 2 ^ 24 * (1 + 2 * 0x0E)

/-- A fault of a context's access is appended to the partition's ring (R379, R381). -/
def appendEntry (c : CtxId) (pc va data : Word) (word : IWord) (load : Bool) (reg : Reg) (aux : Word) (size : Nat)
    (kind : BitVec 3) (acq : Bool) (s : State) (route : Option Word := none) : State :=
  let p := s.partOfRank (rankOf c.core)
  let q := s.part p
  let n := q.rrtail.toNat
  let a := ringSlot q n
  let s := deviceWrite s a 8 pc.toNat
  let s := deviceWrite s (a + 8) 8 va.toNat
  let s := deviceWrite s (a + 16) 8 data.toNat
  let s := deviceWrite s (a + 24) 8 (word.toNat + 2 ^ 32 * entryTail q c kind)
  let q := s.part p
  let s := s.setPart p { q with rrtail := q.rrtail + 1, ringEnts := q.ringEnts ++ [⟨n, c, pc, va, data, word, load, reg, aux, false⟩] }
  let s := s.setCtx c { s.ctx c with ring := (s.ctx c).ring ++ [⟨n, reg, load, va, size, s.nextId, acq, route⟩] }
  wakeService p { s with nextId := s.nextId + 1 }

/-- The replay of a ring entry that this request is ends the entry (R382). -/
def endReplay (q : Req) (s : State) : State :=
  match q.replay with
  | some n => completeEntry q.part n s
  | none => s

/-! ### Performing (R231, R240, R308, R334, R426, R433) -/

/-- Update the request of a number. -/
def setReq (s : State) (id : Nat) (f : Req → Req) : State :=
  { s with reqs := s.reqs.map (fun q => if q.id = id then f q else q) }

/-- The request of a number is gone. -/
def dropReq (s : State) (id : Nat) : State := { s with reqs := s.reqs.filter (fun q => q.id != id) }

/-- A failed store is recorded in its context (R234). -/
def noteFailed (q : Req) (s : State) : State :=
  if q.drop then s
  else s.setCtx q.ctx { s.ctx q.ctx with failed := (s.ctx q.ctx).failed ++ [⟨q.pc, q.va, q.id⟩] }

/-- A deferred trap of an access waits for its context's issue point (R149, R155). -/
def raiseDeferred (c : CtxId) (cause : BitVec 6) (pc va : Word) (order : Nat) (s : State) : State :=
  s.setCtx c { s.ctx c with deferred := (s.ctx c).deferred ++ [⟨cause, va, pc, order⟩] }

/-- An acquire's T copies are discarded (R232). [log DEDUCED 32] -/
def acquireAt (c : CtxId) (scope : BitVec 3) (s : State) : State :=
  if 2 ≤ scope.toNat then s.setCore c.core (dropT (s.core c.core) none) else s

/-- An acquiring request, whatever it was answered with, discards the T copies of its core (R232). -/
def acquired (q : Req) (s : State) : State := if q.acq then acquireAt q.ctx q.scope s else s

/-- A store that is over: its context notes a failure, or has FARGONE pending for a departing range (R234, R426). -/
def storeOver (q : Req) (poison gone : Bool) (s : State) : State :=
  if gone then (if q.drop then s else raiseDeferred q.ctx cFARGONE q.pc q.va q.id s)
  else if poison then noteFailed q s else s

/-- A performed request: a load or atomic keeps its value for the response, a store is over (R234, R426). -/
def performedReq (q : Req) (v : Word) (poison gone : Bool) (s : State) : State :=
  let s := acquired q s
  if q.isStore ∧ !q.hasMask then storeOver q poison gone (endReplay q (dropReq s q.id))
  else
    match q.kind with
    | .sti _ _ => storeOver q poison gone (setReq s q.id (fun r => { r with performed := true }))
    | _ => setReq s q.id (fun r => { r with performed := true, value := v, poison := poison, gone := gone })

/-- A core's registers of a slice number, modulo 64, take a response's delay field, which saturates at 65,535 (R297). -/
def addDelay (core slice d : Nat) (s : State) : State :=
  let k := s.core core
  let i := slice % 64
  s.setCore core { k with dly := k.dly.setIfInBounds i (k.dly[i]?.getD 0 + BitVec.ofNat 64 (min d 65535))
                          dlyn := k.dlyn.setIfInBounds i (k.dlyn[i]?.getD 0 + 1) }

/-- A remote response adds its delay to the core's registers of its slice (R297). [log DEDUCED 33] -/
def countDelay (core slice : Nat) (s : State) : State :=
  addDelay core slice (hops (rankCell (rankOf core)) (sliceCell (slice / 32) (slice % 32)) + Config.queueDelay s.freeCtr)
    { s with freeCtr := s.freeCtr + 1 }

/-- A peer's response adds its delay likewise; which slice is its line's home there, and how far away, is a free value (R297). [log DESIGN CHOICE 4] -/
def countPeerDelay (core : Nat) (s : State) : State :=
  addDelay core (Config.freeValue s.freeCtr).toNat (Config.queueDelay s.freeCtr) { s with freeCtr := s.freeCtr + 1 }

/-- The writes of a request are multicast to the other replicas (R308). [log DEDUCED 54] -/
def multicast (c : CtxId) (part : Nat) (va : Word) (others : List RepSlot) (n v : Nat) (s : State) : State :=
  (replicasAt s others).foldl (fun s pa => { s with updates := s.updates ++ [⟨s.nextId, c, part, pa, n, BitVec.ofNat 512 v, va⟩], nextId := s.nextId + 1 }) s

/-- The bytes that a write of a partition is performed on reach the last doubleword of its mailbox page: vector 0 of its virtual function
is sent (R400). -/
def doorbell (p pa n : Nat) (s : State) : State :=
  let q := s.part p
  let last := q.mbox.toNat + 0xFF8
  if q.vfnum.getLsbD 7 ∧ pa < last + 8 ∧ last < pa + n then { s with msi := s.msi ++ [(q.vfnum.toNat % 64 + 1, 0)] } else s

/-- A write of n bytes to a line that dies hold copies of waits for the invalidations pending now (R334). -/
def noteFarWrite (c : CtxId) (va : Word) (n pa : Nat) (s : State) : State :=
  if underDies s (pa / 64) ∧ farPending s (pa / 64) s.farStamp then { s with farWrites := s.farWrites ++ [⟨c, pa / 64, s.farStamp, va, n⟩] }
  else s

/-- A request to a far home or a peer that a unit makes has gone unanswered past its partition's cr.fabto: how long its answer takes is not stated
(R428). [log DESIGN CHOICE 4; DEDUCED 45] -/
def lateAnswer (p : Nat) (s : State) : Bool × State :=
  let r := draw s
  (decide (fabricCycles (s.part p) ≤ r.1.toNat), r.2)

/-- The same of an access to a line: where its die asks the far home for it (R333, R334). -/
def lateFar (c : CtxId) (line : Nat) (write : Bool) (s : State) : Bool × State :=
  let die := dieOfCore c.core
  if isFar s (64 * line) ∧ ((farCopy s line die).isNone ∨ (write ∧ !dieOwns s die line)) then lateAnswer (s.partOfRank (rankOf c.core)) s
  else (false, s)

/-- An atomic on n bytes executed at the home (R240): O copies are recalled and S and P copies dropped; one that may write asks for the line
of its die first, so that it reads the current value; `sys` asks for the far home (R333, R334). A pushed line of the issuing core is used (R246). -/
def amoAtHome (s : State) (core pa n : Nat) (sys writes : Bool) (f : Nat → Option Nat) : State × Nat × Bool :=
  let line := pa / 64
  let die := dieOfCore core
  let s := flushPushes (dropOwnT s core line) line
  let s := if ((s.core core).l1Find line).any (fun e => e.st == .P) then countPush s core else s
  let s := if sys ∧ isFar s pa then farSettle s line else s
  let s := invalidate (if writes then bringOwned s die line else bring s die line) die line none
  if isBad s line then (s, 0, true)
  else
    let old := lineGet (backing s die line) (pa % 64) n
    match f old with
    | none => (s, old, false)
    | some v => (homeWrite s die pa n v, old, false)

/-- The atomic executes in the issuing core's L1: the line is owned there, the scope is .ctx or .core, and the page has no other replica (R240,
R308). -/
def amoInL1 (s : State) (core pa : Nat) (others : List RepSlot) (scope : BitVec 3) : Bool :=
  decide (scope.toNat ≤ 1) && others.isEmpty && ((s.core core).l1Find (pa / 64)).any (fun e => e.st == .O)

/-- An atomic in the issuing core's L1; where it may write and the line's die does not own the line yet, the die does so first (R240, R333, R334). -/
def amoHere (s : State) (core pa n : Nat) (writes : Bool) (f : Nat → Option Nat) : State × Nat × Bool :=
  let s := if writes && !ownsLine s core (pa / 64) then fillOwned s core (pa / 64) else s
  let old := (((s.core core).l1Find (pa / 64)).elim 0 (fun e => lineGet e.data (pa % 64) n))
  match f old with
  | none => (s, old, false)
  | some v => (l1Write s core pa n v, old, false)

/-- Who makes an atomic on memory, and on which address. -/
structure AmoBy where
  ctx  : CtxId
  part : Nat
  va   : Word
deriving DecidableEq, Repr

/-- An atomic on n bytes for a context where the scope that its instruction encodes and its line's state put it, with what follows a write: the far
home, the other replicas and the mailbox (R240, R308, R334, R400, R402). -/
def amoFor (by_ : AmoBy) (pa : Nat) (others : List RepSlot) (scope : BitVec 3) (sys writes : Bool) (n : Nat) (f : Nat → Option Nat) (s : State) :
    State × Nat × Bool :=
  let c := by_.ctx
  if amoInL1 s c.core pa others scope then
    let r := amoHere s c.core pa n writes f
    (if (f r.2.1).isSome then doorbell by_.part pa n (noteFarWrite c by_.va n pa r.1) else r.1, r.2)
  else
    let r := amoAtHome s c.core pa n sys writes f
    (match f r.2.1 with
     | some v => if r.2.2 then r.1 else doorbell by_.part pa n (multicast c by_.part by_.va others n v (noteFarWrite c by_.va n pa r.1))
     | none => r.1, r.2)

/-- An atomic of a unit's context, executed at the home or in the L1, and counted as a remote response where it is at the home (R297). -/
def amoCounted (by_ : AmoBy) (pa : Nat) (others : List RepSlot) (scope : BitVec 3) (sys writes : Bool) (n : Nat) (f : Nat → Option Nat) (s : State) :
    State × Nat × Bool :=
  amoFor by_ pa others scope sys writes n f
    (if amoInL1 s by_.ctx.core pa others scope then s else countDelay by_.ctx.core (homeSlice s pa) s)

/-- The targets of an STI get a push of the line as it stands at the home (R244). -/
def sendPushes (q : Req) (line : Nat) (targets : List (Nat × Nat)) (s : State) : State :=
  let d := backing s (dieOfCore q.ctx.core) line
  targets.foldl (fun s t =>
    { s with pushes := s.pushes ++ [⟨s.nextId, q.ctx, q.id, q.part, t.1, t.2, line, d, q.va⟩], nextId := s.nextId + 1 }) s

/-- One element of a VAMO, of those left the one a free value picks; `run` adds it at its offset and answers whether it failed. With the last
element the request is performed (R345, R436). [log DEDUCED 14] -/
def vamoStep (q : Req) (ty : BitVec 2) (data : BitVec 1024) (left : BitVec 64) (run : Nat → (Nat → Nat) → State → State × Bool) (s : State) : State :=
  let l := vamoLeft left
  let e := l[(Config.freeValue s.freeCtr).toNat % l.length]?.getD 0
  let n := vamoSize ty
  let src := data.toNat / 256 ^ (n * e) % 256 ^ n
  let r := run (n * e) (fun old => vamoElem ty old src) { s with freeCtr := s.freeCtr + 1 }
  let rest := left &&& ~~~(1#64 <<< e)
  if rest = 0 then performedReq q 0 (q.poison || r.2) false r.1
  else setReq r.1 q.id (fun x => { x with kind := .vamo ty data rest, poison := x.poison || r.2 })

/-- The elements of a VAMO are answered together, with its last one. -/
def lastElem (left : BitVec 64) : Bool := decide ((vamoLeft left).length ≤ 1)

/-- A request to memory is performed. A load, a store or an atomic that the core's own L1 serves is no remote response (R297); one that a
die's copy of a far line serves counts the slice of the line's far home (R451). [log DESIGN CHOICE 99] -/
def performMem (q : Req) (pa : Nat) (others : List RepSlot) (s : State) : State :=
  let core := q.ctx.core
  let far := fun (s : State) => countDelay core (homeSlice s pa) s
  let rt := tenureType s q.ctx (pa / 64) q.writes q.rt
  match q.kind with
  | .load sg =>
    let s := if l1Serves s core rt pa q.va then s else far s
    let r := loadLine s core rt pa q.size q.va
    let v := if sg then sext (BitVec.ofInt 64 (toSigned (8 * q.size) r.2.1)) else BitVec.ofNat 64 r.2.1
    performedReq q v r.2.2 false r.1
  | .store =>
    if storeFails s core rt pa then performedReq q 0 true false (far s)
    else
      let s := if rt ≠ 3 ∧ ownsLine s core (pa / 64) then s else far s
      let s := storeLine s core rt pa q.size q.data.toNat
      let s := noteFarWrite q.ctx q.va q.size pa s
      performedReq q 0 false false (doorbell q.part pa q.size (multicast q.ctx q.part q.va others q.size q.data.toNat s))
  | .amo op =>
    let n := 8 * q.size
    let r := amoCounted ⟨q.ctx, q.part, q.va⟩ pa others q.asked (q.scope == 7 && q.acq) q.writes q.size
      (fun old => amoNew op n old (q.data.toNat % 2 ^ n) (q.expect.toNat % 2 ^ n)) s
    performedReq q (amoResult op n r.2.1) r.2.2 false r.1
  | .sti _ targets =>
    let s := storeHome (far s) core pa q.size q.data.toNat
    let s := noteFarWrite q.ctx q.va q.size pa s
    performedReq q 0 false false (doorbell q.part pa q.size (sendPushes q (pa / 64) targets s))
  | .vamo ty data left =>
    vamoStep q ty data left (fun off f s =>
      let r := amoFor ⟨q.ctx, q.part, q.va + BitVec.ofNat 64 off⟩ (pa + off) (others.map (fun o => { o with off := o.off + off })) 5 false true (vamoSize ty)
        (fun old => some (f old)) s
      (r.1, r.2.2)) (if lastElem left then far s else s)
  | .fence _ _ _ => s

/-! ### Peers (R432, R433) -/

/-- What a peer request is allowed to do by its access-list byte; one whose bits [7:3] are not zero allows nothing (R8, R432). [log DEDUCED 88] -/
def peerAllowed (acc : Nat) (op : PeerOp) : Bool :=
  decide (acc < 8) && match op with
  | .read _ => acc.testBit 0
  | .cached => acc.testBit 0
  | .write _ => acc.testBit 1
  | .own => acc.testBit 1
  | .amo o _ => if o = 0 then acc.testBit 0 else if o = 1 then acc.testBit 1 else acc.testBit 2
  | .vamo _ => acc.testBit 2
  | .gone _ => true

/-- The size of a peer request. -/
def peerSize (op : PeerOp) : Nat :=
  match op with
  | .read n => n
  | .cached => 64
  | .write n => n
  | .own => 64
  | .amo _ n => n
  | .vamo ty => vamoSize ty
  | .gone _ => 64

/-- A peer request needs its line alone. -/
def peerAlone (op : PeerOp) : Bool :=
  match op with
  | .write _ => true
  | .own => true
  | .amo o _ => o != 0
  | .vamo _ => true
  | _ => false

/-- A peer request reads: a poisoned line answers it with poison (R384). -/
def peerReads (op : PeerOp) : Bool :=
  match op with
  | .write _ => false
  | .own => false
  | _ => true

/-- An op on n bytes at the home of a physical address, for a device or a peer: the old value. -/
def deviceAmo (s : State) (pa n : Nat) (f : Nat → Option Nat) : State × Nat :=
  let r := deviceRead s pa n
  match f r.2 with
  | some v => (deviceWrite r.1 pa n v, r.2)
  | none => r

/-- The address that a request of a source peer reaches through an export, or none where it is answered with poison: refused there, of a severed
peer, outside populated memory, or reading a poisoned line (R384, R432, R433, R438). -/
def exportAddr (s : State) (src exp ra : Nat) (op : PeerOp) : Option Nat :=
  (exportHome s exp ra (peerSize op)).filter (fun pa =>
    let acl := peek s (exportEntry s exp + 24) 8 / 2 ^ 10 % 2 ^ 42 * 2 ^ 10
    !s.fabric.sevmask.getLsbD src && peerAllowed (peek s (acl + src) 1) op && isPopulated s pa && isPopulated s (pa + peerSize op - 1) &&
      !(peerReads op && (linesOf (.mem pa []) (peerSize op)).any (isBad s)))

/-- The directory of the copies that peers hold has a peer's copy of a line, owned or not, where the export lets peers hold copies and the switches can (R434). -/
def notePeerCopy (src exp line : Nat) (owned : Bool) (s : State) : State :=
  if s.fabric.norfel ∧ (exportHead s exp).testBit 1 then
    { s with peerDir := s.peerDir.filter (fun d => !(d.peer == src && d.line == line)) ++ [⟨src, line, owned, none⟩] }
  else s

/-- A request of a source peer is served: the new state, the value read, and whether the response is poisoned (R433). A write for a partition of
this package rings its mailbox (R400). -/
def servePeer (s : State) (src exp ra : Nat) (op : PeerOp) (value expect : Word) (part : Option Nat) : State × Word × Bool :=
  let ring := fun (pa n : Nat) (s : State) => part.elim s (fun p => doorbell p pa n s)
  match exportAddr s src exp ra op with
  | none => (s, 0, true)
  | some pa =>
    let amo := fun (n : Nat) (f : Nat → Option Nat) =>
      let r := deviceAmo s pa n f
      (if (f r.2).isSome then ring pa n r.1 else r.1, BitVec.ofNat 64 r.2, false)
    match op with
    | .read n => let r := deviceRead s pa n; (r.1, BitVec.ofNat 64 r.2, false)
    | .cached => let r := deviceRead s (pa / 64 * 64) 8; (notePeerCopy src exp (pa / 64) false r.1, BitVec.ofNat 64 r.2, false)
    | .own =>
      let r := deviceRead (flushPushes (takePeerCopies (pa / 64) true s) (pa / 64)) (pa / 64 * 64) 8
      let s := if isFar r.1 pa then farClear r.1 (pa / 64) else invalidate r.1 0 (pa / 64) none
      (notePeerCopy src exp (pa / 64) true s, BitVec.ofNat 64 r.2, false)
    | .write n => (ring pa n (deviceWrite s pa n value.toNat), 0, false)
    | .amo o n => amo n (fun old => amoNew o (8 * n) old (value.toNat % 256 ^ n) (expect.toNat % 256 ^ n))
    | .vamo ty => amo (vamoSize ty) (fun old => some (vamoElem ty old (value.toNat % 256 ^ vamoSize ty)))
    | .gone _ => (s, 0, false)

/-- Write n bytes of an export of this package as one request of a unit: whether it failed, which leaves every byte of it (R179, R433, R434). -/
def putPeerBytes (src exp ra n v : Nat) (part : Option Nat) (s : State) : State × Bool :=
  match exportAddr s src exp ra (.write n) with
  | none => (s, true)
  | some pa =>
    let s := (List.range n).foldl (fun s i => deviceWrite s (pa + i) 1 (v / 256 ^ i % 256)) s
    (part.elim s (fun p => doorbell p pa n s), false)

/-- The peer request that a request of a context is. -/
def Req.peerOp (q : Req) : PeerOp :=
  match q.kind with
  | .load _ => .read q.size
  | .store => .write q.size
  | .amo o => .amo o q.size
  | _ => .write q.size

/-- A peer's response ends a request here or arrives for it: a load's or atomic's value. [log DEDUCED 24] -/
def remoteValue (q : Req) (v : Word) : Word :=
  match q.kind with
  | .load true => BitVec.ofInt 64 (toSigned (8 * q.size) (v.toNat % 256 ^ q.size))
  | .load false => BitVec.ofNat 64 (v.toNat % 256 ^ q.size)
  | .amo op => amoResult op (8 * q.size) (v.toNat % 256 ^ q.size)
  | _ => v

/-! ### Cached lines of peers (R334, R434) -/

/-- The line of a peer that this package may hold copies of: its window has CACHE and the switches are Norfel's, and the peer is another one. Whether its
export lets copies be held is the peer's to say. [log DEDUCED 24] -/
def cachedLine (s : State) (l : Loc) : Option Nat :=
  match l with
  | .peer q exp ra _ cache _ => if cache ∧ q ≠ s.fabric.peer.toNat then some (peerLine q exp ra) else none
  | _ => none

/-- The address within this package's numbering of a byte of such a line. -/
def cachedAt (l : Loc) (line : Nat) : Nat :=
  match l with
  | .peer _ _ ra _ _ _ => 64 * line + ra % 64
  | _ => 64 * line

/-- A copy of the die serves the request: any load, an LDA of a scope below .peer, as it is under the partition's ceiling, and a store where the die owns
the line (R334, R360). [log DEDUCED 23] -/
def cacheServes (s : State) (q : Req) (line : Nat) : Bool :=
  let die := dieOfCore q.ctx.core
  match q.kind with
  | .load _ => (farCopy s line die).isSome
  | .amo op => op == 0 && decide (q.scope.toNat < 6) && (farCopy s line die).isSome
  | .store => (farCopy s line die).any (fun c => c.owned)
  | _ => false

/-- A context's store of n bytes into a cached line of a peer that its die owns, which waits at .pkg for the invalidations of the other dies' copies
(R334). -/
def cachedPut (c : CtxId) (va : Word) (rt : BitVec 2) (pa n v : Nat) (s : State) : State :=
  noteFarWrite c va n pa (storeLine s c.core rt pa n v)

/-- That of a request. -/
def cachedStore (q : Req) (pa : Nat) (s : State) : State := cachedPut q.ctx q.va q.rt pa q.size q.data.toNat s

/-- Such a request is performed in the package; what a copy of the die serves past the core's L1 is a fill or an acknowledgement of a slice, which one
is a free value (R297). -/
def performCached (q : Req) (line : Nat) (s : State) : State :=
  let core := q.ctx.core
  let pa := cachedAt q.loc line
  match q.kind with
  | .load _ =>
    let r := loadLine (if l1Serves s core q.rt pa q.va then s else countPeerDelay core s) core q.rt pa q.size q.va
    performedReq q (remoteValue q (BitVec.ofNat 64 r.2.1)) false false r.1
  | .amo _ =>
    let r := amoAtHome (countPeerDelay core s) core pa q.size false false (fun _ => none)
    performedReq q (remoteValue q (BitVec.ofNat 64 r.2.1)) false false r.1
  | .store => performedReq q 0 false false (cachedStore q pa (if q.rt ≠ 3 ∧ ownsLine s core line then s else countPeerDelay core s))
  | _ => s

/-- No die holds a copy of a peer's line any more, nor an L1 below it, T copies apart. -/
def dropCached (line : Nat) (s : State) : State :=
  (s.far.filter (fun c => c.line == line)).foldl (fun s c => dropFar s line c.die) s

/-- A core's access to a peer's line is performed at that peer's home: no die of this package keeps a copy, and the core no T copy (R232, R434). -/
def dropAsked (core line : Nat) (s : State) : State := dropOwnT (dropCached line s) core line

/-- The data with which a peer's home answers: those of this package's owner where it has one, whose copy the home recalls, those of a copy that no
invalidation is on its way to, and else what the peer sends. -/
def cachedData (line off n v : Nat) (s : State) : CLine × State :=
  match s.far.find? (fun c => c.line == line && c.owned) with
  | some c =>
    let s := invalidate s c.die line none
    (backing s c.die line, dropFar s line c.die)
  | none =>
    match s.far.find? (fun c => c.line == line && c.inval.isNone) with
    | some c => (c.data, s)
    | none =>
      let r := drawLine 8 s
      (linePut (BitVec.ofNat 512 r.1) off n v, r.2)

/-- A die receives a copy of a peer's line; v is what the peer sends of its n bytes from an offset (R334, R434). [log DEDUCED 24] -/
def fillShared (die line off n v : Nat) (s : State) : State :=
  if (farCopy s line die).isSome then s
  else
    let r := cachedData line off n v s
    setFar r.2 ⟨line, die, r.1, false, none⟩

/-- A die receives the ownership of a peer's line, to write it (R334, R434). [log DEDUCED 24] -/
def fillOwn (die line : Nat) (s : State) : State :=
  if (farCopy s line die).any (fun c => c.owned) then s
  else
    let r := cachedData line 0 0 0 (freshen s die line)
    farGrant r.2 die line r.1

/-- A peer's response to a cached request: the die receives its copy, or ownership of it for a store, and the request is performed there. [log DEDUCED 24] -/
def fillCached (q : Req) (line : Nat) (v : Word) (s : State) : State :=
  let die := dieOfCore q.ctx.core
  match q.kind with
  | .store => fillOwn die line s
  | _ => fillShared die line (cachedAt q.loc line % 64) q.size (v.toNat % 256 ^ q.size) s

/-- A core keeps no T copy of the lines of this package that an access of it reaches through its own peer number (R232, R431). -/
def dropOwnTs (l : Loc) (n core : Nat) (s : State) : State := (homeLines s l n).foldl (fun s line => dropOwnT s core line) s

/-- A request to a peer: to the own peer number it is served here, one that a copy serves is performed there, any other leaves the package (R431,
R434). A VAMO's elements are added one at a time (R345). -/
def performPeer (q : Req) (peer exp ra : Nat) (s : State) : State :=
  if peer = s.fabric.peer.toNat then
    let s := dropOwnTs q.loc q.size q.ctx.core s
    match q.kind with
    | .vamo ty data left =>
      vamoStep q ty data left (fun off f s =>
        match exportAddr s peer exp (ra + off) (.vamo ty) with
        | none => (s, true)
        | some pa => ((deviceAmo s pa (vamoSize ty) (fun old => some (f old))).1 |> doorbell q.part pa (vamoSize ty), false))
        (if lastElem left then countPeerDelay q.ctx.core s else s)
    | _ =>
      let r := servePeer (countPeerDelay q.ctx.core s) peer exp ra q.peerOp q.data q.expect (some q.part)
      performedReq q (remoteValue q r.2.1) r.2.2 false r.1
  else
    match cachedLine s q.loc with
    | some line => if cacheServes s q line then performCached q line s else setReq s q.id (fun r => { r with sent := true, issuedAt := s.cycle })
    | none => setReq s q.id (fun r => { r with sent := true, issuedAt := s.cycle })

/-- A request to an MMIO register: a read gives its value; a write of a doubleword is done by the register's unit in the next
step, and an atomic is a read and then such a write (R229, R452). An STI there is such a write too; no line is pushed, so that the mask of its accepted
targets is 0. [log DESIGN CHOICE 89] -/
def performMmio (q : Req) (pa : Nat) (s : State) : State :=
  let old := mmioRead s (pa / 8 * 8)
  let part := old.toNat / 256 ^ (pa % 8) % 256 ^ q.size
  let put := fun (v : Nat) (s : State) =>
    let whole := old.toNat - part * 256 ^ (pa % 8) + (v % 256 ^ q.size) * 256 ^ (pa % 8)
    { s with agenda := .write (pa / 8 * 8) (BitVec.ofNat 64 whole) :: s.agenda }
  match q.kind with
  | .load sg => performedReq q (if sg then BitVec.ofInt 64 (toSigned (8 * q.size) part) else BitVec.ofNat 64 part) false false s
  | .store => performedReq q 0 false false (put q.data.toNat s)
  | .sti _ _ => performedReq q 0 false false (put q.data.toNat s)
  | .amo op =>
    let n := 8 * q.size
    let s := match amoNew op n part (q.data.toNat % 2 ^ n) (q.expect.toNat % 2 ^ n) with
      | some v => put v s
      | none => s
    performedReq q (amoResult op n part) false false s
  | .vamo _ _ _ => performedReq q 0 true false s
  | .fence _ _ _ => s

/-- A request is performed. [log DEDUCED 24] -/
def performReq (q : Req) (s : State) : State :=
  match q.kind with
  | .fence k lo hi =>
    let s := if k ≠ 2 ∧ 2 ≤ q.scope.toNat then
        s.setCore q.ctx.core (dropT (s.core q.ctx.core) (if lo = 0 ∧ hi = 2 ^ 64 then none else some (lo, hi))) else s
    dropReq s q.id
  | _ =>
    match q.loc with
    | .mem pa others => performMem q pa others s
    | .mmio pa => performMmio q pa s
    | .peer peer exp ra _ _ _ => performPeer q peer exp ra s
    | .departing => performedReq q 0 true true s
    | .nowhere => performedReq q 0 true false s
    | .spad _ => s

/-! ### Responses (R96) -/

/-- A load's or atomic's response: its destination is written or poisoned (R96, R155). -/
def deliverResponse (q : Req) (v : Word) (poison gone : Bool) (s : State) : State :=
  if q.drop then s
  else
    let s := if gone then raiseDeferred q.ctx cFARGONE q.pc q.va q.id s else s
    if poison then
      if isPort q.dest then raiseDeferred q.ctx cPOISON q.pc q.va q.id s
      else s.setCtx q.ctx ((s.ctx q.ctx).setPoison q.dest q.pc q.va)
    else writeResult s q.ctx q.dest v 0 q.route

/-- An answer from a peer lets this package hold a line: where no die has a copy, the export may not let it, which is the peer's to say and makes the
access UC (R434). [log DESIGN CHOICE 4; DEDUCED 24] -/
def mayHold (line : Nat) (s : State) : Bool × State :=
  if s.far.any (fun c => c.line == line) then (true, s)
  else
    let r := draw s
    (r.1.getLsbD 0, r.2)

/-- The line that the answer to a request lets this package hold. -/
def heldLine (q : Req) (s : State) : Option Nat × State :=
  match cachedLine s q.loc with
  | none => (none, s)
  | some line => (if (mayHold line s).1 then some line else none, (mayHold line s).2)

/-- The answer of another package to a request, which is over: an uncached one's value or failure; a cached one's line, from which it is then
performed; and an atomic's, which has taken every copy from this package (R240, R334, R434). [log DEDUCED 24] -/
def answered (q : Req) (v : Word) (poison : Bool) (s : State) : State :=
  match (heldLine q s).1, poison with
  | some line, false =>
    let s := (heldLine q s).2
    let off := cachedAt q.loc line
    match q.kind with
    | .load _ =>
      let r := loadLine (fillCached q line v s) q.ctx.core q.rt off q.size q.va
      deliverResponse q (remoteValue q (BitVec.ofNat 64 r.2.1)) false false r.1
    | .store => cachedStore q off (fillCached q line v s)
    | .amo 0 =>
      if q.scope.toNat < 6 then
        let r := amoAtHome (fillCached q line v s) q.ctx.core off q.size false false (fun _ => none)
        deliverResponse q (remoteValue q (BitVec.ofNat 64 r.2.1)) false false r.1
      else deliverResponse q (remoteValue q v) false false (dropAsked q.ctx.core line s)
    | _ => if q.isStore then dropAsked q.ctx.core line s else deliverResponse q (remoteValue q v) false false (dropAsked q.ctx.core line s)
  | _, _ =>
    let s := (cachedLine s q.loc).elim (heldLine q s).2 (dropOwnT (heldLine q s).2 q.ctx.core)
    if q.isStore then (if poison then noteFailed q s else s) else deliverResponse q (remoteValue q v) poison false s

/-- The response of a request comes back. Of a request that was performed here the value is its own; one that left the package
gets the value and the poison that the answer carries. An STI with .rep waits for its pushes. -/
def respond (q : Req) (v : Word) (poison : Bool) (s : State) : State :=
  if q.performed then
    match q.kind with
    | .sti _ _ =>
      if s.pushes.any (fun p => p.req == q.id) then s
      else endReplay q (deliverResponse q q.value false false (dropReq s q.id))
    | _ => endReplay q (deliverResponse q q.value q.poison q.gone (dropReq s q.id))
  else if q.sent then endReplay q (answered q v poison (acquired q (countPeerDelay q.ctx.core (dropReq s q.id))))
  else s

/-- A request that has left the package is answered here, with poison: that is no remote response, and no delay counts (R297, R428, R439). -/
def answeredHere (q : Req) (s : State) : State := endReplay q (answered q 0 true (acquired q (dropReq s q.id)))

/-- A request of a number. -/
def State.req (s : State) (id : Nat) : Option Req := s.reqs.find? (fun q => q.id == id)

/-! ### Lines that an access for a context waits for (R324, R325, R438) -/

/-- A line that an access for a context takes, to read or to write. -/
structure Ask where
  ctx   : CtxId
  line  : Nat
  write : Bool
deriving DecidableEq, Repr

/-- A line is not to be had now: a tenure stands against the access, or copies that peers hold (R324, R438). -/
def Ask.waits (a : Ask) (s : State) : Bool := tenureBlocks s a.ctx a.line a.write || peerHolds s a.line a.write

/-- The access arrives: it revokes the tenures against it whose lease has run out (R325). -/
def Ask.arrive (a : Ask) (s : State) : State := revokeFor a.ctx a.line a.write s

/-- An access that waits asks the peers for their copies (R438). -/
def Ask.put (a : Ask) (s : State) : State :=
  askPeers [a.line] a.write (s.cycle + fabricCycles (s.part (s.partOfRank (rankOf a.ctx.core)))) (a.arrive s)

/-- The first of some lines that is not to be had, each access having arrived, or the state in which all are. -/
def askFirst (l : List Ask) (s : State) : Option Ask × State :=
  let t := l.foldl (fun s a => a.arrive s) s
  (l.find? (fun a => a.waits t), t)

/-- The state of a unit that waits. -/
def askedFor (ask : Option Ask) (s : State) : State := ask.elim s (fun a => a.put s)

end Sys2Proof.Machine
end

