-- ==== Sys2Proof/Machine/Operands.lean ====
section
/-!
DEFINITION. The memory operands of instructions: the checks of R227 in their order, what holds an access at issue, and how a
request starts (R125, R158, R167, R179, R197, R226, R235, R279, R326, R380, R402).
-/

namespace Sys2Proof.Machine

open Sys2Proof

/-! ### Address checks (R125, R158, R197, R227) -/

/-- STACKFAULT: an access through g27 outside the stack (R125). -/
def stackCheck (s : State) (a : Reg) (addr : Word) (size : Nat) : Option Trap :=
  if a = 27 ∧ (addr.toNat < s.me.slim.toNat ∨ s.me.sbase.toNat < addr.toNat + size) then some (.mk' cSTACKFAULT addr) else none

/-- LOCALRANGE for a scalar access to the local class: `window` lets stores into the command window pass to their own
checks (R158, R197). -/
def localCheck (s : State) (addr : Word) (size : Nat) (window : Bool) : Option Trap :=
  let x := locOf addr
  if !isLocal addr then none
  else if x + size ≤ spBytes s.mine.spsize then none
  else if window ∧ 0x40000 ≤ x ∧ x + size ≤ 0x40040 then none
  else some (.mk' cLOCALRANGE addr)

/-- The first of two checks that fails. -/
def orElse (a b : Option Trap) : Option Trap :=
  match a with
  | some t => some t
  | none => b

/-- Steps 1 to 4 of R227 for a scalar access of a size at an address whose base register is a. -/
def memCheck (s : State) (a : Reg) (addr : Word) (size : Nat) (window : Bool) : Option Trap :=
  orElse (formCheck s.ptlen addr) (orElse (stackCheck s a addr size)
    (orElse (if addr.toNat % size ≠ 0 then some (.mk' cMISALIGN addr) else none) (localCheck s addr size window)))

/-! ### Scopes (R401, R402) -/

/-- SCOPECAP for an encoded scope (R402). -/
def scopeCheck (s : State) (scope : BitVec 3) : Option Trap :=
  if s.myPart.scopecap.toNat < scope.toNat ∧ s.myPart.scopecapf then some (.mk' cSCOPECAP (zext scope)) else none

/-- A scope under the partition's ceiling. [log DEDUCED 23] -/
def capped (q : Part) (scope : BitVec 3) : BitVec 3 := if q.scopecap.toNat < scope.toNat then q.scopecap else scope

/-- An instruction whose encoded scope is demoted is counted (R402). -/
def countDemote (scope : BitVec 3) (s : State) : State :=
  if s.myPart.scopecap.toNat < scope.toNat then s.setMine { s.mine with scopedemote := s.mine.scopedemote + 1 } else s

/-! ### What holds an access at issue -/

/-- A context of the core waits for a new split of its SRAM: other accesses to its scratchpad and L1 wait (R157). -/
def Core.resizing (k : Core) : Bool :=
  k.ctxs.toList.any (fun x => match x.wait with
    | .resize _ => true
    | _ => false)

/-- An earlier-issued vector instruction of the core, a copy into the local window, keeps a scratchpad access back (R167,
R279). -/
def spadBusy (k : Core) (lo n : Nat) (write : Bool) : Bool :=
  let hit := fun (l : Nat) => decide (512 * l < lo + n) && decide (lo < 512 * l + 512)
  k.resizing || k.ctxs.toList.any (fun x => x.vq.any (fun v => v.wr.any hit || (write && v.rd.any hit)) ||
    x.ranges.any (fun r => decide (r.lo < lo + n) && decide (lo ≤ r.hi)))

/-- An acquire or a fence of the context that is not complete, in the retry ring or on its way, keeps a later access to scratchpad back (R237, R252,
R380). -/
def orderHolds (s : State) (addr : Word) (n : Nat) (write : Bool) : Bool :=
  s.me.ring.any (fun h => h.acq) || s.reqs.any (fun q => q.ctx == s.cur && (match q.kind with
    | .fence k lo hi => decide (addr.toNat < hi) && decide (lo < addr.toNat + n) && (k != 2 || write)
    | _ => q.acq && !q.performed))

/-- A queued vector memory instruction of the context touches the bytes of an access, by whatever address it names them (R179, R236). -/
def vmemBusy (s : State) (x : Ctx) (l : Loc) (n : Nat) : Bool := x.vq.any (fun v => v.elems.any (fun e => overlaps s e.2.2 v.psize l n))

/-- Four entries of the retry ring are outstanding: the context's next memory access waits (R380). -/
def ringFull (x : Ctx) : Bool := decide (4 ≤ x.ring.length)

/-- The context's outstanding ring entries keep an access back: four of them, an acquire, or an overlap, whatever view either address has (R237, R380).
[log DEDUCED 26] -/
def ringBusy (x : Ctx) (addr : Word) (n : Nat) : Bool :=
  ringFull x || x.ring.any (fun h => h.acq || decide (locOf h.va < locOf addr + n) && decide (locOf addr < locOf h.va + h.size))

/-- A vector memory instruction of the context is queued. -/
def vmemQueued (x : Ctx) : Bool := x.vq.any (fun v => !v.elems.isEmpty)

/-- A release, fence or barrier of a scope of the context may go on: outstanding ring entries and queued vector memory
instructions hold it (R179, R380). -/
def releaseHolds (x : Ctx) : Bool := !x.ring.isEmpty || vmemQueued x

/-- The oldest failed store, taken by a release or fence of scope .peer or wider (R234). [log DESIGN CHOICE 82] -/
def fabStore (s : State) (scope : BitVec 3) : Option FailedStore :=
  if 6 ≤ scope.toNat then s.me.failed.head? else none

/-- Trap FABSTORE: the earliest failed store is reported. -/
def trapFab (f : FailedStore) (s : State) : Out :=
  trap ⟨cFABSTORE, f.va, some f.pc, false⟩ (s.setMe { s.me with failed := s.me.failed.tail })

/-- A release of a scope is not over (R234, R237, R381). -/
def releaseWaits (s : State) (scope : BitVec 3) : Bool := releaseHolds s.me || !released s s.cur scope

/-- A release of a scope as an instruction's own first part, which the instruction waits for at issue: everything issued is
performed at the scope, and from .peer on a failed store traps (R234, R237). -/
def releaseThen (scope : BitVec 3) (s : State) (k : State → Out) : Out :=
  if releaseWaits s scope then hold s
  else match fabStore s scope with
    | some f => trapFab f s
    | none => k s

/-- The scope of the release that ends the executing context, where `scope` is what its end asks for by itself: its tenures are released at
.pkg (R327). -/
def tenureScope (s : State) (scope : BitVec 3) : BitVec 3 :=
  if s.myPart.tenures.any (fun t => t.ctx == s.cur) then (if scope.toNat < (capped s.myPart 5).toNat then capped s.myPart 5 else scope) else scope

/-! ### Translated accesses -/

/-- A fault of a scalar access goes to the retry ring (R235, R379). -/
def ringTakes (s : State) : Bool := s.myPart.rrsz != 0 && s.me.priv == 0 && !s.me.service

/-- What a faulting access leaves in the ring: its data, its word, its destination, and the target operand of an STI; whether it is an acquire, and the
scope that an atomic encodes (R237, R402). -/
structure Faulting where
  data : Word
  word : IWord
  load : Bool
  reg  : Reg
  aux  : Word := 0
  acq  : Bool := false
  scope : BitVec 3 := 0
deriving DecidableEq, Repr

/-- Go on once no peer holds a copy of some lines that the context's instruction writes for a partition; it asks the holders for them (R438). -/
def peersThen (p : Nat) (lines : List Nat) (s : State) (k : State → Out) : Out :=
  if linesHeld s lines true then hold (askPeers lines true (s.cycle + fabricCycles (s.part p)) s) else k s

/-- The line of a partition's ring that its next entry is written to. -/
def nextSlotLine (q : Part) : Nat := ringSlot q q.rrtail.toNat / 64

/-- A translation fault of a scalar access: precise, or through the ring, where a demoted scope counts as at any issue (R235, R380, R381, R402). -/
def faultEnd (w : BitVec 3) (rs : List Reg) (addr : Word) (size : Nat) (kind : BitVec 3) (f : Faulting) (s : State) : Out :=
  if ringTakes s then
    if ringHasRoom s s.myPart then
      peersThen s.myPartNo [nextSlotLine s.myPart] s (fun s =>
        .next (finish w rs (countDemote f.scope (appendEntry s.cur s.me.pc addr f.data f.word f.load f.reg f.aux size kind f.acq s))))
    else hold s
  else trapAt cXLATE addr s

/-- The word that the executing context issues. -/
def State.word (s : State) : IWord := s.me.fwd.elim (s.mine.fetch s.me.pc) (fun e => e.word)

/-- The trap of an access that cannot be translated: PRIV at a page that only H reaches, else XLATE (R235, R389). [log DEDUCED 41] -/
def xlTrap (s : State) (va : Word) (n : Need) : Trap :=
  if privPage s (s.xctx s.cur) va n then .mk' cPRIV (zext s.word) else .mk' cXLATE va

/-- The loss of a tenure over a line of an access that its context has not met yet: only its own instructions meet it, no access that a unit or an engine makes
for it (R326). [log DESIGN CHOICE 102] -/
def lossAt (s : State) (l : Loc) (n : Nat) : Option Tenure := (homeLines s l n).findSome? (lostTenure s s.cur)

/-- An access of a request type acts on the core's L1: any but a UC one to memory, or to a peer's line that may be cached, and a UC one or an atomic
whose line the core holds (R229, R231, R434). -/
def touchesL1 (s : State) (rt : BitVec 2) (l : Loc) (n : Nat) : Bool :=
  match l with
  | .mem _ _ => rt != 3 || (linesOf l n).any (fun line => (s.mine.l1Find line).isSome)
  | _ => (cachedLine s l).any (fun line => rt != 3 || (s.mine.l1Find line).isSome)

/-- A translated access waits once it is placed: the split of the SRAM changes and it acts on the L1, or a queued vector memory instruction accesses its
bytes (R157, R179). -/
def placeWaits (s : State) (rt : BitVec 2) (l : Loc) (n : Nat) : Bool := (s.mine.resizing && touchesL1 s rt l n) || vmemBusy s s.me l n

/-- What follows the resolution of an access: what it waits for holds it, and the loss of a tenure traps (R157, R179, R326). -/
def placedThen (rt : BitVec 2) (addr : Word) (size : Nat) (l : Loc) (s : State) (k : Loc → State → Out) : Out :=
  if placeWaits s rt l size then hold s
  else match lossAt s l size with
    | some u => trapAt cTENLOST addr (tellLost s s.cur u.id)
    | none => k l s

/-- Step 7 of R227 and what follows it: the location of a translated access of a request type, past the holds, a VIEWPERM or translation fault
and the loss of a tenure. -/
def locThen (w : BitVec 3) (rs : List Reg) (rt : BitVec 2) (addr : Word) (size : Nat) (n : Need) (f : Faulting) (s : State)
    (k : Loc → State → Out) : Out :=
  if ringBusy s.me addr size then hold s
  else
    match resolve s (s.xctx s.cur) addr size n with
    | (t, .error .viewperm) => trapAt cVIEWPERM addr t
    | (t, .error (.kind kind)) =>
      if privPage s (s.xctx s.cur) addr n then trapAt cPRIV (zext f.word) t else faultEnd w rs addr size kind f t
    | (t, .ok l) => placedThen rt addr size l t k

/-- The location of a translated access whose faults are all precise and never enter the ring; it is UC. -/
def preciseLoc (addr : Word) (size : Nat) (n : Need) (s : State) (k : Loc → State → Out) : Out :=
  if ringBusy s.me addr size then hold s
  else
    match resolve s (s.xctx s.cur) addr size n with
    | (t, .error .viewperm) => trapAt cVIEWPERM addr t
    | (t, .error (.kind _)) => trap (xlTrap s addr n) t
    | (t, .ok l) => placedThen 3 addr size l t k

/-- The scratchpad line that a line pointer names (R159). -/
def Ctx.lineNo (x : Ctx) (r : Reg) : Nat := ((x.p[r.toNat]?.getD 0).extractLsb' 0 9).toNat

/-- A scratchpad line as a number of 512 bytes. -/
def Core.spadLine (k : Core) (l : Nat) : Nat := readRange k.spad (512 * l) 512

/-- A core with a scratchpad line written. -/
def Core.setSpadLine (k : Core) (l v : Nat) : Core := { k with spad := writeLe k.spad (512 * l) 512 v }

/-- LOCALRANGE for the first of some lines that the scratchpad does not have (R159). -/
def lineCheck (k : Core) (lines : List Nat) : Option Trap :=
  (lines.find? (fun l => decide (spLines k.spsize ≤ l))).map (fun l => .mk' cLOCALRANGE (BitVec.ofNat 64 (512 * l)))

/-- A request of the executing context with the next number. -/
def mkReq (s : State) (va : Word) (loc : Loc) (size : Nat) (kind : ReqKind) : Req :=
  { id := s.nextId, ctx := s.cur, part := s.myPartNo, pc := s.me.pc, va := va, loc := loc, size := size, rt := 3
    kind := kind, scope := 0, asked := 0, acq := false, rel := false, dest := 0, data := 0, expect := 0, issuedAt := s.cycle
    sent := false, performed := false, value := 0, poison := false, gone := false, drop := false, replay := none, route := none }

/-- A request joins those of its context. -/
def addReq (q : Req) (s : State) : State := { s with reqs := s.reqs ++ [q], nextId := s.nextId + 1 }

/-- The request type of a request under its context's tenures (R323). -/
def Req.typeAt (q : Req) (s : State) (pa : Nat) : BitVec 2 := tenureType s q.ctx (pa / 64) q.writes q.rt

/-- A load that the core's own L1 serves is performed at issue (R231); a poisoned copy answers as a response does (R384). -/
def hitNow (s : State) (q : Req) : Bool :=
  match q.loc with
  | .mem pa _ => l1Serves s q.ctx.core (q.typeAt s pa) pa q.va && mayPerform s q && !((s.core q.ctx.core).l1Find (pa / 64)).any (fun e => e.bad)
  | _ => false

/-- A store that its line, owned here, takes is performed at issue (R231). -/
def ownedNow (s : State) (q : Req) : Bool :=
  match q.loc with
  | .mem pa others => q.typeAt s pa != 3 && others.isEmpty && ownsLine s q.ctx.core (pa / 64) && mayPerform s q
  | _ => false

/-- The value that a load returns from its own L1, and the state after it. -/
def l1Load (q : Req) (s : State) : Word × State :=
  match q.loc, q.kind with
  | .mem pa _, .load sg =>
    let r := loadLine s q.ctx.core (q.typeAt s pa) pa q.size q.va
    (if sg then BitVec.ofInt 64 (toSigned (8 * q.size) r.2.1) else BitVec.ofNat 64 r.2.1, r.1)
  | _, _ => (0, s)

/-- A store into a line owned here; into far memory it waits for the invalidations pending for a release at .pkg (R334). -/
def l1Store (q : Req) (s : State) : State :=
  match q.loc with
  | .mem pa _ => doorbell q.part pa q.size (noteFarWrite q.ctx q.va q.size pa (l1Write s q.ctx.core pa q.size q.data.toNat))
  | _ => s

/-! ### Reads that an instruction makes as a load of its context (R317, R363) -/

/-- What becomes of such a read. -/
inductive CtxRead where
  | hold (ask : Option (Loc × Nat))
  | trap (t : Trap) (s : State)
  | ok (v : Nat) (s : State)
deriving DecidableEq, Repr

/-- The trap of a read whose response is poisoned. -/
def poisonHere (s : State) (va : Word) : Trap := ⟨cPOISON, va, some s.me.pc, false⟩

/-- The bytes that a package's peers would answer are not this package's: free values, a byte at a time. [log DESIGN CHOICE 4] -/
def drawBytes (n : Nat) (s : State) : Nat × State :=
  match n with
  | 0 => (0, s)
  | k + 1 =>
    let r := draw s
    let t := drawBytes k r.2
    (r.1.toNat % 256 + 256 * t.1, t.2)

/-- The n bytes from a physical address on, each from its home. -/
def homeBytes (pa n : Nat) (s : State) : Nat × State :=
  match n with
  | 0 => (0, s)
  | k + 1 =>
    let r := deviceRead s pa 1
    let t := homeBytes (pa + 1) k r.1
    (r.2 + 256 * t.1, t.2)

/-- Read n bytes of an export of this package as one request of a unit (R433, R434). -/
def servePeerBytes (q exp ra n : Nat) (s : State) : Option (Nat × State) := (exportAddr s q exp ra (.read n)).map (fun pa => homeBytes pa n s)

/-- What another package answers a unit's read of n bytes: a poisoned response, for a refusal there or past cr.fabto, or bytes of the package's
own; which one is a free value (R384, R428, R433). [log DESIGN CHOICE 4; DEDUCED 25] -/
def peerAnswer (n : Nat) (s : State) : Option Nat × State :=
  let r := draw s
  let t := drawBytes n r.2
  (if r.1.getLsbD 0 then none else some t.1, t.2)

/-- A read of n bytes at a peer's home: served here for the own peer number, or by the other package, which recalls a line of its that a die of this
package owns and answers with its data; none where the response is poisoned (R428, R431, R433, R434). -/
def peerRead (l : Loc) (q exp ra n : Nat) (s : State) : Option Nat × State :=
  if q = s.fabric.peer.toNat then
    match servePeerBytes q exp ra n s with
    | some r => (some r.1, r.2)
    | none => (none, s)
  else
    let a := peerAnswer n s
    match cachedLine s l, a.1 with
    | some line, some v =>
      if s.far.any (fun c => c.line == line) then
        let r := cachedData line (ra % 64) n v a.2
        (some (lineGet r.1 (ra % 64) n), r.2)
      else a
    | _, _ => a

/-- A write of n bytes at a peer's home: whether it failed, there or past cr.fabto, which for another package a free value says. The home takes every
copy of the line from this package (R428, R431, R434, R438). [log DESIGN CHOICE 4; DEDUCED 25] -/
def peerWrite (part : Nat) (l : Loc) (q exp ra n v : Nat) (s : State) : State × Bool :=
  if q = s.fabric.peer.toNat then putPeerBytes q exp ra n v (some part) s
  else
    let r := draw s
    ((cachedLine s l).elim r.2 (fun line => dropCached line r.2), r.1.getLsbD 0)

/-- What a response from a peer's home does to the core it comes to: its delay counts, and the core keeps no T copy of a line of this package (R232,
R297). -/
def fromPeer (l : Loc) (n core : Nat) (s : State) : State := dropOwnTs l n core (countPeerDelay core s)

/-- A context's unit reads n bytes at a peer. A line that this package may hold it reads as a load of a request type, through its L1 and its die's copy; where
the die has none the peer answers with poison, with the line for the die to hold, or, where its export lets no copy be held, with the bytes (R334, R434).
[log DEDUCED 24] -/
def unitPeerRead (c : CtxId) (rt : BitVec 2) (l : Loc) (q exp ra n : Nat) (s : State) : Option Nat × State :=
  match cachedLine s l with
  | none => peerRead l q exp ra n (fromPeer l n c.core s)
  | some line =>
    let pa := 64 * line + ra % 64
    let here := fun (s : State) =>
      let r := loadLine s c.core rt pa n
      (some r.2.1, r.1)
    if (farCopy s line (dieOfCore c.core)).isSome then here (if l1Serves s c.core rt pa then s else countPeerDelay c.core s)
    else
      let a := peerAnswer n (countPeerDelay c.core s)
      match a.1 with
      | none => a
      | some v =>
        let h := mayHold line a.2
        if h.1 then here (fillShared (dieOfCore c.core) line (ra % 64) n v h.2) else (some v, dropOwnT h.2 c.core line)

/-- A context's unit writes n bytes at a peer: whether it failed. Into a line that this package may hold it is a store of a request type, for which the
die first becomes the line's owner (R334, R434). [log DEDUCED 24] -/
def unitPeerWrite (c : CtxId) (va : Word) (rt : BitVec 2) (l : Loc) (q exp ra n v : Nat) (s : State) : State × Bool :=
  match cachedLine s l with
  | none => peerWrite (s.partOfRank (rankOf c.core)) l q exp ra n v (fromPeer l n c.core s)
  | some line =>
    let pa := 64 * line + ra % 64
    if ownsLine s c.core line then (cachedPut c va rt pa n v s, false)
    else
      let s := countPeerDelay c.core s
      if (farCopy s line (dieOfCore c.core)).any (fun d => d.owned) then (cachedPut c va rt pa n v s, false)
      else
        let r := draw s
        if r.1.getLsbD 0 then (r.2, true)
        else
          let h := mayHold line r.2
          if h.1 then (cachedPut c va rt pa n v (fillOwn (dieOfCore c.core) line h.2), false) else (dropAsked c.core line h.2, false)

/-- The executing context's access to a location revokes the tenures against it whose lease has run out (R325). -/
def revokeFrom (l : Loc) (n : Nat) (s : State) : State := (homeLines s l n).foldl (fun s line => revokeFor s.cur line false s) s

/-- An access of a context to a location asks the peers for the copies that stand against it (R438). -/
def askFor (c : CtxId) (l : Loc) (n : Nat) (write : Bool) (s : State) : State :=
  askPeers (homeLines s l n) write (s.cycle + fabricCycles (s.part (s.partOfRank (rankOf c.core)))) s

/-- The executing context reads n bytes that lie in one line, precisely, as a load of it at its home; a far home that is late answers with poison, and so does
a departing range, which raises FARGONE (R426, R428). -/
def ctxRead (s : State) (va : Word) (n : Nat) : CtxRead :=
  match orElse (formCheck s.ptlen va) (localCheck s va n false) with
  | some t => .trap t s
  | none =>
    if isLocal va then
      if ringFull s.me ∨ spadBusy s.mine (locOf va) n false ∨ orderHolds s va n false then .hold none
      else .ok (readRange s.mine.spad (locOf va) n) s
    else if ringBusy s.me va n then .hold none
    else
      match resolve s (s.xctx s.cur) va n needR with
      | (t, .error .viewperm) => .trap (.mk' cVIEWPERM va) t
      | (t, .error (.kind _)) => .trap (xlTrap s va needR) t
      | (t, .ok l) =>
        match lossAt t l n with
        | some u => .trap (.mk' cTENLOST va) (tellLost t t.cur u.id)
        | none =>
          let t := revokeFrom l n t
          let q := { mkReq t va l n (.load false) with rt := 3 }
          if placeWaits t 3 l n ∨ !mayPerform t q then .hold (some (l, n))
          else match l with
            | .mem pa _ =>
              let late := lateFar t.cur (pa / 64) false (countDelay t.cur.core (homeSlice t pa) t)
              let r := loadLine late.2 t.cur.core 3 pa n
              if late.1 then .trap (poisonHere late.2 va) late.2
              else if r.2.2 then .trap (poisonHere r.1 va) r.1
              else .ok r.2.1 r.1
            | .mmio pa => .ok (mmioBytes t pa n) t
            | .peer q exp ra _ _ _ =>
              match unitPeerRead t.cur 3 l q exp ra n t with
              | (some v, t) => .ok v t
              | (none, t) => .trap (poisonHere t va) t
            | .departing => .trap (poisonHere t va) (raiseDeferred t.cur cFARGONE t.me.pc va t.nextId { t with nextId := t.nextId + 1 })
            | .nowhere => .trap (poisonHere t va) t
            | .spad _ => .hold none

/-! ### Accesses that a unit of the core makes for a context (R178, R190, R213, R218, R227) -/

/-- Read n bytes at a location through the core's L1: the value, whether it came back poisoned, whether from a departing range. -/
def loadAt (c : CtxId) (l : Loc) (n : Nat) (s : State) : Nat × Bool × Bool × State :=
  match l with
  | .spad x => (readLe (s.core c.core).spad x n, false, false, s)
  | .mem pa _ =>
    let rt := tenureType s c (pa / 64) false 1
    if l1Serves s c.core rt pa then
      let r := loadLine s c.core rt pa n
      (r.2.1, r.2.2, false, r.1)
    else
      let late := lateFar c (pa / 64) false (countDelay c.core (homeSlice s pa) s)
      let r := loadLine late.2 c.core rt pa n
      if late.1 then (0, true, false, late.2) else (r.2.1, r.2.2, false, r.1)
  | .mmio pa => (mmioBytes s pa n, false, false, s)
  | .peer q exp ra _ _ _ =>
    let r := unitPeerRead c 1 l q exp ra n s
    (r.1.getD 0, r.1.isNone, false, r.2)
  | .departing => (0, true, true, s)
  | .nowhere => (0, true, false, s)

/-- A write of a unit to an MMIO register: the doubleword it leaves there. -/
def mmioPut (pa n v : Nat) (s : State) : State :=
  let old := (mmioRead s (pa / 8 * 8)).toNat
  let part := old / 256 ^ (pa % 8) % 256 ^ n
  { s with agenda := .write (pa / 8 * 8) (BitVec.ofNat 64 (old - part * 256 ^ (pa % 8) + (v % 256 ^ n) * 256 ^ (pa % 8))) :: s.agenda }

/-- Write n bytes at a location for an instruction of a context; a write that fails is recorded as a scalar one (R234). Each
is one remote response of R297, so that a line counts one for each of its parts. [log DESIGN CHOICE 99] -/
def storeAt (c : CtxId) (pc va : Word) (order : Nat) (l : Loc) (n v : Nat) (s : State) : State :=
  let lost := fun (s : State) => s.setCtx c { s.ctx c with failed := (s.ctx c).failed ++ [⟨pc, va, order⟩] }
  match l with
  | .spad x => s.setCore c.core { s.core c.core with spad := writeLe (s.core c.core).spad x n v }
  | .mem pa others =>
    let p := s.partOfRank (rankOf c.core)
    let rt := tenureType s c (pa / 64) true 1
    if storeFails s c.core rt pa then lost (countDelay c.core (homeSlice s pa) s)
    else
      let put := fun (s : State) => doorbell p pa n (multicast c p va others n v (noteFarWrite c va n pa (storeLine s c.core rt pa n v)))
      if ownsLine s c.core (pa / 64) then put s
      else
        let late := lateFar c (pa / 64) true (countDelay c.core (homeSlice s pa) s)
        if late.1 then lost late.2 else put late.2
  | .mmio pa => mmioPut pa n v s
  | .peer q exp ra _ _ _ =>
    let r := unitPeerWrite c va 1 l q exp ra n v s
    if r.2 then lost r.1 else r.1
  | .departing => raiseDeferred c cFARGONE pc va order s
  | .nowhere => lost s

/-- A location that a unit's access may be made at now: the context's earlier requests to its bytes are performed, and no tenure, no copy of a peer
and no dead tag stands against it; tenures whose lease has run out are revoked before (R236, R324, R325, R438, R439). -/
def accessReady (c : CtxId) (l : Loc) (n : Nat) (write : Bool) (s : State) : Bool :=
  s.reqs.all (fun q => q.ctx != c || q.performed || !overlaps s q.loc q.size l n) && !replicaPending s c l &&
    (homeLines s l n).all (fun line => (tenuresAgainst s c line write).all (fun h => h.1.expired s.cycle)) &&
    !(homeLines s l n).any (fun line => peerHolds s line (write || tenureType s c line write 1 == 0)) &&
    (match l with
     | .peer _ _ _ _ _ _ => !tagDead s (s.partOfRank (rankOf c.core))
     | _ => true)

/-- Tenures against an access whose lease has run out are revoked. -/
def revokeAt (c : CtxId) (l : Loc) (n : Nat) (write : Bool) (s : State) : State :=
  (homeLines s l n).foldl (fun s line => revokeFor c line write s) s

/-- Where a unit finds an address for a context: a scratchpad byte, or a translated or peer location; none where it faults. -/
def unitLoc (s : State) (c : CtxId) (x : Xctx) (va : Word) (n : Nat) (need : Need) : State × Option Loc :=
  if isLocal va then
    (s, if viewOf va = 0 ∧ locOf va + n ≤ spBytes (s.core c.core).spsize then some (.spad (locOf va)) else none)
  else if (formCheck (s.part x.part).len.toNat va).isSome then (s, none)
  else
    match resolve s x va n need with
    | (t, .ok l) => (t, some l)
    | (t, .error _) => (t, none)

/-- The context waits at such a read: its instruction has no effect yet, but the access has revoked tenures and asked the peers (R325, R438). -/
def holdRead (ask : Option (Loc × Nat)) (s : State) : Out :=
  hold (ask.elim s (fun a => askFor s.cur a.1 a.2 false (revokeFrom a.1 a.2 s)))

/-- Go on with what such a read gives. -/
def readThen (s : State) (va : Word) (n : Nat) (k : Nat → State → Out) : Out :=
  match ctxRead s va n with
  | .hold a => holdRead a s
  | .trap t s => trap t s
  | .ok v s => k v s

end Sys2Proof.Machine
end

