-- ==== Sys2Proof/Machine/Strings.lean ====
section
/-!
DEFINITION. The strings of a core: sources, counters, terms, the gates, and what fires WAKE and the helper start (R254–R258).
-/

namespace Sys2Proof.Machine

open Sys2Proof

/-- The condition Cn of a counter (R255). -/
def strCond (k : Core) (n : Nat) : Bool :=
  let c := k.strcnt[n]?.getD 0
  c.getLsbD 4 && decide ((c.extractLsb' 16 16).toNat ≤ (c.extractLsb' 32 32).toNat)

/-- The level "vector queue empty" (R254). -/
def Core.lve (k : Core) : Bool := k.ctxs.toList.all (fun x => x.vq.isEmpty)

/-- The level "port non-empty" (R254). -/
def Core.lpn (k : Core) : Bool := (List.range 4).any (fun q => !(k.port q).isEmpty)

/-- A term is true (R256). -/
def strTerm (k : Core) (t : Nat) : Bool :=
  let v := k.strterm[t]?.getD 0
  v.extractLsb' 0 10 != 0 && (List.range 8).all (fun n => !v.getLsbD n || strCond k n) &&
    (!v.getLsbD 8 || k.lve) && (!v.getLsbD 9 || k.lpn)

/-- The mask of a target: 0 GATEM, 1 GATEX, 2 WAKE, 3 HSTM (R257). -/
def strMask (k : Core) (target : Nat) : BitVec 4 := k.strtgt.extractLsb' (4 * target) 4

/-- The OR of a target's terms. -/
def strOr (k : Core) (target : Nat) : Bool := (List.range 4).any (fun t => (strMask k target).getLsbD t && strTerm k t)

/-- A gate is open (R258). -/
def gateOpen (k : Core) (target : Nat) : Bool := strMask k target == 0 || strOr k target

/-- After a change of what feeds the strings, WAKE and HSTM fire where their OR rose (R258). [log DEDUCED 34] -/
def strRaise (k k' : Core) : Core :=
  { k' with strDue := k'.strDue ||| (if !strOr k 2 ∧ strOr k' 2 then 1 else 0) ||| (if !strOr k 3 ∧ strOr k' 3 then 2 else 0) }

/-- Every enabled counter of a source counts one event. -/
def strCount (k : Core) (src : Nat) : Core :=
  { k with strcnt := k.strcnt.map (fun c =>
      if c.getLsbD 4 ∧ (c.extractLsb' 0 4).toNat = src then c + 0x100000000#64 else c) }

/-- A source pulses; several pulses of one source in one cycle count as one (R254). -/
def strFire (src : Nat) (k : Core) : Core := { k with strPulse := k.strPulse ||| (1#16 <<< src) }

/-- The end of a cycle: the pulses of the cycle before it reach their counters, on top of what was written in it, and this cycle's come next (R120, R254,
R258). [log DEDUCED 34] -/
def strEndCycle (k : Core) : Core :=
  if k.strPulse = 0 ∧ k.strNext = 0 then k
  else
    let counted := ((List.range 16).filter (fun src => k.strNext.getLsbD src)).foldl strCount k
    strRaise k { counted with strNext := k.strPulse, strPulse := 0 }

/-- A source of a core pulses now. -/
def pulse (core src : Nat) (s : State) : State := s.setCore core (strFire src (s.core core))

/-- A counter with its threshold subtracted. -/
def strSub (c : Word) : Word := c - ((c.extractLsb' 16 16).setWidth 64 <<< 32)

/-- The true and consuming terms of a target's mask consume, each at most once in a cycle (R258). [log DEDUCED 34] -/
def strConsume (cycle target : Nat) (k : Core) : Core :=
  let seen := if k.strCons.1 = cycle then k.strCons.2 else 0
  let terms := (List.range 4).filter (fun t =>
    (strMask k target).getLsbD t && strTerm k t && (k.strterm[t]?.getD 0).getLsbD 15 && !seen.getLsbD t)
  let k := terms.foldl (fun k t =>
    { k with strcnt := Vector.ofFn (fun (n : Fin 8) =>
        let c := k.strcnt[n.val]?.getD 0
        if (k.strterm[t]?.getD 0).getLsbD n.val then strSub c else c) }) k
  { k with strCons := (cycle, terms.foldl (fun m t => m ||| (1#4 <<< t)) seen) }

end Sys2Proof.Machine
end

