-- ==== Sys2Proof/Machine/Matrix.lean ====
section
/-!
DEFINITION. The matrix unit as its context sees it: matrix space, the command window and the commit, ownership of accumulators
and pending faults (R195–R198, R204, R219–R224).
-/

namespace Sys2Proof.Machine

open Sys2Proof

/-! ### Matrix space (R195, R196) -/

/-- The scratchpad byte of a matrix address. -/
def matByte (y : Nat) : Nat := 2048 * (y / 1024) + y % 1024

/-- The scratchpad line of a matrix line. -/
def matLine (m : Nat) : Nat := 4 * (m / 2) + m % 2

/-- The matrix line of a scratchpad line of bank groups 0 and 1. -/
def lineMat (l : Nat) : Nat := 2 * (l / 4) + l % 4

/-- The size of matrix space in bytes. -/
def matSize (k : Core) : Nat := spBytes k.spsize / 2

/-- The n bytes at a matrix address as a number. -/
def matRead (k : Core) (y n : Nat) : Nat :=
  match n with
  | 0 => 0
  | i + 1 => (getByte k.spad (matByte y)).toNat + 256 * matRead k (y + 1) i

/-- A scratchpad with the n bytes at a matrix address written. -/
def matWrite (m : Memory) (y n v : Nat) : Memory :=
  match n with
  | 0 => m
  | i + 1 => matWrite (writeLe m (matByte y) 1 (v % 256)) (y + 1) i (v / 256)

/-! ### Commands (R198, R205, R220) -/

/-- Byte i of a command. -/
def cmdByte (c : CLine) (i : Nat) : Nat := lineGet c i 1

/-- The accumulators a command names (R220). -/
def cmdAccs (c : CLine) : BitVec 8 :=
  let code := cmdByte c 0
  if code = 2 ∨ code = 3 ∨ code = 5 then 1#8 <<< (cmdByte c 2 % 8) else if code = 6 then BitVec.ofNat 8 (cmdByte c 2) else 0

/-- The accumulators owned by the commands of the queue. -/
def accOwned (k : Core) : BitVec 8 := k.mq.foldl (fun m c => m ||| cmdAccs c.bytes) 0

/-- The oldest command that owns an accumulator. -/
def accOwner (k : Core) (n : Nat) : Option MCmd := k.mq.find? (fun c => (cmdAccs c.bytes).getLsbD n)

/-- The range-scoreboard entries of a core, by context and ticket. -/
def rangesOf (core : Nat) (k : Core) : List (CtxId × Nat) :=
  (List.range 11).flatMap (fun i => (k.ctx i).ranges.map (fun r => ((⟨core, i⟩ : CtxId), r.ticket)))

/-- A commit of the executing context (R198). -/
def commit (data : Word) (s : State) : State :=
  let k := s.mine
  let seq := k.mseq + 1
  let bytes := linePut s.me.stage 56 8 data.toNat
  let c : MCmd :=
    { bytes := bytes, pc := s.me.pc, seq := seq, ctx := s.cur.ctx, order := k.issueSeq, before := s.nextId
      shadow := if cmdByte bytes 1 % 2 = 1 then some k.shadow else none
      ranges := rangesOf s.cur.core k, xctx := s.xctx s.cur, started := false, bad := none, kb := 0, rcd := 0, records := []
      performed := false, memFail := false, fflags := 0, orphan := false }
  let s := s.setMine { k with mseq := seq, mq := k.mq ++ [c] }
  s.setMe { s.me with mlast := seq }

/-- A store to the command window (R197, R198). -/
def windowStore (w : BitVec 3) (rs : List Reg) (addr : Word) (z : Nat) (data : Word) (s : State) : Out :=
  let x := locOf addr - 0x40000
  if x % z ≠ 0 then trapAt cMISALIGN addr s
  else if x = 56 ∧ z = 8 then
    if 16 ≤ s.mine.mq.length then hold s else .next (finish w rs (commit data s))
  else if x + z ≤ 56 then .next (finish w rs (s.setMe { s.me with stage := linePut s.me.stage x z data.toNat }))
  else trapAt cLOCALRANGE addr s

/-! ### Faults (R222, R223) -/

/-- The word of cr.mflog for a fault. -/
def mflogWord (f : MFault) (rec_ rkind : Nat) (ctx : Nat) : Word :=
  BitVec.ofNat 64 (f.seq.toNat + 2 ^ 32 * f.kind.toNat + 2 ^ 36 * f.acc.toNat + (if f.more then 2 ^ 39 else 0) +
    2 ^ 40 * rec_ + 2 ^ 45 * rkind + 2 ^ 48 * ctx)

/-- A fault is recorded for its committing context, unless that has ended (`lost`), and in cr.mflog (R222). -/
def recordFault (core ctx : Nat) (lost : Bool) (f : MFault) (rec_ rkind : Nat) (s : State) : State :=
  let c : CtxId := ⟨core, ctx⟩
  let x := s.ctx c
  let full := x.mfault.isSome && !lost
  let s := if lost then s
    else s.setCtx c { x with mfault := match x.mfault with
      | some g => some { g with more := true }
      | none => some f }
  s.setCore core { s.core core with mflog := mflogWord { f with more := full } rec_ rkind ctx }

/-- The trap that a pending fault raises at an instruction of its context that names an accumulator, or none of them (R223). -/
def pendingFault (x : Ctx) (acc : Option Nat) : Option Trap :=
  match x.mfault with
  | none => none
  | some f =>
    if f.kind = 7 then
      if acc.isNone ∨ acc = some f.acc.toNat then
        some (.mk' cRECORD (BitVec.ofNat 64 (f.mask.toNat + 2 ^ 32 * f.seq.toNat)))
      else none
    else some (.mk' cMUCMD (BitVec.ofNat 64 (f.seq.toNat + 2 ^ 32 * f.kind.toNat + (if f.more then 2 ^ 39 else 0))))

/-- Go on unless a pending matrix fault is raised here; the slot is emptied by it. -/
def mfaultThen (acc : Option Nat) (s : State) (k : State → Out) : Out :=
  match pendingFault s.me acc with
  | some t => trap t (s.setMe { s.me with mfault := none })
  | none => k s

end Sys2Proof.Machine
end

