-- ==== Sys2Proof/Machine/Acc.lean ====
section
/-!
DEFINITION. The ACC major: accumulators, MWAIT and MSTAT (R219–R223).
-/

namespace Sys2Proof.Machine

open Sys2Proof

/-- ACCBUSY: a command owns the accumulator (R219, R220). -/
def accBusy (s : State) (n : Nat) : Option Trap :=
  (accOwner s.mine n).map (fun c => .mk' cACCBUSY (BitVec.ofNat 64 (n + 2 ^ 32 * (c.seq.toNat % 2 ^ 32))))

/-- The scratchpad lines of the eight matrix lines from one on. -/
def accLines (m : Nat) : List Nat := (List.range 8).map (fun i => matLine (m + i))

/-- LOCALRANGE for the eight matrix lines from a scratchpad line on (R195, R219). [log DESIGN CHOICE 74] -/
def accRange (k : Core) (l : Nat) : Option Trap :=
  let count := spLines k.spsize / 2
  if 2 ≤ l % 4 then some (.mk' cLOCALRANGE (BitVec.ofNat 64 (512 * l)))
  else if count < lineMat l + 8 then some (.mk' cLOCALRANGE (BitVec.ofNat 64 (512 * matLine (max (lineMat l) count))))
  else none

/-- The lines are in use, or an acquire or fence of the context is not complete (R167, R237). -/
def accHolds (s : State) (m : Nat) (write : Bool) : Bool :=
  (accLines m).any (fun l => spadBusy s.mine (512 * l) 512 write || orderHolds s (BitVec.ofNat 64 (512 * l)) 512 write)

/-- An accumulator. -/
def Core.acc (k : Core) (n : Nat) : Acc := k.accs[n]?.getD 0

/-- A core with an accumulator set. -/
def Core.setAcc (k : Core) (n : Nat) (v : Acc) : Core := { k with accs := k.accs.setIfInBounds n v }

/-- The eight matrix lines from m on hold an accumulator: row i at byte 128 i, line j its rows 4 j to 4 j + 3. -/
def accToLines (m : Nat) (v : Acc) (k : Core) : Core :=
  (List.range 8).foldl (fun k j => k.setSpadLine (matLine (m + j)) (v.extractLsb' (4096 * j) 4096).toNat) k

/-- The accumulator that the eight matrix lines from m on hold. -/
def linesToAcc (m : Nat) (k : Core) : Acc :=
  (List.range 8).foldl (fun v j => v ||| (BitVec.ofNat 32768 (k.spadLine (matLine (m + j))) <<< (4096 * j))) 0

/-- The checks that an ACC instruction on accumulator n makes before its lines. -/
def accThen (n : Nat) (s : State) (k : State → Out) : Out :=
  mfaultThen (some n) s (fun s => failThen (accBusy s n) s k)

/-- ACC.RD (R219). -/
def execAccRd (d a : Reg) (w : BitVec 3) (s : State) : Out :=
  issueThen [] [] s (fun s => accThen a.toNat s (fun s =>
    let l := s.me.lineNo d
    failThen (accRange s.mine l) s (fun s =>
      if accHolds s (lineMat l) true then hold s
      else .next (finish w [] (s.setMine (accToLines (lineMat l) (s.mine.acc a.toNat) s.mine))))))

/-- ACC.WR (R219). -/
def execAccWr (d a : Reg) (w : BitVec 3) (s : State) : Out :=
  issueThen [] [] s (fun s => accThen d.toNat s (fun s =>
    let l := s.me.lineNo a
    failThen (accRange s.mine l) s (fun s =>
      if accHolds s (lineMat l) false then hold s
      else .next (finish w [] (s.setMine (s.mine.setAcc d.toNat (linesToAcc (lineMat l) s.mine)))))))

/-- ACC.CLR (R219). -/
def execAccClr (d : Reg) (w : BitVec 3) (s : State) : Out :=
  issueThen [] [] s (fun s => accThen d.toNat s (fun s => .next (finish w [] (s.setMine (s.mine.setAcc d.toNat 0)))))

/-- MWAIT (R221). -/
def execMwait (a : Reg) (w : BitVec 3) (s : State) : Out :=
  issueThen [a] [] s (fun s => mfaultThen none s (fun s =>
    if (s.rdA a).toNat ≤ s.mine.mdone.toNat then .next (finish w [a] s) else hold s))

/-- MSTAT (R219). -/
def execMstat (d : Reg) (w : BitVec 3) (s : State) : Out :=
  issueThen [] [d] s (fun s => completeWith w [] d s.me.mlast s)

end Sys2Proof.Machine
end

