-- ==== Sys2Proof/Machine/Alu.lean ====
section
/-!
DEFINITION. The integer register-to-register instructions, major 0x01 (R103, R104), and the forms that every scalar instruction with
fixed-latency results shares.
-/

namespace Sys2Proof.Machine

open Sys2Proof

/-! ### Shared forms -/

/-- An instruction with the sources a and b, a fixed latency and one result (R44, R45). -/
def alu2 (lat : Nat) (f : Word → Word → Word) (d a b : Reg) (w : BitVec 3) (s : State) : Out :=
  issueThen [a, b] [d] s (fun s => destThen d s (fun s =>
    .next (finish w [a, b] (produce lat d (f (s.rdA a) (s.rdB a b)) 0 s))))

/-- An instruction with the source a, a fixed latency and one result. -/
def alu1 (lat : Nat) (f : Word → Word) (d a : Reg) (w : BitVec 3) (s : State) : Out :=
  issueThen [a] [d] s (fun s => destThen d s (fun s => .next (finish w [a] (produce lat d (f (s.rdA a)) 0 s))))

/-- An instruction that reads a, b and the old d. -/
def alu3 (lat : Nat) (f : Word → Word → Word → Word) (d a b : Reg) (w : BitVec 3) (s : State) : Out :=
  issueThen [a, b, d] [d] s (fun s => destThen d s (fun s =>
    .next (finish w [a, b, d] (produce lat d (f (s.rdA a) (s.rdB a b) (s.rdD a b d)) 0 s))))

/-- A division: the result is written after the latency of R103 and interlocked until then. -/
def aluDiv (lat : Word → Word → Nat) (f : Word → Word → Word) (d a b : Reg) (w : BitVec 3) (s : State) : Out :=
  issueThen [a, b] [d] s (fun s => destThen d s (fun s =>
    let x := s.rdA a
    let y := s.rdB a b
    .next (finish w [a, b] (produceLater (lat x y) d (f x y) 0 s))))

/-! ### Operations (R104) -/

/-- Number of significant bits of a number. -/
def sigBits (n : Nat) : Nat := if n = 0 then 0 else Nat.log2 n + 1

/-- Cycles of DIV and REM (R103). -/
def divLatS (a b : Word) : Nat := if b = 0 then 6 else 6 + (sigBits a.toInt.natAbs + 3) / 4

/-- Cycles of DIVU and REMU (R103). -/
def divLatU (a b : Word) : Nat := if b = 0 then 6 else 6 + (sigBits a.toNat + 3) / 4

/-- Signed quotient, truncated toward zero. -/
def divS (a b : Word) : Word := if b = 0 then 0xFFFFFFFFFFFFFFFF else BitVec.ofInt 64 (Int.tdiv a.toInt b.toInt)

/-- Signed remainder, of the sign of the dividend. -/
def remS (a b : Word) : Word := if b = 0 then a else BitVec.ofInt 64 (Int.tmod a.toInt b.toInt)

/-- Unsigned quotient. -/
def divU (a b : Word) : Word := if b = 0 then 0xFFFFFFFFFFFFFFFF else a / b

/-- Unsigned remainder. -/
def remU (a b : Word) : Word := if b = 0 then a else a % b

/-- High half of the signed product. -/
def mulhS (a b : Word) : Word := ((a.signExtend 128 * b.signExtend 128).extractLsb' 64 64)

/-- High half of the unsigned product. -/
def mulhU (a b : Word) : Word := ((a.setWidth 128 * b.setWidth 128).extractLsb' 64 64)

/-- A shift amount. -/
def shAmt (b : Word) : Nat := (b.extractLsb' 0 6).toNat

/-- Leading zero bits. -/
def clz64 (a : Word) : Word := BitVec.ofNat 64 (64 - sigBits a.toNat)

/-- Trailing zero bits; 64 for zero. -/
def ctzFrom (fuel n : Nat) : Nat :=
  match fuel with
  | 0 => 0
  | k + 1 => if n % 2 = 1 then 0 else 1 + ctzFrom k (n / 2)

/-- One bits of a number of up to `fuel` bits. -/
def popFrom (fuel n : Nat) : Nat :=
  match fuel with
  | 0 => 0
  | k + 1 => n % 2 + popFrom k (n / 2)

/-- The number with its bits in reverse order. -/
def revFrom (fuel n acc : Nat) : Nat :=
  match fuel with
  | 0 => acc
  | k + 1 => revFrom k (n / 2) (2 * acc + n % 2)

/-- Sign extension of the low 32 bits. -/
def sextW32 (a : Word) : Word := sext (a.extractLsb' 0 32)

/-! ### Meanings -/

/-- ADD (R104). -/
def execAdd (d a b : Reg) (w : BitVec 3) (s : State) : Out :=
  alu2 1 (fun x y => x + y) d a b w s

/-- SUB (R104). -/
def execSub (d a b : Reg) (w : BitVec 3) (s : State) : Out :=
  alu2 1 (fun x y => x - y) d a b w s

/-- AND (R104). -/
def execAnd (d a b : Reg) (w : BitVec 3) (s : State) : Out :=
  alu2 1 (fun x y => x &&& y) d a b w s

/-- OR (R104). -/
def execOr (d a b : Reg) (w : BitVec 3) (s : State) : Out :=
  alu2 1 (fun x y => x ||| y) d a b w s

/-- XOR (R104). -/
def execXor (d a b : Reg) (w : BitVec 3) (s : State) : Out :=
  alu2 1 (fun x y => x ^^^ y) d a b w s

/-- ANDN (R104). -/
def execAndn (d a b : Reg) (w : BitVec 3) (s : State) : Out :=
  alu2 1 (fun x y => x &&& ~~~y) d a b w s

/-- SHL (R104). -/
def execShl (d a b : Reg) (w : BitVec 3) (s : State) : Out :=
  alu2 1 (fun x y => x <<< shAmt y) d a b w s

/-- SHR (R104). -/
def execShr (d a b : Reg) (w : BitVec 3) (s : State) : Out :=
  alu2 1 (fun x y => x >>> shAmt y) d a b w s

/-- SAR (R104). -/
def execSar (d a b : Reg) (w : BitVec 3) (s : State) : Out :=
  alu2 1 (fun x y => x.sshiftRight (shAmt y)) d a b w s

/-- ROL (R104). -/
def execRol (d a b : Reg) (w : BitVec 3) (s : State) : Out :=
  alu2 1 (fun x y => x.rotateLeft (shAmt y)) d a b w s

/-- ROR (R104). -/
def execRor (d a b : Reg) (w : BitVec 3) (s : State) : Out :=
  alu2 1 (fun x y => x.rotateRight (shAmt y)) d a b w s

/-- SLT (R104). -/
def execSlt (d a b : Reg) (w : BitVec 3) (s : State) : Out :=
  alu2 1 (fun x y => ofBool (x.slt y)) d a b w s

/-- SLTU (R104). -/
def execSltu (d a b : Reg) (w : BitVec 3) (s : State) : Out :=
  alu2 1 (fun x y => ofBool (x.ult y)) d a b w s

/-- SEQ (R104). -/
def execSeq (d a b : Reg) (w : BitVec 3) (s : State) : Out :=
  alu2 1 (fun x y => ofBool (x == y)) d a b w s

/-- MIN (R104). -/
def execMin (d a b : Reg) (w : BitVec 3) (s : State) : Out :=
  alu2 1 (fun x y => if x.slt y then x else y) d a b w s

/-- MAX (R104). -/
def execMax (d a b : Reg) (w : BitVec 3) (s : State) : Out :=
  alu2 1 (fun x y => if x.slt y then y else x) d a b w s

/-- MINU (R104). -/
def execMinu (d a b : Reg) (w : BitVec 3) (s : State) : Out :=
  alu2 1 (fun x y => if x.ult y then x else y) d a b w s

/-- MAXU (R104). -/
def execMaxu (d a b : Reg) (w : BitVec 3) (s : State) : Out :=
  alu2 1 (fun x y => if x.ult y then y else x) d a b w s

/-- MUL (R104). -/
def execMul (d a b : Reg) (w : BitVec 3) (s : State) : Out :=
  alu2 3 (fun x y => x * y) d a b w s

/-- MULH (R104). -/
def execMulh (d a b : Reg) (w : BitVec 3) (s : State) : Out :=
  alu2 3 (mulhS) d a b w s

/-- MULHU (R104). -/
def execMulhu (d a b : Reg) (w : BitVec 3) (s : State) : Out :=
  alu2 3 (mulhU) d a b w s

/-- DIV (R103, R104). -/
def execDiv (d a b : Reg) (w : BitVec 3) (s : State) : Out :=
  aluDiv divLatS divS d a b w s

/-- DIVU (R103, R104). -/
def execDivu (d a b : Reg) (w : BitVec 3) (s : State) : Out :=
  aluDiv divLatU divU d a b w s

/-- REM (R103, R104). -/
def execRem (d a b : Reg) (w : BitVec 3) (s : State) : Out :=
  aluDiv divLatS remS d a b w s

/-- REMU (R103, R104). -/
def execRemu (d a b : Reg) (w : BitVec 3) (s : State) : Out :=
  aluDiv divLatU remU d a b w s

/-- CLZ (R104). -/
def execClz (d a : Reg) (w : BitVec 3) (s : State) : Out :=
  alu1 1 (clz64) d a w s

/-- CTZ (R104). -/
def execCtz (d a : Reg) (w : BitVec 3) (s : State) : Out :=
  alu1 1 (fun x => BitVec.ofNat 64 (ctzFrom 64 x.toNat)) d a w s

/-- POPC (R104). -/
def execPopc (d a : Reg) (w : BitVec 3) (s : State) : Out :=
  alu1 1 (fun x => BitVec.ofNat 64 (popFrom 64 x.toNat)) d a w s

/-- BREV (R104). -/
def execBrev (d a : Reg) (w : BitVec 3) (s : State) : Out :=
  alu1 1 (fun x => BitVec.ofNat 64 (revFrom 64 x.toNat 0)) d a w s

/-- SEXT.B (R104). -/
def execSextB (d a : Reg) (w : BitVec 3) (s : State) : Out :=
  alu1 1 (fun x => sext (x.extractLsb' 0 8)) d a w s

/-- SEXT.H (R104). -/
def execSextH (d a : Reg) (w : BitVec 3) (s : State) : Out :=
  alu1 1 (fun x => sext (x.extractLsb' 0 16)) d a w s

/-- SEXT.W (R104). -/
def execSextW (d a : Reg) (w : BitVec 3) (s : State) : Out :=
  alu1 1 (sextW32) d a w s

/-- ZEXT.W (R104). -/
def execZextW (d a : Reg) (w : BitVec 3) (s : State) : Out :=
  alu1 1 (fun x => zext (x.extractLsb' 0 32)) d a w s

/-- SEL (R104). -/
def execSel (d a b : Reg) (w : BitVec 3) (s : State) : Out :=
  alu3 1 (fun x y z => if z ≠ 0 then x else y) d a b w s

/-- ADDW (R104). -/
def execAddw (d a b : Reg) (w : BitVec 3) (s : State) : Out :=
  alu2 1 (fun x y => sextW32 (x + y)) d a b w s

/-- SUBW (R104). -/
def execSubw (d a b : Reg) (w : BitVec 3) (s : State) : Out :=
  alu2 1 (fun x y => sextW32 (x - y)) d a b w s

/-- MULW (R104). -/
def execMulw (d a b : Reg) (w : BitVec 3) (s : State) : Out :=
  alu2 3 (fun x y => sextW32 (x * y)) d a b w s

end Sys2Proof.Machine
end

