-- ==== Sys2Proof/Machine/LoadStore.lean ====
section
/-!
DEFINITION. LD, LDU and ST (R226–R231, R236).
-/

namespace Sys2Proof.Machine

open Sys2Proof

/-- The bytes of a size code (R226). -/
def sizeOf_ (z : BitVec 2) : Nat := 2 ^ z.toNat

/-- The address of a load or store: base plus offset times size (R226). -/
def mAddr (base : Word) (o : BitVec 9) (z : BitVec 2) : Word := base + sext o * BitVec.ofNat 64 (sizeOf_ z)

/-- The n-byte value at a scratchpad byte, as a load gives it. -/
def spadLoad (k : Core) (x n : Nat) (signed : Bool) : Word :=
  let v := readLe k.spad x n
  if signed then BitVec.ofInt 64 (toSigned (8 * n) v) else BitVec.ofNat 64 v

/-- A core with n bytes of its scratchpad written. -/
def spadStore (k : Core) (x n v : Nat) : Core := { k with spad := writeLe k.spad x n v }

/-- A load from the local window (R229). -/
def localLoad (w : BitVec 3) (rs : List Reg) (d : Reg) (x n : Nat) (signed : Bool) (s : State) : Out :=
  if ringFull s.me ∨ spadBusy s.mine x n false ∨ orderHolds s (BitVec.ofNat 64 x) n false then hold s else completeWith w rs d (spadLoad s.mine x n signed) s

/-- A load from translated space or a peer window: from the core's own L1 where that serves it, else as a request whose
response writes the destination (R229, R231, R236). -/
def startLoad (w : BitVec 3) (rs : List Reg) (d : Reg) (q : Req) (s : State) : Out :=
  destThen d s (fun s =>
    if hitNow s q then
      let r := l1Load q s
      .next (finish w rs (deliver d r.1 r.2))
    else .next (finish w rs (addReq q s)))

/-- LD and LDU (R226). -/
def load (signed : Bool) (word : IWord) (d a : Reg) (o : BitVec 9) (z t : BitVec 2) (w : BitVec 3) (s : State) : Out :=
  issueThen [a] [d] s (fun s =>
    let addr := mAddr (s.rdA a) o z
    let n := sizeOf_ z
    failThen (memCheck s a addr n false) s (fun s =>
      if isLocal addr then localLoad w [a] d (locOf addr) n signed s
      else locThen w [a] t addr n needR ⟨0, word, true, d, 0, false, 0⟩ s (fun l s =>
        startLoad w [a] d { mkReq s addr l n (.load signed) with rt := t, dest := d } s)))

/-- LD (R226). -/
def execLd (d a : Reg) (o : BitVec 9) (s_ t : BitVec 2) (w : BitVec 3) (s : State) : Out :=
  load true (encode (.ld d a o s_ t w)) d a o s_ t w s

/-- LDU (R226). -/
def execLdu (d a : Reg) (o : BitVec 9) (s_ t : BitVec 2) (w : BitVec 3) (s : State) : Out :=
  load false (encode (.ldu d a o s_ t w)) d a o s_ t w s

/-- A store to the local window: to the command window, which is no memory access and which no fence orders, or to scratchpad (R197, R229, R380). -/
def localStore (w : BitVec 3) (rs : List Reg) (addr : Word) (n : Nat) (data : Word) (s : State) : Out :=
  if 0x40000 ≤ locOf addr then windowStore w rs addr n data s
  else if ringFull s.me ∨ orderHolds s addr n true ∨ spadBusy s.mine (locOf addr) n true then hold s
  else .next (finish w rs (s.setMine (spadStore s.mine (locOf addr) n data.toNat)))

/-- A store to translated space or a peer window: into a line owned here, else as a request (R231). -/
def startStore (w : BitVec 3) (rs : List Reg) (q : Req) (s : State) : Out :=
  if ownedNow s q then .next (finish w rs (l1Store q s)) else .next (finish w rs (addReq q s))

/-- ST (R226). -/
def execSt (d a : Reg) (o : BitVec 9) (s_ t : BitVec 2) (w : BitVec 3) (s : State) : Out :=
  issueThen [a, d] [] s (fun s =>
    let addr := mAddr (s.rdA a) o s_
    let data := s.rdB a d
    let n := sizeOf_ s_
    failThen (memCheck s a addr n true) s (fun s =>
      if isLocal addr then localStore w [a, d] addr n data s
      else locThen w [a, d] t addr n needW ⟨data, encode (.st d a o s_ t w), false, 0, 0, false, 0⟩ s (fun l s =>
        startStore w [a, d] { mkReq s addr l n .store with rt := t, data := data } s)))

end Sys2Proof.Machine
end

