-- ==== Sys2Proof/Machine/Atomic.lean ====
section
/-!
DEFINITION. The AMO major (R238–R241).
-/

namespace Sys2Proof.Machine

open Sys2Proof

/-- The bytes of an atomic's size bit (R238). -/
def amoSize (z : BitVec 1) : Nat := if z = 0 then 4 else 8

/-- What an op needs of a leaf or a window (R305, R431). -/
def amoNeed (op : BitVec 4) : Need := if op = 0 then needR else if op = 1 then needW else needRW

/-- An op acquires, releases (R241). -/
def amoAcq (op : BitVec 4) : Bool := op != 1
def amoRel (op : BitVec 4) : Bool := op != 0

/-- An op writes its destination (R239). -/
def amoHasDest (op : BitVec 4) : Bool := op != 1 && op != 14

/-- An atomic in the scratchpad, in issue order, after the context's earlier accesses where it releases (R240). -/
def localAmo (op : BitVec 4) (scope w : BitVec 3) (rs : List Reg) (d : Reg) (x n : Nat) (data expect : Word) (s : State) : Out :=
  if ringFull s.me ∨ spadBusy s.mine x n true ∨ orderHolds s (BitVec.ofNat 64 x) n (op != 0) ∨ (amoRel op ∧ (releaseHolds s.me ∨ !released s s.cur 1)) then hold s
  else
    let old := readLe s.mine.spad x n
    let s' := match amoNew op (8 * n) old (data.toNat % 2 ^ (8 * n)) (expect.toNat % 2 ^ (8 * n)) with
      | some v => s.setMine (spadStore s.mine x n v)
      | none => s
    if amoHasDest op then
      destThen d s (fun s => .next (finish w rs (countDemote scope (deliver d (amoResult op (8 * n) old)
        (match amoNew op (8 * n) old (data.toNat % 2 ^ (8 * n)) (expect.toNat % 2 ^ (8 * n)) with
          | some v => s.setMine (spadStore s.mine x n v)
          | none => s)))))
    else .next (finish w rs (countDemote scope s'))

/-- A releasing atomic waits for the ring and the queued vector accesses of its context before it is translated, so that it cannot join them
there (R179, R380). -/
def amoHolds (op : BitVec 4) (x : Ctx) : Bool := amoRel op && releaseHolds x

/-- A releasing atomic of scope .peer or wider waits for the context's earlier accesses and reports a failed store (R234). -/
def amoReleaseThen (op : BitVec 4) (scope : BitVec 3) (s : State) (k : State → Out) : Out :=
  if amoRel op ∧ 6 ≤ scope.toNat then releaseThen scope s k else k s

/-- An atomic of the A format (R238–R241): `rs` are its sources in the order a, b, d. -/
def amo (op : BitVec 4) (word : IWord) (d a b : Reg) (rs : List Reg) (scope : BitVec 3) (z : BitVec 1) (w : BitVec 3)
    (s : State) : Out :=
  issueThen rs (if amoHasDest op then [d] else []) s (fun s =>
    let addr := s.rdA a
    let n := amoSize z
    let data := if op = 0 then 0 else s.rdB a b
    let expect := if op = 3 then s.rdD a b d else 0
    failThen (memCheck s a addr n false) s (fun s => failThen (scopeCheck s scope) s (fun s =>
      let cap := capped s.myPart scope
      if isLocal addr then localAmo op scope w rs d (locOf addr) n data expect s
      else if amoHolds op s.me then hold s
      else locThen w rs 3 addr n (amoNeed op) ⟨data, word, true, if amoHasDest op then d else 0, expect, amoAcq op, scope⟩ s (fun l s =>
        amoReleaseThen op cap s (fun s =>
          let q := { mkReq s addr l n (.amo op) with
            scope := cap, asked := scope, acq := amoAcq op, rel := amoRel op, dest := if amoHasDest op then d else 0
            data := data, expect := expect }
          if amoHasDest op then destThen d s (fun s => .next (finish w rs (addReq q (countDemote scope s))))
          else .next (finish w rs (addReq q (countDemote scope s))))))))

/-- LDA (R239). -/
def execLda (d a : Reg) (s_ : BitVec 3) (z : BitVec 1) (w : BitVec 3) (s : State) : Out :=
  amo 0 (encode (.lda d a s_ z w)) d a 0 [a] s_ z w s

/-- STRL (R239). -/
def execStrl (a b : Reg) (s_ : BitVec 3) (z : BitVec 1) (w : BitVec 3) (s : State) : Out :=
  amo 1 (encode (.strl a b s_ z w)) 0 a b [a, b] s_ z w s

/-- SWAP (R239). -/
def execSwap (d a b : Reg) (s_ : BitVec 3) (z : BitVec 1) (w : BitVec 3) (s : State) : Out :=
  amo 2 (encode (.swap d a b s_ z w)) d a b [a, b] s_ z w s

/-- CAS (R239). -/
def execCas (d a b : Reg) (s_ : BitVec 3) (z : BitVec 1) (w : BitVec 3) (s : State) : Out :=
  amo 3 (encode (.cas d a b s_ z w)) d a b [a, b, d] s_ z w s

/-- ATADD (R239). -/
def execAtadd (d a b : Reg) (s_ : BitVec 3) (z : BitVec 1) (w : BitVec 3) (s : State) : Out :=
  amo 4 (encode (.atadd d a b s_ z w)) d a b [a, b] s_ z w s

/-- ATAND (R239). -/
def execAtand (d a b : Reg) (s_ : BitVec 3) (z : BitVec 1) (w : BitVec 3) (s : State) : Out :=
  amo 5 (encode (.atand d a b s_ z w)) d a b [a, b] s_ z w s

/-- ATOR (R239). -/
def execAtor (d a b : Reg) (s_ : BitVec 3) (z : BitVec 1) (w : BitVec 3) (s : State) : Out :=
  amo 6 (encode (.ator d a b s_ z w)) d a b [a, b] s_ z w s

/-- ATXOR (R239). -/
def execAtxor (d a b : Reg) (s_ : BitVec 3) (z : BitVec 1) (w : BitVec 3) (s : State) : Out :=
  amo 7 (encode (.atxor d a b s_ z w)) d a b [a, b] s_ z w s

/-- ATMIN (R239). -/
def execAtmin (d a b : Reg) (s_ : BitVec 3) (z : BitVec 1) (w : BitVec 3) (s : State) : Out :=
  amo 8 (encode (.atmin d a b s_ z w)) d a b [a, b] s_ z w s

/-- ATMAX (R239). -/
def execAtmax (d a b : Reg) (s_ : BitVec 3) (z : BitVec 1) (w : BitVec 3) (s : State) : Out :=
  amo 9 (encode (.atmax d a b s_ z w)) d a b [a, b] s_ z w s

/-- ATMINN (R239). -/
def execAtminn (d a b : Reg) (s_ : BitVec 3) (z : BitVec 1) (w : BitVec 3) (s : State) : Out :=
  amo 10 (encode (.atminn d a b s_ z w)) d a b [a, b] s_ z w s

/-- ATMAXN (R239). -/
def execAtmaxn (d a b : Reg) (s_ : BitVec 3) (z : BitVec 1) (w : BitVec 3) (s : State) : Out :=
  amo 11 (encode (.atmaxn d a b s_ z w)) d a b [a, b] s_ z w s

/-- ATFADD (R239). -/
def execAtfadd (d a b : Reg) (s_ w : BitVec 3) (s : State) : Out :=
  amo 12 (encode (.atfadd d a b s_ w)) d a b [a, b] s_ 0 w s

/-- ATFMAX (R239). -/
def execAtfmax (d a b : Reg) (s_ w : BitVec 3) (s : State) : Out :=
  amo 13 (encode (.atfmax d a b s_ w)) d a b [a, b] s_ 0 w s

/-- ATADDNR (R239). -/
def execAtaddnr (a b : Reg) (s_ : BitVec 3) (z : BitVec 1) (w : BitVec 3) (s : State) : Out :=
  amo 14 (encode (.ataddnr a b s_ z w)) 0 a b [a, b] s_ z w s

end Sys2Proof.Machine
end

