-- ==== Sys2Proof/Machine/Branch.lean ====
section
/-!
DEFINITION. Branches, jumps, calls and returns (R122–R124, R131).
-/

namespace Sys2Proof.Machine

open Sys2Proof

/-- A conditional branch (R122). -/
def branch (cond : Word → Word → Bool) (a b : Reg) (o : BitVec 10) (w : BitVec 3) (s : State) : Out :=
  issueThen [a, b] [] s (fun s =>
    if cond (s.rdA a) (s.rdB a b) then
      let t := s.me.pc + sext o * 4
      failThen (s.enter t) s (fun s => .next (finishAt w [a, b] t s))
    else .next (finish w [a, b] s))

/-- BEQ (R51, R122). -/
def execBeq (a b : Reg) (o : BitVec 10) (w : BitVec 3) (s : State) : Out :=
  branch (fun x y => x == y) a b o w s

/-- BNE (R51, R122). -/
def execBne (a b : Reg) (o : BitVec 10) (w : BitVec 3) (s : State) : Out :=
  branch (fun x y => x != y) a b o w s

/-- BLT (R51, R122). -/
def execBlt (a b : Reg) (o : BitVec 10) (w : BitVec 3) (s : State) : Out :=
  branch (fun x y => x.slt y) a b o w s

/-- BGE (R51, R122). -/
def execBge (a b : Reg) (o : BitVec 10) (w : BitVec 3) (s : State) : Out :=
  branch (fun x y => !x.slt y) a b o w s

/-- BLTU (R51, R122). -/
def execBltu (a b : Reg) (o : BitVec 10) (w : BitVec 3) (s : State) : Out :=
  branch (fun x y => x.ult y) a b o w s

/-- BGEU (R51, R122). -/
def execBgeu (a b : Reg) (o : BitVec 10) (w : BitVec 3) (s : State) : Out :=
  branch (fun x y => !x.ult y) a b o w s

/-- J (R123). -/
def execJ (o : BitVec 23) (w : BitVec 3) (s : State) : Out :=
  issueThen [] [] s (fun s =>
    let t := s.me.pc + sext o * 4
    failThen (s.enter t) s (fun s => .next (finishAt w [] t s)))

/-- A register target is word-aligned (R123). -/
def alignCheck (t : Word) : Option Trap := if t.extractLsb' 0 2 ≠ 0 then some (.mk' cMISALIGN t) else none

/-- JR (R123). -/
def execJr (a : Reg) (w : BitVec 3) (s : State) : Out :=
  issueThen [a] [] s (fun s =>
    let t := s.rdA a
    failThen (alignCheck t) s (fun s => failThen (s.enter t) s (fun s => .next (finishAt w [a] t s))))

/-- JALR: the link is visible at the target (R123). -/
def execJalr (d a : Reg) (w : BitVec 3) (s : State) : Out :=
  issueThen [a] [d] s (fun s =>
    let t := s.rdA a
    failThen (alignCheck t) s (fun s => failThen (s.enter t) s (fun s => destThen d s (fun s =>
      .next (finishAt w [a] t (deliver d (s.me.pc + 4) s))))))

/-- The stack pointer. -/
def spReg : Reg := 27

/-- The checks of a stack slot of CALL, CALLR and RET (R124). -/
def slotCheck (s : State) (n : Word) : Option Trap :=
  if n.toNat < s.me.slim.toNat ∨ s.me.sbase.toNat < n.toNat + 8 then some (.mk' cSTACKFAULT n)
  else if n.extractLsb' 0 3 ≠ 0 then some (.mk' cMISALIGN n)
  else if spBytes s.mine.spsize < n.toNat + 8 then some (.mk' cLOCALRANGE n)
  else none

/-- The call itself, with the target known: the return address goes to the scratchpad stack, as a local store does (R124, R380). -/
def callTo (w : BitVec 3) (rs : List Reg) (t : Word) (s : State) : Out :=
  let n := s.me.reg spReg - 8
  failThen (slotCheck s n) s (fun s => failThen (s.enter t) s (fun s =>
    if ringFull s.me ∨ spadBusy s.mine n.toNat 8 true ∨ orderHolds s n 8 true then hold s else
    let s := s.setMine { s.mine with spad := writeLe s.mine.spad n.toNat 8 (s.me.pc + 4).toNat }
    .next (finishAt w rs t (deliver spReg n s))))

/-- CALL (R124). -/
def execCall (o : BitVec 23) (w : BitVec 3) (s : State) : Out :=
  issueThen [spReg] [spReg] s (fun s => callTo w [] (s.me.pc + sext o * 4) s)

/-- CALLR (R123, R124). -/
def execCallr (a : Reg) (w : BitVec 3) (s : State) : Out :=
  issueThen [a, spReg] [spReg] s (fun s =>
    let t := s.rdA a
    failThen (alignCheck t) s (callTo w [a] t))

/-- RET: it loads from the scratchpad stack as a local load does (R124, R380). -/
def execRet (w : BitVec 3) (s : State) : Out :=
  issueThen [spReg] [spReg] s (fun s =>
    let n := s.me.reg spReg
    failThen (slotCheck s n) s (fun s =>
      if ringFull s.me ∨ spadBusy s.mine n.toNat 8 false ∨ orderHolds s n 8 false then hold s else
      let t := BitVec.ofNat 64 (readLe s.mine.spad n.toNat 8)
      failThen (alignCheck t) s (fun s => failThen (s.enter t) s (fun s =>
        .next (finishAt w [] t (deliver spReg (n + 8) s))))))

/-- The address's segment is being fetched into its slot. -/
def Core.isFetching (k : Core) (va : Word) : Bool :=
  match k.slot (slotOf va) with
  | .fetching seg _ _ _ => seg == segOf va
  | _ => false

/-- FJMP (R131). -/
def execFjmp (a : Reg) (w : BitVec 3) (s : State) : Out :=
  issueThen [a] [] s (fun s =>
    let t := s.rdA a
    failThen (alignCheck t) s (fun s =>
      if s.me.fwd.isNone ∧ s.mine.isFetching t then
        if s.me.fjwait then hold s else trapAt cCODELATE t s
      else failThen (s.enter t) s (fun s => .next (finishAt w [a] t s))))

end Sys2Proof.Machine
end

