-- ==== Sys2Proof/Machine/Fence.lean ====
section
/-!
DEFINITION. FENCE in its four kinds, and waiting for engine and matrix commands (R250–R253, R282).
-/

namespace Sys2Proof.Machine

open Sys2Proof

/-! ### Engine commands of a context, as fences and waits meet them (R252, R282) -/

/-- A command has ended: done, failed or aborted. -/
def XCmd.ended (c : XCmd) : Bool := decide (3 ≤ c.state.toNat)

/-- A command ended without success and no instruction has reported it. -/
def XCmd.unreported (c : XCmd) : Bool := (c.state == 4 || c.state == 5) && !c.reported

/-- A copy or matrix command of the context has not ended (R252). -/
def enginePending (s : State) : Bool :=
  s.engine.any (fun c => c.ctx == s.cur && !c.ended) || s.mine.mq.any (fun m => m.ctx == s.cur.ctx)

/-- The failure of a command is reported. -/
def markReported (core ticket : Nat) (s : State) : State :=
  { s with engine := s.engine.map (fun c => if c.core = core ∧ c.ticket = ticket then { c with reported := true } else c) }

/-- Trap ENGFAULT for a command (R282). -/
def trapEngine (c : XCmd) (s : State) : Out :=
  trapAt cENGFAULT (BitVec.ofNat 64 (c.ticket + 2 ^ 32 * c.status.toNat)) (markReported c.core c.ticket s)

/-- FENCE.ENG as an instruction's own first part: it waits for the context's engine and matrix commands, and the earliest failure
that no instruction has reported traps (R252, R282). -/
def engineThen (s : State) (k : State → Out) : Out :=
  if enginePending s then hold s
  else match s.engine.find? (fun c => c.ctx == s.cur && c.unreported) with
    | some c => trapEngine c s
    | none => k s

/-! ### FENCE (R250–R253) -/

/-- Discard the T copies of the executing context's core where a scope is .clu or wider (R232, R252). -/
def dropTAt (scope : BitVec 3) (range : Option (Nat × Nat)) (s : State) : State :=
  if 2 ≤ scope.toNat then s.setMine (dropT s.mine range) else s

/-- A fence that stands among the context's requests until what it orders is performed. -/
def markFence (kind : BitVec 2) (scope : BitVec 3) (lo hi : Nat) (s : State) : State :=
  addReq { mkReq s 0 .nowhere 0 (.fence kind lo hi) with scope := scope } s

/-- The accesses that a fence of a kind orders are performed, over a range (R252, R253). -/
def fenceReady (s : State) (kind : BitVec 2) (scope : BitVec 3) (lo hi : Nat) : Bool :=
  fenceDone s { mkReq s 0 .nowhere 0 (.fence kind lo hi) with scope := scope } kind lo hi

/-- FULL and REL of scope .peer and wider report a failed store, over whatever range they order (R234, R252). -/
def fenceFab (kind : BitVec 2) (scope : BitVec 3) (s : State) (k : State → Out) : Out :=
  match (if kind = 1 then none else fabStore s scope) with
  | some f => trapFab f s
  | none => k s

/-- A fence that the context waits for at issue: what it orders is performed, a failed store is reported, and FULL and ACQ discard T copies.
[log DEDUCED 23] -/
def fenceNow (kind : BitVec 2) (scope : BitVec 3) (range : Option (Nat × Nat)) (s : State) (k : State → Out) : Out :=
  let r := range.getD (0, 2 ^ 64)
  if !fenceReady s kind scope r.1 r.2 then hold s
  else fenceFab kind scope s (fun s => k (if kind = 2 then s else dropTAt scope range s))

/-- FENCE of kind FULL, ACQ or REL (R252). A REL without a range and a fence with one let later accesses that they do not order
pass, up to scope .pkg; every other fence holds its context until it is complete. [log DEDUCED 23] -/
def fence (kind : BitVec 2) (a b : Reg) (scope : BitVec 3) (g : BitVec 1) (w : BitVec 3) (s : State) : Out :=
  let rs := if g = 1 then [a, b] else []
  issueThen rs [] s (fun s => failThen (scopeCheck s scope) s (fun s =>
    let cap := capped s.myPart scope
    let lo := (s.rdA a).toNat
    let hi := Nat.min (lo + (s.rdB a b).toNat) (2 ^ 64)
    let range := if g = 1 then some (lo, hi) else none
    let done := fun (s : State) => finish w rs (countDemote scope s)
    if releaseHolds s.me then hold s
    else if range = some (lo, lo) then fenceFab kind cap s (fun s => .next (done s))
    else if cap.toNat < 6 ∧ (g = 1 ∨ kind = 2) then
      let r := range.getD (0, 2 ^ 64)
      .next (done (markFence kind cap r.1 r.2 s))
    else fenceNow kind cap range s (fun s => .next (done s))))

/-- FENCE.FULL (R252). -/
def execFenceFull (a b : Reg) (s_ : BitVec 3) (g : BitVec 1) (w : BitVec 3) (s : State) : Out := fence 0 a b s_ g w s

/-- FENCE.ACQ (R252). -/
def execFenceAcq (a b : Reg) (s_ : BitVec 3) (g : BitVec 1) (w : BitVec 3) (s : State) : Out := fence 1 a b s_ g w s

/-- FENCE.REL (R252). -/
def execFenceRel (a b : Reg) (s_ : BitVec 3) (g : BitVec 1) (w : BitVec 3) (s : State) : Out := fence 2 a b s_ g w s

/-- FENCE.ENG (R252, R282). -/
def execFenceEng (w : BitVec 3) (s : State) : Out :=
  issueThen [] [] s (fun s => if releaseHolds s.me then hold s else engineThen s (fun s => .next (finish w [] s)))

end Sys2Proof.Machine
end

