-- ==== Sys2Proof/Machine/Code.lean ====
section
/-!
DEFINITION. Code slots, segment fetches and repeat frames (R127–R137).
-/

namespace Sys2Proof.Machine

open Sys2Proof

/-! ### Slots and live PCs (R127, R129, R130) -/

/-- The segment that a slot holds, in whatever state. -/
def Slot.seg (t : Slot) : Option Word :=
  match t with
  | .empty => none
  | .fetching g _ _ _ => some g
  | .resident g _ => some g
  | .failed g _ => some g

/-- The sequence number of the fetch that a slot's state came from, where the slot holds a segment FETCHING or RESIDENT. -/
def Slot.current (t : Slot) (g : Word) : Option (BitVec 32) :=
  match t with
  | .fetching h n _ _ => if h = g then some n else none
  | .resident h n => if h = g then some n else none
  | _ => none

/-- The addresses of a context that are live PCs (R130). [log DEDUCED 18] -/
def Ctx.livePcs (x : Ctx) : List Word :=
  if x.live then
    x.pc :: ((x.frame.elim [] (fun f => [f.base])) ++ (if x.rptst.getLsbD 63 ∧ x.priv ≠ 0 then [x.tpc] else []))
  else []

/-- A segment holds a live PC of the core. -/
def Core.isLive (k : Core) (g : Word) : Bool := k.ctxs.toList.any (fun x => x.livePcs.any (fun pc => segOf pc == g))

/-- A ticket: the slot and the fetch's sequence number (R129). -/
def codeTicket (slot : Nat) (seq : BitVec 32) : Word := BitVec.ofNat 64 (slot + 32 * seq.toNat)

/-! ### The CODE major -/

/-- What CFETCH does to the core for an address that it may fetch, with the ticket (R129). -/
def startFetch (va : Word) (s : State) : Word × State :=
  let k := s.mine
  let i := slotOf va
  match (k.slot i).current (segOf va) with
  | some n => (codeTicket i n, s)
  | none =>
    let n := k.fetchSeq + 1
    (codeTicket i n, s.setMine { k with fetchSeq := n
                                        slots := k.slots.setIfInBounds i (.fetching (segOf va) n s.cur.ctx (s.xctx s.cur)) })

/-- The slot holds another segment, with a live PC in it. -/
def codeTaken (k : Core) (va : Word) : Bool :=
  match (k.slot (slotOf va)).seg with
  | some g => g != segOf va && k.isLive g
  | none => false

/-- CFETCH (R129). -/
def execCfetch (d a : Reg) (w : BitVec 3) (s : State) : Out :=
  issueThen [a] [d] s (fun s =>
    let va := s.rdA a
    failThen (if viewOf va ≠ 0 ∨ va.toNat < 0x100000 then some (.mk' cADDRFORM va) else none) s (fun s =>
      failThen (if codeTaken s.mine va then some (.mk' cCODEBUSY va) else none) s (fun s => destThen d s (fun s =>
        let r := startFetch va s
        .next (finish w [a] (deliver d r.1 r.2))))))

/-- CWAIT (R129). -/
def execCwait (a : Reg) (w : BitVec 3) (s : State) : Out :=
  issueThen [a] [] s (fun s =>
    let t := s.rdA a
    match s.mine.slot (t.extractLsb' 0 5).toNat with
    | .fetching _ n _ _ => if codeTicket (t.extractLsb' 0 5).toNat n = t then hold s else .next (finish w [a] s)
    | _ => .next (finish w [a] s))

/-- The state of the slot for an address, as CSTAT gives it. -/
def codeState (k : Core) (va : Word) : Word :=
  match k.slot (slotOf va) with
  | .empty => 0
  | .fetching g _ _ _ => if g = segOf va then 1 else 0
  | .resident g _ => if g = segOf va then 2 else 0
  | .failed g _ => if g = segOf va then 3 else 0

/-- CSTAT (R129). -/
def execCstat (d a : Reg) (w : BitVec 3) (s : State) : Out :=
  issueThen [a] [d] s (fun s => completeWith w [a] d (codeState s.mine (s.rdA a)) s)

/-- CEVICT (R129, R130). -/
def execCevict (a : Reg) (w : BitVec 3) (s : State) : Out :=
  issueThen [a] [] s (fun s =>
    let va := s.rdA a
    if (s.mine.slot (slotOf va)).seg = some (segOf va) then
      failThen (if s.mine.isLive (segOf va) then some (.mk' cCODEBUSY va) else none) s (fun s =>
        .next (finish w [a] (s.setMine { s.mine with slots := s.mine.slots.setIfInBounds (slotOf va) .empty })))
    else .next (finish w [a] s))

/-! ### SEGMENT_FETCH_DONE (R127) -/

/-- A core reads a line of memory with request type WT: the state, the bytes, and whether they come back poisoned, as those of a departing range and of a
far home that is late do. What the core's own L1 does not serve is a fill from the line's home slice, whose delay counts (R297, R384, R428). -/
def fetchLine (core pa : Nat) (s : State) : State × Nat × Bool :=
  if isDeparting s pa then (s, 0, true)
  else if l1Serves s core 1 pa 0 then loadLine s core 1 pa 64
  else
    let late := lateFar ⟨core, 0⟩ (pa / 64) false (countDelay core (homeSlice s pa) s)
    if late.1 then (late.2, 0, true) else loadLine late.2 core 1 pa 64

/-- Read lines of memory into a slot's bytes, from the last one down: the state, and whether all have come; the first that comes back poisoned ends it. -/
def fetchLines (core pa slot : Nat) (n : Nat) (s : State) : State × Bool :=
  match n with
  | 0 => (s, true)
  | m + 1 =>
    let r := fetchLine core (pa + 64 * m) s
    if r.2.2 then (r.1, false)
    else
      let k := r.1.core core
      fetchLines core pa slot m (r.1.setCore core { k with imem := writeLe k.imem (slot * 2048 + 64 * m) 64 r.2.1 })

/-- A slot enters a state. -/
def setSlot (core slot : Nat) (t : Slot) (s : State) : State :=
  s.setCore core { s.core core with slots := (s.core core).slots.setIfInBounds slot t }

/-- A segment's fetch lands or fails (R127, R305, R384, R452). [log DESIGN CHOICE 76] -/
def landFetch (core slot : Nat) (g : Word) (n : BitVec 32) (x : Xctx) (s : State) : State :=
  match resolve s x g 1 needX with
  | (t, .error _) => setSlot core slot (.failed g n) t
  | (t, .ok (.mem pa _)) =>
    match fetchLines core pa slot 32 t with
    | (u, true) => setSlot core slot (.resident g n) u
    | (u, false) => setSlot core slot (.failed g n) u
  | (t, .ok _) => setSlot core slot (.failed g n) t

/-- SEGMENT_FETCH_DONE (R127). -/
def execSegmentFetchDone (core slot : Nat) (s : State) : Out :=
  match (s.core core).slot slot with
  | .fetching g n _ x => if isCore core then .next (landFetch core slot g n x s) else .next s
  | _ => .next s

/-! ### RPT (R132–R134) -/

/-- A major that a frame may capture (R133). -/
def captured (v : IWord) : Bool :=
  let m := (fld 26 6 v).toNat
  (decide (1 ≤ m) && decide (m ≤ 12)) || (decide (0x19 ≤ m) && decide (m ≤ 0x1D)) || m == 0x2C || m == 0x2D

/-- The addresses of the words after an RPT. -/
def frameVas (base : Word) (len : Nat) : List Word := (List.range len).map (fun i => base + BitVec.ofNat 64 (4 * i))

/-- The capture checks (R133). -/
def captureCheck (k : Core) (base : Word) (len : Nat) : Option Trap :=
  match (frameVas base len).find? (fun a => !k.isResident a) with
  | some a => some (.mk' cCODEEND a)
  | none =>
    match (List.range len).find? (fun i => !captured (k.fetch (base + BitVec.ofNat 64 (4 * i)))) with
    | some i => some (.mk' cREPEATBAD (BitVec.ofNat 64 i))
    | none => none

/-- RPT (R132–R135): a follower executes only its count, since its leader forwards the replays. -/
def execRpt (c : Reg) (i : BitVec 6) (l : BitVec 4) (x y z : BitVec 1) (st : BitVec 2) (w : BitVec 3) (s : State) : Out :=
  let rs := if c = 0 then [] else [c]
  issueThen rs [] s (fun s =>
    let count := if c = 0 then i.toNat + 1 else (s.rdA c).toNat
    let len := l.toNat + 1
    let base := s.me.pc + 4
    failThen (if 65536 < count then some (.mk' cREPEATBAD (BitVec.allOnes 64)) else none) s (fun s =>
      if count = 0 then
        failThen (if s.me.fwd.isSome then none else captureCheck s.mine base len) s (fun s =>
          .next (finishAt w rs (base + BitVec.ofNat 64 (4 * len)) s))
      else if s.me.fwd.isSome then .next (finishAt w rs base s)
      else
        failThen (captureCheck s.mine base len) s (fun s =>
          let f : Frame := ⟨base, (frameVas base len).map s.mine.fetch, x ++ y ++ z, st, 0, count, 0⟩
          .next (retireAt w (fun u => { u with pc := base, frame := some f }) (popPorts rs s)))))

end Sys2Proof.Machine
end

