-- ==== Sys2Proof/Machine/Csr.lean ====
section
/-!
DEFINITION. The control registers: which there are and who may read and write them, their fields, the CSR major, and the change of the scratchpad
split (R8, R61–R63, R99, R100, R111, R119–R121, R157, R201–R204, R255–R257, R370, R375, R381, R391, R401, R406, R407, R410).
-/

namespace Sys2Proof.Machine

open Sys2Proof

/-! ### Which registers there are, and who may read and write them (R62, R63) -/

/-- The lowest privilege that may read an index (R62); the H-marked cr.ptbase and cr.ptlen are read and written at H alone. [log DEDUCED 63] -/
def csrReadLevel (n : Nat) : Nat := if n < 0x300 then 0 else if n = 0x300 ∨ n = 0x301 then 2 else if n < 0x400 then 1 else 2

/-- An index of R63 whose register no privilege may write. -/
def csrReadOnly (n : Nat) : Bool :=
  n == 0x00E || n == 0x010 || (decide (0x040 ≤ n) && decide (n ≤ 0x044)) || n == 0x047 || n == 0x048 || n == 0x050 || n == 0x051 ||
    (decide (0x055 ≤ n) && decide (n ≤ 0x05B)) || n == 0x05D || n == 0x08D || n == 0x08E || n == 0x08F || n == 0x105 || n == 0x180

/-- The lowest privilege that may write an index of R63 that is not read-only. -/
def csrWriteLevel (n : Nat) : Nat :=
  if n = 0x00C ∨ n = 0x045 ∨ n = 0x046 ∨ n = 0x08C then 1
  else if n < 0x100 then 0
  else if n = 0x104 ∨ n = 0x106 ∨ n = 0x181 ∨ n = 0x182 ∨ n = 0x183 ∨ n = 0x300 ∨ n = 0x301 then 2
  else if n < 0x400 then 1
  else 2

/-- The indices of R63. -/
def csrDefined (n : Nat) : Bool :=
  (decide (0x001 ≤ n) && decide (n ≤ 0x011) && n != 0x007) || (decide (0x040 ≤ n) && decide (n ≤ 0x048)) ||
    (decide (0x04C ≤ n) && decide (n ≤ 0x05D) && n != 0x054) || (decide (0x080 ≤ n) && decide (n ≤ 0x08F)) ||
    (decide (0x0C0 ≤ n) && decide (n ≤ 0x0CC)) || (decide (0x0D0 ≤ n) && decide (n ≤ 0x0D7)) ||
    (decide (0x100 ≤ n) && decide (n ≤ 0x106)) || (decide (0x180 ≤ n) && decide (n ≤ 0x187)) ||
    (decide (0x200 ≤ n) && decide (n ≤ 0x27F)) || (decide (0x300 ≤ n) && decide (n ≤ 0x305)) ||
    (decide (0x400 ≤ n) && decide (n ≤ 0x405))

/-- The access is not admitted: the read at no time, the write where the instruction writes and the register is writable at a
higher privilege (R62). -/
def csrDenied (priv : BitVec 2) (n : Nat) (writes : Bool) : Bool :=
  decide (priv.toNat < csrReadLevel n) || (writes && !csrReadOnly n && decide (priv.toNat < csrWriteLevel n))

/-! ### Time (R406, R407) -/

/-- The package counter as a core reads it. [log DEDUCED 33] -/
def State.counter (s : State) (core : Nat) : Nat := (s.ticks + Config.tickSkew core % 3) % 2 ^ 64

/-- Guest time (R407). -/
def guestTime (s : State) (core : Nat) : Word :=
  let q := s.part (s.partOfRank (rankOf core))
  BitVec.ofNat 64 ((s.counter core + 2 ^ 64 - q.tsoff.toNat) % 2 ^ 64 * q.tsscale.toNat / 2 ^ 16)

/-! ### Reads -/

/-- cr.mstat (R204). -/
def mstatWord (k : Core) : Word :=
  let head := match k.mq with
    | c :: _ => if c.started then some c else none
    | [] => none
  BitVec.ofNat 64 (k.mq.length % 32 + (if head.isSome then 2 ^ 5 else 0) + (if gateOpen k 0 then 0 else 2 ^ 6) +
    2 ^ 8 * (accOwned k).toNat + 2 ^ 16 * ((head.elim 0 (fun c => c.kb)) % 128) + 2 ^ 23 * ((head.elim 0 (fun c => c.rcd)) % 32) +
    2 ^ 32 * ((head.elim 0 (fun c => c.seq.toNat)) % 2 ^ 32))

/-- A context register, 0x000–0x03F (R63, R73, R74, R99, R126, R136, R151). -/
def csrReadCtx (x : Ctx) (n : Nat) : Word :=
  if n = 0x001 then x.frm
  else if n = 0x002 then zext x.fflags
  else if n = 0x003 then ofBool x.chk
  else if n = 0x004 then x.sbase
  else if n = 0x005 then x.slim
  else if n = 0x006 then x.rptst
  else if n = 0x008 then zext x.tcause
  else if n = 0x009 then x.tpc
  else if n = 0x00A then x.tval
  else if n = 0x00B then x.fpc
  else if n = 0x00C then x.tvec
  else if n = 0x00D then BitVec.ofNat 64 (x.priv.toNat + 4 * x.sprv.toNat + (if x.deff then 16 else 0))
  else if n = 0x00E then x.icount
  else if n = 0x00F then zext x.vshare
  else if n = 0x010 then zext x.poison
  else ofBool x.fjwait

/-- A core register, 0x040–0x0D7 (R63). -/
def csrReadCore (s : State) (core : Nat) (n : Nat) : Word :=
  let k := s.core core
  let q := s.part (s.partOfRank (rankOf core))
  if n = 0x040 then BitVec.ofNat 64 (core - 16 * q.base.toNat)
  else if n = 0x041 then BitVec.ofNat 64 (rankOf core)
  else if n = 0x042 then BitVec.ofNat 64 (s.posOf core)
  else if n = 0x043 then BitVec.ofNat 64 (dieOfCore core)
  else if n = 0x044 then BitVec.ofNat 64 (districtOfRank (rankOf core))
  else if n = 0x045 then zext k.spsize
  else if n = 0x046 then zext k.pquota
  else if n = 0x047 then k.prefused
  else if n = 0x048 then k.pdenied
  else if 0x04C ≤ n ∧ n ≤ 0x04F then k.qroute[n - 0x04C]?.getD 0
  else if n = 0x050 then k.msgsent
  else if n = 0x051 then k.msgrecv
  else if n = 0x052 then k.hstk
  else if n = 0x053 then k.hstksz
  else if n = 0x055 then k.grp
  else if n = 0x056 then k.ngrp
  else if n = 0x057 then k.launch
  else if 0x058 ≤ n ∧ n ≤ 0x05B then k.dm[n - 0x058]?.getD 0
  else if n = 0x05C then zext k.trwait
  else if n = 0x05D then k.bankslip
  else if n = 0x080 then k.shadow.fmta
  else if n = 0x081 then k.shadow.fmtb
  else if n = 0x082 then k.shadow.fmtd
  else if n = 0x083 then k.shadow.scla
  else if n = 0x084 then k.shadow.sclb
  else if n = 0x085 then k.shadow.scld
  else if n = 0x086 then k.amaxp
  else if n = 0x087 then zext k.amaxsc
  else if n = 0x088 then k.olist
  else if n = 0x089 then zext k.olim
  else if n = 0x08A then k.ocnt
  else if n = 0x08B then k.adtab
  else if n = 0x08C then k.rqtab
  else if n = 0x08D then k.mflog
  else if n = 0x08E then k.mdone
  else if n = 0x08F then mstatWord k
  else if 0x0C0 ≤ n ∧ n ≤ 0x0C7 then k.strcnt[n - 0x0C0]?.getD 0
  else if 0x0C8 ≤ n ∧ n ≤ 0x0CB then k.strterm[n - 0x0C8]?.getD 0
  else if n = 0x0CC then k.strtgt
  else k.evcnt[n - 0x0D0]?.getD 0

/-- A register of translation, scope, time, the ring or the delay sums, 0x100–0x27F (R63). -/
def csrReadSys (s : State) (core : Nat) (n : Nat) : Word :=
  let k := s.core core
  let q := s.part (s.partOfRank (rankOf core))
  if n = 0x100 then zext k.asid
  else if n = 0x101 then k.ttab
  else if n = 0x102 then zext k.tenlease
  else if n = 0x103 then k.peertab
  else if n = 0x104 then zext q.scopecap
  else if n = 0x105 then k.scopedemote
  else if n = 0x106 then ofBool q.scopecapf
  else if n = 0x180 then guestTime s core
  else if n = 0x181 then q.tsoff
  else if n = 0x182 then zext q.tsscale
  else if n = 0x183 then ofBool q.tshide
  else if n = 0x184 then q.rring
  else if n = 0x185 then zext q.rrsz
  else if n = 0x186 then zext q.rrhead
  else if n = 0x187 then BitVec.ofNat 64 (q.rrtail.toNat + 2 ^ 32 * (q.ringEnts.length % 2 ^ 17))
  else if n < 0x240 then k.dly[n - 0x200]?.getD 0
  else k.dlyn[n - 0x240]?.getD 0

/-- A register of the partition, 0x300–0x405 (R63, R391). -/
def csrReadPart (s : State) (core : Nat) (n : Nat) : Word :=
  let q := s.part (s.partOfRank (rankOf core))
  if n = 0x300 then zext q.base
  else if n = 0x301 then zext q.len
  else if n = 0x302 then ofBool q.yieldreq
  else if n = 0x303 then q.svccore
  else if n = 0x304 then zext q.pwmode + (if (s.cluster (rankOf core)).thr then 256 else 0)
  else if n = 0x305 then zext q.tslice
  else if n = 0x400 then q.s2base
  else if n = 0x401 then zext q.vmid
  else if n = 0x402 then zext q.vfnum
  else if n = 0x403 then q.colmask
  else if n = 0x404 then zext q.fabto
  else ofBool q.s2ctl

/-- The value of a control register as a context of a core reads it. -/
def csrRead (s : State) (c : CtxId) (n : Nat) : Word :=
  if n < 0x040 then csrReadCtx (s.ctx c) n
  else if n < 0x100 then csrReadCore s c.core n
  else if n < 0x300 then csrReadSys s c.core n
  else csrReadPart s c.core n

/-! ### Writes: field by field, under R8 and each field's own rules -/

/-- A context register written. -/
def csrWriteCtx (x : Ctx) (n : Nat) (v : Word) : Ctx :=
  if n = 0x001 then { x with frm := v &&& 0x1F7 }
  else if n = 0x002 then { x with fflags := v.extractLsb' 0 8 }
  else if n = 0x003 then { x with chk := v.getLsbD 0 }
  else if n = 0x004 then { x with sbase := v }
  else if n = 0x005 then { x with slim := v }
  else if n = 0x006 then { x with rptst := v &&& 0x80001FFFFFFFFFFF }
  else if n = 0x008 then { x with tcause := v.extractLsb' 0 6 }
  else if n = 0x009 then { x with tpc := v &&& ~~~3#64 }
  else if n = 0x00A then { x with tval := v }
  else if n = 0x00B then { x with fpc := v }
  else if n = 0x00C then { x with tvec := v &&& ~~~0xFFF#64 }
  else if n = 0x00D then
    let l := v.extractLsb' 2 2
    { x with sprv := if l = 3 ∨ x.priv.toNat < l.toNat then x.sprv else l, deff := v.getLsbD 4 }
  else if n = 0x00F then { x with vshare := if v.extractLsb' 0 4 = 0 then 1 else v.extractLsb' 0 4 }
  else if n = 0x011 then { x with fjwait := v.getLsbD 0 }
  else x

/-- A core register written (R156, R157 apart). -/
def csrWriteCore (cycle : Nat) (k : Core) (n : Nat) (v : Word) : Core :=
  if n = 0x046 then { k with pquota := if 128 < (v.extractLsb' 0 8).toNat then 128 else v.extractLsb' 0 8 }
  else if 0x04C ≤ n ∧ n ≤ 0x04F then { k with qroute := k.qroute.setIfInBounds (n - 0x04C) (v &&& 0x80037FFF) }
  else if n = 0x052 then { k with hstk := v }
  else if n = 0x053 then { k with hstksz := v }
  else if n = 0x05C then { k with trwait := v.extractLsb' 0 32 }
  else if n = 0x080 then { k with shadow := { k.shadow with fmta := v &&& 0x3FF } }
  else if n = 0x081 then { k with shadow := { k.shadow with fmtb := v &&& 0x3FF } }
  else if n = 0x082 then { k with shadow := { k.shadow with fmtd := v &&& 0xE0F } }
  else if n = 0x083 then { k with shadow := { k.shadow with scla := v &&& 0x1FFFF } }
  else if n = 0x084 then { k with shadow := { k.shadow with sclb := v &&& 0x1FFFF } }
  else if n = 0x085 then { k with shadow := { k.shadow with scld := v &&& 0x1FFFF } }
  else if n = 0x086 then { k with amaxp := v }
  else if n = 0x087 then { k with amaxsc := v.extractLsb' 0 3 }
  else if n = 0x088 then { k with olist := v }
  else if n = 0x089 then { k with olim := v.extractLsb' 0 32 }
  else if n = 0x08A then { k with ocnt := v }
  else if n = 0x08B then
    let len := if 4096 < (v.extractLsb' 0 13).toNat then 4096#64 else v &&& 0x1FFF
    { k with adtab := (v &&& ~~~0xFFFF#64) ||| len }
  else if n = 0x08C then { k with rqtab := v }
  else if 0x0C0 ≤ n ∧ n ≤ 0x0C7 then
    strRaise k { k with strcnt := k.strcnt.setIfInBounds (n - 0x0C0) (v &&& 0xFFFFFFFFFFFF001F) }
  else if 0x0C8 ≤ n ∧ n ≤ 0x0CB then strRaise k { k with strterm := k.strterm.setIfInBounds (n - 0x0C8) (v &&& 0x83FF) }
  else if n = 0x0CC then
    strRaise k { k with
      strtgt := (v &&& 0x0000003FFFF0FFFF) ||| (k.strtgt &&& 0x4000000000000000) |||
        (k.strtgt &&& ~~~v &&& 0x8000000000000000)
      timerAt := cycle }
  else if 0x0D0 ≤ n ∧ n ≤ 0x0D7 then { k with evcnt := k.evcnt.setIfInBounds (n - 0x0D0) v }
  else if n = 0x100 then { k with asid := v.extractLsb' 0 16 }
  else if n = 0x101 then { k with ttab := v &&& 0x000FFFFFFFFF8000 }
  else if n = 0x102 then { k with tenlease := v.extractLsb' 0 32 }
  else if n = 0x103 then { k with peertab := v &&& 0x000FFFFFFFFFF001 }
  else if 0x200 ≤ n ∧ n ≤ 0x23F then { k with dly := k.dly.setIfInBounds (n - 0x200) v }
  else if 0x240 ≤ n ∧ n ≤ 0x27F then { k with dlyn := k.dlyn.setIfInBounds (n - 0x240) v }
  else k

/-- cr.svccore as a write stores it (R370). -/
def svccoreWord (v : Word) : Word :=
  let ctx := if 10 < (v.extractLsb' 16 4).toNat then 0#64 else zext (v.extractLsb' 16 4)
  let lines := if 480 < (v.extractLsb' 20 9).toNat then 480#64 else zext (v.extractLsb' 20 9)
  zext (v.extractLsb' 0 15) ||| (ctx <<< 16) ||| (lines <<< 20)

/-- The state of a partition in which PRANGE, HVEC, SAVE and MBOX do not change (R390). -/
def rangeLocked (q : Part) : Bool := q.state == 1 || q.state == 2 || q.state == 4

/-- A register of the partition written (R370, R375, R381, R391, R401, R406, R410). -/
def csrWritePart (kw8 : Bool) (q : Part) (n : Nat) (v : Word) : Part :=
  if n = 0x104 then { q with scopecap := v.extractLsb' 0 3 }
  else if n = 0x106 then { q with scopecapf := v.getLsbD 0 }
  else if n = 0x181 then { q with tsoff := v }
  else if n = 0x182 then { q with tsscale := if v.extractLsb' 0 32 = 0 then 1 else v.extractLsb' 0 32 }
  else if n = 0x183 then { q with tshide := v.getLsbD 0 }
  else if n = 0x184 then { q with rring := v &&& 0x000FFFFFFFFFFFE0 }
  else if n = 0x185 then { q with rrsz := if 16 < (v.extractLsb' 0 5).toNat then 16 else v.extractLsb' 0 5 }
  else if n = 0x186 then (if q.rrsz ≠ 0 then q else { q with rrhead := v.extractLsb' 0 32 })
  else if n = 0x187 then (if q.rrsz ≠ 0 then q else { q with rrtail := v.extractLsb' 0 32 })
  else if n = 0x300 then (if rangeLocked q then { q with err := 1 } else { q with base := v.extractLsb' 0 11 })
  else if n = 0x301 then (if rangeLocked q then { q with err := 1 } else { q with len := v.extractLsb' 0 11 })
  else if n = 0x302 then { q with yieldreq := v.getLsbD 0 }
  else if n = 0x303 then { q with svccore := svccoreWord v }
  else if n = 0x304 then
    let m := v.extractLsb' 0 3
    { q with pwmode := if 4 < m.toNat then q.pwmode else if m = 4 ∧ !kw8 then 0 else m }
  else if n = 0x305 then { q with tslice := v.extractLsb' 0 32 }
  else if n = 0x400 then { q with s2base := v &&& 0x000FFFFFFFFF8000 }
  else if n = 0x401 then { q with vmid := v.extractLsb' 0 16 }
  else if n = 0x402 then { q with vfnum := v.extractLsb' 0 8 &&& 0xBF }
  else if n = 0x403 then { q with colmask := v }
  else if n = 0x404 then { q with fabto := v.extractLsb' 0 24 }
  else if n = 0x405 then { q with s2ctl := v.getLsbD 0 }
  else q

/-- A register that is held once per partition (R63, R391). -/
def csrOfPart (n : Nat) : Bool :=
  n == 0x104 || n == 0x106 || (decide (0x181 ≤ n) && decide (n ≤ 0x187)) || decide (0x300 ≤ n)

/-- A write of cr.vfnum would bind a virtual function that is bound to another partition (R398). [log DEDUCED 42] -/
def vfTaken (s : State) (p : Nat) (v : Word) : Bool :=
  v.getLsbD 7 && (List.range 64).any (fun i => i != p && (s.part i).vfnum.getLsbD 7 &&
    (s.part i).vfnum.extractLsb' 0 6 == v.extractLsb' 0 6)

/-- The route of a result for a port, once that port's cr.qroute changes from `old`. -/
def keptRoute (port : Nat) (old : Word) (r : Reg) (route : Option Word) : Option Word :=
  if isPort r ∧ portNo r = port ∧ route.isNone then some old else route

/-- What a context has on its way to a port keeps the route that its instruction was checked against. -/
def Ctx.keepRoutes (port : Nat) (old : Word) (x : Ctx) : Ctx :=
  { x with inflight := x.inflight.map (fun e => { e with route := keptRoute port old e.reg e.route })
           varRes := x.varRes.map (fun e => { e with route := keptRoute port old e.reg e.route })
           ring := x.ring.map (fun h => { h with route := keptRoute port old h.reg h.route }) }

/-- cr.qroute of a port of the executing core is about to be written: what instructions issued before it send there goes by the route that
they were checked against, so that no word leaves the partition (R260, R261). [log DEDUCED 95] -/
def keepRoutes (port : Nat) (s : State) : State :=
  let k := s.mine
  let old := k.qroute[port]?.getD 0
  { s.setMine { k with ctxs := k.ctxs.map (Ctx.keepRoutes port old) } with
    reqs := s.reqs.map (fun q => if q.ctx.core = s.cur.core then { q with route := keptRoute port old q.dest q.route } else q) }

/-- The executing context writes a control register. -/
def csrWrite (n : Nat) (v : Word) (s : State) : State :=
  if csrReadOnly n ∨ (n = 0x402 ∧ vfTaken s s.myPartNo v) then s
  else if 0x04C ≤ n ∧ n ≤ 0x04F then
    let s := keepRoutes (n - 0x04C) s
    s.setMine (csrWriteCore s.cycle s.mine n v)
  else if n < 0x040 then s.setMe (csrWriteCtx s.me n v)
  else if csrOfPart n then s.setPart s.myPartNo (csrWritePart s.kw8 s.myPart n v)
  else s.setMine (csrWriteCore s.cycle s.mine n v)

/-! ### The CSR major (R111, R119–R121, R157) -/

/-- An earlier scalar FPU instruction of the context has not accrued its flags (R111). [log DEDUCED 20] -/
def flagsPending (x : Ctx) : Bool := x.inflight.any (fun e => e.fpu) || x.varRes.any (fun e => e.fpu)

/-- What CRW, CRSET and CRCLR store: op 1 the operand, op 2 its bits set, op 3 its bits cleared. -/
def csrNew (op : BitVec 2) (old v : Word) : Word :=
  if op = 1 then v else if op = 2 then old ||| v else old &&& ~~~v

/-- A write that changes cr.spsize.SIZE holds the context until the core has drained (R157). -/
def resizeThen (size : BitVec 2) (s : State) (k : State → Out) : Out :=
  match s.me.wait with
  | .resize z => if z = size then hold s else hold (s.setMe { s.me with wait := .resize size })
  | _ => if s.mine.spsize = size then k s else hold (s.setMe { s.me with wait := .resize size })

/-- A CSR instruction (R119). One on cr.fflags does not issue, and meets none of its checks on operands and destination, before the flags of
every earlier scalar FPU instruction have accrued (R111). -/
def csr (op : BitVec 2) (word : IWord) (d a : Reg) (c : BitVec 11) (w : BitVec 3) (s : State) : Out :=
  let n := c.toNat
  let rs := if op = 0 then [] else [a]
  if !csrDefined n then trapAt cILLEGAL (zext word) s
  else if csrDenied s.me.priv n (op != 0) then trapAt cPRIV (zext word) s
  else if n = 0x002 ∧ flagsPending s.me then hold s
  else issueThen rs [d] s (fun s => destThen d s (fun s =>
    let old := csrRead s s.cur n
    let new := csrNew op old (s.rdA a)
    let done := fun (old : Word) (s : State) => Host.Outcome.next (finish w rs (produce 1 d old 0 s))
    if op = 0 then done old s
    else if n = 0x045 then
      match s.me.wait with
      | .resized z => done (zext z) s
      | _ => resizeThen (new.extractLsb' 0 2) s (done old)
    else .next (finish w rs (csrWrite n new (produce 1 d old 0 s)))))

/-- CRR (R119). -/
def execCrr (d : Reg) (c : BitVec 11) (w : BitVec 3) (s : State) : Out := csr 0 (layS 0x26 d 0 c 0 w) d 0 c w s

/-- CRW (R119). -/
def execCrw (d a : Reg) (c : BitVec 11) (w : BitVec 3) (s : State) : Out := csr 1 (layS 0x26 d a c 1 w) d a c w s

/-- CRSET (R119). -/
def execCrset (d a : Reg) (c : BitVec 11) (w : BitVec 3) (s : State) : Out := csr 2 (layS 0x26 d a c 2 w) d a c w s

/-- CRCLR (R119). -/
def execCrclr (d a : Reg) (c : BitVec 11) (w : BitVec 3) (s : State) : Out := csr 3 (layS 0x26 d a c 3 w) d a c w s

/-! ### SCRATCHPAD_RESIZE (R157) -/

/-- The core has drained for a resize. -/
def resizeReady (k : Core) : Bool :=
  k.ctxs.toList.all (fun x => x.vq.isEmpty && x.ranges.isEmpty) && k.mq.isEmpty

/-- Every line of a core's L1 is written back and invalidated. -/
def flushL1 (core : Nat) (s : State) : State :=
  let s := (s.core core).l1.foldl (fun s e =>
    if e.st == .O && e.dirty then writeBack s (dieOfCore core) e.line e.data else s) s
  s.setCore core { s.core core with l1 := [] }

/-- A new split takes effect: the scratchpad keeps the bytes below both sizes. -/
def resizeTo (size : BitVec 2) (k : Core) : Core :=
  { k with spsize := size
           spad := k.spad.filter (fun c => decide (c.1 < Nat.min (spBytes k.spsize) (spBytes size))) }

/-- The context of a core that waits for a resize, with the size. -/
def resizer (k : Core) : Option (Nat × BitVec 2) :=
  (List.range 11).findSome? (fun i => match (k.ctx i).wait with
    | .resize z => some (i, z)
    | _ => none)

/-- SCRATCHPAD_RESIZE: the core has drained, the L1 is written back, and the split changes (R157). -/
def execScratchpadResize (core : Nat) (s : State) : Out :=
  match resizer (s.core core) with
  | none => .next s
  | some (i, size) =>
    if isCore core ∧ resizeReady (s.core core) then
      let s := flushL1 core s
      let k := s.core core
      .next (s.setCore core ((resizeTo size k).setCtx i { k.ctx i with wait := .resized k.spsize }))
    else .next s

end Sys2Proof.Machine
end

