-- ==== Sys2Proof/Machine/Xlat.lean ====
section
/-!
DEFINITION. The XLAT major: views, invalidation of translations, PROBE and PUBLISH (R309–R316).
-/

namespace Sys2Proof.Machine

open Sys2Proof

/-! ### Views (R309) -/

/-- The address is of translated space. -/
def isTranslated (va : Word) : Bool := !isLocal va && !isPeer va

/-- An address with a view field. -/
def setView (a : Word) (v : Word) : Word := (a &&& 0x000FFFFFFFFFFFFF#64) ||| (v <<< 52)

/-- VWPIN (R309). -/
def execVwpin (d a : Reg) (w : BitVec 3) (s : State) : Out :=
  issueThen [a] [d] s (fun s => destThen d s (fun s =>
    let x := s.rdA a
    let v := if isTranslated x ∧ viewOf x = 0 then setView x (BitVec.ofNat 64 (s.posOf s.cur.core + 1)) else x
    .next (finish w [a] (produceLater 2 d v 0 s))))

/-- VWSET (R309). -/
def execVwset (d a b : Reg) (w : BitVec 3) (s : State) : Out :=
  issueThen [a, b] [d] s (fun s =>
    let x := s.rdA a
    let p := s.rdB a b
    failThen (if !isTranslated x ∨ s.ptlen ≤ p.toNat then some (.mk' cADDRFORM x) else none) s (fun s => destThen d s (fun s =>
      .next (finish w [a, b] (produceLater 2 d (setView x (p + 1)) 0 s)))))

/-- VWCLR (R309). -/
def execVwclr (d a : Reg) (w : BitVec 3) (s : State) : Out :=
  issueThen [a] [d] s (fun s => destThen d s (fun s => .next (finish w [a] (produceLater 2 d (setView (s.rdA a) 0) 0 s))))

/-- VWGET (R309). -/
def execVwget (d a : Reg) (w : BitVec 3) (s : State) : Out :=
  issueThen [a] [d] s (fun s => destThen d s (fun s =>
    let x := s.rdA a
    let v := if isTranslated x then BitVec.ofNat 64 (positionOf (s.xctx s.cur) x) else BitVec.allOnes 64
    .next (finish w [a] (produceLater 2 d v 0 s))))

/-! ### Invalidation (R312, R431) -/

/-- The locations that a translation-cache entry answers for, as an interval. -/
def TlbEntry.span (e : TlbEntry) : Nat × Nat :=
  let n := if e.peer.isSome then 2 ^ 32 else pageSize e.large
  (e.page * n, e.page * n + n)

/-- What an invalidation names: every VMID or one, every ASID or one beside the G entries, every page or those of an interval. -/
structure Inval where
  vmid  : Option (BitVec 16)
  asid  : Option (BitVec 16)
  range : Option (Nat × Nat)
  /-- An entry that it removed maps a page of 256 MiB. -/
  large : Bool := false
deriving DecidableEq, Repr

/-- An invalidation names an entry. -/
def Inval.names (v : Inval) (e : TlbEntry) : Bool :=
  (v.vmid.isNone || v.vmid == some e.vmid) && (v.asid.isNone || e.asid.isNone || e.asid == v.asid) &&
    (match v.range with
     | none => true
     | some r => decide (e.span.1 < r.2) && decide (r.1 < e.span.2))

/-- The clusters of a list drop the entries that an invalidation names. -/
def dropEntries (v : Inval) (ranks : List Nat) (s : State) : State :=
  { s with clusters := s.clusters.map (fun c =>
      if ranks.contains c.1 then (c.1, { c.2 with tlb := c.2.tlb.filter (fun e => !v.names e) }) else c) }

/-- The clusters of a partition. -/
def Part.ranks (q : Part) : List Nat := (List.range q.len.toNat).map (fun i => q.base.toNat + i)

/-- The bytes that the entries of an invalidation's interval map at once: a window's, or a page's (R303, R431). -/
def Inval.granule (v : Inval) (lo : Nat) : Nat := if 2 ^ 51 ≤ lo then 2 ^ 32 else pageSize v.large

/-- An address lies in a page that overlaps the interval of an invalidation. -/
def Inval.covers (v : Inval) (va : Word) : Bool :=
  match v.range with
  | none => true
  | some r =>
    let g := v.granule r.1
    decide (locOf va < (r.2 + g - 1) / g * g) && decide (r.1 / g * g ≤ locOf va)

/-- An entry for a page of 256 MiB among those that an invalidation names in the clusters of a list. -/
def namesLarge (v : Inval) (ranks : List Nat) (s : State) : Bool :=
  s.clusters.any (fun c => ranks.contains c.1 && c.2.tlb.any (fun e => v.names e && e.large))

/-- An access of a cluster that used an entry an invalidation names is not complete (R312): a request numbered below `id`, or a
vector memory instruction in a queue. -/
def usesEntry (v : Inval) (ranks : List Nat) (id : Nat) (s : State) : Bool :=
  s.reqs.any (fun q => !q.isFence && !q.performed && decide (q.id < id) && ranks.contains (rankOf q.ctx.core) && v.covers q.va) ||
    s.cores.any (fun c => ranks.contains (rankOf c.1) &&
      c.2.ctxs.toList.any (fun x => x.vq.any (fun e => decide (e.order < id) && e.elems.any (fun l => v.covers l.2.1))))

/-- TLBI: release at .pkg, remove the entries, and wait for the accesses that used them; the number of the wait holds that of the next access and
whether a removed entry's page is large (R312). -/
def tlbi (v : Inval) (ranks : List Nat) (w : BitVec 3) (rs : List Reg) (s : State) : Out :=
  match s.me.wait with
  | .stage n => if usesEntry { v with large := n % 2 == 1 } ranks (n / 2) s then hold s else .next (finish w rs s)
  | _ =>
    releaseThen (capped s.myPart 5) s (fun s =>
      let large := namesLarge v ranks s
      let s := dropEntries v ranks s
      if usesEntry { v with large := large } ranks s.nextId s then
        hold (s.setMe { s.me with wait := .stage (2 * s.nextId + (if large then 1 else 0)) })
      else .next (finish w rs s))

/-- What TLBI at a privilege names, with the interval of an address. [log DEDUCED 21] -/
def invalOf (s : State) (all : Bool) (lo hi : Nat) : Inval :=
  let h := s.me.priv == 2
  { vmid := if h && all then none else some s.myPart.vmid
    asid := if h then none else some s.mine.asid
    range := if all then none else some (lo, hi) }

/-- TLBI.L (R312). -/
def execTlbiL (a : Reg) (w : BitVec 3) (s : State) : Out :=
  privThen 1 (encode (.tlbiL a w)) s (fun s => issueThen [a] [] s (fun s =>
    let l := locOf (s.rdA a)
    tlbi (invalOf s (a == 0) l (l + 1)) [rankOf s.cur.core] w [a] s))

/-- TLBI.B (R312). -/
def execTlbiB (a b : Reg) (w : BitVec 3) (s : State) : Out :=
  privThen 1 (encode (.tlbiB a b w)) s (fun s => issueThen [a, b] [] s (fun s =>
    let l := locOf (s.rdA a)
    let n := (s.rdB a b).toNat
    let ranks := if s.me.priv = 2 then List.range 1600 else s.myPart.ranks
    tlbi (invalOf s (a == 0) l (if n = 0 then l + 1 else l + n)) ranks w [a, b] s))

/-! ### PROBE (R313) -/

/-- The record of a load that would fault. -/
def probeFail (cause : BitVec 6) (kind : BitVec 3) : Word :=
  BitVec.ofNat 64 (2 ^ 63 + cause.toNat + 2 ^ 8 * kind.toNat)

/-- The record of a translation error. -/
def probeErr (e : XlErr) : Word :=
  match e with
  | .viewperm => probeFail cVIEWPERM 0
  | .kind k => probeFail cXLATE k

/-- The record of PROBE, and the state with the walk in the translation cache. A page that only H reaches is XLATE of kind 6 in it, stage 2 on or off
(R313, R389). [log DEDUCED 21; DESIGN CHOICE 101] -/
def probeRecord (s : State) (va : Word) : Word × State :=
  let x := s.xctx s.cur
  if isLocal va then
    (if viewOf va ≠ 0 then probeFail cADDRFORM 0 else BitVec.ofNat 64 (locOf va + 2 ^ 60), s)
  else if isPeer va then
    if viewOf va ≠ 0 then (probeFail cADDRFORM 0, s)
    else match peerRoute s x va 1 needR with
      | .error e => (probeErr e, s)
      | .ok (_, t) =>
        let wbit := match t.peer with
          | some (_, wn) => wn.getLsbD 2
          | none => false
        (BitVec.ofNat 64 (locOf va + (if wbit then 2 ^ 54 else 0) + 2 * 2 ^ 60), tlbFill x t s)
  else if s.ptlen ≤ viewOf va - 1 ∧ viewOf va ≠ 0 then (probeFail cADDRFORM 0, s)
  else match translated s x va needR with
    | .error e => (probeErr e, s)
    | .ok (t, e) =>
      (BitVec.ofNat 64 (t.pa + 2 ^ 52 * t.kind.toNat + (if t.w then 2 ^ 54 else 0) + (if t.v then 2 ^ 55 else 0) + 2 ^ 56 * t.dst),
        tlbFill x e s)

/-- PROBE (R313). -/
def execProbe (d a : Reg) (w : BitVec 3) (s : State) : Out :=
  issueThen [a] [d] s (fun s => destThen d s (fun s =>
    let r := probeRecord s (s.rdA a)
    .next (finish w [a] (deliver d r.1 r.2))))

/-! ### Shadow descriptors and PUBLISH (R314–R316) -/

/-- A shadow descriptor's fields, with the physical address it lies at. -/
structure Shadow where
  at_   : Nat
  dva   : Word
  pages : Nat
  flist : Word
deriving DecidableEq, Repr

/-- The leaf that a context's access meets at an address, and its output address, or the trap of one that has none: its form comes first (R300), then that it
is of translated space, then its walk, or PRIV at a page that only H reaches with no stage 2 in its way (R389). [log DEDUCED 41] -/
def pageOf (s : State) (x : Xctx) (va : Word) (n : Need) : Except Trap (Xl × TlbEntry) :=
  match formCheck (s.part x.part).len.toNat va with
  | some t => .error t
  | none =>
    if !isTranslated va then .error (.mk' cXLATE va)
    else match translated s x va n with
      | .error e => .error (.mk' (if e = .viewperm then cVIEWPERM else if privPage s x va n then cPRIV else cXLATE) va)
      | .ok r => .ok r

/-- The descriptor at an address, or why it cannot be read; none where a reserved byte is not zero, NPAGES is out of range or DVA is misaligned
(R314, R316). A frame list that does not start at a multiple of 8 is used where it stands. [log DESIGN CHOICE 86] -/
def readShadow (s : State) (x : Xctx) (va : Word) : Except Trap (Option Shadow × TlbEntry) :=
  match pageOf s x va needR with
  | .error e => .error e
  | .ok (t, e) =>
    let f := fun (off n : Nat) => peek s (t.pa + off) n
    let ok := decide (f 0 8 % 2 ^ 16 = 0) && decide (1 ≤ f 8 4) && decide (f 8 4 ≤ 256) &&
      decide (f 12 4 = 0) && decide (f 32 32 = 0)
    .ok (if ok then some ⟨t.pa, BitVec.ofNat 64 (f 0 8), f 8 4, BitVec.ofNat 64 (f 16 8)⟩ else none, e)

/-- A page that a program at U could redirect frames through: its leaf has W and U (R316). -/
def leafOpen (e : TlbEntry) : Bool := leafW e.leaf.toNat && leafU e.leaf.toNat

/-- The addresses of a descriptor's frame-list entries. -/
def Shadow.entries (d : Shadow) : List Word := (List.range d.pages).map (fun i => d.flist + BitVec.ofNat 64 (8 * i))

/-- An entry of a frame list that a load reaches has a bit set that is to be zero (R8, R314). [log DEDUCED 105] -/
def frameBad (s : State) (x : Xctx) (va : Word) : Bool :=
  match pageOf s x va needR with
  | .ok (p, _) => let v := peek s p.pa 8; v % 2 ^ 16 != 0 || v / 2 ^ 52 != 0
  | .error _ => false

/-- The addresses of a descriptor's pages. -/
def Shadow.pageVas (d : Shadow) : List Word := (List.range d.pages).map (fun i => d.dva + BitVec.ofNat 64 (65536 * i))

/-- Where the entries of a frame list lie, or the trap of the first that has no place. -/
def listPlaces (s : State) (x : Xctx) (l : List Word) : Trap ⊕ List (Nat × TlbEntry) :=
  match l with
  | [] => .inr []
  | va :: t =>
    match pageOf s x va needR with
    | .error e => .inl e
    | .ok (p, e) =>
      match listPlaces s x t with
      | .inl e => .inl e
      | .inr u => .inr ((p.pa, e) :: u)

/-- The leaf of an address's page, whatever it permits an access, can be written at U (R316). -/
def openAt (s : State) (x : Xctx) (va : Word) : Bool :=
  isTranslated va && (match findLeaf s x (locOf va) with
    | .inl e => leafOpen e
    | .inr _ => false)

/-- An access that needs no permission of a leaf. -/
def needNone : Need := ⟨false, false, false, false, false⟩

/-- The physical address of the leaf entry of a 64 KiB page in its table, where the page is a SHARED leaf of that size, of translated space, whose walk faults
nowhere, in stage 2 neither (R304, R316). A DVA with a view field, which R314 rules out and for which R316 names no error, has none either. [log DESIGN CHOICE 86] -/
def leafPlace (s : State) (x : Xctx) (va : Word) : Option Nat :=
  let step := fun (base i : Nat) => (readTable s x 16 (base + 16 * i)).bind (fun e =>
    if e % 4 = 1 ∧ tableOk e then some (nextTable e) else none)
  let l := locOf va
  ((step (x.ttab.toNat / 2 ^ 15 % 2 ^ 37 * 2 ^ 15) (l / 2 ^ 40 % 2048)).bind (fun t => step t (l / 2 ^ 28 % 4096))).bind (fun t =>
    let at_ := t + 16 * (l / 2 ^ 16 % 4096)
    (readTable s x 16 at_).bind (fun e =>
      if isTranslated va ∧ va.toNat < 2 ^ 51 ∧ e % 4 = 2 ∧ leafOk false e ∧ leafKind e = 0 ∧ (final s x needNone (leafFrame e)).isSome then
        stage2 s x needR at_
      else none))

/-- The places of the leaves of a list of pages, or the first page that is none. -/
def leafPlaces (s : State) (x : Xctx) (l : List Word) : Word ⊕ List Nat :=
  match l with
  | [] => .inr []
  | va :: t =>
    match leafPlace s x va with
    | none => .inl va
    | some a =>
      match leafPlaces s x t with
      | .inl e => .inl e
      | .inr u => .inr (a :: u)

/-- Exchange the frame of a leaf with that of a frame-list entry, which may name any frame (R314). [log DESIGN CHOICE 86] -/
def swapFrame (s : State) (leaf entry : Nat) : State :=
  let old := peek s leaf 8
  let new := peek s entry 8
  let s := deviceWrite s leaf 8 (old - old / 2 ^ 16 % 2 ^ 36 * 2 ^ 16 + new / 2 ^ 16 % 2 ^ 36 * 2 ^ 16)
  deviceWrite s entry 8 (old / 2 ^ 16 % 2 ^ 36 * 2 ^ 16)

/-- The pages of a descriptor as an invalidation names them: at H those of every ASID (R312, R316). -/
def Shadow.inval (x : Xctx) (d : Shadow) : Inval :=
  ⟨some x.vmid, if x.priv = 2 then none else some x.asid, some (locOf d.dva, locOf d.dva + 65536 * d.pages), false⟩

/-- Every leaf takes its new frame, GEN counts, and the partition's clusters drop the pages (R316). -/
def publishPages (x : Xctx) (d : Shadow) (leaves entries : List Nat) (s : State) : State :=
  let s := (leaves.zip entries).foldl (fun s p => swapFrame s p.1 p.2) s
  let s := deviceWrite s (d.at_ + 24) 8 ((peek s (d.at_ + 24) 8 + 1) % 2 ^ 64)
  dropEntries (d.inval x) (s.part x.part).ranks s

/-- The checks of PUBLISH that follow the alignment, and what it then works on; the form of the frame list's addresses and the bits of its entries that are to
be zero are checked with the descriptor (R8, R300, R316). [log DEDUCED 21; DEDUCED 105] -/
def publishCheck (s : State) (x : Xctx) (va : Word) : Trap ⊕ (Shadow × List Nat × List Nat) :=
  match readShadow s x va with
  | .error t => .inl (if t.cause ≠ cADDRFORM ∧ openAt s x va then .mk' cPRIV 0 else t)
  | .ok (none, _) => .inl (.mk' cADDRFORM va)
  | .ok (some d, _) =>
    match d.entries.findSome? (formCheck (s.part x.part).len.toNat) with
    | some t => .inl t
    | none =>
      if d.entries.any (frameBad s x) then .inl (.mk' cADDRFORM va)
      else if openAt s x va ∨ d.entries.any (openAt s x) then .inl (.mk' cPRIV 0)
      else match listPlaces s x d.entries with
      | .inl t => .inl t
      | .inr places =>
        match leafPlaces s x d.pageVas with
        | .inl va => .inl (.mk' cXLATE va)
        | .inr leaves => .inr (d, leaves, places.map (fun p => p.1))

/-- The lines that publishing writes: the leaves, the frame list and the descriptor (R316, R324). [log DEDUCED 67] -/
def publishLines (c : CtxId) (d : Shadow) (leaves entries : List Nat) : List Ask :=
  (d.at_ :: (leaves ++ entries)).map (fun pa => ⟨c, pa / 64, true⟩)

/-- PUBLISH (R316). [log DEDUCED 21; DEDUCED 67] -/
def execPublish (a : Reg) (w : BitVec 3) (s : State) : Out :=
  issueThen [a] [] s (fun s =>
    let va := s.rdA a
    let x := s.xctx s.cur
    failThen (if va.toNat % 64 ≠ 0 then some (.mk' cMISALIGN va) else none) s (fun s =>
      failThen (if isTranslated va then formCheck s.ptlen va else some (.mk' cADDRFORM va)) s (fun s =>
        match publishCheck s x va with
        | .inl t => trap (if t.cause = cPRIV then { t with tval := zext (encode (.publish a w)) } else t) s
        | .inr (d, leaves, places) =>
          engineThen s (fun s => releaseThen (capped s.myPart 5) s (fun s =>
            if usesEntry (d.inval x) s.myPart.ranks s.nextId s then hold s
            else match askFirst (publishLines s.cur d leaves places) s with
              | (some q, _) => hold (q.put s)
              | (none, s) => .next (finish w [a] (publishPages x d leaves places s)))))))

end Sys2Proof.Machine
end

