-- ==== Sys2Proof/Machine/Engine.lean ====
section
/-!
DEFINITION. Engine commands: their fields, what an engine reads and writes, shadow destinations, send apertures and barrier slots (R141, R273–R286,
R314, R315, R437, R441, R442).
-/

namespace Sys2Proof.Machine

open Sys2Proof

/-! ### The fields of a command (R275, R276) -/

def XCmd.byte (c : XCmd) (i : Nat) : Nat := lineGet c.bytes i 1
def XCmd.op (c : XCmd) : Nat := c.byte 0
def XCmd.td (c : XCmd) : Bool := (c.byte 1).testBit 0
def XCmd.sh (c : XCmd) : Bool := (c.byte 1).testBit 1
def XCmd.noComb (c : XCmd) : Bool := (c.byte 1).testBit 2
def XCmd.dtype (c : XCmd) : Nat := c.byte 3
def XCmd.rop (c : XCmd) : Nat := c.byte 4
def XCmd.gkind (c : XCmd) : Nat := c.byte 5
def XCmd.level (c : XCmd) : Nat := c.byte 6
def XCmd.src (c : XCmd) : Word := BitVec.ofNat 64 (lineGet c.bytes 8 8)
def XCmd.dst (c : XCmd) : Word := BitVec.ofNat 64 (lineGet c.bytes 16 8)
def XCmd.len (c : XCmd) : Nat := lineGet c.bytes 24 8
def XCmd.shd (c : XCmd) : Word := BitVec.ofNat 64 (lineGet c.bytes 32 8)
def XCmd.cid (c : XCmd) : Nat := lineGet c.bytes 40 4
def XCmd.pgrp (c : XCmd) : Nat := lineGet c.bytes 44 4

/-- A collective (R275). -/
def XCmd.isColl (c : XCmd) : Bool := decide (0x10 ≤ c.op) && decide (c.op ≤ 0x12)

/-- The bytes of an element: of a collective, those of its type. [log DEDUCED 28] -/
def XCmd.elem (c : XCmd) : Nat := if c.isColl then (if c.dtype = 1 then 2 else 4) else 2 ^ (c.byte 2 % 4)

/-- The n bytes of the tensor descriptor from offset i, as a number. -/
def XCmd.descNum (c : XCmd) (i n : Nat) : Nat :=
  match n with
  | 0 => 0
  | k + 1 => (c.desc[i]?.getD 0).toNat + 256 * c.descNum (i + 1) k

/-- The dimensions: extent, source stride, destination stride, dimension 0 first; a collective's LEN counts its elements (R275, R276). -/
def XCmd.dims (c : XCmd) : List (Nat × Int × Int) :=
  if c.td then (List.range (Nat.min (c.descNum 0 1) 6)).map (fun k =>
    (c.descNum (32 + 32 * k) 8, toSigned 64 (c.descNum (40 + 32 * k) 8), toSigned 64 (c.descNum (48 + 32 * k) 8)))
  else [(if c.isColl then c.len else c.len / c.elem, (c.elem : Int), (c.elem : Int))]

/-- The bytes of the tensor descriptor that a rank asks for. -/
def descBytes (rank : Nat) : Nat := 32 + 32 * (if 1 ≤ rank ∧ rank ≤ 6 then rank else 0)

/-- The tensor descriptor keeps R276. -/
def XCmd.descOk (c : XCmd) : Bool :=
  let r := c.descNum 0 1
  decide (1 ≤ r) && decide (r ≤ 6) && decide (c.descNum 1 31 = 0) &&
    (List.range r).all (fun k => decide (c.descNum (56 + 32 * k) 8 = 0)) &&
    c.dims.all (fun d => decide (1 ≤ d.1) && decide (d.1 ≤ 2 ^ 40) && decide (d.2.1 % (c.elem : Int) = 0) &&
      decide (d.2.2 % (c.elem : Int) = 0))

/-- A command that fails with status DESC (R275, R437). -/
def XCmd.bad (c : XCmd) : Bool :=
  let coll := c.isColl
  !(c.op == 1 || c.op == 2 || coll) || decide (8 ≤ c.byte 1) || decide (4 ≤ c.byte 2) ||
    (if coll then decide (3 ≤ c.dtype) || decide (3 ≤ c.rop) || decide (2 ≤ c.gkind)
     else c.dtype != 0 || c.rop != 0 || c.gkind != 0) ||
    (if coll && c.gkind == 0 then !(decide (1 ≤ c.level) && decide (c.level ≤ 4)) else c.level != 0) ||
    c.byte 7 != 0 || lineGet c.bytes 48 8 != 0 || (!coll && c.cid != 0) ||
    (if coll && c.gkind == 1 then decide (256 ≤ c.pgrp) else c.pgrp != 0) ||
    (c.op != 2 && c.src.toNat % c.elem != 0) || c.dst.toNat % c.elem != 0 ||
    (if c.td then coll || !c.descOk || c.len % 32 != 0 || decide (2 ^ 18 ≤ c.len) else !coll && c.len % c.elem != 0) ||
    ((c.sh || coll) && c.shd == 0) || (c.sh && isLocal c.dst)

/-- The number of elements. -/
def XCmd.total (c : XCmd) : Nat := c.dims.foldl (fun n d => n * d.1) 1

/-- The byte offset of an element over strides, dimension 0 fastest (R276). -/
def elemOff (pick : Int × Int → Int) (dims : List (Nat × Int × Int)) (n : Nat) : Int :=
  match dims with
  | [] => 0
  | d :: t => ((n % d.1 : Nat) : Int) * pick d.2 + elemOff pick t (n / d.1)

/-- The least and the greatest byte offset of an element. -/
def spanOff (pick : Int × Int → Int) (dims : List (Nat × Int × Int)) : Int × Int :=
  dims.foldl (fun r d =>
    let e := pick d.2 * ((d.1 : Int) - 1)
    (r.1 + min 0 e, r.2 + max 0 e)) (0, 0)

/-- The address of element n at the source and at the destination. -/
def XCmd.srcAt (c : XCmd) (n : Nat) : Word := c.src + BitVec.ofInt 64 (elemOff (fun p => p.1) c.dims n)
def XCmd.dstAt (c : XCmd) (n : Nat) : Word := c.dst + BitVec.ofInt 64 (elemOff (fun p => p.2) c.dims n)

/-- The bytes of a range: its first and its last byte; none where there is no element. -/
abbrev Span := Option (Int × Int)

/-- The bounding range of the elements from an address on, over strides. -/
def XCmd.spanOf (c : XCmd) (at_ : Word) (pick : Int × Int → Int) : Span :=
  if c.total = 0 then none
  else
    let r := spanOff pick c.dims
    some (at_.toNat + r.1, at_.toNat + r.2 + c.elem - 1)

/-- The bounding range of the source and of the destination (R277). -/
def XCmd.srcSpan (c : XCmd) : Span := c.spanOf c.src (fun p => p.1)
def XCmd.dstSpan (c : XCmd) : Span := c.spanOf c.dst (fun p => p.2)

/-- The index of each dimension at element n, six of them (R281). -/
def dimIndex (dims : List (Nat × Int × Int)) (n : Nat) : List Nat :=
  match dims with
  | [] => []
  | [_] => [n]
  | d :: t => n % d.1 :: dimIndex t (n / d.1)

/-! ### The table of commands -/

/-- The command of a ticket of a core. -/
def findCmd (s : State) (core ticket : Nat) : Option XCmd := s.engine.find? (fun c => c.core == core && c.ticket == ticket)

/-- Change the commands of a list. -/
def mapCmds (ids : List (Nat × Nat)) (f : XCmd → XCmd) (s : State) : State :=
  { s with engine := s.engine.map (fun c => if ids.contains (c.core, c.ticket) then f c else c) }

/-- The global cluster rank of the engine that a command is addressed to (R273). -/
def engineRank (s : State) (c : XCmd) : Nat := (s.part c.xctx.part).base.toNat + (c.engine.extractLsb' 0 16).toNat

/-- The engine address names a copy engine of the partition (R273). -/
def engineOk (s : State) (c : XCmd) : Bool :=
  c.engine.extractLsb' 16 48 == 0 && decide ((c.engine.extractLsb' 0 16).toNat < (s.part c.xctx.part).len.toNat)

/-- The engine works: its partition runs, or stops and has not stopped yet, and its cluster is not halted (R283, R296, R376). -/
def engineRuns (s : State) (c : XCmd) : Bool :=
  let q := s.part c.xctx.part
  (q.state == 1 || q.state == 2) && !(engineOk s c && (s.cluster (engineRank s c)).halted)

/-- The translation that an engine uses for a command (R277, R301, R307). -/
def engCtx (s : State) (c : XCmd) : Xctx := { c.xctx with unit := engineRank s c }

/-! ### Accesses of an engine (R277, R278) -/

/-- What becomes of an engine's read: it waits, perhaps for a line, fails with a status, or gives a value. -/
inductive EngRead where
  | wait (ask : Option Ask)
  | fail (status : BitVec 8)
  | ok (v : Nat) (s : State)
deriving DecidableEq, Repr

/-- What becomes of an engine's write. -/
inductive EngWrite where
  | wait (ask : Option Ask)
  | fail (status : BitVec 8)
  | ok (s : State)
deriving DecidableEq, Repr

/-- The physical address behind an address of translated space, where its form is right and it translates (R300). -/
def enginePa (s : State) (x : Xctx) (va : Word) (n : Need) : Option Nat :=
  if isTranslated va ∧ formCheck (s.part x.part).len.toNat va = none then
    match translated s x va n with
    | .ok (t, _) => some t.pa
    | .error _ => none
  else none

/-- Where an engine finds an address, or the status XLATE. -/
def engineLoc (s : State) (x : Xctx) (va : Word) (size : Nat) (n : Need) : State × Option Loc :=
  if isLocal va then (s, if viewOf va = 0 ∧ locOf va < 0x40000 then some (.spad (locOf va)) else none)
  else if (formCheck (s.part x.part).len.toNat va).isSome then (s, none)
  else
    match resolve s x va size n with
    | (t, .ok l) => (t, some l)
    | (t, .error _) => (t, none)

/-- The fabric requests of a partition are held (R439). -/
def fabricHeld (s : State) (p : Nat) : Bool := tagDead s p

/-- The name under which an engine's replica writes for a core's commands are on their way; no context's release waits for them (R308). -/
def engineOf (core : Nat) : CtxId := ⟨core, 11⟩

/-- Every replica holds what the engine has written for a command (R282, R308). -/
def replicasDone (s : State) (c : XCmd) : Bool :=
  s.updates.all (fun u => !(c.group.map (fun g => engineOf g.1)).contains u.ctx)

/-- The far home has not answered an engine's request for its line by the partition's cr.fabto (R428). -/
def lateHome (p pa : Nat) (s : State) : Bool × State := if isFar s pa then lateAnswer p s else (false, s)

/-- An engine on a die reads n bytes at a peer. A line that this package may hold it reads as a load of that die: its copy serves, and where it has none the
peer answers with poison, with the line for the die to hold, or with the bytes (R334, R434). [log DEDUCED 24] -/
def enginePeerRead (die : Nat) (l : Loc) (q exp ra n : Nat) (s : State) : Option Nat × State :=
  match cachedLine s l with
  | none => peerRead l q exp ra n s
  | some line =>
    let here := fun (s : State) =>
      let r := homeRead s die line
      (some (lineGet r.2 (ra % 64) n), r.1)
    if (farCopy s line die).isSome then here s
    else
      let a := peerAnswer n s
      match a.1 with
      | none => a
      | some v =>
        let h := mayHold line a.2
        if h.1 then here (fillShared die line (ra % 64) n v h.2) else (some v, h.2)

/-- Every invalidation of a line that is pending is acknowledged. -/
def acksCome (line : Nat) (s : State) : State :=
  (s.far.filter (fun c => c.line == line)).foldl (fun s c => farInvalidated s line c.die) s

/-- An engine on a die writes n bytes at a peer for the cores of its senders: whether it failed. Into a line that this package may hold it is a store of that
die, which owns the line first and whose invalidations are acknowledged before the engine goes on; no sender keeps a T copy (R334, R354, R434).
[log DEDUCED 24] -/
def enginePeerWrite (cores : List Nat) (die part : Nat) (l : Loc) (q exp ra n v : Nat) (s : State) : State × Bool :=
  match cachedLine s l with
  | none =>
    let r := peerWrite part l q exp ra n v s
    (if r.2 then r.1 else cores.foldl (fun s core => dropOwnTs l n core s) r.1, r.2)
  | some line =>
    let noTs := fun (s : State) => cores.foldl (fun s core => dropOwnT s core line) s
    let put := fun (s : State) => noTs (acksCome line (homeWrite s die (64 * line + ra % 64) n v))
    if (farCopy s line die).any (fun c => c.owned) then (put s, false)
    else
      let r := draw s
      if r.1.getLsbD 0 then (r.2, true)
      else
        let h := mayHold line r.2
        (if h.1 then put (fillOwn die line h.2) else noTs (dropCached line h.2), false)

/-- An engine reads n bytes for a context (R277, R428). [log DEDUCED 25; DEDUCED 45] -/
def engineRead (s : State) (ctx : CtxId) (x : Xctx) (va : Word) (n : Nat) : EngRead :=
  match engineLoc s x va n needR with
  | (_, none) => .fail 3
  | (s, some l) =>
    match l with
    | .spad a => if a + n ≤ spBytes (s.core ctx.core).spsize then .ok (readLe (s.core ctx.core).spad a n) s else .fail 3
    | .mem pa _ =>
      match askFirst [⟨ctx, pa / 64, false⟩] s with
      | (some a, _) => .wait (some a)
      | (none, s) =>
        let late := lateHome x.part pa s
        let r := deviceRead late.2 pa n
        if late.1 ∨ isBad r.1 (pa / 64) then .fail 4 else .ok r.2 r.1
    | .mmio pa => .ok (mmioBytes s pa n) s
    | .peer q exp ra _ _ _ =>
      if fabricHeld s x.part then .wait none
      else match askFirst ((homeLines s l n).map (fun line => ⟨ctx, line, false⟩)) s with
      | (some a, _) => .wait (some a)
      | (none, s) => match enginePeerRead (dieOfRank x.unit) l q exp ra n s with
        | (some v, s) => .ok v s
        | (none, _) => .fail 4
    | .departing => .fail 4
    | .nowhere => .fail 4

/-- An engine writes n bytes of memory: at their home, with what follows a write; the sending cores keep no T copy of the line (R280, R282, R308,
R354, R400). -/
def engineStore (cores : List Nat) (core part : Nat) (va : Word) (pa : Nat) (others : List RepSlot) (n v : Nat) (s : State) : State :=
  let s := cores.foldl (fun s k => dropOwnT s k (pa / 64)) (deviceWrite s pa n v)
  doorbell part pa n (multicast (engineOf core) part va others n v s)

/-- It does so for a context, once the line is to be had; a far home may not answer in time (R277, R324, R428, R438). -/
def engineMem (ctx : CtxId) (cores : List Nat) (x : Xctx) (va : Word) (pa : Nat) (others : List RepSlot) (n v : Nat) (s : State) : EngWrite :=
  match askFirst [⟨ctx, pa / 64, true⟩] s with
  | (some a, _) => .wait (some a)
  | (none, s) =>
    let late := lateHome x.part pa s
    if late.1 then .fail 7 else .ok (engineStore cores ctx.core x.part va pa others n v late.2)

/-- An engine writes n bytes for a context; `spads` are the sending cores, whose scratchpads a local address names (R277, R278, R280).
[log DEDUCED 25; DEDUCED 45] -/
def engineWrite (s : State) (ctx : CtxId) (spads : List Nat) (x : Xctx) (va : Word) (n v : Nat) : EngWrite :=
  match engineLoc s x va n needW with
  | (_, none) => .fail 3
  | (s, some l) =>
    match l with
    | .spad a =>
      if spads.all (fun core => decide (a + n ≤ spBytes (s.core core).spsize)) then
        .ok (spads.foldl (fun s core => s.setCore core { s.core core with spad := writeLe (s.core core).spad a n v }) s)
      else .fail 3
    | .mem pa others => engineMem ctx spads x va pa others n v s
    | .mmio pa => .ok (mmioPut pa n v s)
    | .peer q exp ra _ _ _ =>
      if fabricHeld s x.part then .wait none
      else match askFirst ((homeLines s l n).map (fun line => ⟨ctx, line, true⟩)) s with
      | (some a, _) => .wait (some a)
      | (none, s) =>
        let r := enginePeerWrite spads (dieOfRank x.unit) x.part l q exp ra n v s
        if r.2 then .fail 7 else .ok r.1
    | .departing => .fail 7
    | .nowhere => if (enginePa s x va needW).any isAperture then .fail 1 else .fail 7

/-! ### Shadow destinations (R314, R315) -/

/-- What an engine's read of a shadow descriptor and its frame list comes to. -/
inductive ShadowEnd where
  | wait (ask : Ask)
  | fail (status : BitVec 8)
  | ok (d : Shadow) (frames : List Nat) (s : State)
deriving DecidableEq, Repr

/-- An engine's reads at some physical addresses for a context: they wait for a line, one is answered with poison, for a departing or unpopulated
address, a poisoned line or a far home that is late, or all are answered (R277, R324, R384, R426, R428). [log DEDUCED 45] -/
def readsOf (ctx : CtxId) (x : Xctx) (l : List Nat) (s : State) : Except (Option Ask) State :=
  match askFirst (l.map (fun pa => ⟨ctx, pa / 64, false⟩)) s with
  | (some a, _) => .error (some a)
  | (none, s) =>
    let r := (l.map (fun pa => pa / 64)).eraseDups.foldl (fun r line =>
      let late := lateHome x.part (64 * line) r.2
      (r.1 || late.1 || isBad late.2 line || isDeparting late.2 (64 * line) || !isPopulated late.2 (64 * line), late.2)) (false, s)
    if r.1 then .error none else .ok r.2

/-- What follows such reads. -/
def readsThen (ctx : CtxId) (x : Xctx) (l : List Nat) (s : State) (k : State → ShadowEnd) : ShadowEnd :=
  match readsOf ctx x l s with
  | .error (some a) => .wait a
  | .error none => .fail 4
  | .ok s => k s

/-- An engine reads a shadow descriptor and its frame list for a context: reads like any other, which tenures stand in the way of and which may come back
poisoned; an address of no form, or that does not translate, is status XLATE, and a bit of an entry that is to be zero and is not gives
SHADOW, as one of the descriptor does (R8, R277, R300, R315, R324). [log DEDUCED 105] -/
def shadowOf (s : State) (ctx : CtxId) (x : Xctx) (shd : Word) : ShadowEnd :=
  if shd.toNat % 64 ≠ 0 then .fail 8
  else
    match pageOf s x shd needR with
    | .error _ => .fail 3
    | .ok (p, _) =>
      readsThen ctx x [p.pa] s (fun s =>
        match readShadow s x shd with
        | .error _ => .fail 3
        | .ok (none, _) => .fail 8
        | .ok (some d, _) =>
          if 2 ^ 51 ≤ d.dva.toNat then .fail 8
          else match listPlaces s x d.entries with
          | .inl _ => .fail 3
          | .inr l =>
            readsThen ctx x (l.map (fun p => p.1)) s (fun s =>
              if d.entries.any (frameBad s x) then .fail 8
              else .ok d (l.map (fun p => peek s p.1 8 / 2 ^ 16 % 2 ^ 36 * 2 ^ 16)) s))

/-- The n bytes at an address, its view field cleared, lie in the pages of a descriptor that starts at dva (R315). -/
def inFrames (dva : Word) (pages : Nat) (va : Word) (n : Nat) : Bool :=
  decide (dva.toNat ≤ locOf va) && decide (locOf va + n ≤ dva.toNat + 65536 * pages)

/-- Every element of a command's destination lies there. -/
def XCmd.inShadow (c : XCmd) (dva : Word) (pages : Nat) : Bool := (List.range c.total).all (fun i => inFrames dva pages (c.dstAt i) c.elem)

/-- An engine writes n bytes into a shadow frame for a context, as it writes other memory; a send aperture is no place for it (R315, R324, R442). What the
frame list holds is a leaf's output: stage 2 and the colours apply to it. [log DESIGN CHOICE 86] -/
def shadowWrite (s : State) (ctx : CtxId) (cores : List Nat) (x : Xctx) (frames : List Nat) (dva va : Word) (n v : Nat) : EngWrite :=
  let off := locOf va - dva.toNat
  match frames[off / 65536]? with
  | none => .fail 8
  | some frame =>
    match final s x needW (frame + off % 65536) with
    | none => .fail 3
    | some pa =>
      if isAperture pa then .fail 1
      else if isDeparting s pa ∨ !isPopulated s pa then .fail 7
      else engineMem ctx cores x va pa [] n v s

/-! ### Messages (R441, R442) -/

/-- The endpoint whose send aperture starts at a physical address: its partition and number. -/
def apertureBase (pa : Nat) : Option (Nat × Nat) :=
  let off := pa - 0xF0100000000
  if isAperture pa ∧ off % 2 ^ 20 = 0 then some (off / 2 ^ 32, off % 2 ^ 32 / 2 ^ 20) else none

/-- An endpoint is valid: V is set, and the bits of its entry that are to be zero are; one where they are not has no effect (R8, R441). [log DEDUCED 88] -/
def endpointOk (s : State) (p e : Nat) : Bool :=
  let g := s.netPages[p]?.getD ⟨0, 0, 0, 0, 0⟩
  let f := fun (off n : Nat) => peek s (g.eptab.toNat + 32 * e + off) n
  decide (e < g.eplen.toNat) && (f 21 1).testBit 0 && f 21 1 / 4 == 0 && f 22 8 == 0 && f 30 2 == 0

/-- A port carries messages: a group that is SCALEOUT and up (R440). -/
def hasScaleout (s : State) : Bool := s.fabric.edges.toList.any (fun e => e.pers == 3 && e.up)

/-- The command is a COPY into a send aperture. -/
def XCmd.isSend (c : XCmd) (s : State) : Bool :=
  c.op == 1 && !c.td && !c.sh && (enginePa s (engCtx s c) c.dst needW).any isAperture

/-- A send to an endpoint that may be sent to (R442). -/
def sendOk (s : State) (c : XCmd) : Bool :=
  match (enginePa s (engCtx s c) c.dst needW).bind apertureBase with
  | some (p, e) => p == c.xctx.part && endpointOk s p e && decide (1 ≤ c.len) && decide (c.len ≤ 1048576)
  | none => false

/-! ### Barrier slots (R284, R371) -/

/-- The barrier slots of a cluster in use: those of its groups, and one for each running collective that spans it. -/
def slotsUsed (s : State) (rank : Nat) : Nat :=
  ((List.range 16).map (fun i => match (s.core (16 * rank + i)).group with
    | some g => if g.first = 16 * rank + i then g.slots else 0
    | none => 0)).sum +
  (s.engine.filter (fun c => c.isColl && c.state == 1 && c.phase.toNat < 4 && c.group.head? == some (c.core, c.ticket) &&
    c.group.any (fun m => rankOf m.1 == rank))).length

/-! ### Collectives a context has joined (R141, R286) -/

/-- A command ends without success. -/
def failCmd (status : BitVec 8) (va : Word) (c : XCmd) : XCmd :=
  if c.status = 0 then { c with state := 1, status := status, va := va } else c

/-- The collectives that a context has joined and that have not published are aborted (R286, R355). -/
def abortJoined (x : CtxId) (s : State) : State :=
  { s with engine := s.engine.map (fun c => if c.ctx = x ∧ c.isColl ∧ !c.ended ∧ c.phase ≠ 4 then failCmd 6 0 c else c) }

/-- A helper is ended by HKILL with all that this ends (R141). -/
def endHelperAll (c : CtxId) (value : Word) (killed : Bool) (s : State) : State :=
  endHelper c value killed (abortJoined c s)

end Sys2Proof.Machine
end

