-- ==== Sys2Proof/Machine/Group.lean ====
section
/-!
DEFINITION. Groups on cores: dispatch, placement, group start and group end (R143, R156, R157, R170, R361–R374).
-/

namespace Sys2Proof.Machine

open Sys2Proof

/-! ### Groups on cores (R371, R373, R374) -/

/-- The launch of a group, in its partition. -/
def launchOf (q : Part) (id : BitVec 32) : Option Launch := q.launches.reverse.find? (fun l => l.id == id)

/-- Change a launch of a partition. -/
def mapLaunch (p : Nat) (issued : Nat) (f : Launch → Launch) (s : State) : State :=
  s.setPart p { s.part p with launches := (s.part p).launches.map (fun l => if l.issued = issued then f l else l) }

/-- The launch core index of a core (R287). -/
def memberOf (core : Nat) (g : GroupRef) : Nat := g.index * 2 ^ g.log2 + (core - g.first)

/-- The cores of a group. -/
def GroupRef.cores (g : GroupRef) : List Nat := (List.range (2 ^ g.log2)).map (fun i => g.first + i)

/-- A launch has no group left to dispatch (R365). -/
def Launch.dispatched (l : Launch) : Bool := l.cancelled || decide (l.groups ≤ l.disp)

/-- A launch has no undispatched and no running group (R367). -/
def Launch.complete (l : Launch) : Bool := l.dispatched && l.running == 0

/-- A core leaves its group: its standing in the domains stays with the launch, its ports are emptied, and its strings no longer gate
anything (R143, R288, R374). -/
def leaveGroup (core : Nat) (s : State) : State :=
  let k := s.core core
  match k.group with
  | none => s
  | some g =>
    let k := { k with group := none, ports := Vector.replicate 4 [], strtgt := 0, strDue := 0, fwdBuf := [] }
    s.setCore core { k with ctxs := k.ctxs.map (fun x => if x.service then x else { x with live := false, mfault := none }) }
      |> mapTroupe core (fun t =>
          let m := t.members &&& ~~~(1#16 <<< (core % 16))
          if t.leader = core % 16 ∨ m = 1#16 <<< t.leader then none else some { t with members := m, detached := t.detached &&& m })
      |> fun s => match launchOf (s.part g.part) g.launch with
        | none => s
        | some l => mapLaunch g.part l.issued (fun l =>
            { l with gone := l.gone ++ [(memberOf core g, core, (s.core core).dm.toList, (s.core core).sent.toList, (s.core core).recv.toList)] }) s

/-- Port words of a launch that has ended are discarded, wherever they are held (R262). -/
def discardWords (p : Nat) (id : BitVec 32) (s : State) : State :=
  match launchOf (s.part p) id with
  | some l => if l.complete then { s with net := s.net.filter (fun w => !(w.part == p && w.launch == id)) } else s
  | none => s

/-- The group of a core has ended: its cores are free, and its launch counts it (R374). -/
def groupEnd (g : GroupRef) (s : State) : State :=
  let s := g.cores.foldl (fun s core => leaveGroup core s) s
  match launchOf (s.part g.part) g.launch with
  | none => s
  | some l => discardWords g.part g.launch
      (mapLaunch g.part l.issued (fun l => { l with running := l.running - 1, ended := l.ended + 1 }) s)

/-- A core's ctx0 has completed GEXIT: the group ends with its last core (R143, R374). -/
def coreEnds (core : Nat) (s : State) : State :=
  let k := s.core core
  match k.group with
  | none => s
  | some g =>
    let s := s.setCore core { k with group := some { g with gexit := true } }
    if g.cores.all (fun n => ((s.core n).group).any (fun h => h.gexit)) then groupEnd g s else s

/-! ### Dispatch (R365, R366, R371, R372) -/

/-- The core of a partition by its partition-relative number lies in the block. -/
def inBlock (first log2 rel : Nat) : Bool := decide (first ≤ rel) && decide (rel < first + 2 ^ log2)

/-- A block of a partition could hold a group of a launch, whatever runs there now (R371). -/
def blockFits (q : Part) (l : Launch) (first : Nat) : Bool :=
  let service := inBlock first l.log2 (q.svccore.extractLsb' 0 15).toNat
  let k := (q.svccore.extractLsb' 16 4).toNat
  let lines := (q.svccore.extractLsb' 20 9).toNat
  decide (first + 2 ^ l.log2 ≤ 16 * q.len.toNat) && (!service || ((k == 0 || decide (l.contexts ≤ k)) && decide (l.lines + lines ≤ 480)))

/-- A block fits now: its cores run no group and its cluster has the barrier slots (R371). -/
def blockFree (s : State) (q : Part) (l : Launch) (first : Nat) : Bool :=
  blockFits q l first &&
    (List.range (2 ^ l.log2)).all (fun i => (s.core (q.coreNo (first + i))).group.isNone) &&
    decide (slotsUsed s (rankOf (q.coreNo first)) + l.slots ≤ 32)

/-- The blocks of a launch in a partition, by their first core. -/
def blocksOf (q : Part) (l : Launch) : List Nat := (List.range (16 * q.len.toNat / 2 ^ l.log2)).map (fun i => i * 2 ^ l.log2)

/-- The block for the lowest-indexed undispatched group of a launch, if one fits now (R372). -/
def chooseBlock (s : State) (q : Part) (l : Launch) : Option Nat :=
  if l.pinned then
    let first := l.place[l.disp]?.getD 0
    if blockFree s q l first then some first else none
  else
    let bs := blocksOf q l
    ((bs.filter (fun b => decide (q.pointer ≤ b))) ++ (bs.filter (fun b => decide (b < q.pointer)))).find? (blockFree s q l)

/-- A dependency on the launch of an issue number is met (R366). -/
def depMet (q : Part) (kind : BitVec 2) (on : Option Nat) : Bool :=
  kind == 0 || q.launches.all (fun l => on != some l.issued || (l.dispatched && (kind == 1 || l.running == 0)))

/-- The queued launches of a priority, in arrival order. -/
def queued (q : Part) (prio : Nat) : List Launch := q.launches.filter (fun l => l.prio == prio && !l.dispatched)

/-- The dispatcher's choice among launches of one priority: nothing here and go on with the next priority, stop, or place. -/
inductive Pick where
  | next
  | stop
  | place (l : Launch) (first : Nat)
deriving DecidableEq, Repr

/-- The first launch of a list decides (R365). -/
def pickFrom (s : State) (q : Part) (l : List Launch) : Pick :=
  match l with
  | [] => .next
  | x :: _ =>
    if depMet q x.dep0 x.on0 ∧ depMet q x.dep1 x.on1 then
      match chooseBlock s q x with
      | some first => .place x first
      | none => .stop
    else .next

/-- The group that the dispatcher places next: its launch and its block (R365). -/
def pickGroup (s : State) (q : Part) : Option (Launch × Nat) :=
  [0, 1, 2, 3].foldr (fun prio rest => match pickFrom s q (queued q prio) with
    | .place l first => some (l, first)
    | .stop => none
    | .next => rest) none

/-- The smallest scratchpad size with at least a number of lines (R156). -/
def sizeFor (lines : Nat) : BitVec 2 := if lines ≤ 256 then 0 else if lines ≤ 384 then 1 else if lines ≤ 448 then 2 else 3

/-- The lines that a core reserves for the fault-service context. -/
def reservedLines (q : Part) (core : Nat) : Nat :=
  if q.coreNo (q.svccore.extractLsb' 0 15).toNat = core then (q.svccore.extractLsb' 20 9).toNat else 0

/-- Write back and invalidate the L1 of a core, and change its split where it differs (R157). -/
def resplit (core : Nat) (size : BitVec 2) (s : State) : State :=
  if (s.core core).spsize = size then s
  else
    let s := (s.core core).l1.foldl (fun s e =>
      if e.st == .O && e.dirty then writeBack s (dieOfCore core) e.line e.data else s) s
    let k := s.core core
    s.setCore core { k with l1 := [], spsize := size
                            spad := k.spad.filter (fun c => decide (c.1 < Nat.min (spBytes k.spsize) (spBytes size))) }

/-- The translation of a launch's own reads for a core (R301, R363). -/
def launchXctx (s : State) (p core : Nat) (l : Launch) : Xctx :=
  (s.part p).xctx p core l.asid l.ttab (rankOf core - (s.part p).base.toNat) 0 0 (rankOf core)

/-- A core receives its group: the split, the slots and the preload of the first code segment, which takes a fetch sequence number like
a CFETCH (R129, R373). [log DESIGN CHOICE 72] -/
def placeOn (p : Nat) (l : Launch) (first core : Nat) (s : State) : State :=
  let q := s.part p
  let s := resplit core (sizeFor (l.lines + reservedLines q core)) s
  let k := s.core core
  let g : GroupRef := ⟨p, l.id, l.disp, q.coreNo first, l.log2, l.contexts, l.lines, l.slots, l.yield, false, false, reservedLines q core⟩
  let n := k.fetchSeq + 1
  s.setCore core { k with
    group := some g, fetchSeq := n
    slots := (Vector.replicate 32 .empty).setIfInBounds (slotOf l.seg) (.fetching (segOf l.seg) n 0 (launchXctx s p core l)) }

/-- A group of a launch is placed on a block (R372, R373). -/
def placeGroup (p : Nat) (l : Launch) (first : Nat) (s : State) : State :=
  let q := s.part p
  let cores := (List.range (2 ^ l.log2)).map (fun i => q.coreNo (first + i))
  let s := cores.foldl (fun s core => placeOn p l first core s) s
  let lead := q.coreNo first
  let s := if l.troupe then
      let c := s.cluster (rankOf lead)
      s.setCluster (rankOf lead) { c with troupes := c.troupes ++
        [⟨BitVec.ofNat 16 ((2 ^ 2 ^ l.log2 - 1) * 2 ^ (lead % 16)), lead % 16, 0⟩] }
    else s
  let s := mapLaunch p l.issued (fun l => { l with disp := l.disp + 1, running := l.running + 1 }) s
  if l.pinned then s
  else
    let next := first + 2 ^ l.log2
    s.setPart p { s.part p with pointer := if 16 * q.len.toNat ≤ next then 0 else next }

/-- GROUP_PLACEMENT (R365, R372). [log DEDUCED 5] -/
def execGroupPlacement (part : Nat) (s : State) : Out :=
  let q := s.part part
  if q.state = 1 then
    match pickGroup s q with
    | some (l, first) => .next (placeGroup part l first s)
    | none => .next s
  else .next s

/-! ### Group start (R139, R170, R373) -/

/-- The context that a group starts on a core; its stack begins below the lines that were reserved when the group was placed (R370, R373). -/
def startCtx (l : Launch) (g : GroupRef) (core cycle : Nat) (size : BitVec 2) : Ctx :=
  let sp := BitVec.ofNat 64 (512 * (spLines size - g.kept))
  let x := { Ctx.reset with
    live := true, pc := l.entry, enter := true, nextIssue := cycle
    sbase := sp, slim := BitVec.ofNat 64 (512 * l.lines), tvec := l.tvec }
  ((((x.setReg 3 l.args).setReg 4 (BitVec.ofNat 64 g.index)).setReg 5 (BitVec.ofNat 64 l.groups)).setReg 6
    (BitVec.ofNat 64 (core - g.first))).setReg 27 sp

/-- A core at group start: per-core registers at their reset values, and what placement and the launch give (R63, R373); the fetch sequence goes
on from the core's earlier groups (R129). [log DESIGN CHOICE 72] -/
def startCore (l : Launch) (g : GroupRef) (core cycle : Nat) (k : Core) : Core :=
  { Core.reset with
    group := some { g with started := true }, spsize := k.spsize, spad := k.spad, l1 := k.l1, imem := k.imem, slots := k.slots
    fetchSeq := k.fetchSeq, accs := k.accs, issueSeq := k.issueSeq, vserved := k.vserved, lanes := k.lanes, nextIssue := cycle
    fwdBuf := k.fwdBuf, dmpc := k.dmpc, startAt := cycle, halted := k.halted
    asid := l.asid, ttab := l.ttab, grp := BitVec.ofNat 64 g.index, ngrp := BitVec.ofNat 64 l.groups, launch := zext l.id
    dm := #v[zext l.id, 0, 0, 0]
    ctxs := Vector.ofFn (fun (i : Fin 11) =>
      if i.val = 0 then startCtx l g core cycle k.spsize
      else if (k.ctx i.val).service then k.ctx i.val else Ctx.reset) }

/-- The runtime copies bytes of a launch's spad image into a core, whose group is placed and has not started, within the scratchpad that the placement gave
it (R28, R373). [log DEDUCED 90] -/
def spadImage (core at_ : Nat) (bytes : List Byte) (s : State) : State :=
  let k := s.core core
  if k.group.any (fun g => !g.started) ∧ at_ + bytes.length ≤ spBytes k.spsize then
    s.setCore core { k with spad := bytes.zipIdx.foldl (fun m b => writeLe m (at_ + b.2) 1 b.1.toNat) k.spad }
  else s

/-- What the core's earlier group left running has ended: vector work, matrix and engine commands. [log DEDUCED 32] -/
def coreQuiet (s : State) (core : Nat) : Bool :=
  (s.core core).mq.isEmpty && (s.core core).ctxs.toList.all (fun x => x.vq.isEmpty || x.service) && s.engine.all (fun c => c.core != core || c.ended)

/-- GROUP_START: the preload lands, and the core's ctx0 starts, an acquire at .sys (R127, R373). [log DEDUCED 5] -/
def execGroupStart (core : Nat) (s : State) : Out :=
  match (s.core core).group with
  | none => .next s
  | some g =>
    let q := s.part g.part
    match launchOf q g.launch with
    | none => .next s
    | some l =>
      if g.started ∨ q.state ≠ 1 ∨ !coreQuiet s core then .next s
      else
        let i := slotOf l.seg
        let s := match (s.core core).slot i with
          | .fetching seg n _ x => landFetch core i seg n x s
          | _ => s
        let s := { s with engine := s.engine.filter (fun c => c.core != core) }
        let k := startCore l g core s.cycle (s.core core)
        .next (s.setCore core (dropT k none))

end Sys2Proof.Machine
end

