-- ==== Sys2Proof/Machine/Xeng.lean ====
section
/-!
DEFINITION. The XENG major: XSEND, XWAIT and XSTAT (R272–R282).
-/

namespace Sys2Proof.Machine

open Sys2Proof

/-- The bytes of a command, its descriptor beside it, as the executing context would send it to an engine. -/
def mkCmd (s : State) (engine : Word) (at_ : Nat) : XCmd :=
  let k := s.mine
  let bytes : CLine := BitVec.ofNat 512 (readRange k.spad at_ 64)
  let tdAt := lineGet bytes 24 4 % 2 ^ 18
  let rank := (getByte k.spad tdAt).toNat
  let desc := if (lineGet bytes 1 1).testBit 0 then
      (List.range (descBytes rank)).map (fun i => getByte k.spad (tdAt + i)) else []
  let g := k.group
  let level := lineGet bytes 6 1
  { core := s.cur.core, ticket := (k.ticket + 1).toNat, ctx := s.cur, order := k.issueSeq, bytes := bytes, desc := desc
    engine := engine, xctx := s.xctx s.cur, launch := g.elim 0 (fun g => g.launch), dom := k.dm[level - 1]?.getD 0
    member := g.elim 0 (memberOf s.cur.core), sentAt := s.cycle, state := 0, status := 0, phase := 0, ncomb := 1
    group := [], index := 0, va := 0, reported := false, frames := [], dva := 0, left := none }

/-- The command writes to the local window (R278). -/
def XCmd.localDst (c : XCmd) : Bool := isLocal c.dst

/-- The command reads from the local window. -/
def XCmd.localSrc (c : XCmd) : Bool := c.op != 2 && isLocal c.src

/-- A byte range lies in the scratchpad. -/
def spanInSpad (k : Core) (r : Span) : Bool := r.all (fun r => decide (0 ≤ r.1) && decide (r.2 < (spBytes k.spsize : Int)))

/-- LOCALRANGE for a command's descriptor, or for a range of it in the local window (R274). [log DESIGN CHOICE 51] -/
def sendRange (s : State) (c : XCmd) : Option Trap :=
  let size := spBytes s.mine.spsize
  let tdAt := c.len % 2 ^ 18
  if c.td ∧ (size ≤ tdAt ∨ size < tdAt + c.desc.length) then some (.mk' cLOCALRANGE (BitVec.ofNat 64 tdAt))
  else if c.localSrc ∧ !spanInSpad s.mine c.srcSpan then some (.mk' cLOCALRANGE c.src)
  else if c.localDst ∧ !spanInSpad s.mine c.dstSpan then some (.mk' cLOCALRANGE c.dst)
    else none

/-- The core has 32 commands outstanding (R274). -/
def sendFull (s : State) : Bool := decide (32 ≤ (s.engine.filter (fun c => c.core == s.cur.core && !c.ended)).length)

/-- A scratchpad write that issued earlier has not been performed. -/
def writesQueued (k : Core) : Bool := k.ctxs.toList.any (fun x => x.vq.any (fun v => !v.wr.isEmpty))

/-- The address is in far memory or a peer window. -/
def isRemote (s : State) (va : Word) (n : Need) : Bool :=
  isPeer va || (enginePa s (s.xctx s.cur) va n).any (isFar s)

/-- An element of a command has its source or its destination there. -/
def touchesRemote (s : State) (c : XCmd) : Bool :=
  (List.range c.total).any (fun n => (c.op != 2 && isRemote s (c.srcAt n) needR) || isRemote s (c.dstAt n) needW)

/-- The release of an XSEND (R274). -/
def sendScope (s : State) (c : XCmd) : BitVec 3 := capped s.myPart (if !c.bad && touchesRemote s c then 7 else 5)

/-- The entry of a command in the range scoreboard: [min, max] of its destination's bytes, or no byte at all (R279). -/
def rangeOf (c : XCmd) : RangeEntry :=
  match c.dstSpan with
  | some r => ⟨c.ticket, r.1.toNat, r.2.toNat, c.order⟩
  | none => ⟨c.ticket, 2 ^ 64, 0, c.order⟩

/-- The command joins the engine, with its entry in the range scoreboard and its ticket; records older than the last 64 go, and with one goes a failure that
nothing has reported (R282). [log DESIGN CHOICE 98] -/
def addCmd (c : XCmd) (s : State) : State :=
  let k := s.mine
  let s := s.setMine { strConsume s.cycle 1 k with ticket := k.ticket + 1, cntEngine := k.cntEngine + 1 }
  let s := if c.localDst then s.setMe { s.me with ranges := s.me.ranges ++ [rangeOf c] } else s
  { s with engine := s.engine.filter (fun e => !(e.core == c.core && e.ended && decide (e.ticket + 64 ≤ c.ticket))) ++ [c] }

/-- The bytes of a command or of its descriptor are not there yet: a scratchpad write that issued earlier has not been performed (R274). -/
def cmdBusy (s : State) (c : XCmd) (at_ : Nat) : Bool :=
  writesQueued s.mine || spadBusy s.mine at_ 64 false || spadBusy s.mine (c.len % 2 ^ 18) c.desc.length false

/-- The engine does not take the command now (R258, R274). -/
def sendHeld (s : State) (c : XCmd) : Bool :=
  releaseHolds s.me || !gateOpen s.mine 1 || sendFull s || (c.localDst && decide (8 ≤ s.me.ranges.length))

/-- XSEND (R274). -/
def execXsend (d a b : Reg) (w : BitVec 3) (s : State) : Out :=
  issueThen [a, b] [d] s (fun s =>
    let v := s.rdB a b
    failThen (if v.toNat % 64 ≠ 0 then some (.mk' cMISALIGN v) else none) s (fun s =>
      failThen (if spBytes s.mine.spsize < v.toNat + 64 then some (.mk' cLOCALRANGE v) else none) s (fun s =>
        let c := mkCmd s (s.rdA a) v.toNat
        if cmdBusy s c v.toNat then hold s
        else failThen (sendRange s c) s (fun s => destThen d s (fun s =>
          if sendHeld s c then hold s
          else releaseThen (sendScope s c) s (fun s =>
            .next (finish w [a, b] (deliver d (BitVec.ofNat 64 c.ticket) (addCmd c s)))))))))

/-- The record of a ticket that an operand names, among the last 64 of the core (R281). -/
def ticketCmd (s : State) (v : Word) : Option XCmd :=
  if v.toNat < 2 ^ 32 ∧ s.mine.ticket.toNat < v.toNat + 64 then findCmd s s.cur.core v.toNat else none

/-- XWAIT (R282). -/
def execXwait (a : Reg) (w : BitVec 3) (s : State) : Out :=
  issueThen [a] [] s (fun s =>
    match ticketCmd s (s.rdA a) with
    | none => .next (finish w [a] s)
    | some c =>
      if !c.ended then hold s
      else if c.unreported then trapEngine c s
      else .next (finish w [a] s))

/-- A word of a progress record (R281), which has no field for the kind of a translation fault. [log DESIGN CHOICE 100] -/
def recordWord (c : XCmd) (n : Nat) : Word :=
  if n = 0 then BitVec.ofNat 64 (c.state.toNat + 2 ^ 4 * c.status.toNat + 2 ^ 12 * c.phase.toNat + 2 ^ 16 * c.ncomb + 2 ^ 32 * c.ticket)
  else if n = 7 then c.va
  else BitVec.ofNat 64 ((dimIndex c.dims c.index)[n - 1]?.getD 0)

/-- XSTAT (R281). -/
def execXstat (d a b : Reg) (w : BitVec 3) (s : State) : Out :=
  issueThen [a, b] [d] s (fun s =>
    let n := s.rdB a b
    if 8 ≤ n.toNat then trapAt cENGFAULT n s
    else match ticketCmd s (s.rdA a) with
      | none => completeWith w [a, b] d (if n = 0 then 15 else 0) s
      | some c =>
        destThen d s (fun s =>
          let s := if n = 0 ∧ c.unreported then markReported c.core c.ticket s else s
          .next (finish w [a, b] (deliver d (recordWord c n.toNat) s))))

end Sys2Proof.Machine
end

