-- ==== Sys2Proof/Machine/EvEngine.lean ====
section
/-!
DEFINITION. The commands of the copy engines as they start, move their elements, and end: COPY and FILL, the collectives, aborts and retirement (R272–R286, R315, R437, R442).
-/

namespace Sys2Proof.Machine

open Sys2Proof

/-! ### COPY and FILL: the start (R273, R275, R277, R280, R315, R442) -/

/-- A command as it arrives by position in the table. -/
def headCmd (s : State) (c : XCmd) : XCmd :=
  match c.group with
  | (core, ticket) :: _ => (findCmd s core ticket).getD c
  | [] => c

/-- The bytes of a command apart from its tag. -/
def untagged (c : XCmd) : Nat := c.bytes.toNat % 256 ^ 56

/-- A queued command that the combining node of its cluster may merge with others. -/
def combines (c : XCmd) : Bool := c.state == 0 && c.status == 0 && (c.op == 1 || c.op == 2) && !c.noComb && !c.localSrc

/-- A queued command that may merge with another one of the cluster (R280). -/
def mergeable (a b : XCmd) : Bool :=
  combines a && combines b && untagged a == untagged b && a.desc == b.desc && a.engine == b.engine && rankOf a.core == rankOf b.core

/-- One command of each core among a list, in order. -/
def oneEach (l : List XCmd) (seen : List Nat) : List XCmd :=
  match l with
  | [] => []
  | c :: t => if seen.contains c.core then oneEach t seen else c :: oneEach t (c.core :: seen)

/-- The group of one command among mergeable ones in the order of their arrival: the first of them opens one, which takes one command of each
core, at most 16, that arrives within 64 cycles of it; the rest form the groups after it (R280). -/
def mergeGroup (fuel : Nat) (c : XCmd) (l : List XCmd) : List XCmd :=
  match fuel, l with
  | f + 1, first :: _ =>
    let g := (oneEach (l.filter (fun d => decide (d.sentAt ≤ first.sentAt + 64))) []).take 16
    if g.any (fun d => d.core == c.core && d.ticket == c.ticket) then g
    else mergeGroup f c (l.filter (fun d => !g.any (fun e => e.core == d.core && e.ticket == d.ticket)))
  | _, _ => [c]

/-- The commands that start with one: it, and those that merge with it. [log DEDUCED 28] -/
def mergeSet (s : State) (c : XCmd) : List XCmd :=
  if combines c then mergeGroup s.engine.length c (s.engine.filter (mergeable c)) else [c]

/-- A command that may merge waits, from the arrival of the first of its group on, for the 64 cycles in which others may join, or for sixteen of
them (R280). [log DEDUCED 28] -/
def mergeOpen (s : State) (c : XCmd) : Bool :=
  let g := mergeSet s c
  combines c && decide (g.length < 16) && decide (s.cycle ≤ (g.head?.elim 0 (fun d => d.sentAt)) + 64)

/-- Two bounding ranges meet. -/
def spansMeet (a b : Span) : Bool :=
  match a, b with
  | some a, some b => decide (a.1 ≤ b.2) && decide (b.1 ≤ a.2)
  | _, _ => false

/-- The commands of a list run as one: its first command's translation, with that one's ASID, tables and position, is used for all (R277, R280).
[log DESIGN CHOICE 87] -/
def runAs (l : List XCmd) (f : XCmd → XCmd) (s : State) : State :=
  let ids := l.map (fun c => (c.core, c.ticket))
  mapCmds ids (fun c => f { c with state := 1, group := ids, ncomb := ids.length }) s

/-- A COPY or FILL starts: the status of what is wrong with it, or it runs. Of a bad engine address and a bad field the former counts (R273, R275).
[log DESIGN CHOICE 87] -/
def startCopy (c : XCmd) (s : State) : State :=
  let one := fun (status : BitVec 8) (va : Word) => mapCmds [(c.core, c.ticket)] (failCmd status va) s
  if !engineOk s c then one 1 0
  else if c.bad then one 2 0
  else
    let l := mergeSet s c
    let all := fun (status : BitVec 8) (va : Word) => runAs l (failCmd status va) s
    if c.op = 1 ∧ spansMeet c.srcSpan c.dstSpan then all 5 0
    else if c.isSend s ∧ !sendOk s c then all 1 c.dst
    else if c.sh then
      match shadowOf s c.ctx (engCtx s c) c.shd with
      | .wait a => a.put s
      | .fail e => all e c.shd
      | .ok d frames t =>
        if c.inShadow d.dva d.pages then runAs l (fun c => { c with frames := frames, dva := d.dva }) t
        else all 8 c.dst
    else runAs l (fun c => c) s

/-! ### COPY and FILL: the elements -/

/-- A write to the sender's scratchpad waits for the queued vector instructions that the XSEND followed and that name its line (R167, R279).
[log DEDUCED 28] -/
def localBlocked (s : State) (c : XCmd) (core : Nat) (a n : Nat) : Bool :=
  match findCmd s core (((c.group.find? (fun g => g.1 == core)).map (fun g => g.2)).getD c.ticket) with
  | none => false
  | some d => (s.core core).ctxs.toList.any (fun x => x.vq.any (fun v => decide (v.seq < d.order) &&
      (v.wr ++ v.rd).any (fun l => decide (512 * l < a + n) && decide (a < 512 * l + 512))))

/-- The element of a command that is next is read; FILL has its pattern. -/
def readElem (s : State) (c : XCmd) : EngRead :=
  if c.op = 2 then .ok (c.src.toNat % 256 ^ c.elem) s
  else engineRead s c.ctx (engCtx s c) (c.srcAt c.index) c.elem

/-- It is written: into the shadow frame, into a send that the receiver collects, or to its address. -/
def writeElem (s : State) (c : XCmd) (v : Nat) : EngWrite :=
  let spads := c.group.map (fun g => g.1)
  let va := c.dstAt c.index
  if c.sh then shadowWrite s c.ctx spads (engCtx s c) c.frames c.dva va c.elem v
  else if c.isSend s then (if fabricHeld s c.xctx.part then .wait none else .ok s)
  else if isLocal va ∧ spads.any (fun core => localBlocked s c core (locOf va) c.elem) then .wait none
  else engineWrite s c.ctx spads (engCtx s c) va c.elem v

/-- The merged commands move on to the next element. With its last one a send leaves the package; when the receiver acknowledges it is not stated
(R442). [log DESIGN CHOICE 4; DEDUCED 28] -/
def nextElem (c : XCmd) (s : State) : State :=
  let s := mapCmds c.group (fun d => { d with index := c.index + 1 }) s
  if c.total ≤ c.index + 1 ∧ c.isSend s then
    let r := draw s
    mapCmds c.group (fun d => { d with left := some (s.cycle, s.cycle + r.1.toNat) }) r.2
  else s

/-- One element, and whether the next may follow: not where it has to wait. -/
def stepElem (c : XCmd) (s : State) : State × Bool :=
  match readElem s c with
  | .wait a => (askedFor a s, false)
  | .fail e => (mapCmds c.group (failCmd e (c.srcAt c.index)) s, false)
  | .ok v t =>
    match writeElem t c v with
    | .wait a => (askedFor a s, false)
    | .fail e => (mapCmds c.group (failCmd e (c.dstAt c.index)) t, false)
    | .ok u => (nextElem c u, true)

/-- At most `n` elements of a command. -/
def runElems (n core ticket : Nat) (s : State) : State :=
  match n with
  | 0 => s
  | m + 1 =>
    match findCmd s core ticket with
    | none => s
    | some c =>
      if c.state ≠ 1 ∨ c.status ≠ 0 ∨ c.total ≤ c.index then s
      else
        let r := stepElem c s
        if r.2 then runElems m core ticket r.1 else r.1

/-- A command that is no collective starts or goes on with some elements. -/
def moveCmd (core ticket n : Nat) (s : State) (kind : XCmd → Bool) : Out :=
  match findCmd s core ticket with
  | none => .next s
  | some c =>
    if !kind c ∨ c.isColl ∨ c.ended ∨ !engineRuns s c then .next s
    else if c.state = 0 then (if (s.part c.xctx.part).state = 1 ∧ !mergeOpen s c then .next (startCopy c s) else .next s)
    else
      let h := headCmd s c
      .next (runElems (max 1 n) h.core h.ticket s)

/-- COPY; a command whose code names no operation starts, and fails, here too (R275, R277). -/
def execCopy (core ticket elems : Nat) (s : State) : Out := moveCmd core ticket elems s (fun c => c.op != 2)

/-- FILL (R277). -/
def execFill (core ticket elems : Nat) (s : State) : Out := moveCmd core ticket elems s (fun c => c.op == 2)

/-! ### Collectives: the members (R284, R437) -/

/-- The members of a collective: the launch core index of the first, where they are those of a domain; how many members other packages have
before this one's; and how many there are in this package and in all. -/
structure Members where
  first  : Nat
  before : Nat
  count  : Nat
  total  : Nat
  peers  : Bool
deriving DecidableEq, Repr

/-- The n bytes of a peer-group entry from offset i (R437). -/
def pgrpNum (s : State) (c : XCmd) (i n : Nat) : Nat :=
  let ipa := c.xctx.peertab.toNat / 2 ^ 12 % 2 ^ 40 * 2 ^ 12 + 0x4000 + 256 * c.pgrp
  match stage2 s { c.xctx with priv := 1 } needR ipa with
  | some pa => (List.range n).foldr (fun k v => peek s (pa + i + k) 1 + 256 * v) 0
  | none => 0

/-- The number of set bits below bit n. -/
def bitsBelow (v n : Nat) : Nat := ((List.range n).filter (fun i => v.testBit i)).length

/-- The members of a command's collective, or none where its domain or its peer group is not there. -/
def membersOf (s : State) (c : XCmd) : Option Members :=
  if c.gkind = 1 then
    let mask := pgrpNum s c 0 128
    let cores := pgrpNum s c 128 2
    let me := s.fabric.peer.toNat
    if cores = 0 ∨ 16384 < cores ∨ pgrpNum s c 130 126 ≠ 0 ∨ !mask.testBit me then none
    else some ⟨0, bitsBelow mask me * cores, cores, bitsBelow mask 1024 * cores, mask != 2 ^ me⟩
  else
    match launchOf (s.part c.xctx.part) c.launch with
    | none => none
    | some l =>
      let n := l.groups * 2 ^ l.log2
      if c.level = 1 then some ⟨0, 0, n, n, false⟩
      else if c.dom.getLsbD 63 then
        let lo := (c.dom.extractLsb' 0 20).toNat
        let hi := (c.dom.extractLsb' 20 20).toNat
        some ⟨lo, 0, hi + 1 - lo, hi + 1 - lo, false⟩
      else none

/-- Two commands carry the same id in one partition, and in one launch, unless both join a peer group. -/
def sameCid (a b : XCmd) : Bool :=
  a.isColl && b.isColl && a.cid == b.cid && a.xctx.part == b.xctx.part && (a.launch == b.launch || (a.gkind == 1 && b.gkind == 1))

/-- A command's member lies in a domain; a peer group takes every core. -/
def inMembers (c : XCmd) (m : Members) (d : XCmd) : Bool :=
  c.gkind == 1 || (decide (m.first ≤ d.member) && decide (d.member < m.first + m.count))

/-- The queued commands that join a command's collective, one of each core, ordered by member. -/
def joining (s : State) (c : XCmd) (m : Members) : List XCmd :=
  (oneEach (s.engine.filter (fun d => sameCid c d && d.state == 0 && d.status == 0 && inMembers c m d)) []).mergeSort
    (fun a b => if c.gkind = 1 then decide (a.core ≤ b.core) else decide (a.member ≤ b.member))

/-- A member that failed or was killed before its collective had formed, and from which this command's core has not been aborted. -/
def brokenBy (s : State) (c : XCmd) (m : Members) : Option XCmd :=
  s.engine.find? (fun f => sameCid c f && f.status != 0 && f.phase == 0 && f.core != c.core && inMembers c m f &&
    !f.group.any (fun g => g.1 == c.core))

/-- Two members agree (R284). -/
def agree (a b : XCmd) : Bool :=
  a.op == b.op && a.dtype == b.dtype && a.rop == b.rop && a.gkind == b.gkind && a.level == b.level && a.pgrp == b.pgrp && a.len == b.len

/-! ### Collectives: the data (R284–R286) -/

/-- An element widened as the reduction takes it. -/
def widen (c : XCmd) (x : Nat) : Nat := if c.dtype = 1 then (bf16.convert f32 0 false x).1 else x

/-- The operation of a reduction on two values. -/
def reduceOp (c : XCmd) (a b : Nat) : Nat :=
  if c.dtype = 2 then
    (if c.rop = 0 then (a + b) % 2 ^ 32
     else if (toSigned 32 a ≤ toSigned 32 b) = (c.rop = 1) then b else a)
  else if c.rop = 0 then (f32.add 0 a b).1
  else (f32.minMax (c.rop == 1) a b).1

/-- One level of the tree: pairs, the lower index left, and an unpaired last value as it is. -/
def reduceLevel (c : XCmd) (l : List Nat) : List Nat :=
  match l with
  | a :: b :: t => reduceOp c a b :: reduceLevel c t
  | l => l

/-- The tree's value. -/
def reduceTree (fuel : Nat) (c : XCmd) (l : List Nat) : Nat :=
  match fuel with
  | 0 => l.head?.getD 0
  | f + 1 => if l.length ≤ 1 then l.head?.getD 0 else reduceTree f c (reduceLevel c l)

/-- Element j of the reduction of the members' elements. -/
def reduceAt (c : XCmd) (vals : List (List Nat)) (j : Nat) : Nat :=
  let r := reduceTree 64 c (vals.map (fun v => widen c (v[j]?.getD 0)))
  if c.dtype = 1 then (f32.convert bf16 0 false r).1 else r

/-- Read a member's n elements from one on: a wait, a failure or the elements. -/
inductive ElemsEnd where
  | wait (ask : Option Ask)
  | fail (status : BitVec 8) (va : Word)
  | ok (l : List Nat) (s : State)
deriving DecidableEq, Repr

def readElems (n i : Nat) (c : XCmd) (s : State) : ElemsEnd :=
  match n with
  | 0 => .ok [] s
  | m + 1 =>
    let va := c.src + BitVec.ofNat 64 (i * c.elem)
    match engineRead s c.ctx (engCtx s c) va c.elem with
    | .wait a => .wait a
    | .fail e => .fail e va
    | .ok v t =>
      match readElems m (i + 1) c t with
      | .ok l u => .ok (v :: l) u
      | o => o

/-- What a step of a collective over its members comes to: it waits, one member fails, or all have gone on. -/
inductive CollEnd (α : Type) where
  | wait (ask : Option Ask)
  | fail (core ticket : Nat) (status : BitVec 8) (va : Word)
  | ok (a : α) (s : State)

/-- Every member's elements. -/
def readMembers (l : List XCmd) (s : State) : CollEnd (List (List Nat)) :=
  match l with
  | [] => .ok [] s
  | c :: t =>
    match readElems c.len 0 c s with
    | .wait a => .wait a
    | .fail e va => .fail c.core c.ticket e va
    | .ok v u =>
      match readMembers t u with
      | .ok r w => .ok (v :: r) w
      | o => o

/-- Free values for elements that other packages' members take part in. [log DESIGN CHOICE 4; DEDUCED 25] -/
def drawElems (n size : Nat) (s : State) : List Nat × State :=
  match n with
  | 0 => ([], s)
  | m + 1 =>
    let r := draw s
    let t := drawElems m size r.2
    (r.1.toNat % 256 ^ size :: t.1, t.2)

/-- The elements that the members' destinations receive: one list for each of this package's members. -/
def collResult (c : XCmd) (m : Members) (vals : List (List Nat)) (s : State) : List (List Nat) × State :=
  let n := c.len
  if c.op = 0x12 then
    let r := if m.peers then
        let lo := drawElems (m.before * n) c.elem s
        let hi := drawElems ((m.total - m.before - m.count) * n) c.elem lo.2
        (lo.1 ++ vals.flatten ++ hi.1, hi.2)
      else (vals.flatten, s)
    (vals.map (fun _ => r.1), r.2)
  else
    let r := if m.peers then drawElems n c.elem s else ((List.range n).map (reduceAt c vals), s)
    if c.op = 0x10 then (vals.map (fun _ => r.1), r.2)
    else
      let part := n / m.total
      (vals.zipIdx.map (fun e => (r.1.drop ((m.before + e.2) * part)).take part), r.2)

/-- The number of elements that a member's destination receives. -/
def destElems (c : XCmd) (m : Members) : Nat := if c.op = 0x10 then c.len else if c.op = 0x11 then c.len / m.total else m.total * c.len

/-- What writing a member's elements comes to: a wait for a tenure, a failure, or the state. -/
inductive PutEnd where
  | wait (ask : Option Ask)
  | fail (status : BitVec 8) (va : Word)
  | ok (s : State)
deriving DecidableEq, Repr

/-- A member's elements go into its shadow frames. -/
def putElems (c : XCmd) (i : Nat) (l : List Nat) (s : State) : PutEnd :=
  match l with
  | [] => .ok s
  | v :: t =>
    let va := c.dst + BitVec.ofNat 64 (i * c.elem)
    match shadowWrite s c.ctx [c.core] (engCtx s c) c.frames c.dva va c.elem v with
    | .ok u => putElems c (i + 1) t u
    | .fail e => .fail e va
    | .wait a => .wait a

/-- Every member's. -/
def putMembers (l : List (XCmd × List Nat)) (s : State) : CollEnd Unit :=
  match l with
  | [] => .ok () s
  | (c, v) :: t =>
    match putElems c 0 v s with
    | .wait a => .wait a
    | .fail e va => .fail c.core c.ticket e va
    | .ok u => putMembers t u

/-- The shadows of the members, and what is wrong with the first that is bad (R315). -/
def takeShadows (m : Members) (l : List XCmd) (s : State) : CollEnd Unit :=
  match l with
  | [] => .ok () s
  | c :: t =>
    match shadowOf s c.ctx (engCtx s c) c.shd with
    | .wait a => .wait (some a)
    | .fail e => .fail c.core c.ticket e c.shd
    | .ok d frames s =>
      if (List.range (destElems c m)).all (fun i => inFrames d.dva d.pages (c.dst + BitVec.ofNat 64 (i * c.elem)) c.elem) then
        takeShadows m t (mapCmds [(c.core, c.ticket)] (fun c => { c with frames := frames, dva := d.dva }) s)
      else .fail c.core c.ticket 8 c.dst

/-- What the members publish, checked before any is (R286, R316). -/
def publishable (l : List XCmd) (s : State) : Except (Nat × Nat × BitVec 8 × Word) (List (CtxId × Xctx × Shadow × List Nat × List Nat)) :=
  match l with
  | [] => .ok []
  | c :: t =>
    match publishCheck s (engCtx s c) c.shd with
    | .inl e => .error (c.core, c.ticket, if e.cause = cPRIV ∨ (e.cause = cADDRFORM ∧ e.tval = c.shd) then 8 else 3, e.tval)
    | .inr d =>
      match publishable t s with
      | .ok r => .ok ((c.ctx, engCtx s c, d) :: r)
      | .error e => .error e

/-! ### Collectives: the steps -/

/-- The members of a formed collective that this package has, in order. -/
def groupOf (s : State) (c : XCmd) : List XCmd := c.group.filterMap (fun g => findCmd s g.1 g.2)

/-- A formed collective is broken: a member is gone or has a status. [log DEDUCED 29] -/
def isBroken (s : State) (c : XCmd) : Bool := (groupOf s c).length != c.group.length || (groupOf s c).any (fun d => d.status != 0)

/-- Clusters that a collective spans have a free barrier slot each. -/
def slotsFree (s : State) (l : List XCmd) : Bool := l.all (fun d => decide (slotsUsed s (rankOf d.core) < 32))

/-- The peer-group entries of the member packages differ: what other packages' entries hold is not stated (R437). [log DESIGN CHOICE 4; DEDUCED 29] -/
def entriesDiffer (m : Members) (s : State) : Bool × State :=
  if m.peers then (let r := draw s; (r.1.getLsbD 0, r.2)) else (false, s)

/-- The collective forms, once every member is there; a shadow that cannot be read yet keeps it from forming (R284, R315, R324, R437). -/
def formColl (c : XCmd) (m : Members) (s : State) : State :=
  let l := joining s c m
  let ids := l.map (fun d => (d.core, d.ticket))
  if l.length ≠ m.count ∨ l.any (fun d => (brokenBy s d m).isSome || !engineOk s d || d.bad) then s
  else
    let run := fun (f : XCmd → XCmd) (s : State) => mapCmds ids (fun d => f { d with state := 1, group := ids }) s
    if l.any (fun d => !agree c d) then run (failCmd 9 0) s
    else if c.op = 0x11 ∧ c.len % m.total ≠ 0 then run (failCmd 2 0) s
    else if !slotsFree s l then s
    else
      let t := run (fun d => d) s
      match takeShadows m (l.filterMap (fun d => findCmd t d.core d.ticket)) t with
      | .wait a => askedFor a s
      | .fail core ticket e va => mapCmds [(core, ticket)] (failCmd e va) t
      | .ok _ u =>
        let r := entriesDiffer m u
        if r.1 then run (failCmd 9 0) r.2 else r.2

/-- A collective with members in other packages is held while the fabric requests of its partition are (R439). -/
def collHeld (s : State) (c : XCmd) (m : Members) : Bool := m.peers && fabricHeld s c.xctx.part

/-- A queued collective starts or fails by itself. [log DEDUCED 29] -/
def startColl (c : XCmd) (s : State) : State :=
  let one := fun (status : BitVec 8) => mapCmds [(c.core, c.ticket)] (failCmd status 0) s
  if !engineOk s c then one 1
  else if c.bad then one 2
  else match membersOf s c with
    | none => one 2
    | some m => if collHeld s c m then s else formColl c m s

/-- The members are in the next phase. -/
def setPhase (n : BitVec 4) (index : Nat) (c : XCmd) (s : State) : State := mapCmds c.group (fun d => { d with phase := n, index := index }) s

/-- The members are in the next phase, unless a member package has aborted the collective meanwhile, because a member of it failed or was killed: whether
one has is not stated (R286, R437). [log DESIGN CHOICE 4; DEDUCED 29] -/
def advance (n : BitVec 4) (index : Nat) (c : XCmd) (m : Members) (s : State) : State :=
  if m.peers then
    let r := draw s
    if r.1.getLsbD 0 then mapCmds c.group (failCmd 6 0) r.2 else setPhase n index c r.2
  else setPhase n index c s

/-- A running collective goes on by one phase: gathered, reduced, distributed, published; publishing waits for the accesses that used the removed
entries and for the lines it writes (R286, R316, R324). [log DEDUCED 29; DEDUCED 67] -/
def stepColl (c : XCmd) (m : Members) (s : State) : State :=
  let l := groupOf s c
  let bad := fun (core ticket : Nat) (e : BitVec 8) (va : Word) => mapCmds [(core, ticket)] (failCmd e va) s
  if c.phase = 0 then advance 1 0 c m s
  else if c.phase = 1 then advance 2 0 c m s
  else if c.phase = 2 then
    match readMembers l s with
    | .wait a => askedFor a s
    | .fail core ticket e va => bad core ticket e va
    | .ok vals t =>
      let r := collResult c m vals t
      match putMembers (l.zip r.1) r.2 with
      | .fail core ticket e va => bad core ticket e va
      | .ok _ u => advance 3 (destElems c m) c m u
      | .wait a => askedFor a s
  else if c.phase = 3 then
    match publishable l s with
    | .error (core, ticket, e, va) => bad core ticket e va
    | .ok ps =>
      if ps.any (fun p => usesEntry (p.2.2.1.inval p.2.1) (s.part p.2.1.part).ranks s.nextId s) then s
      else match askFirst (ps.flatMap (fun p => publishLines p.1 p.2.2.1 p.2.2.2.1 p.2.2.2.2)) s with
        | (some a, _) => a.put s
        | (none, s) => setPhase 4 (destElems c m) c (ps.foldl (fun s p => publishPages p.2.1 p.2.2.1 p.2.2.2.1 p.2.2.2.2 s) s)
  else s

/-- A collective of an operation starts or goes on. -/
def moveColl (op core ticket : Nat) (s : State) : Out :=
  match findCmd s core ticket with
  | none => .next s
  | some c =>
    if c.op ≠ op ∨ c.ended ∨ c.status ≠ 0 ∨ !engineRuns s c then .next s
    else if c.state = 0 then (if (s.part c.xctx.part).state = 1 then .next (startColl c s) else .next s)
    else if c.state = 1 ∧ !isBroken s c ∧ (groupOf s c).all (engineRuns s) then
      match membersOf s c with
      | some m => .next (if collHeld s c m then s else stepColl c m s)
      | none => .next s
    else .next s

/-- ALLREDUCE (R284–R286). -/
def execAllreduce (core ticket : Nat) (s : State) : Out := moveColl 0x10 core ticket s

/-- REDUCESCATTER. -/
def execReducescatter (core ticket : Nat) (s : State) : Out := moveColl 0x11 core ticket s

/-- ALLGATHER. -/
def execAllgather (core ticket : Nat) (s : State) : Out := moveColl 0x12 core ticket s

/-! ### ABORT and the end (R282, R283, R286, R437) -/

/-- A command's wait for other packages has lasted for cr.fabto. -/
def pastFabto (s : State) (c : XCmd) : Bool := decide (c.sentAt + fabricCycles (s.part c.xctx.part) ≤ s.cycle)

/-- ABORT reaches a member: its collective is broken, a member of it failed before it formed, or members of other packages stay out of
reach (R286, R437). [log DEDUCED 29] -/
def execAbort (core ticket : Nat) (s : State) : Out :=
  match findCmd s core ticket with
  | none => .next s
  | some c =>
    if !c.isColl ∨ c.ended ∨ c.status ≠ 0 ∨ c.phase = 4 then .next s
    else
      let stop := mapCmds [(core, ticket)] (failCmd 6 0) s
      match membersOf s c with
      | none => .next s
      | some m =>
        if c.state ≠ 0 ∧ isBroken s c then .next stop
        else if m.peers ∧ pastFabto s c then .next stop
        else if c.state = 0 then
          match brokenBy s c m with
          | some f => .next (mapCmds [(f.core, f.ticket)] (fun f => { f with group := f.group ++ [(core, ticket)] }) stop)
          | none => .next s
        else .next s

/-- What a send that has left the package comes to: nothing yet; status 0, once its receiver has acknowledged it over a port that is up and within the
cr.fabto of its leaving; or FABRIC at that time (R428, R440, R442). [log DEDUCED 28] -/
def sendEnd (s : State) (c : XCmd) : Option (BitVec 8) :=
  match c.left with
  | none => none
  | some (at_, ack) =>
    let last := at_ + fabricCycles (s.part c.xctx.part)
    if ack < last ∧ ack ≤ s.cycle ∧ hasScaleout s then some 0
    else if last ≤ s.cycle then some 7
    else none

/-- The status with which a command that is over ends, or none while it is not: its own failure, a send's end, or 0 after all of its elements or
phases. -/
def endStatus (s : State) (c : XCmd) : Option (BitVec 8) :=
  if c.state ≠ 1 then none
  else if c.status ≠ 0 then some c.status
  else if c.isColl then (if c.phase = 4 then some 0 else none)
  else if c.index < c.total then none
  else if c.left.isSome then sendEnd s c
  else some 0

/-- The engine has no more to do for a command. -/
def cmdOver (c : XCmd) : Bool := c.state == 1 && (c.status != 0 || (if c.isColl then c.phase == 4 else decide (c.total ≤ c.index)))

/-- The commands that end with one: merged ones share its progress record and its outcome (R280). -/
def endsWith (c : XCmd) : List (Nat × Nat) := if c.isColl ∨ c.group = [] then [(c.core, c.ticket)] else c.group

/-- A command of a core retires: its scoreboard entry goes, and the strings' copy source fires, for a collective its collective source too (R254, R279). -/
def retireCmd (coll : Bool) (s : State) (id : Nat × Nat) : State :=
  let s := (findCmd s id.1 id.2).elim s (fun c =>
    let x := s.ctx c.ctx
    s.setCtx c.ctx { x with ranges := x.ranges.filter (fun r => r.ticket != id.2) })
  let s := pulse id.1 1 s
  if coll then pulse id.1 2 s else s

/-- ENGINE_COMMAND_DONE: the command ends with its status, and those merged with it at the same time (R254, R279, R280, R283). -/
def execEngineCommandDone (core ticket : Nat) (s : State) : Out :=
  match findCmd s core ticket with
  | none => .next s
  | some c =>
    match endStatus s c with
    | none => .next s
    | some e =>
      if !engineRuns s c ∨ !replicasDone s c then .next s
      else
        let ids := endsWith c
        let s := mapCmds ids (fun c => { c with status := e, state := if e = 0 then 3 else if e = 6 then 5 else 4 }) s
        .next (ids.foldl (retireCmd c.isColl) s)

end Sys2Proof.Machine
end

