-- ==== Sys2Proof/Machine/Evt.lean ====
section
/-!
DEFINITION. Event counters, WFE, and the strings timer and wake (R144, R145, R254, R257, R258).
-/

namespace Sys2Proof.Machine

open Sys2Proof

/-- The event counter that an operand names. -/
def evIndex (v : Word) : Nat := (v.extractLsb' 0 3).toNat

/-- A core with an event counter set. -/
def setEv (k : Core) (n : Nat) (v : Word) : Core := { k with evcnt := k.evcnt.setIfInBounds n v }

/-- EVWAIT (R144). -/
def execEvwait (a : Reg) (w : BitVec 3) (s : State) : Out :=
  issueThen [a] [] s (fun s =>
    let n := evIndex (s.rdA a)
    let v := s.mine.evcnt[n]?.getD 0
    if v = 0 then hold s else .next (finish w [a] (s.setMine (setEv s.mine n (v - 1)))))

/-- An event counter counts, and its software event fires (R144, R254). -/
def signalEvent (core n : Nat) (s : State) : State :=
  let k := s.core core
  pulse core (7 + n) (s.setCore core (setEv k n (k.evcnt[n]?.getD 0 + 1)))

/-- EVSIG (R144). -/
def execEvsig (a : Reg) (w : BitVec 3) (s : State) : Out :=
  issueThen [a] [] s (fun s => releaseThen 1 s (fun s =>
    .next (finish w [a] (signalEvent s.cur.core (evIndex (s.rdA a)) s))))

/-- EVRD (R144). -/
def execEvrd (d a : Reg) (w : BitVec 3) (s : State) : Out :=
  issueThen [a] [d] s (fun s => completeWith w [a] d (s.mine.evcnt[evIndex (s.rdA a)]?.getD 0) s)

/-- EVCLR (R144). -/
def execEvclr (a : Reg) (w : BitVec 3) (s : State) : Out :=
  issueThen [a] [] s (fun s => .next (finish w [a] (s.setMine (setEv s.mine (evIndex (s.rdA a)) 0))))

/-- WFE (R145). -/
def execWfe (w : BitVec 3) (s : State) : Out :=
  issueThen [] [] s (fun s => if s.me.wake then .next (finish w [] (s.setMe { s.me with wake := false })) else hold s)

/-- WAKE: the strings' wake target has fired (R258). -/
def execWake (core : Nat) (s : State) : Out :=
  let k := s.core core
  if isCore core ∧ k.strDue.getLsbD 0 then
    let k := { strConsume s.cycle 2 k with strDue := k.strDue &&& 2 }
    .next (s.setCore core { k with ctxs := k.ctxs.map (fun x => { x with wake := true }) })
  else .next s

/-- STRINGS_TIMER: the timer pulses every 2^(TIMER + 5) cycles from the write of cr.strtgt (R257). [log DEDUCED 50] -/
def execStringsTimer (core : Nat) (s : State) : Out :=
  let k := s.core core
  let t := (k.strtgt.extractLsb' 20 4).toNat
  if isCore core ∧ t ≠ 0 ∧ k.timerAt + 2 ^ (t + 5) ≤ s.cycle then .next (pulse core 6 (s.setCore core { k with timerAt := k.timerAt + 2 ^ (t + 5) }))
  else .next s

end Sys2Proof.Machine
end

