-- ==== Sys2Proof/Machine/VUnit.lean ====
section
/-!
DEFINITION. Vector instructions: elements of lines and masks, the checks at issue, the queue, and results for g registers (R66, R158–R174).
-/

namespace Sys2Proof.Machine

open Sys2Proof

/-! ### Elements (R58, R66, R171, R172) -/

/-- The width of an element type in bits. -/
def tyWidth (ty : BitVec 3) : Nat :=
  if ty = 0 then 4 else if ty = 1 then 8 else if ty = 2 then 16 else if ty = 3 then 32 else if ty = 4 then 8 else if ty = 5 then 8
  else if ty = 6 then 16 else 32

/-- A float type. -/
def tyFloat (ty : BitVec 3) : Bool := ty.getLsbD 2

/-- The format of a float type. -/
def tyFmt (ty : BitVec 3) : Fmt := if ty = 4 then e4m3 else if ty = 5 then e5m2 else if ty = 6 then bf16 else f32

/-- The elements of a line. -/
def tyCount (ty : BitVec 3) : Nat := 4096 / tyWidth ty

/-- The first n elements of w bits of a number. -/
def elems (w n v : Nat) : List Nat :=
  match n with
  | 0 => []
  | k + 1 => v % 2 ^ w :: elems w k (v / 2 ^ w)

/-- The number whose elements of w bits are a list's. -/
def ofElems (w : Nat) (l : List Nat) : Nat :=
  match l with
  | [] => 0
  | x :: t => x % 2 ^ w + 2 ^ w * ofElems w t

/-- Element i of w bits of a number. -/
def elemAt (w v i : Nat) : Nat := v / 2 ^ (w * i) % 2 ^ w

/-- The elements of a line of a core. -/
def Core.lineElems (k : Core) (ty : BitVec 3) (l : Nat) : List Nat := elems (tyWidth ty) (tyCount ty) (k.spadLine l)

/-- A mask register. -/
def Ctx.mask (x : Ctx) (i : Nat) : Mask := x.m[i]?.getD 0

/-- Element i of a width is active under a mask (R171). -/
def isActive (m : Mask) (w i : Nat) : Bool := m.getLsbD (i * (w / 4))

/-- A signed and a wrapped reading of a w-bit element. -/
def sgn (w x : Nat) : Int := toSigned w x
def wrap (w : Nat) (i : Int) : Nat := (i % 2 ^ w).toNat

/-- Elementwise: f on the elements x, y and z where the element is active, else the old z, with the flags of the active ones. -/
def mapAct (f : Nat → Nat → Nat → Nat × BitVec 8) (m : Mask) (w i : Nat) (xs ys zs : List Nat) : List Nat × BitVec 8 :=
  match xs, ys, zs with
  | x :: xs, y :: ys, z :: zs =>
    let r := if isActive m w i then f x y z else (z, 0)
    let t := mapAct f m w (i + 1) xs ys zs
    (r.1 :: t.1, r.2 ||| t.2)
  | _, _, _ => ([], 0)

/-- Every r-th element of a list from the k-th on. -/
def pickMod (r k : Nat) (l : List Nat) : List Nat := (l.zipIdx.filter (fun e => e.2 % r == k)).map (fun e => e.1)

/-! ### What an instruction writes when it runs -/

/-- The lines and the masks that an instruction writes, and its flags. -/
structure VRes where
  lines : List (Nat × Nat)
  masks : List (Nat × Mask)
  flags : BitVec 8
deriving DecidableEq, Repr

/-- One line written. -/
def oneLine (l v : Nat) (f : BitVec 8) : VRes := ⟨[(l, v)], [], f⟩

/-- One mask written. -/
def oneMask (d : Reg) (m : Mask) (f : BitVec 8) : VRes := ⟨[], [(d.toNat, m)], f⟩

/-- A masked elementwise result into the d line, from the a and the b line. -/
def vmap (f : Nat → Nat → Nat → Nat × BitVec 8) (ty : BitVec 3) (x : Ctx) (k : Core) (e : VEntry) : VRes :=
  let r := mapAct f (x.mask 0) (tyWidth ty) 0 (k.lineElems ty e.a) (k.lineElems ty e.b) (k.lineElems ty e.d)
  oneLine e.d (ofElems (tyWidth ty) r.1) r.2

/-- The same from given values in place of the elements of the a line. -/
def vput (vals : List Nat) (f : Nat → Nat × BitVec 8) (ty : BitVec 3) (x : Ctx) (k : Core) (e : VEntry) : VRes :=
  let r := mapAct (fun v _ _ => f v) (x.mask 0) (tyWidth ty) 0 vals vals (k.lineElems ty e.d)
  oneLine e.d (ofElems (tyWidth ty) r.1) r.2

/-- The line that pointer p[d + i] of a widening instruction names. -/
def VEntry.dst (e : VEntry) (i : Nat) : Nat := e.wr[i]?.getD 0

/-- A widening result of ratio r from width w to width r × w (R172): f on elements x and y and the old wide element. Where two destination
pointers name one line, both results are computed from the line as it was, and the later pointer's is written last. [log DESIGN CHOICE 64] -/
def vwiden (r w : Nat) (f : Nat → Nat → Nat → Nat × BitVec 8) (xs ys : List Nat) (x : Ctx) (k : Core) (e : VEntry) : VRes :=
  let old := (List.range (4096 / w)).map (fun i => elemAt (r * w) (k.spadLine (e.dst (i % r))) (i / r))
  let t := mapAct f (x.mask 0) w 0 xs ys old
  ⟨(List.range r).map (fun i => (e.dst i, ofElems (r * w) (pickMod r i t.1))), [], t.2⟩

/-- The mask in which every bit of the first elements is their truth value: element i owns w/4 bits (R186). -/
def maskOf (w : Nat) (l : List Bool) : Nat :=
  match l with
  | [] => 0
  | b :: t => (if b then 2 ^ (w / 4) - 1 else 0) + 2 ^ (w / 4) * maskOf w t

/-! ### Checks at issue (R159, R162, R163) -/

/-- The distinct lines that a, b and d name lie in distinct bank groups. -/
def banksOk (lines : List Nat) : Bool := lines.all (fun l => lines.all (fun m => l == m || l % 4 != m % 4))

/-- The value of cr.tval for BANKRULE. -/
def bankWord (d a b : Option Nat) : Word :=
  BitVec.ofNat 64 (d.getD 0x1FF + 2 ^ 16 * a.getD 0x1FF + 2 ^ 32 * b.getD 0x1FF)

/-- The lines that an instruction names: those of d, then a, then b. -/
structure VLines where
  d  : List Reg
  a  : Option Reg
  b  : Option Reg
  dw : Bool
  bw : Bool
deriving DecidableEq, Repr

/-- The line numbers of register fields. -/
def VLines.ds (v : VLines) (x : Ctx) : List Nat := v.d.map x.lineNo
def VLines.aLine (v : VLines) (x : Ctx) : Option Nat := v.a.map x.lineNo
def VLines.bLine (v : VLines) (x : Ctx) : Option Nat := v.b.map x.lineNo

/-- The lines read and the lines written. -/
def VLines.reads (v : VLines) (x : Ctx) : List Nat :=
  (if v.dw then [] else v.ds x) ++ (v.aLine x).toList ++ (if v.bw then [] else (v.bLine x).toList)
def VLines.writes (v : VLines) (x : Ctx) : List Nat :=
  (if v.dw then v.ds x else []) ++ (if v.bw then (v.bLine x).toList else [])

/-- The lines under the bank rule. -/
def VLines.banked (v : VLines) (x : Ctx) : List Nat := ((v.ds x).head?).toList ++ (v.aLine x).toList ++ (v.bLine x).toList

/-- LOCALRANGE and then BANKRULE (R163). -/
def vecCheck (v : VLines) (s : State) : Option Trap :=
  orElse (lineCheck s.mine (v.ds s.me ++ (v.aLine s.me).toList ++ (v.bLine s.me).toList))
    (if s.me.chk ∧ !banksOk (v.banked s.me) then
      some (.mk' cBANKRULE (bankWord (v.ds s.me).head? (v.aLine s.me) (v.bLine s.me)))
    else none)

/-- An instruction breaks the bank rule without a trap (R162). -/
def VLines.slips (v : VLines) (x : Ctx) : Bool := !x.chk && !banksOk (v.banked x)

/-- A violation of the bank rule that does not trap is counted (R162). -/
def countSlip (v : VLines) (s : State) : State :=
  if v.slips s.me then s.setMine { s.mine with bankslip := s.mine.bankslip + 1 } else s

/-- The frames for which an instruction of a number of passes takes its lane group: a slip adds one to every pass (R162, R164). -/
def frames (slip : Bool) (passes : Nat) : Nat := if slip then 2 * passes else passes

/-- An instruction on lines accesses the scratchpad; one on masks and registers alone does not. -/
def VLines.touches (v : VLines) : Bool := !v.d.isEmpty || v.a.isSome || v.b.isSome

/-- An instruction that accesses the scratchpad waits: an acquire or a fence of the context is not complete, or the split of the SRAM is changing
(R157, R237). -/
def vecWaits (v : VLines) (s : State) : Bool := v.touches && (s.mine.resizing || orderHolds s 0 0x40000 true)

/-- An instruction joins its context's queue (R163). -/
def pushVec (i : Instr) (v : VLines) (ga gb : Word) (passes : Nat) (el : List (Nat × Word × Loc)) (size : Nat) (rd wr : List Nat) (s : State) : State :=
  let x := s.me
  let e : VEntry := { instr := i, seq := s.mine.issueSeq, pc := x.pc, d := (v.ds x).head?.getD 0, a := (v.aLine x).getD 0
                      b := (v.bLine x).getD 0, rd := v.reads x ++ rd, wr := v.writes x ++ wr, ga := ga, gb := gb, rm := x.rm
                      xctx := s.xctx s.cur, passes := passes, slip := v.slips s.me, elems := el, psize := size
                      order := s.nextId }
  { countSlip v s with nextId := s.nextId + 1 }.setMe { (countSlip v s).me with vq := x.vq ++ [e] }

/-- An instruction for the queue may not issue: the queue is full, or its access to the scratchpad waits (R163). Nothing of it is checked before. -/
def queueHolds (v : VLines) (s : State) : Bool := decide (4 ≤ s.me.vq.length) || vecWaits v s

/-- A vector instruction on lines: held at a full queue, then checked, and queued. `ga` and `gb` are its g sources. -/
def vec (i : Instr) (v : VLines) (ga gb : Option Reg) (passes : Nat) (w : BitVec 3) (s : State) : Out :=
  let rs := ga.toList ++ gb.toList
  holdThen (queueHolds v s) s (fun s => issueThen rs [] s (fun s => failThen (vecCheck v s) s (fun s =>
    .next (finish w rs (pushVec i v (ga.elim 0 s.rdA) (gb.elim 0 (fun b => s.src b (countReg ga.toList b))) passes [] 0 [] [] s)))))

/-- The lines of a form `op pd, pa, pb`, of a form without b, and of a widening one. -/
def linesDab (d a b : Reg) : VLines := ⟨[d], some a, some b, true, false⟩
def linesDa (d a : Reg) : VLines := ⟨[d], some a, none, true, false⟩
def linesD (d : Reg) : VLines := ⟨[d], none, none, true, false⟩
def linesWide (r : Nat) (d a : Reg) (b : Option Reg) : VLines :=
  ⟨(List.range r).map (fun i => d + BitVec.ofNat 5 i), some a, b, true, false⟩
def linesAb (a b : Reg) : VLines := ⟨[], some a, some b, true, false⟩
def linesA (a : Reg) : VLines := ⟨[], some a, none, true, false⟩
def linesNone : VLines := ⟨[], none, none, true, false⟩

/-- `op pd, pa, pb` and `op pd, pa`. -/
def vec3 (i : Instr) (d a b : Reg) (w : BitVec 3) (s : State) : Out := vec i (linesDab d a b) none none 1 w s
def vec2 (i : Instr) (d a : Reg) (w : BitVec 3) (s : State) : Out := vec i (linesDa d a) none none 1 w s

/-! ### Results for a g register (R166) -/

/-- A lane group that is free in a cycle. [log DEDUCED 15] -/
def freeLane (k : Core) (cycle : Nat) : Option Nat := (List.range 4).find? (fun n => decide (k.lanes[n]?.getD 0 ≤ cycle))

/-- A lane group is taken for a number of frames, and counted as busy (R146, R161). [log DEDUCED 9] -/
def takeLane (n cycle frames : Nat) (k : Core) : Core :=
  { k with lanes := k.lanes.setIfInBounds n (cycle + 5 * frames), cntLane := k.cntLane + BitVec.ofNat 64 (5 * frames) }

/-- An earlier operation still has to write a line. [log DEDUCED 15] -/
def linesBusy (k : Core) (lines : List Nat) : Bool := lines.any (fun l => spadBusy k (512 * l) 512 false)

/-- An instruction that reads lines for a g register may not issue: its queue is not empty, its access to the scratchpad waits, or an earlier
operation has not written its lines (R166). Nothing of it is checked before. [log DEDUCED 15] -/
def drainHolds (v : VLines) (s : State) : Bool := !s.me.vq.isEmpty || vecWaits v s || linesBusy s.mine (v.reads s.me)

/-- A vector instruction that writes a g register: it issues once its queue is empty and a lane group free, is checked then, and its result is
visible 8 cycles later. It draws a number of free values. [log DEDUCED 15] -/
def vecGWith (draws : Nat) (v : VLines) (gb : Option Reg) (d : Reg) (f : State → Word → Word × BitVec 8) (w : BitVec 3) (s : State) : Out :=
  let rs := gb.toList
  match freeLane s.mine s.cycle with
  | none => hold s
  | some n =>
    holdThen (drainHolds v s) s (fun s => issueThen rs [d] s (fun s => failThen (vecCheck v s) s (fun s => destThen d s (fun s =>
      let r := f s (gb.elim 0 s.rdA)
      let k := frames (v.slips s.me) 1
      let s := countSlip v s
      let s := s.setMine (takeLane n s.cycle k s.mine)
      .next (finish w rs (produce 8 d r.1 r.2 { s with freeCtr := s.freeCtr + draws }))))))

/-- The same without a free value. -/
def vecG (v : VLines) (gb : Option Reg) (d : Reg) (f : State → Word → Word × BitVec 8) (w : BitVec 3) (s : State) : Out :=
  vecGWith 0 v gb d f w s

end Sys2Proof.Machine
end

