-- ==== Sys2Proof/Machine/VXf.lean ====
section
/-!
DEFINITION. The VXF major: conversions, O4, reductions, and the movement of elements (R89, R92, R189–R194).
-/

namespace Sys2Proof.Machine

open Sys2Proof

/-! ### VCVT (R189) -/

/-- The bounds of an integer type. -/
def intLo (ty : BitVec 3) : Int := -(2 ^ (tyWidth ty - 1))
def intHi (ty : BitVec 3) : Int := 2 ^ (tyWidth ty - 1) - 1

/-- An element of a type converted to another: mode 0 rne, 1 sat, 2 rtz. -/
def convElem (src dst : BitVec 3) (mode : BitVec 2) (x : Nat) : Nat × BitVec 8 :=
  let rm : BitVec 2 := if mode = 2 then 1 else 0
  let sat := mode == 1
  if tyFloat src then
    if tyFloat dst then (tyFmt src).convert (tyFmt dst) rm sat x
    else
      let r := (tyFmt src).toInt rm (intLo dst) (intHi dst) x
      (wrap (tyWidth dst) r.1, r.2)
  else
    let i := toSigned (tyWidth src) x
    if tyFloat dst then (tyFmt dst).ofInt rm sat i
    else if sat then
      let r := satInt (intLo dst) (intHi dst) i
      (wrap (tyWidth dst) r.1, r.2)
    else (wrap (tyWidth dst) i, 0)

/-- The number of lines that VCVT writes. -/
def cvtRatio (src dst : BitVec 3) : Nat := tyWidth dst / tyWidth src

/-- VCVT when it runs: b holds the destination type and the mode. -/
def vcvtRun (b : Reg) (ty : BitVec 3) (x : Ctx) (k : Core) (e : VEntry) : VRes :=
  let dst := b.extractLsb' 0 3
  let f := fun v (_ _ : Nat) => convElem ty dst (b.extractLsb' 3 2) v
  let xs := k.lineElems ty e.a
  if 2 ≤ cvtRatio ty dst then vwiden (cvtRatio ty dst) (tyWidth ty) f xs xs x k e
  else
    let old := elems (tyWidth dst) (tyCount dst) (k.spadLine e.d)
    let r := mapAct f (x.mask 0) (tyWidth ty) 0 xs xs old
    oneLine e.d (ofElems (tyWidth dst) (r.1 ++ old.drop (tyCount ty))) r.2

/-! ### VQO4 and VDQO4 (R190, R191) -/

/-- A list in groups of n. -/
def groupsOf (fuel n : Nat) (l : List α) : List (List α) :=
  match fuel with
  | 0 => []
  | f + 1 => if l.isEmpty then [] else l.take n :: groupsOf f n (l.drop n)

/-- The exact values of elements. -/
def tyVal (ty : BitVec 3) (x : Nat) : Val := if tyFloat ty then (tyFmt ty).decode x else Val.ofInt (toSigned (tyWidth ty) x) 0

/-- The value of an element as F32, for an outlier entry. -/
def tyToF32 (ty : BitVec 3) (x : Nat) : Nat := (f32.encode 0 false (tyVal ty x)).1

/-- A block quantised to O4 (R83, R84): its scale byte, its quads as numbers of 16 bits, and the positions of its outliers; a block
with a NaN or an infinity is all zeros. -/
def quantBlock (l : List Val) : Nat × List Nat × List Nat :=
  let sc := scaleByte 7 true l
  if sc = 0xFF then (0xFF, (groupsOf 8 4 l).map (fun _ => 0), [])
  else
    let q := (groupsOf 8 4 l).map (quantQuad (e8m0Exp sc))
    (sc, q.map (fun r => r.1), q.zipIdx.flatMap (fun r => r.1.2.map (fun i => 4 * r.2 + i)))

/-- A line quantised: its scale bytes, its quads, and its outliers by element. -/
def quantLine (l : List Val) : List Nat × List Nat × List Nat :=
  let bs := (groupsOf 32 32 l).map quantBlock
  (bs.map (fun b => b.1), bs.flatMap (fun b => b.2.1), bs.zipIdx.flatMap (fun b => b.1.2.2.map (fun i => 32 * b.2 + i)))

/-- VQO4's lines when it runs, and the outliers it appends: index and F32 value. Where p[d] and p[b] name one line, the scale bytes are written
over the quads. [log DESIGN CHOICE 64] Of its own roundings none raises NX or UF: NV and OL are all it sets. [log DESIGN CHOICE 93] -/
def vqo4Run (ty : BitVec 3) (k : Core) (e : VEntry) : VRes × List (Nat × Nat) :=
  let xs := k.lineElems ty e.a
  let n := tyCount ty
  let q := quantLine (xs.map (tyVal ty))
  let low := fun (bits l new : Nat) => k.spadLine l / 2 ^ bits * 2 ^ bits + new
  (⟨[(e.d, low (4 * n) e.d (ofElems 16 q.2.1)), (e.b, low (n / 4) e.b (ofElems 8 q.1))], [], flagIf (q.1.contains 0xFF) fNV⟩,
   q.2.2.map (fun i => (1024 * e.a + i, tyToF32 ty (xs[i]?.getD 0))))

/-- The values of the first n O4 elements of a number, each with the flag of its quad. -/
def o4Vals (n v : Nat) : List (Val × BitVec 8) :=
  (elems 16 (n / 4) v).flatMap (fun q => match decodeQuad q with
    | some l => l.map (fun x => (x, 0))
    | none => (List.range 4).map (fun _ => (Val.fin false 0 0, fOQ)))

/-- An O4 value under a scale byte, as an element of a float type (R191). -/
def dequant (ty : BitVec 3) (v : Val × BitVec 8) (sc : Nat) : Nat × BitVec 8 :=
  if sc = 0xFF then ((tyFmt ty).nan, fNV ||| v.2)
  else
    let r := (tyFmt ty).encode 0 false (v.1.scale (e8m0Exp sc))
    (r.1, r.2 ||| v.2)

/-- VDQO4 when it runs. -/
def vdqo4Run (ty : BitVec 3) (k : Core) (e : VEntry) : VRes :=
  let n := tyCount ty
  let sc := k.spadLine e.b
  let r := (o4Vals n (k.spadLine e.a)).zipIdx.map (fun v => dequant ty v.1 (elemAt 8 sc (v.2 / 32)))
  oneLine e.d (ofElems (tyWidth ty) (r.map (fun p => p.1))) (r.foldl (fun f p => f ||| p.2) 0)

/-! ### Reductions (R89, R192) -/

/-- The active elements. -/
def activeElems (m : Mask) (ty : BitVec 3) (xs : List Nat) : List Nat :=
  (xs.zipIdx.filter (fun e => isActive m (tyWidth ty) e.2)).map (fun e => e.1)

/-- The leaves of the tree: +0.0 where the element is inactive. -/
def leaves (m : Mask) (ty : BitVec 3) (ls : List (Nat × BitVec 8)) : List (Nat × BitVec 8) :=
  ls.zipIdx.map (fun e => if isActive m (tyWidth ty) e.2 then e.1 else (0, 0))

/-- The sum of leaves by the tree of R89, with all flags. -/
def sumLeaves (ty : BitVec 3) (ls : List (Nat × BitVec 8)) : Word × BitVec 8 :=
  let r := treeSum (Nat.log2 (tyCount ty)) (ls.map (fun l => l.1))
  (BitVec.ofNat 64 r.1, ls.foldl (fun f l => f ||| l.2) r.2)

/-- An element as an F32 leaf. -/
def leafOf (ty : BitVec 3) (x : Nat) : Nat × BitVec 8 :=
  if tyFloat ty then (if ty = 7 then (x, flagIf (f32.decode x).isSnan fNV) else (tyFmt ty).convert f32 0 false x)
  else f32.ofInt 0 false (toSigned (tyWidth ty) x)

/-- VRSUM. -/
def rsum (m : Mask) (ty : BitVec 3) (xs : List Nat) : Word × BitVec 8 := sumLeaves ty (leaves m ty (xs.map (leafOf ty)))

/-- A product of elements as an F32 leaf. -/
def prodLeaf (ty : BitVec 3) (x y : Nat) : Nat × BitVec 8 :=
  if tyFloat ty then
    let p := Val.mul ((tyFmt ty).decode x) ((tyFmt ty).decode y)
    let r := f32.encode 0 false p.1
    (r.1, r.2 ||| p.2)
  else f32.ofInt 0 false (toSigned (tyWidth ty) x * toSigned (tyWidth ty) y)

/-- VDOT. -/
def rdot (m : Mask) (ty : BitVec 3) (xs ys : List Nat) : Word × BitVec 8 :=
  sumLeaves ty (leaves m ty ((xs.zip ys).map (fun p => prodLeaf ty p.1 p.2)))

/-- The largest or the least of F32 codes, NaNs passed over. -/
def foldMinMax (mx : Bool) (l : List (Nat × BitVec 8)) : Word × BitVec 8 :=
  match l with
  | [] => (if mx then 0xFF800000 else 0x7F800000, 0)
  | a :: t =>
    let r := t.foldl (fun r b =>
      let c := f32.minMax mx r.1 b.1
      (c.1, r.2 ||| b.2 ||| c.2)) (if (f32.decode a.1).isNan then f32.nan else a.1, a.2)
    (BitVec.ofNat 64 r.1, r.2)

/-- VRMAX and VRMIN. -/
def rminMax (mx : Bool) (m : Mask) (ty : BitVec 3) (xs : List Nat) : Word × BitVec 8 :=
  let l := activeElems m ty xs
  if tyFloat ty then foldMinMax mx (l.map (leafOf ty))
  else
    let f : Int → Int → Int := if mx then max else min
    (BitVec.ofInt 64 (l.foldl (fun r x => f r (toSigned (tyWidth ty) x)) (if mx then intLo ty else intHi ty)), 0)

/-- VRAMAX; a NaN is passed over, and the F32 result is the value `open_` where nothing but NaNs is active, which the spec leaves
open. [log DESIGN CHOICE 11] -/
def ramax (open_ : Word) (m : Mask) (ty : BitVec 3) (xs : List Nat) : Word × BitVec 8 :=
  let l := activeElems m ty xs
  if tyFloat ty then
    let ls := l.map (leafOf ty)
    let mags := (ls.filter (fun v => !(f32.decode v.1).isNan)).map (fun v => v.1 % 2 ^ 31)
    (if !ls.isEmpty ∧ mags.isEmpty then zext (open_.extractLsb' 0 32) else BitVec.ofNat 64 (mags.foldl max 0), ls.foldl (fun f v => f ||| v.2) 0)
  else (BitVec.ofNat 64 (l.foldl (fun r x => max r (toSigned (tyWidth ty) x).natAbs) 0), 0)

/-! ### Moving elements (R193) -/

/-- Elements by index from a line. -/
def gatherElems (w n v : Nat) (idx : List Nat) : List Nat := idx.map (fun i => elemAt w v (i % n))

/-- VPERM, VSLIDE, VZIP and VUNZIP: the new elements before the mask. -/
def permVals (ty : BitVec 3) (k : Core) (e : VEntry) : List Nat :=
  gatherElems (tyWidth ty) (tyCount ty) (k.spadLine e.a) (k.lineElems ty e.b)
def slideVals (ty : BitVec 3) (k : Core) (e : VEntry) : List Nat :=
  (List.range (tyCount ty)).map (fun i =>
    let j := (i : Int) + e.gb.toInt
    if 0 ≤ j ∧ j < tyCount ty then elemAt (tyWidth ty) (k.spadLine e.a) j.toNat else 0)
def zipVals (ty : BitVec 3) (k : Core) (e : VEntry) : List Nat :=
  ((k.lineElems ty e.a).zip (k.lineElems ty e.b)).flatMap (fun p => [p.1, p.2]) |>.take (tyCount ty)
def unzipVals (ty : BitVec 3) (k : Core) (e : VEntry) : List Nat :=
  pickMod 2 0 (k.lineElems ty e.a) ++ pickMod 2 0 (k.lineElems ty e.b)

/-- VIOTA: an index as an element. -/
def iotaElem (ty : BitVec 3) (i : Nat) : Nat × BitVec 8 :=
  if tyFloat ty then (tyFmt ty).ofInt 0 false i else (i % 2 ^ tyWidth ty, 0)

/-- VEXT. -/
def extElem (ty : BitVec 3) (line : Nat) (i : Word) : Word :=
  if tyCount ty ≤ i.toNat then 0
  else
    let x := elemAt (tyWidth ty) line i.toNat
    if tyFloat ty then BitVec.ofNat 64 x else BitVec.ofInt 64 (toSigned (tyWidth ty) x)

/-- VINS. -/
def vinsRun (ty : BitVec 3) (k : Core) (e : VEntry) : VRes :=
  if tyCount ty ≤ e.gb.toNat then oneLine e.d (k.spadLine e.d) 0
  else oneLine e.d (ofElems (tyWidth ty) ((k.lineElems ty e.d).set e.gb.toNat e.ga.toNat)) 0

/-! ### VHAD (R92, R194) -/

/-- One stage of the transform at a distance of h: pairs of blocks of h elements become their sums and their differences. -/
def hadStage (fuel h : Nat) (l : List Nat) : List Nat × BitVec 8 :=
  match fuel with
  | 0 => ([], 0)
  | f + 1 =>
    if l.isEmpty then ([], 0)
    else
      let a := l.take h
      let b := (l.drop h).take h
      let sum := (a.zip b).map (fun p => f32.add 0 p.1 p.2)
      let dif := (a.zip b).map (fun p => f32.sub 0 p.1 p.2)
      let t := hadStage f h (l.drop (2 * h))
      (sum.map (fun r => r.1) ++ dif.map (fun r => r.1) ++ t.1, (sum ++ dif).foldl (fun g r => g ||| r.2) t.2)

/-- The stages from a distance on, over blocks of n. -/
def hadStages (fuel h n : Nat) (l : List Nat) : List Nat × BitVec 8 :=
  match fuel with
  | 0 => (l, 0)
  | f + 1 =>
    if n ≤ h then (l, 0)
    else
      let r := hadStage 4096 h l
      let t := hadStages f (2 * h) n r.1
      (t.1, r.2 ||| t.2)

/-- VHAD when it runs: b holds the block's code. -/
def vhadRun (b : Reg) (ty : BitVec 3) (k : Core) (e : VEntry) : VRes :=
  let xs := (k.lineElems ty e.a).map (fun x => if ty = 7 then (x, (0 : BitVec 8)) else (tyFmt ty).convert f32 0 false x)
  let h := hadStages 6 1 (16 * 2 ^ b.toNat) (xs.map (fun x => x.1))
  let ys := h.1.map (fun y => if ty = 7 then (y, (0 : BitVec 8)) else f32.convert (tyFmt ty) 0 false y)
  oneLine e.d (ofElems (tyWidth ty) (ys.map (fun y => y.1))) ((xs ++ ys).foldl (fun f y => f ||| y.2) h.2)

/-! ### What a queued VXF instruction writes when it runs -/

/-- VQO4's outliers apart. -/
def vxfRun (x : Ctx) (k : Core) (e : VEntry) : Option VRes :=
  match e.instr with
  | .vcvt _ _ b t _ => some (vcvtRun b t x k e)
  | .vqo4 _ _ _ t _ => some (vqo4Run t k e).1
  | .vdqo4 _ _ _ t _ => some (vdqo4Run t k e)
  | .vbcast _ _ t _ => some (vput (k.lineElems t e.d) (fun _ => (e.ga.toNat % 2 ^ tyWidth t, 0)) t x k e)
  | .vmov _ _ t _ => some (vput (k.lineElems t e.a) (fun v => (v, 0)) t x k e)
  | .vperm _ _ _ t _ => some (vput (permVals t k e) (fun v => (v, 0)) t x k e)
  | .vslide _ _ _ t _ => some (vput (slideVals t k e) (fun v => (v, 0)) t x k e)
  | .vins _ _ _ t _ => some (vinsRun t k e)
  | .vhad _ _ b t _ => some (vhadRun b t k e)
  | .viota _ t _ => some (vput (List.range (tyCount t)) (iotaElem t) t x k e)
  | .vzip _ _ _ t _ => some (vput (zipVals t k e) (fun v => (v, 0)) t x k e)
  | .vunzip _ _ _ t _ => some (vput (unzipVals t k e) (fun v => (v, 0)) t x k e)
  | _ => none

/-- The outliers that an instruction appends when it runs. -/
def vecOutliers (k : Core) (e : VEntry) : List (Nat × Nat) :=
  match e.instr with
  | .vqo4 _ _ _ t _ => (vqo4Run t k e).2
  | _ => []

/-! ### The instructions -/

/-- VCVT (R189). -/
def execVcvt (d a b : Reg) (t w : BitVec 3) (s : State) : Out :=
  let r := cvtRatio t (b.extractLsb' 0 3)
  if 2 ≤ r then vec (.vcvt d a b t w) (linesWide r d a none) none none r w s
  else vec (.vcvt d a b t w) (linesDa d a) none none 1 w s

/-- VQO4 (R190). -/
def execVqo4 (d a b : Reg) (t w : BitVec 3) (s : State) : Out := vec (.vqo4 d a b t w) ⟨[d], some a, some b, true, true⟩ none none 1 w s

/-- VDQO4 (R191). -/
def execVdqo4 (d a b : Reg) (t w : BitVec 3) (s : State) : Out := vec3 (.vdqo4 d a b t w) d a b w s

/-- The a line of the executing context's instruction. -/
def aElems (s : State) (t : BitVec 3) (a : Reg) : List Nat := s.mine.lineElems t (s.me.lineNo a)

/-- VRSUM (R192). -/
def execVrsum (d a : Reg) (t w : BitVec 3) (s : State) : Out :=
  vecG (linesA a) none d (fun s _ => rsum (s.me.mask 0) t (aElems s t a)) w s

/-- VRMAX (R192). -/
def execVrmax (d a : Reg) (t w : BitVec 3) (s : State) : Out :=
  vecG (linesA a) none d (fun s _ => rminMax true (s.me.mask 0) t (aElems s t a)) w s

/-- VRMIN (R192). -/
def execVrmin (d a : Reg) (t w : BitVec 3) (s : State) : Out :=
  vecG (linesA a) none d (fun s _ => rminMax false (s.me.mask 0) t (aElems s t a)) w s

/-- VRAMAX (R192). -/
def execVramax (d a : Reg) (t w : BitVec 3) (s : State) : Out :=
  vecGWith 1 (linesA a) none d (fun s _ => ramax (Config.freeValue s.freeCtr) (s.me.mask 0) t (aElems s t a)) w s

/-- VDOT (R192). -/
def execVdot (d a b : Reg) (t w : BitVec 3) (s : State) : Out :=
  vecG (linesAb a b) none d (fun s _ => rdot (s.me.mask 0) t (aElems s t a) (aElems s t b)) w s

/-- VBCAST (R193). -/
def execVbcast (d a : Reg) (t w : BitVec 3) (s : State) : Out := vec (.vbcast d a t w) (linesD d) (some a) none 1 w s

/-- VMOV (R193). -/
def execVmov (d a : Reg) (t w : BitVec 3) (s : State) : Out := vec2 (.vmov d a t w) d a w s

/-- VPERM (R193). -/
def execVperm (d a b : Reg) (t w : BitVec 3) (s : State) : Out := vec3 (.vperm d a b t w) d a b w s

/-- VSLIDE (R193). -/
def execVslide (d a b : Reg) (t w : BitVec 3) (s : State) : Out := vec (.vslide d a b t w) (linesDa d a) none (some b) 1 w s

/-- VEXT (R193). -/
def execVext (d a b : Reg) (t w : BitVec 3) (s : State) : Out :=
  vecG (linesA a) (some b) d (fun s i => (extElem t (s.mine.spadLine (s.me.lineNo a)) i, 0)) w s

/-- VINS (R193). -/
def execVins (d a b : Reg) (t w : BitVec 3) (s : State) : Out := vec (.vins d a b t w) (linesD d) (some a) (some b) 1 w s

/-- VHAD (R194). -/
def execVhad (d a b : Reg) (t w : BitVec 3) (s : State) : Out := vec (.vhad d a b t w) (linesDa d a) none none 1 w s

/-- VIOTA (R193). -/
def execViota (d : Reg) (t w : BitVec 3) (s : State) : Out := vec (.viota d t w) (linesD d) none none 1 w s

/-- VZIP (R193). -/
def execVzip (d a b : Reg) (t w : BitVec 3) (s : State) : Out := vec3 (.vzip d a b t w) d a b w s

/-- VUNZIP (R193). -/
def execVunzip (d a b : Reg) (t w : BitVec 3) (s : State) : Out := vec3 (.vunzip d a b t w) d a b w s

end Sys2Proof.Machine
end

