-- ==== Sys2Proof/Machine/MatOps.lean ====
section
/-!
DEFINITION. What the matrix unit computes: the fields of a command and its checks, planes and block fixed point, tile products, the transform and the drain formats (R71, R83–R92, R205–R217).
-/

namespace Sys2Proof.Machine

open Sys2Proof

/-! ### Fields (R205) -/

/-- The n bytes of a command from offset i. -/
def MCmd.num (c : MCmd) (i n : Nat) : Nat := lineGet c.bytes i n
def MCmd.code (c : MCmd) : Nat := c.num 0 1
def MCmd.flag (c : MCmd) (i : Nat) : Bool := (c.num 1 1).testBit i
def MCmd.acc (c : MCmd) : Nat := c.num 2 1 % 8
/-- K/32. -/
def MCmd.k32 (c : MCmd) : Nat := c.num 4 2

/-- The bytes of a command that its table defines beside its first two, and the bits of its byte 1. -/
def definedBytes (code : Nat) : List Nat × Nat :=
  if code = 1 then ((List.range 2).map (fun i => i + 4) ++ (List.range 16).map (fun i => i + 8), 0x07)
  else if code = 2 then ([2, 4, 5] ++ (List.range 16).map (fun i => i + 8), 0x07)
  else if code = 3 then ([2, 4, 5, 6] ++ (List.range 12).map (fun i => i + 8), 0x0F)
  else if code = 4 then ((List.range 2).map (fun i => i + 4) ++ (List.range 16).map (fun i => i + 8), 0x3F)
  else if code = 5 then ([2] ++ (List.range 16).map (fun i => i + 4), 0x07)
  else if code = 6 then ([2], 0x03)
  else ([2], 0x05)

/-- The bits of byte 2 that a command defines. -/
def definedByte2 (code : Nat) : Nat := if code = 6 then 0xFF else 0x07

/-- A reserved byte or bit is not zero (KIND 2); bit 1 of a MARK's byte 1 counts as one. [log DEDUCED 13] -/
def reservedBad (c : MCmd) : Bool :=
  let d := definedBytes c.code
  c.num 1 1 &&& d.2 != c.num 1 1 ||
    (List.range 54).any (fun j => c.num (j + 2) 1 != 0 && !d.1.contains (j + 2)) ||
    (d.1.contains 2 && c.num 2 1 &&& definedByte2 c.code != c.num 2 1)

/-! ### Formats (R201, R208) -/

def fmtType (f : Word) : Nat := (f.extractLsb' 0 4).toNat
def fmtWidth (f : Word) : Nat := (f.extractLsb' 4 5).toNat
def fmtScaled (f : Word) : Bool := f.getLsbD 9

/-- Element size in bits of a type. -/
def typeBits (t : Nat) : Nat := if t = 0 ∨ t = 2 then 4 else if t = 1 ∨ t = 3 ∨ t = 4 then 8 else if t = 5 then 16 else 32

/-- A type and a width that go together. -/
def pairOk (t w : Nat) : Bool :=
  if t = 0 ∨ t = 2 then w == 4 else if t = 1 then w == 8 else decide (t ≤ 6) && decide (2 ≤ w) && decide (w ≤ 16)

/-- The plane count. -/
def planesOf (t w : Nat) : Nat := if t = 2 then 5 else w

/-- The format register of a side of PLANE, and its scale register. -/
def planeFmt (m : MSet) (c : MCmd) : Word × Word := if c.flag 2 then (m.fmtb, m.sclb) else (m.fmta, m.scla)

/-- The float format of a matrix type. -/
def matFmt (t : Nat) : Fmt := if t = 3 then e4m3 else if t = 4 then e5m2 else if t = 5 then bf16 else f32

/-- A scale register's address. -/
def scaleAddr (v : Word) : Nat := (v.extractLsb' 0 17).toNat

/-! ### Records of MMA.R (R211) -/

/-- The n bytes of record r of a command from offset i. -/
def recNum (k : Core) (c : MCmd) (r i n : Nat) : Nat := matRead k (c.num 16 4 + 32 * r + i) n

/-- The number of records. -/
def MCmd.nrec (c : MCmd) : Nat := c.num 6 1 + 1

/-! ### The check of a command (R206) -/

/-- A region of matrix space: its first byte and its length. -/
abbrev Region := Nat × Nat

/-- The regions that a command reads and writes. [log DEDUCED 13] -/
def regions (m : MSet) (c : MCmd) : List Region × List Region :=
  let kb := c.k32
  if c.code = 1 then
    let f := planeFmt m c
    let p := planesOf (fmtType f.1) (fmtWidth f.1)
    ((c.num 8 4, 31 * c.num 12 4 + kb * 4 * typeBits (fmtType f.1)) :: (if fmtScaled f.1 then [(scaleAddr f.2, 32 * kb)] else []),
      [(c.num 16 4, 128 * p * kb), (c.num 20 4, 64 * kb)])
  else if c.code = 2 then
    ([(c.num 8 4, 128 * kb * planesOf (fmtType m.fmta) (fmtWidth m.fmta)), (c.num 12 4, 64 * kb),
      (c.num 16 4, 128 * kb * planesOf (fmtType m.fmtb) (fmtWidth m.fmtb)), (c.num 20 4, 64 * kb)], [])
  else if c.code = 3 then
    ([(c.num 8 4, 128 * kb * planesOf (fmtType m.fmta) (fmtWidth m.fmta)), (c.num 12 4, 64 * kb), (c.num 16 4, 32 * c.nrec)], [])
  else if c.code = 4 then
    ([(c.num 8 4, 31 * c.num 12 4 + kb * 32 * (if c.flag 4 then 4 else 2))],
      [(c.num 16 4, 31 * c.num 20 4 + kb * 32 * (if c.flag 5 then 4 else 2))])
  else if c.code = 5 then
    ([], (c.num 8 4, 31 * c.num 12 4 + 4 * typeBits (fmtType m.fmtd)) ::
      (if fmtScaled m.fmtd then [(scaleAddr m.scld, 32)] else []))
  else ([], [])

/-- Two regions share a byte. -/
def meet (a b : Region) : Bool := decide (a.1 < b.1 + b.2) && decide (b.1 < a.1 + a.2)

/-- A field lies outside its range (KIND 3). -/
def fieldBad (m : MSet) (c : MCmd) : Bool :=
  (decide (c.code ≤ 4) && !(decide (1 ≤ c.k32) && decide (c.k32 ≤ 128))) ||
    (c.code == 3 && decide (32 < c.nrec)) ||
    (c.code == 4 && (c.num 1 1 / 4 % 4 == 3 || (c.num 1 1 / 4 % 4 == 2 && c.k32 % 2 == 1))) ||
    (c.code == 5 && decide (c.num 12 4 < 4 * typeBits (fmtType m.fmtd))) ||
    (c.code == 6 && c.num 2 1 == 0)

/-- An address is misaligned, or a pitch is, which is KIND 4 as well (R206). [log DESIGN CHOICE 97] -/
def alignBad (c : MCmd) : Bool :=
  let off := fun (l : List (Nat × Nat)) => l.any (fun e => c.num e.1 4 % e.2 != 0)
  if c.code = 1 then off [(8, 4), (12, 4), (16, 128), (20, 64)]
  else if c.code = 2 then off [(8, 128), (12, 64), (16, 128), (20, 64)]
  else if c.code = 3 then off [(8, 128), (12, 64), (16, 32)]
  else if c.code = 4 then off [(8, 4), (12, 4), (16, 4), (20, 4)]
  else if c.code = 5 then off [(8, 4), (12, 4)]
  else false

/-- HAD works in place: its two regions coincide. -/
def hadInPlace (c : MCmd) : Bool := c.num 8 4 == c.num 16 4 && c.num 12 4 == c.num 20 4 && c.flag 4 == c.flag 5

/-- An address is misaligned, a region leaves matrix space, or one written meets one read (KIND 4). -/
def addressBad (size : Nat) (m : MSet) (c : MCmd) : Bool :=
  let r := regions m c
  alignBad c || (r.1 ++ r.2).any (fun e => decide (size < e.1 + e.2)) ||
    (r.2.any (fun x => r.1.any (meet x)) && !(c.code == 4 && hadInPlace c))

/-- A format is bad (KIND 5). -/
def formatBad (m : MSet) (c : MCmd) : Bool :=
  let bad := fun (f : Word) => !pairOk (fmtType f) (fmtWidth f)
  let t := fmtType m.fmtd
  if c.code = 1 then bad (planeFmt m c).1
  else if c.code = 2 then bad m.fmta || bad m.fmtb
  else if c.code = 3 then bad m.fmta
  else if c.code = 5 then decide (7 ≤ t) || (t == 2 && !fmtScaled m.fmtd) || ((t == 5 || t == 6) && fmtScaled m.fmtd)
  else false

/-- A record whose table is broken: a field, or a reserved byte (R211). -/
def recFieldBad (k : Core) (c : MCmd) (r : Nat) : Bool :=
  let first := recNum k c r 0 1
  let rows := recNum k c r 1 1
  decide (32 ≤ first) || rows == 0 || decide (32 < rows) || decide (32 < first + rows)
def recReservedBad (k : Core) (c : MCmd) (r : Nat) : Bool := recNum k c r 12 20 != 0

/-- The KIND of a bad command, the first in order (R206). [log DEDUCED 13] -/
def checkCmd (k : Core) (m : MSet) (c : MCmd) : Option (BitVec 4) :=
  if c.code = 0 ∨ 8 ≤ c.code then some 1
  else if reservedBad c then some 2
  else if fieldBad m c then some 3
  else if addressBad (matSize k) m c then some 4
  else if c.code = 3 ∧ (List.range c.nrec).any (recReservedBad k c) then some 2
  else if c.code = 3 ∧ (List.range c.nrec).any (recFieldBad k c) then some 3
  else if formatBad m c then some 5
  else none

/-! ### PLANE (R90, R208) -/

/-- The exponent that a finite, non-zero element of a format counts with. -/
def blockElemExp (f : Fmt) (m : Nat) (e : Int) : Int := max ((Nat.log2 m : Int) + e) f.emin

/-- Emax of a block. -/
def blockEmax (f : Fmt) (l : List Val) : Int :=
  (l.foldl (fun o v => match v with
    | .fin _ m e => if m = 0 then o else some (match o with
      | some x => max x (blockElemExp f m e)
      | none => blockElemExp f m e)
    | _ => o) (none : Option Int)).getD 0

/-- An element as an integer of w bits, truncated toward zero. -/
def toBlock (w : Nat) (emax : Int) (v : Val) : Int :=
  match v with
  | .fin neg m e =>
    let n : Int := ((scaleCut m (e + w - 2 - emax)).1 : Nat)
    if neg then -n else n
  | _ => 0

/-- A block of 32 elements of a type as the numbers of its planes, its markers, its exponent and its flags; none as an exponent is
a non-finite block. [log DEDUCED 12] -/
def planeBlock (t w : Nat) (xs : List Nat) (sc : Nat) : List Nat × List Bool × Option Int × BitVec 8 :=
  let none32 := List.replicate 32 false
  let byScale := if sc = 0xFF then none else some (e8m0Exp sc)
  if t = 0 ∨ t = 1 then (xs, none32, byScale, 0)
  else if t = 2 then
    let q := groupsOf 8 4 xs
    let ok := q.map (fun l => (decodeQuad (ofElems 4 l)).isSome)
    let slots := (q.zip ok).flatMap (fun e => if e.2 then e.1 else [0, 0, 0, 0])
    (slots, slots.map (fun x => x == 8), byScale, flagIf (ok.any (fun b => !b)) fOQ)
  else
    let vs := xs.map (matFmt t).decode
    if nonFinite vs ∨ sc = 0xFF then (List.replicate 32 0, none32, none, 0)
    else
      let em := blockEmax (matFmt t) vs
      (vs.map (fun v => wrap w (toBlock w em v)), none32, some (em - w + 2 + e8m0Exp sc), 0)

/-- The 32 bits of plane b of a vector. -/
def planeWord (b : Nat) (xs : List Nat) : Nat := ofElems 1 (xs.map (fun x => x / 2 ^ b))

/-- The 32 bits of a vector in each of the planes of its block, the marker plane last. -/
def planeWords (t w : Nat) (v : List Nat × List Bool) : List Nat :=
  (List.range (if t = 2 then 4 else w)).map (fun b => planeWord b v.1) ++
    (if t = 2 then [ofElems 1 (v.2.map (fun m => if m then 1 else 0))] else [])

/-- The 16-bit code of a total exponent. -/
def expCode (e : Option Int) : Nat := e.elim 0x8000 (wrap 16)

/-- One K-block of PLANE: the scratchpad and the flags. The planes and the exponent of each vector are written in turn. -/
def planeStep (m : MSet) (c : MCmd) (kb : Nat) (k : Core) : Core × BitVec 8 :=
  let f := planeFmt m c
  let t := fmtType f.1
  let w := fmtWidth f.1
  let bs := (List.range 32).map (fun v =>
    planeBlock t w (elems (typeBits t) 32 (matRead k (c.num 8 4 + v * c.num 12 4 + kb * 4 * typeBits t) (4 * typeBits t)))
      (if fmtScaled f.1 then matRead k (scaleAddr f.2 + 32 * kb + v) 1 else 127))
  let p := planesOf t w
  let sp := bs.zipIdx.foldl (fun sp b =>
    let sp := (planeWords t w (b.1.1, b.1.2.1)).zipIdx.foldl (fun sp x => matWrite sp (c.num 16 4 + (kb * p + x.2) * 128 + 4 * b.2) 4 x.1) sp
    matWrite sp (c.num 20 4 + (kb * 32 + b.2) * 2) 2 (expCode b.1.2.2.1)) k.spad
  ({ k with spad := sp }, bs.foldl (fun g b => g ||| b.2.2.2) 0)

/-! ### Tiles read back (R209) -/

/-- Element k of vector v in a block of planes: the bits of its planes. -/
def planeElem (data p v k : Nat) : Nat := ofElems 1 ((List.range p).map (fun b => data / 2 ^ (8 * (128 * b + 4 * v) + k)))

/-- The vectors of a block, each element a value; an integer tile's are two's complement numbers of w bits. -/
def tileVectors (t w data : Nat) : List (List Val) :=
  (List.range 32).map (fun v =>
    let e := fun (k : Nat) => planeElem data (if t = 2 then 4 else w) v k
    (List.range 32).map (fun k =>
      let mark := fun (i : Nat) => (data / 2 ^ (8 * (128 * 4 + 4 * v) + i)).testBit 0
      if t = 2 then
        let q := k / 4 * 4
        if (List.range 4).any (fun i => mark (q + i)) then
          (if 2 ≤ k % 4 then .fin false 0 0
           else if mark k then e4m3.decode (e (q + 3) * 16 + e (q + 2))
           else Val.ofInt (int4 (e k)) 0)
        else Val.ofInt (int4 (e k)) 0
      else Val.ofInt (toSigned w (e k)) 0))

/-- The exponents of a block: none for a non-finite one. -/
def tileExps (data : Nat) : List (Option Int) :=
  (elems 16 32 data).map (fun x => if x = 0x8000 then none else some (toSigned 16 x))

/-- A block of an operand: its vectors and its exponents. -/
abbrev Tile32 := List (List Val × Option Int)

/-- A block from the bytes of its planes and exponents. -/
def tile32 (t w planes exps : Nat) : Tile32 := (tileVectors t w planes).zip (tileExps exps)

/-- The block kb of an operand in matrix space. -/
def matTile (k : Core) (f : Word) (pl ex kb : Nat) : Tile32 :=
  let p := planesOf (fmtType f) (fmtWidth f)
  tile32 (fmtType f) (fmtWidth f) (matRead k (pl + kb * p * 128) (p * 128)) (matRead k (ex + kb * 64) 64)

/-! ### MMA (R91) -/

/-- The exact sum of products of two vectors. -/
def dotVals (a b : List Val) : Val :=
  match a, b with
  | x :: a, y :: b => (Val.add 0 (Val.mul x y).1 (dotVals a b)).1
  | _, _ => .fin false 0 0

/-- An element's product for one block, and its flags. -/
def mmaTerm (a b : List Val × Option Int) : Nat × BitVec 8 :=
  match a.2, b.2 with
  | some x, some y =>
    let s := f32.encode 0 false (dotVals a.1 b.1)
    let t := f32.encode 0 false ((f32.decode s.1).scale (x + y))
    (t.1, s.2 ||| t.2)
  | _, _ => (f32.nan, fNV)

/-- The accumulator's element with a term added. -/
def mmaAdd (acc : Nat) (a b : List Val × Option Int) : Nat × BitVec 8 :=
  let t := mmaTerm a b
  let r := f32.add 0 acc t.1
  (r.1, t.2 ||| r.2)

/-- One block into the rows from `first` on, `rows` of them. -/
def mmaBlock (first rows : Nat) (a b : Tile32) (acc : Acc) : Acc × BitVec 8 :=
  let out := ((elems 1024 32 acc.toNat).zip a).zipIdx.map (fun e =>
    if first ≤ e.2 ∧ e.2 < first + rows then
      let l := ((elems 32 32 e.1.1).zip b).map (fun x => mmaAdd x.1 e.1.2 x.2)
      (ofElems 32 (l.map (fun x => x.1)), l.foldl (fun g x => g ||| x.2) 0)
    else (e.1.1, (0 : BitVec 8)))
  (BitVec.ofNat 32768 (ofElems 1024 (out.map (fun r => r.1))), out.foldl (fun g r => g ||| r.2) 0)

/-- Rows of an accumulator that a failed fetch leaves as NaNs (R214). -/
def nanRows (first rows : Nat) (acc : Acc) : Acc :=
  BitVec.ofNat 32768 (ofElems 1024 ((elems 1024 32 acc.toNat).zipIdx.map (fun e =>
    if first ≤ e.2 ∧ e.2 < first + rows then ofElems 32 (List.replicate 32 f32.nan) else e.1)))

/-! ### HAD (R92, R215) -/

/-- The n elements of HAD from a matrix address, transformed in blocks and converted. -/
def hadVector (inF outF : Bool) (n count src dst : Nat) (k : Core) : Core × BitVec 8 :=
  let wi := if inF then 32 else 16
  let wo := if outF then 32 else 16
  let xs := (elems wi count (matRead k src (count * wi / 8))).map (fun x => if inF then (x, (0 : BitVec 8)) else bf16.convert f32 0 false x)
  let h := hadStages 6 1 n (xs.map (fun x => x.1))
  let ys := h.1.map (fun y => if outF then (y, (0 : BitVec 8)) else f32.convert bf16 0 false y)
  ({ k with spad := matWrite k.spad dst (count * wo / 8) (ofElems wo (ys.map (fun y => y.1))) },
    (xs ++ ys).foldl (fun f y => f ||| y.2) h.2)

/-- The K-blocks that HAD does from one of its boundaries on (R225). -/
def hadSpan (c : MCmd) (kb : Nat) : Nat := Nat.min 2 (c.k32 - kb)

/-- HAD from one boundary to the next, vector by vector (R215). [log DESIGN CHOICE 80] -/
def hadStep (c : MCmd) (kb : Nat) (k : Core) : Core × BitVec 8 :=
  let n := 16 * 2 ^ (c.num 1 1 / 4 % 4)
  (List.range 32).foldl (fun r v =>
    let t := hadVector (c.flag 4) (c.flag 5) n (32 * hadSpan c kb)
      (c.num 8 4 + v * c.num 12 4 + kb * 32 * (if c.flag 4 then 4 else 2))
      (c.num 16 4 + v * c.num 20 4 + kb * 32 * (if c.flag 5 then 4 else 2)) r.1
    (t.1, r.2 ||| t.2)) (k, 0)

/-! ### DRAIN (R83, R84, R87, R88, R216) -/

/-- qmax of a type. -/
def qmaxOf (t : Nat) : Nat := if t = 1 then 127 else if t = 3 then 448 else if t = 4 then 57344 else 7

/-- An integer element of the drain format. -/
def drainInt (bits : Nat) (v : Val) : Nat × BitVec 8 :=
  match v with
  | .nan _ => (0, fNV)
  | .inf neg => (wrap bits (if neg then -(2 ^ (bits - 1)) else 2 ^ (bits - 1) - 1), fSAT)
  | .fin _ _ _ =>
    let r := satInt (-(2 ^ (bits - 1))) (2 ^ (bits - 1) - 1) (rneInt v)
    (wrap bits r.1, r.2)

/-- An element of the drain format other than O4, from an F32 value and the block exponent. -/
def drainElem (t : Nat) (sat : Bool) (e : Int) (x : Nat) : Nat × BitVec 8 :=
  let v := f32.decode x
  if t = 6 then (x, 0)
  else if t = 5 then bf16.encode 0 false v
  else if t = 3 ∨ t = 4 then (matFmt t).encode 0 sat (v.scale (-e))
  else drainInt (typeBits t) (v.scale (-e))

/-- A row of the drain: its bytes as a number, its scale byte, the outliers' places in it, and its flags. -/
def drainRow (f : Word) (xs : List Nat) : Nat × Nat × List Nat × BitVec 8 :=
  let t := fmtType f
  let vs := xs.map f32.decode
  let nv := flagIf (vs.any (fun v => v.isNan)) fNV
  if t = 2 then
    let q := quantBlock vs
    (ofElems 16 q.2.1, q.1, q.2.2, nv ||| flagIf (q.1 == 0xFF) fNV)
  else
    let sc := if fmtScaled f then scaleByte (qmaxOf t) false vs else 127
    if fmtScaled f ∧ sc = 0xFF then (0, sc, [], nv ||| fNV)
    else
      let r := xs.map (drainElem t (fmtScaled f || f.getLsbD 10) (e8m0Exp sc))
      (ofElems (typeBits t) (r.map (fun x => x.1)), sc, [], r.foldl (fun g x => g ||| x.2) nv)

/-- The rows of an accumulator under the tensor scale, with the flags. -/
def scaledRows (ts : Nat) (acc : Acc) : List (List (Nat × BitVec 8)) :=
  (elems 1024 32 acc.toNat).map (fun r => (elems 32 32 r).map (fun x => f32.mul 0 x ts))

/-- The absmax of F32 codes: the largest magnitude code of those that are no NaN. -/
def absmax (l : List Nat) : Nat := l.foldl (fun m x => if (f32.decode x).isNan then m else max m (x % 2 ^ 31)) 0

/-- DRAIN's scratchpad output, row by row with the scale byte of a row before it, its outliers (element index and F32 value), its absmax and its flags. -/
def drainOut (m : MSet) (c : MCmd) (k : Core) : Core × List (Nat × Nat) × Nat × BitVec 8 :=
  let rows := scaledRows (c.num 4 4) (k.acc c.acc)
  let vals := rows.map (fun r => r.map (fun x => x.1))
  let out := vals.map (drainRow m.fmtd)
  let n := 4 * typeBits (fmtType m.fmtd)
  let sp := out.zipIdx.foldl (fun sp e =>
    matWrite (if fmtScaled m.fmtd then matWrite sp (scaleAddr m.scld + e.2) 1 e.1.2.1 else sp) (c.num 8 4 + e.2 * c.num 12 4) n e.1.1) k.spad
  ({ k with spad := sp },
   (out.zip vals).zipIdx.flatMap (fun e => e.1.1.2.2.1.map (fun i => (c.num 16 4 + 32 * e.2 + i, e.1.2[i]?.getD 0))),
   absmax vals.flatten,
   (rows.flatten.map (fun x => x.2) ++ out.map (fun r => r.2.2.2)).foldl (fun g x => g ||| x) 0)

/-! ### Times (R208–R218) -/

/-- The quotient rounded up. -/
def ceilDiv (a b : Nat) : Nat := (a + b - 1) / b

/-- The cycles that a command keeps the unit busy, without its memory accesses. [log DEDUCED 8] -/
def cmdCycles (m : MSet) (c : MCmd) : Nat :=
  let p := fun (f : Word) => planesOf (fmtType f) (fmtWidth f)
  if c.code = 1 then
    let f := (planeFmt m c).1
    12 + c.k32 * 5 * max (ceilDiv (128 * typeBits (fmtType f)) 1024) (ceilDiv (128 * p f + 64) 1024)
  else if c.code = 2 then
    12 + c.k32 * max (ceilDiv (fmtWidth m.fmta * fmtWidth m.fmtb) 2) (ceilDiv (5 * (p m.fmta + p m.fmtb + 1)) 8)
  else if c.code = 3 then
    12 + (c.records.map (fun r => if r.fail.isSome then 0 else
      r.kr * max (ceilDiv (fmtWidth m.fmta * r.w) 2) (ceilDiv (5 * (p m.fmta + planesOf r.ty.toNat r.w + 1)) 8))).sum
  else if c.code = 4 then
    12 + c.k32 * 5 * max (ceilDiv (if c.flag 4 then 4096 else 2048) 1024) (ceilDiv (if c.flag 5 then 4096 else 2048) 1024)
  else if c.code = 5 then 12 + 5 * ceilDiv (32 * c.num 12 4) 1024
  else if c.code = 6 then 4
  else 1

end Sys2Proof.Machine
end

