-- ==== Sys2Proof/Machine/Outlier.lean ====
section
/-!
DEFINITION. Memory accesses that a quantiser and DRAIN make for the context that committed them: atomics, and the outlier list (R85, R190, R202, R216).
-/

namespace Sys2Proof.Machine

open Sys2Proof

/-- An atomic of a unit for a context at a location, at a scope that decides where it executes as for an AMO of the context (R240): the old value,
whether the response is poisoned, and the state; a departing range raises FARGONE (R155, R384). [log DEDUCED 25] -/
def unitAmo (c : CtxId) (pc va : Word) (order : Nat) (l : Loc) (op : BitVec 4) (scope : BitVec 3) (n v : Nat) (s : State) : Nat × Bool × State :=
  let f := fun (old : Nat) => amoNew op (8 * n) old v 0
  let p := s.partOfRank (rankOf c.core)
  match l with
  | .spad x =>
    let k := s.core c.core
    let old := readLe k.spad x n
    (old, false, (f old).elim s (fun u => s.setCore c.core { k with spad := writeLe k.spad x n u }))
  | .mem pa others =>
    let late := if amoInL1 s c.core pa others scope then (false, s) else lateFar c (pa / 64) true s
    let r := amoCounted ⟨c, p, va⟩ pa others scope (capped (s.part p) scope == 7) true n f late.2
    if late.1 then (0, true, late.2) else (r.2.1, r.2.2, r.1)
  | .mmio pa =>
    let old := (mmioRead s (pa / 8 * 8)).toNat / 256 ^ (pa % 8) % 256 ^ n
    (old, false, (f old).elim s (fun u => mmioPut pa n u s))
  | .peer q exp ra _ _ _ =>
    if q = s.fabric.peer.toNat then
      let r := servePeer (fromPeer l n c.core s) q exp ra (.amo op n) (BitVec.ofNat 64 v) 0 (some p)
      (r.2.1.toNat, r.2.2, r.1)
    else
      let r := peerAnswer n (countPeerDelay c.core s)
      (r.1.getD 0, r.1.isNone, (cachedLine s l).elim r.2 (fun line => dropAsked c.core line r.2))
  | .departing => (0, true, raiseDeferred c cFARGONE pc va order s)
  | .nowhere => (0, true, s)

/-- What an access of a unit comes to: it waits, fails with the cause and the address, or is done. -/
inductive UnitEnd where
  | wait
  | fail (cause : BitVec 6) (va : Word) (s : State)
  | ok (v : Nat) (s : State)
deriving DecidableEq, Repr

/-- Something keeps an access to scratchpad bytes back. -/
def Loc.keptBy (l : Loc) (kept : Nat → Nat → Bool) (n : Nat) : Bool :=
  match l with
  | .spad x => kept x n
  | _ => false

/-- An atomic of n bytes at an address, at an implied scope; a demotion of that by the partition's ceiling changes nothing of whether
it executes in the L1 or at its home (R402). -/
def amoAt (c : CtxId) (x : Xctx) (pc va : Word) (order : Nat) (op : BitVec 4) (scope : BitVec 3) (n v : Nat) (s : State)
    (kept : Nat → Nat → Bool := fun _ _ => false) : UnitEnd :=
  if va.toNat % n ≠ 0 then .fail cMISALIGN va s
  else
    match unitLoc s c x va n needRW with
    | (s, none) => .fail cXLATE va s
    | (s, some l) =>
      if l.keptBy kept n ∨ !accessReady c l n true s then .wait
      else
        let r := unitAmo c pc va order l op scope n v (revokeAt c l n true s)
        if r.2.1 then .fail cPOISON va r.2.2 else .ok r.1 r.2.2

/-- A write of eight bytes at an address; one that is answered with poison fails the instruction or command that makes it, and is no failed store; one to
a departing range raises FARGONE besides (R384, R426). -/
def putAt (c : CtxId) (x : Xctx) (pc va : Word) (order v : Nat) (s : State) (kept : Nat → Nat → Bool := fun _ _ => false) : UnitEnd :=
  if va.toNat % 8 ≠ 0 then .fail cMISALIGN va s
  else
    match unitLoc s c x va 8 needW with
    | (s, none) => .fail cXLATE va s
    | (s, some l) =>
      if l.keptBy kept 8 ∨ !accessReady c l 8 true s then .wait
      else
        let t := storeAt c pc va order l 8 v (revokeAt c l 8 true s)
        if (s.ctx c).failed.length < (t.ctx c).failed.length ∨ (s.ctx c).deferred.length < (t.ctx c).deferred.length then
          .fail cPOISON va (t.setCtx c { t.ctx c with failed := (s.ctx c).failed })
        else .ok 0 t

/-- AppendOutlier (R85): its value is 1 where the entry is dropped. cr.olist, cr.olim and cr.ocnt are read when the instruction or command that
appends runs. [log DEDUCED 12; DESIGN CHOICE 64] -/
def appendOutlier (c : CtxId) (x : Xctx) (pc : Word) (order : Nat) (e : Nat × Nat) (s : State) (kept : Nat → Nat → Bool := fun _ _ => false) : UnitEnd :=
  let k := s.core c.core
  match amoAt c x pc k.ocnt order 4 5 4 1 s kept with
  | .ok n s =>
    if n < k.olim.toNat then putAt c x pc (k.olist + BitVec.ofNat 64 (8 * n)) order (e.1 % 2 ^ 32 + 2 ^ 32 * e.2) s kept
    else .ok 1 s
  | o => o

/-- Appends in order, the rest dropped after a failure; the value says whether some entry was dropped for want of room. Where one was and a
later one fails, `full` accrues OL as the issuer does: VQO4 when it completes, DRAIN at once. `kept` says what keeps an append to the scratchpad back.
[log DEDUCED 12] -/
def appendAll (c : CtxId) (x : Xctx) (pc : Word) (order : Nat) (full : State → State) (l : List (Nat × Nat)) (s : State)
    (kept : Nat → Nat → Bool := fun _ _ => false) : UnitEnd :=
  match l with
  | [] => .ok 0 s
  | e :: t =>
    match appendOutlier c x pc order e s kept with
    | .ok a s =>
      match appendAll c x pc order full t s kept with
      | .ok b s => .ok (max a b) s
      | .fail u va s => .fail u va (if a = 0 then s else full s)
      | .wait => .wait
    | o => o

end Sys2Proof.Machine
end

