-- ==== Sys2Proof/Machine/EvMatrix.lean ====
section
/-!
DEFINITION. The commands of the matrix unit as they start, go on block by block, and complete (R199–R218, R222, R224, R225).
-/

namespace Sys2Proof.Machine

open Sys2Proof

/-! ### Starting (R199, R206, R207, R213, R224) -/

/-- The matrix unit of a core starts and goes on: its partition runs and its cluster is not halted (R225, R296). -/
def matMoves (s : State) (core : Nat) : Bool :=
  partRuns s core && !(s.cluster (rankOf core)).halted

/-- A command has started that runs to its end whatever stops the unit: DRAIN, ZERO or MARK (R225). -/
def MCmd.runsOn (c : MCmd) : Bool := c.started && decide (5 ≤ c.code)

/-- The unit works on a command: it moves, or the partition stops or has been stopped and the command runs on (R225, R296). -/
def matWorks (s : State) (core : Nat) (c : MCmd) : Bool :=
  let q := s.part (s.partOfRank (rankOf core))
  matMoves s core || (c.runsOn && q.owns (rankOf core) && q.state != 4)

/-- The scratchpad writes and the copies before a command's commit are done (R224). -/
def writesDone (k : Core) (c : MCmd) : Bool :=
  k.ctxs.toList.all (fun x => x.vq.all (fun v => decide (c.order ≤ v.seq) || v.wr.isEmpty)) &&
    c.ranges.all (fun r => !(k.ctx r.1.ctx).ranges.any (fun e => e.ticket == r.2))

/-- What a command waits for before it starts has come about (R199, R224). -/
def cmdReady (k : Core) (c : MCmd) : Bool := gateOpen k 0 && writesDone k c

/-- The set of format registers that a command is checked against and runs with (R207). -/
def MCmd.setOf (c : MCmd) (k : Core) : MSet := c.shadow.getD k.active

/-- The KIND of a command that is bad on reaching the head of the queue, before the gate and before what it would start after; the records of MMA.R
count as they are once what is to write them is done (R200, R206). [log DEDUCED 13] -/
def badNow (k : Core) (c : MCmd) : Option (BitVec 4) :=
  if c.code = 3 ∧ !reservedBad c ∧ !fieldBad (c.setOf k) c ∧ !addressBad (matSize k) (c.setOf k) c ∧ !writesDone k c then none
  else checkCmd k (c.setOf k) c

/-- Read n bytes for a command of a core, in pieces that lie in one line each; a departing range raises FARGONE (R155, R384). -/
def unitRead (fuel : Nat) (core : Nat) (cmd : MCmd) (va : Word) (n : Nat) (s : State) : UnitEnd :=
  let c : CtxId := ⟨core, cmd.ctx⟩
  match fuel with
  | 0 => .ok 0 s
  | f + 1 =>
    if n = 0 then .ok 0 s
    else
      let m := Nat.min n (64 - va.toNat % 64)
      match unitLoc s c cmd.xctx va m needR with
      | (s, none) => .fail cXLATE va s
      | (s, some l) =>
        if !accessReady c l m false s then .wait
        else
          let r := loadAt c l m (revokeAt c l m false s)
          if r.2.1 then .fail cPOISON va (if r.2.2.1 then raiseDeferred c cFARGONE cmd.pc va cmd.before r.2.2.2 else r.2.2.2)
          else
            match unitRead f core cmd (va + BitVec.ofNat 64 m) (n - m) r.2.2.2 with
            | .ok v s => .ok (r.1 + 256 ^ m * v) s
            | o => o

/-- The bytes from offset i of a table entry read as a number. -/
def entryNum (v i n : Nat) : Nat := v / 256 ^ i % 256 ^ n

/-- The parts of an adapter entry are in range (R212). -/
def adapterOk (v : Nat) : Bool :=
  entryNum v 0 1 == 1 && entryNum v 6 2 == 0 && entryNum v 48 16 == 0 && pairOk (entryNum v 2 1) (entryNum v 1 1) &&
    decide (8 ≤ entryNum v 3 1) && decide (entryNum v 3 1 ≤ 64) && decide (1 ≤ entryNum v 4 2) && decide (entryNum v 4 2 ≤ 128)

/-- What the check of a record comes to. -/
inductive RecEnd where
  | wait
  | ok (r : MRecord) (s : State)
deriving DecidableEq, Repr

/-- The record that an adapter entry and a request entry give (R213). -/
def adapterRecord (c : MCmd) (ct first rows tenant v : Nat) : MRecord :=
  let rank := ceilDiv (entryNum v 3 1) 32
  let hidden := entryNum v 4 2
  let up := c.flag 3
  let kr := if up then Nat.min c.k32 rank else c.k32
  let fail : Option (BitVec 3) :=
    if !adapterOk v then some 3
    else if entryNum v 8 8 ≠ tenant then some 4
    else if !up ∧ (hidden < c.k32 ∨ rank ≤ ct) then some 5
    else if up ∧ hidden ≤ ct then some 5
    else none
  let blocks := ct * (if up then rank else hidden)
  let p := planesOf (entryNum v 2 1) (entryNum v 1 1)
  let at_ := if up then 32 else 16
  ⟨fail, first, rows, ct, kr, entryNum v 1 1, BitVec.ofNat 4 (entryNum v 2 1),
    BitVec.ofNat 64 (entryNum v at_ 8 + blocks * p * 128), BitVec.ofNat 64 (entryNum v (at_ + 8) 8 + blocks * 64)⟩

/-- A table's base address. -/
def tableBase (r : Word) : Word := r &&& ~~~0xFFFF#64

/-- One record is checked (R213). [log DESIGN CHOICE 78] -/
def checkRecord (core : Nat) (c : MCmd) (r : Nat) (s : State) : RecEnd :=
  let k := s.core core
  let first := recNum k c r 0 1
  let rows := recNum k c r 1 1
  let ct := recNum k c r 2 2
  let req := recNum k c r 4 4
  let adp := recNum k c r 8 4
  let bad := fun (n : BitVec 3) => (⟨some n, first, rows, ct, 0, 0, 0, 0, 0⟩ : MRecord)
  if (k.rqtab.extractLsb' 0 16).toNat ≤ req then .ok (bad 0) s
  else
    match unitRead 4 core c (tableBase k.rqtab + BitVec.ofNat 64 (16 * req)) 16 s with
    | .wait => .wait
    | .fail _ _ s => .ok (bad 6) s
    | .ok q s =>
      if entryNum q 8 1 % 2 = 0 then .ok (bad 1) s
      else if (k.adtab.extractLsb' 0 13).toNat ≤ adp then .ok (bad 2) s
      else
        match unitRead 4 core c (tableBase k.adtab + BitVec.ofNat 64 (64 * adp)) 64 s with
        | .wait => .wait
        | .fail _ _ s => .ok (bad 6) s
        | .ok v s => .ok (adapterRecord c ct first rows (entryNum q 0 8) v) s

/-- The records from the r-th on are checked, `n` of them; none where a read has to wait. -/
def checkRecords (core : Nat) (c : MCmd) (n r : Nat) (s : State) : Option (List MRecord × State) :=
  match n with
  | 0 => some ([], s)
  | m + 1 =>
    match checkRecord core c r s with
    | .wait => none
    | .ok x s => (checkRecords core c m (r + 1) s).map (fun t => (x :: t.1, t.2))

/-- The head of the queue replaced. -/
def setHead (core : Nat) (c : MCmd) (s : State) : State :=
  let k := s.core core
  s.setCore core { k with mq := c :: k.mq.tail }

/-- A good head starts: it takes the gate's counts, the active set is replaced, a fresh accumulator is cleared, and its records are checked. -/
def startHead (core : Nat) (c : MCmd) (s : State) : Option State :=
  let k := strConsume s.cycle 0 (s.core core)
  let fresh := (c.code = 2 ∨ c.code = 3) ∧ c.flag 2
  let k := { k with active := c.setOf k }
  let k := if fresh then k.setAcc c.acc 0 else k
  let s := s.setCore core k
  if c.code = 3 then
    (checkRecords core c c.nrec 0 s).map (fun r => setHead core { c with started := true, records := r.1 } r.2)
  else some (setHead core { c with started := true } s)

/-- The head of a core's queue, found bad or started if it may start now, with the state. -/
def headNow (core : Nat) (s : State) : Option (MCmd × State) :=
  match (s.core core).mq with
  | [] => none
  | c :: _ =>
    if !matWorks s core c then none
    else if c.started then some (c, s)
    else
      match badNow (s.core core) c with
      | some kind => let d := { c with started := true, bad := some kind, performed := true }; some (d, setHead core d s)
      | none =>
        if cmdReady (s.core core) c then (startHead core c s).bind (fun t => ((t.core core).mq.head?).map (fun d => (d, t)))
        else none

/-- A command of a code goes on, if it is the head and not bad or performed. -/
def goOn (code core : Nat) (s : State) (f : MCmd → State → State) : Out :=
  if ((s.core core).mq.head?).any (fun c => c.code == code) then
    match headNow core s with
    | some (c, t) => .next (if c.performed then t else f c t)
    | none => .next s
  else .next s

/-! ### PLANE, MMA and HAD -/

/-- Steps of a command over K-blocks, at most `n` of them: `f` does the blocks from kb on and `span` says how many they are. -/
def runBlocks (core : Nat) (span : MCmd → Nat → Nat) (f : MCmd → Nat → Core → Core × BitVec 8) (n : Nat) (c : MCmd) (s : State) : State :=
  match n with
  | 0 => setHead core c s
  | m + 1 =>
    let r := f c c.kb (s.core core)
    let d := { c with kb := c.kb + span c c.kb, fflags := c.fflags ||| r.2 }
    let d := { d with performed := decide (d.k32 ≤ d.kb) }
    let t := s.setCore core r.1
    if d.performed then setHead core d t else runBlocks core span f m d t

/-- PLANE (R208). -/
def execPlane (core blocks : Nat) (s : State) : Out :=
  goOn 1 core s (fun c s => runBlocks core (fun _ _ => 1) (planeStep (s.core core).active) (max 1 blocks) c s)

/-- One K-block of MMA. -/
def mmaStep (c : MCmd) (kb : Nat) (k : Core) : Core × BitVec 8 :=
  let m := k.active
  let r := mmaBlock 0 32 (matTile k m.fmta (c.num 8 4) (c.num 12 4) kb) (matTile k m.fmtb (c.num 16 4) (c.num 20 4) kb) (k.acc c.acc)
  (k.setAcc c.acc r.1, r.2)

/-- MMA (R209). -/
def execMma (core blocks : Nat) (s : State) : Out := goOn 2 core s (runBlocks core (fun _ _ => 1) mmaStep (max 1 blocks))

/-- HAD (R215). -/
def execHad (core blocks : Nat) (s : State) : Out := goOn 4 core s (runBlocks core hadSpan hadStep (max 1 blocks))

/-! ### MMA.R (R214) -/

/-- Record r of a command fails at a fetch: its rows become NaNs, and the next record is on. -/
def recordFails (core : Nat) (r : MRecord) (c : MCmd) (s : State) : MCmd × State :=
  let k := s.core core
  ({ c with records := c.records.set c.rcd { r with fail := some 6 }, rcd := c.rcd + 1, kb := 0, fflags := c.fflags ||| fNV },
    s.setCore core (k.setAcc c.acc (nanRows r.first r.rows (k.acc c.acc))))

/-- The next K-block of the current record; none where a fetch has to wait. -/
def recordStep (core : Nat) (c : MCmd) (s : State) : Option (MCmd × State) :=
  match c.records[c.rcd]? with
  | none => some ({ c with performed := true }, s)
  | some r =>
    if r.fail.isSome ∨ r.kr ≤ c.kb then some ({ c with rcd := c.rcd + 1, kb := 0 }, s)
    else
      let p := planesOf r.ty.toNat r.w
      match unitRead 34 core c (r.planes + BitVec.ofNat 64 (c.kb * p * 128)) (p * 128) s with
      | .wait => none
      | .fail _ _ s => some (recordFails core r c s)
      | .ok planes s =>
        match unitRead 4 core c (r.exps + BitVec.ofNat 64 (c.kb * 64)) 64 s with
        | .wait => none
        | .fail _ _ s => some (recordFails core r c s)
        | .ok exps s =>
          let k := s.core core
          let t := mmaBlock r.first r.rows (matTile k k.active.fmta (c.num 8 4) (c.num 12 4) c.kb)
            (tile32 r.ty.toNat r.w planes exps) (k.acc c.acc)
          some ({ c with kb := c.kb + 1, fflags := c.fflags ||| t.2 }, s.setCore core (k.setAcc c.acc t.1))

/-- Steps over the records, at most `n` of them. -/
def runRecords (core n : Nat) (c : MCmd) (s : State) : State :=
  match n with
  | 0 => setHead core c s
  | m + 1 =>
    match recordStep core c s with
    | none => setHead core c s
    | some (d, t) => if d.performed then setHead core d t else runRecords core m d t

/-- MMA.R (R211–R214). -/
def execMmaR (core blocks : Nat) (s : State) : Out := goOn 3 core s (runRecords core (max 1 blocks))

/-! ### DRAIN, ZERO and MARK -/

/-- The context that committed the command has ended: HEXIT or HKILL has freed its slot, or a group has ended in it. -/
def cmdLost (core : Nat) (c : MCmd) (s : State) : Bool := c.orphan || !((s.core core).ctx c.ctx).live

/-- Flags of a matrix command accrue in the context that committed it (R75); where that context has ended, they are dropped.
[log DESIGN CHOICE 91] -/
def cmdAccrue (core : Nat) (c : MCmd) (f : BitVec 8) (s : State) : State :=
  if cmdLost core c s then s else accrue ⟨core, c.ctx⟩ f s

/-- The outlier and absmax accesses of DRAIN: whether one failed and whether an entry was dropped; none where one has to wait. -/
def drainAccesses (core : Nat) (c : MCmd) (outs : List (Nat × Nat)) (amax : Nat) (s : State) : Option (Bool × Bool × State) :=
  let k := s.core core
  let x : CtxId := ⟨core, c.ctx⟩
  match appendAll x c.xctx c.pc c.before (cmdAccrue core c fOL) outs s with
  | .wait => none
  | .fail _ _ t => some (true, false, t)
  | .ok n t =>
    if k.active.fmtd.getLsbD 11 then
      match amoAt x c.xctx c.pc k.amaxp c.before 13 k.amaxsc 4 amax t with
      | .wait => none
      | .fail _ _ u => some (true, n != 0, u)
      | .ok _ u => some (false, n != 0, u)
    else some (false, n != 0, t)

/-- DRAIN (R216). The outlier-list, count and absmax accesses come after all its row and scale writes: R216 bounds them by the commit and the
completion only. [log DESIGN CHOICE 92] -/
def execDrain (core : Nat) (s : State) : Out :=
  goOn 5 core s (fun c s =>
    let r := drainOut (s.core core).active c (s.core core)
    match drainAccesses core c r.2.1 r.2.2.1 (s.setCore core r.1) with
    | none => s
    | some (failed, dropped, t) =>
      let k := t.core core
      setHead core { c with performed := true, memFail := failed, fflags := c.fflags ||| r.2.2.2 ||| (if dropped then fOL else 0) }
        (t.setCore core (if c.flag 2 then k.setAcc c.acc 0 else k)))

/-- ZERO (R217). -/
def execZero (core : Nat) (s : State) : Out :=
  goOn 6 core s (fun c s =>
    let k := s.core core
    let k := (List.range 8).foldl (fun k n => if (c.num 2 1).testBit n then k.setAcc n 0 else k) k
    setHead core { c with performed := true } (s.setCore core k))

/-- The release of a MARK with SIG: what its context did before the commit is performed, and its pushes are installed or refused (R218, R250). -/
def markReleased (core : Nat) (c : MCmd) (s : State) : Bool :=
  let x : CtxId := ⟨core, c.ctx⟩
  s.reqs.all (fun q => q.ctx != x || decide (c.before ≤ q.id) || q.performed) &&
    s.pushes.all (fun p => p.ctx != x || decide (c.before ≤ p.req)) &&
    (s.ctx x).vq.all (fun v => v.elems.isEmpty || decide (c.before ≤ v.order)) &&
    (s.ctx x).ring.all (fun h => decide (c.before ≤ h.order))

/-- MARK (R218): it has nothing to do but to complete, with SIG once its context's earlier accesses are released. -/
def execMark (core : Nat) (s : State) : Out :=
  goOn 7 core s (fun c s => if c.flag 2 ∧ !markReleased core c s then s else setHead core { c with performed := true } s)

/-! ### Completion (R75, R200, R218, R222) -/

/-- The flags that the matrix unit sets (R75). [log DEDUCED 13] -/
def matFlags : BitVec 8 := fOF ||| fNV ||| fOQ ||| fOL ||| fSAT

/-- The mask of failing records, and the lowest with its reason. -/
def failMask (c : MCmd) : Nat := ofElems 1 (c.records.map (fun r => if r.fail.isSome then 1 else 0))
def failFirst (c : MCmd) : Nat × Nat :=
  ((c.records.zipIdx.find? (fun r => r.1.fail.isSome)).map (fun r => (r.2, (r.1.fail.getD 0).toNat))).getD (0, 0)

/-- The fault that a command ends with (R222). [log DESIGN CHOICE 79] -/
def cmdFault (c : MCmd) : Option (MFault × Nat × Nat) :=
  let f := fun (kind : BitVec 4) (mask : BitVec 32) => (⟨c.seq.setWidth 32, kind, BitVec.ofNat 3 c.acc, false, mask⟩ : MFault)
  match c.bad with
  | some kind => some (f kind 0, 0, 0)
  | none =>
    if c.memFail then some (f 6 0, 0, 0)
    else if c.records.any (fun r => r.fail.isSome) then some (f 7 (BitVec.ofNat 32 (failMask c)), (failFirst c).1, (failFirst c).2)
    else none

/-- A performed command completes: it leaves the queue and counts, its flags accrue, its fault is recorded, and the strings source
and the event counter of MARK fire. A bad one keeps the unit busy for no cycle and changes nothing, so that no source fires. [log DEDUCED 13] -/
def completeCmd (core : Nat) (c : MCmd) (s : State) : State :=
  let k := s.core core
  let lost := cmdLost core c s
  let s := s.setCore core { k with mq := k.mq.tail, mdone := c.seq, cntMatrix := k.cntMatrix + (if c.bad.isNone then BitVec.ofNat 64 (cmdCycles k.active c) else 0) }
  let s := if c.bad.isSome then s else cmdAccrue core c (c.fflags &&& matFlags) s
  let s := match cmdFault c with
    | some (f, r, why) => recordFault core c.ctx lost f r why s
    | none => s
  let mark := c.code == 7 && c.bad.isNone
  let s := if (c.flag 1 ∧ c.bad.isNone) ∨ mark then pulse core 0 s else s
  if mark ∧ c.flag 2 then signalEvent core c.acc s else s

/-- MATRIX_COMMAND_DONE: the head has been performed, or it is bad and completes at once (R200, R206). -/
def execMatrixCommandDone (core : Nat) (s : State) : Out :=
  match (s.core core).mq with
  | [] => .next s
  | c :: _ =>
    if c.performed then .next (completeCmd core c s)
    else
      match headNow core s with
      | some (d, t) => if d.performed then .next (completeCmd core d t) else .next s
      | none => .next s

end Sys2Proof.Machine
end

