-- ==== Sys2Proof/Machine/Image.lean ====
section
/-!
DEFINITION. The save area of a partition: its layout, what is written into it, and what is read back from it (R377, R378, R391, R395).
-/

namespace Sys2Proof.Machine

open Sys2Proof

/-- The first rank under which the clusters of a SAVED partition stand. [log DEDUCED 35] -/
def parkRank (p : Nat) : Nat := 65536 * (p + 1)

/-- The partition of a core, which may be one of a SAVED partition's. -/
def homeOf (s : State) (core : Nat) : Nat := if rankOf core < 65536 then s.partOfRank (rankOf core) else rankOf core / 65536 - 1

/-- The address after the save area of a partition (R377, R395). -/
def saveEnd (q : Part) : Nat := q.save.toNat + 0x10000 + q.len.toNat * 0x640000

/-- The place of the region of a partition's core in its save area, wherever the core stands (R377). -/
def imageCore (s : State) (core : Nat) : Nat :=
  let p := homeOf s core
  let q := s.part p
  saveCore q (if rankOf core < 65536 then core else core - 16 * parkRank p + 16 * q.base.toNat)

/-! ### The layout (R377) -/

/-- A field of the image: its address, its bytes and its value. -/
abbrev Field := Nat × Nat × Nat

/-- Doublewords from an address on. -/
def words (a : Nat) (l : List Nat) : List Field := (List.range l.length).map (fun i => (a + 8 * i, 8, l[i]?.getD 0))

/-- The WAITING field: the context waits, for a launch, a helper, a tenure, a port word, a barrier or anything else (R376, R377). -/
def waiting (x : Ctx) : Nat := if x.live ∧ x.wait ≠ .none then 1 else 0

/-- The two doublewords of each of the four places for outstanding ring entries. -/
def ringFields (x : Ctx) : List Nat :=
  (List.range 4).flatMap (fun i => match x.ring[i]? with
    | some h => [2 ^ 63 + h.entry, h.reg.toNat]
    | none => [0, 0])

/-- The fields of a context record. -/
def ctxFields (s : State) (c : CtxId) (a : Nat) : List Field :=
  let x := s.ctx c
  words a (x.pc.toNat :: (List.range 27).map (fun i => (x.reg (BitVec.ofNat 5 (i + 1))).toNat)) ++
  words (a + 0xE0) [x.poison.toNat, x.priv.toNat + (if x.live then 4 else 0) + 8 * waiting x] ++
  (List.range 32).map (fun i => (a + 0x100 + 2 * i, 2, (x.p[i]?.getD 0).toNat)) ++
  (List.range 4).flatMap (fun i => words (a + 0x140 + 128 * i) ((List.range 16).map (fun j => (x.m[i]?.getD 0).toNat / 2 ^ (64 * j) % 2 ^ 64))) ++
  words (a + 0x340) ((List.range 17).map (fun i => if csrDefined (i + 1) then (csrReadCtx x (i + 1)).toNat else 0)) ++
  words (a + 0x400) ((List.range 27).flatMap (fun i => let r := x.prec[i + 1]?.getD (0, 0); [r.1.toNat, r.2.toNat])) ++
  words (a + 0x5B0) (ringFields x) ++
  words (a + 0x5F0) [(frameWord x.frame).toNat, x.frame.elim 0 (fun f => f.base.toNat)]

/-- An index of a per-core register. -/
def csrOfCore (n : Nat) : Bool := csrDefined n && decide (0x040 ≤ n) && !csrOfPart n

/-- The control registers and the context records of a core's region. -/
def regFields (s : State) (core a : Nat) : List Field :=
  words a ((List.range 0x800).map (fun n => if csrOfCore n then (csrRead s ⟨core, 0⟩ n).toNat else 0)) ++
  (List.range 11).flatMap (fun i => ctxFields s ⟨core, i⟩ (a + 0x4000 + 0x600 * i))

/-- The fields of a core's region that have a stated layout. -/
def coreFields (s : State) (core a : Nat) : List Field :=
  let k := s.core core
  regFields s core a ++
  (List.range 8).map (fun n => (a + 0x9000 + 4096 * n, 4096, (k.accs[n]?.getD 0).toNat)) ++
  (List.range 4).flatMap (fun q => words (a + 0x12000 + 128 * q) ((k.port q).map (fun w => w.value.toNat))) ++
  k.spad.map (fun c => (a + 0x20000 + c.1, 1, c.2.toNat))

/-- The registers of the partition as the header holds them, that of index i at 8 × i, as in a core's region (R391). [log DESIGN CHOICE 36] -/
def headFields (s : State) (q : Part) : List Field :=
  (q.save.toNat, 8, q.reason.toNat) ::
    ((List.range 0x800).filter csrOfPart).filterMap (fun n =>
      if csrDefined n then some (q.save.toNat + 8 * n, 8, (csrRead s ⟨16 * q.base.toNat, 0⟩ n).toNat) else none)

/-- Fields whose layout is not stated: free values from a draw on. [log DESIGN CHOICE 4; DEDUCED 36] -/
def openFields (ctr a n : Nat) : List Field := (List.range n).map (fun i => (a + 8 * i, 8, (Config.freeValue (ctr + i)).toNat))

/-- The number of doublewords of a region and of the header without a stated layout. -/
def openCore : Nat := 0xE00 / 8 + 0x1000 / 8
def openRegion : Nat := 16 * openCore + 0x40000 / 8
def openHeader : Nat := 0x10000 / 8

/-- The image of cluster k of a partition. -/
def regionFields (s : State) (q : Part) (k : Nat) : List Field :=
  let ctr := s.freeCtr + openHeader + openRegion * k
  (List.range 16).flatMap (fun j =>
    let core := 16 * (q.base.toNat + k) + j
    let a := saveCore q core
    coreFields s core a ++ openFields (ctr + openCore * j) (a + 0x8200) (0xE00 / 8) ++
      openFields (ctr + openCore * j + 0xE00 / 8) (a + 0x11000) (0x1000 / 8)) ++
  openFields (ctr + 16 * openCore) (q.save.toNat + 0x10000 + k * 0x640000 + 0x600000) (0x40000 / 8)

/-- The fields of the image: the header, with the stop reason and the registers of the partition, and every cluster's region. -/
def imageFields (s : State) (q : Part) : List Field :=
  openFields s.freeCtr q.save.toNat openHeader ++ headFields s q ++ (List.range q.len.toNat).flatMap (regionFields s q)

/-- The save area of a partition is written: no cache keeps a line of it, bytes of no field are zero. -/
def putImage (q : Part) (fields : List Field) (s : State) : State :=
  let lo := q.save.toNat
  let hi := saveEnd q
  let out := fun (line : Nat) => decide (64 * line + 64 ≤ lo) || decide (hi ≤ 64 * line)
  let s := s.mapCores (fun _ k => { k with l1 := k.l1.filter (fun e => out e.line) })
  { s with
    mem := fields.foldl (fun m f => writeLe m f.1 f.2.1 f.2.2) (s.mem.filter (fun c => decide (c.1 < lo) || decide (hi ≤ c.1)))
    bad := s.bad.filter (fun b => out b.line)
    peerDir := s.peerDir.filter (fun d => out d.line)
    freeCtr := s.freeCtr + openHeader + openRegion * q.len.toNat }

/-- The image of a partition whose clusters have settled. [log DEDUCED 36] -/
def writeImage (p : Nat) (s : State) : State := putImage (s.part p) (imageFields s (s.part p)) s

/-- Fields of a partition's save area, written at their home. -/
def putFields (p : Nat) (l : List Field) (s : State) : State := l.foldl (fun s f => ownWrite p f.1 f.2.1 f.2.2 s) s

/-- The record of a context of a SAVED partition is what the context is now: the effect on it lands there (R382). -/
def savedRecord (p : Nat) (c : CtxId) (s : State) : State :=
  if (s.part p).state = 3 then putFields p (ctxFields s c (imageCore s c.core + 0x4000 + 0x600 * c.ctx)) s else s

/-- The registers and records of a core of a SAVED partition are what the core is now: KILL has its effect there (R392). [log DEDUCED 36] -/
def savedRegs (p : Nat) (s : State) (core : Nat) : State :=
  if (s.part p).state = 3 then putFields p (regFields s core (imageCore s core)) s else s

/-! ### Reading it back (R378) -/

/-- A doubleword of the image. -/
def wordAt (m : Memory) (a : Nat) : Word := BitVec.ofNat 64 (readRange m a 8)

/-- A context as its record has it; the frame's words are read again from the resident segment. What the record has no place for is as it was
saved. [log DEDUCED 36] -/
def loadCtx (m : Memory) (a : Nat) (k : Core) (x : Ctx) : Ctx :=
  let status := wordAt m (a + 0xE8)
  let st := wordAt m (a + 0x5F0)
  let slots := (List.range 4).map (fun i => (wordAt m (a + 0x5B0 + 16 * i), (wordAt m (a + 0x5B8 + 16 * i)).extractLsb' 0 5))
  let y := { x with
    pc := wordAt m a
    g := Vector.ofFn (fun (i : Fin 32) => if 1 ≤ i.val ∧ i.val ≤ 27 then wordAt m (a + 8 * i.val) else 0)
    poison := (wordAt m (a + 0xE0)).setWidth 32
    priv := status.extractLsb' 0 2
    live := status.getLsbD 2
    wait := if status.getLsbD 3 then (if x.wait = .none then .held else x.wait) else .none
    p := Vector.ofFn (fun (i : Fin 32) => BitVec.ofNat 16 (readRange m (a + 0x100 + 2 * i.val) 2))
    m := Vector.ofFn (fun (i : Fin 4) => BitVec.ofNat 1024 (readRange m (a + 0x140 + 128 * i.val) 128))
    icount := wordAt m (a + 0x340 + 8 * 13)
    prec := Vector.ofFn (fun (i : Fin 32) =>
      if 1 ≤ i.val ∧ i.val ≤ 27 then (wordAt m (a + 0x400 + 16 * (i.val - 1)), wordAt m (a + 0x408 + 16 * (i.val - 1))) else (0, 0))
    ring := x.ring.filterMap (fun h => (slots.find? (fun e => e.1 == BitVec.ofNat 64 (2 ^ 63 + h.entry))).map (fun e => { h with reg := e.2 }))
    frame := if st.getLsbD 63 then some (frameOf k st (wordAt m (a + 0x5F8) + 4 * zext (st.extractLsb' 0 4))) else none }
  (List.range 17).foldl (fun x i => csrWriteCtx x (i + 1) (wordAt m (a + 0x340 + 8 * i))) y

/-- A per-core register as the region has it; cr.mstat and the registers of the core's place are what they are. -/
def loadCoreCsr (k : Core) (n : Nat) (v : Word) : Core :=
  if n = 0x045 then { k with spsize := v.extractLsb' 0 2 }
  else if n = 0x047 then { k with prefused := v }
  else if n = 0x048 then { k with pdenied := v }
  else if n = 0x050 then { k with msgsent := v }
  else if n = 0x051 then { k with msgrecv := v }
  else if n = 0x055 then { k with grp := v }
  else if n = 0x056 then { k with ngrp := v }
  else if n = 0x057 then { k with launch := v }
  else if 0x058 ≤ n ∧ n ≤ 0x05B then { k with dm := k.dm.setIfInBounds (n - 0x058) v }
  else if n = 0x05D then { k with bankslip := v }
  else if n = 0x08D then { k with mflog := v }
  else if n = 0x08E then { k with mdone := v }
  else if 0x0C0 ≤ n ∧ n ≤ 0x0C7 then { k with strcnt := k.strcnt.setIfInBounds (n - 0x0C0) v }
  else if 0x0C8 ≤ n ∧ n ≤ 0x0CB then { k with strterm := k.strterm.setIfInBounds (n - 0x0C8) v }
  else if n = 0x0CC then { k with strtgt := v }
  else if n = 0x105 then { k with scopedemote := v }
  else csrWriteCore 0 k n v

/-- A core as its region has it. -/
def loadCore (m : Memory) (a : Nat) (k : Core) : Core :=
  let k := ((List.range 0x800).filter csrOfCore).foldl (fun k n => loadCoreCsr k n (wordAt m (a + 8 * n))) k
  { k with
    ctxs := Vector.ofFn (fun (i : Fin 11) => loadCtx m (a + 0x4000 + 0x600 * i.val) k (k.ctx i.val))
    accs := Vector.ofFn (fun (i : Fin 8) => BitVec.ofNat 32768 (readRange m (a + 0x9000 + 4096 * i.val) 4096))
    ports := Vector.ofFn (fun (i : Fin 4) => (k.port i.val).zipIdx.map (fun w => { w.1 with value := wordAt m (a + 0x12000 + 128 * i.val + 8 * w.2) }))
    spad := (clipRange m (a + 0x20000) (a + 0x20000 + spBytes k.spsize)).map (fun c => (c.1 - (a + 0x20000), c.2)) }

/-- The registers of a partition as the header has them; PRANGE is the control block's. [log DESIGN CHOICE 36] -/
def loadHead (m : Memory) (kw8 : Bool) (q : Part) : Part :=
  let rd := fun (n : Nat) => wordAt m (q.save.toNat + 8 * n)
  let t := ((List.range 0x800).filter (fun n => csrDefined n && csrOfPart n && n != 0x185 && n != 0x300 && n != 0x301)).foldl
    (fun t n => csrWritePart kw8 t n (rd n)) { q with rrsz := 0 }
  { t with rrsz := (rd 0x185).extractLsb' 0 5 }

/-- Dirty lines of the save area are written back: the image is read at its home. -/
def recallImage (q : Part) (s : State) : State :=
  let lo := q.save.toNat / 64
  let hi := saveEnd q / 64
  let lines := (s.cores.flatMap (fun c => (c.2.l1.filter (fun e => e.st == .O)).map (fun e => e.line))).filter (fun l => decide (lo ≤ l) && decide (l < hi))
  lines.foldl (fun s l => recallO s 0 l) s

/-- The image of a partition is written back into its clusters (R378, R395). [log DEDUCED 36] -/
def readImage (p : Nat) (cores : List Nat) (s : State) : State :=
  let s := recallImage (s.part p) s
  let q := s.part p
  let m := clipRange s.mem q.save.toNat (saveEnd q)
  cores.foldl (fun s core => s.setCore core (loadCore m (saveCore q core) (s.core core))) (s.setPart p (loadHead m s.kw8 q))

end Sys2Proof.Machine
end

