-- ==== Sys2Proof/Machine/Port.lean ====
section
/-!
DEFINITION. The PORT major, and port words on their way (R95, R254, R260–R264, R292).
-/

namespace Sys2Proof.Machine

open Sys2Proof

/-- The port that a field of QPEEK, QCLR or QSTAT names. -/
def portOf (q : BitVec 2) : Nat := q.toNat

/-- QPEEK (R264). -/
def execQpeek (d : Reg) (q : BitVec 2) (w : BitVec 3) (s : State) : Out :=
  issueThen [] [d] s (fun s => match s.mine.port (portOf q) with
    | [] => destThen d s hold
    | x :: _ => completeWith w [] d x.value s)

/-- Remove every word of a port, each counted as received (R263, R264, R292). -/
def clearPort (k : Core) (q : Nat) (n : Nat) : Core :=
  match n with
  | 0 => k
  | m + 1 => clearPort (k.pop q) q m

/-- QCLR (R264). -/
def execQclr (q : BitVec 2) (w : BitVec 3) (s : State) : Out :=
  issueThen [] [] s (fun s => .next (finish w [] (s.setMine (clearPort s.mine (portOf q) (s.mine.port (portOf q)).length))))

/-- QSTAT (R264). -/
def execQstat (d : Reg) (q : BitVec 2) (w : BitVec 3) (s : State) : Out :=
  issueThen [] [d] s (fun s => completeWith w [] d (BitVec.ofNat 64 (s.mine.port (portOf q)).length) s)

/-! ### ROUTER_ACCEPT and PORT_WORD_ARRIVAL (R95, R262, R263) -/

/-- The words that the router at a cell of the mesh holds. -/
def routerLoad (s : State) (cell : Nat × Nat) : Nat := (s.net.filter (fun w => w.cell == cell)).length

/-- The router at a cell stands still: its cluster is halted, alone or with its partition (R296, R386). [log DEDUCED 58] -/
def routerStopped (s : State) (cell : Nat × Nat) : Bool :=
  s.clusters.any (fun c => c.2.halted && rankCell c.1 == cell) ||
    s.parts.toList.any (fun q => q.state == 5 && (List.range q.len.toNat).any (fun i => rankCell (q.base.toNat + i) == cell))

/-- The router at a cell takes a word: it is not stopped and has room for it among its 64 (R262). -/
def routerTakes (s : State) (cell : Nat × Nat) : Bool := !routerStopped s cell && decide (routerLoad s cell < 64)

/-- ROUTER_ACCEPT: the cluster router takes the oldest word of a context, while it has room (R262, R263). [log DEDUCED 58] -/
def execRouterAccept (core ctx : Nat) (s : State) : Out :=
  let c : CtxId := ⟨core, ctx⟩
  match (s.ctx c).sends with
  | [] => .next s
  | x :: t =>
    if isCore core ∧ routerTakes s (rankCell (rankOf core)) then
      let s := s.setCtx c { s.ctx c with sends := t }
      let k := s.core core
      .next { s.setCore core { k with msgsent := k.msgsent + 1 } with net := s.net ++ [{ x with cell := rankCell (rankOf core) }] }
    else .next s

/-- The receiving core takes words of a launch: it runs a started group of it (R262). -/
def takesWord (s : State) (x : PortWord) : Bool :=
  match (s.core x.dest).group with
  | some g => g.started && g.part == x.part && g.launch == x.launch
  | none => false

/-- The port number of a word is full. -/
def portFull (s : State) (x : PortWord) : Bool := decide (16 ≤ ((s.core x.dest).port x.port).length)

/-- The words accepted before a word. -/
def wordsBefore (s : State) (x : PortWord) : List PortWord := s.net.takeWhile (fun w => w.id != x.id)

/-- An earlier word stands before a word at its port: one of its sender and route, or one that a resume brought back for this port and that
waits only for room (R262, R378). -/
def wordBehind (s : State) (x : PortWord) : Bool :=
  (wordsBefore s x).any (fun w => (w.src == x.src && w.route == x.route) ||
    (w.saved && w.dest == x.dest && w.port == x.port && takesWord s w))

/-- The cell after a cell on the way to another one: X first, then Y (R262). -/
def stepTo (a b : Nat × Nat) : Nat × Nat :=
  if a.1 < b.1 then (a.1 + 1, a.2) else if b.1 < a.1 then (a.1 - 1, a.2)
  else if a.2 < b.2 then (a.1, a.2 + 1) else if b.2 < a.2 then (a.1, a.2 - 1) else a

/-- A word goes on to the next router of its path, once that router has room and no earlier word of its sender and route stands in this one
(R262). [log DEDUCED 58] -/
def hopWord (x : PortWord) (c : Nat × Nat) (s : State) : State :=
  if routerTakes s c ∧ !(wordsBefore s x).any (fun w => w.src == x.src && w.route == x.route && w.cell == x.cell) then
    { s with net := s.net.map (fun w => if w.id = x.id then { w with cell := c } else w) }
  else s

/-- A word enters its port; the level "port non-empty" may rise (R254, R262). -/
def landWord (x : PortWord) (s : State) : State :=
  let k := s.core x.dest
  let k' := { k with ports := k.ports.setIfInBounds x.port (k.port x.port ++ [x]) }
  s.setCore x.dest (if k.lpn then k' else strFire 4 (strRaise k k'))

/-- PORT_WORD_ARRIVAL: a word moves on to the next router of its path, and from the last one into its port (R262). [log DEDUCED 58] -/
def execPortWordArrival (word : Nat) (s : State) : Out :=
  match s.net.find? (fun w => w.id == word) with
  | none => .next s
  | some x =>
    let last := rankCell (rankOf x.dest)
    if !isCore x.dest ∨ routerStopped s x.cell then .next s
    else if x.cell ≠ last then .next (hopWord x (stepTo x.cell last) s)
    else if wordBehind s x ∨ !takesWord s x ∨ portFull s x then .next s
    else .next (landWord x { s with net := s.net.filter (fun w => w.id != word) })

end Sys2Proof.Machine
end

