-- ==== Sys2Proof/Machine/EvSwitch.lean ====
section
/-!
DEFINITION. How a partition is switched out and in again: the time slice, the stop at its timestamp, the save image, and the restore; and the
soft error that stops a partition (R225, R249, R283, R293, R311, R327, R375–R378, R386, R392, R395, R408).
-/

namespace Sys2Proof.Machine

open Sys2Proof

/-! ### TSLICE_EXPIRY and FORCED_SWITCH_STOP (R375, R376) -/

/-- TSLICE_EXPIRY: cr.tslice ticks have passed since the last resume, and a yield is requested (R375). [log DEDUCED 50] -/
def execTsliceExpiry (part : Nat) (s : State) : Out :=
  let q := s.part part
  if q.state = 1 ∧ q.tslice ≠ 0 ∧ !q.sliced ∧ q.sliceAt + q.tslice.toNat ≤ s.ticks then
    .next (s.setPart part { q with yieldreq := true, sliced := true })
  else .next s

/-- The listed cores of a partition's clusters. -/
def partCores (s : State) (p : Nat) : List Nat := (s.cores.map (fun c => c.1)).filter (fun n => isCore n && (s.part p).owns (rankOf n))

/-- A context at the stop: its results in flight come out in their own cycles, which the save awaits, and a request for a tenure is withdrawn and
issues again on resume (R47, R95, R327, R376). [log DEDUCED 37] -/
def settleCtx (s : State) (c : CtxId) : State :=
  match (s.ctx c).wait with
  | .tenure _ _ _ => s.setCtx c { s.ctx c with wait := .held }
  | _ => s

/-- The contexts of a core. -/
def ctxsOf (core : Nat) : List CtxId := (List.range 11).map (fun i => ⟨core, i⟩)

/-- The commands of a partition that run pause with their records (R283, R286). [log DEDUCED 37] -/
def pauseCmds (p : Nat) (s : State) : State :=
  { s with engine := s.engine.map (fun c => if c.xctx.part = p ∧ c.state = 1 ∧ !cmdOver c then { c with state := 2 } else c) }

/-- FORCED_SWITCH_STOP: at its timestamp the partition enters STOPPING, its cores stop and its units settle (R376, R408). [log DEDUCED 37] -/
def execForcedSwitchStop (part : Nat) (s : State) : Out :=
  let q := s.part part
  match q.switchAt with
  | none => .next s
  | some t =>
    if (q.state = 1 ∨ q.state = 2 ∨ q.state = 5) ∧ t ≤ s.ticks then
      let s := (partCores s part).foldl (fun s core => (ctxsOf core).foldl settleCtx s) (pauseCmds part s)
      let q := s.part part
      .next (s.setPart part { q with state := 2, stopAt := if q.state = 2 then q.stopAt else t, switchAt := none, tenReqs := [] })
    else .next s

/-! ### The cores of a partition under other numbers (R377, R378) -/

/-- Where a core goes that moves with n cores from lo to another first core. -/
def moveNo (lo n dst : Nat) (core : Nat) : Nat := if lo ≤ core ∧ core < lo + n then dst + (core - lo) else core

/-- What names a core is moved with it. -/
def moveXctx (f : Nat → Nat) (x : Xctx) : Xctx := { x with core := f x.core, unit := rankOf (f (16 * x.unit)) }
def moveId (f : Nat → Nat) (c : CtxId) : CtxId := { c with core := f c.core }
/-- A port word of a partition that moves: it leaves the routers, and comes back at the router of its receiver (R376, R378). -/
def moveWord (f : Nat → Nat) (w : PortWord) : PortWord :=
  { w with src := f w.src, dest := f w.dest, saved := true, cell := if isCore (f w.dest) then rankCell (rankOf (f w.dest)) else (64, 64) }
def moveSlot (f : Nat → Nat) (t : Slot) : Slot :=
  match t with
  | .fetching g n c x => .fetching g n c (moveXctx f x)
  | _ => t
def moveMCmd (f : Nat → Nat) (c : MCmd) : MCmd :=
  { c with ranges := c.ranges.map (fun r => (moveId f r.1, r.2)), xctx := moveXctx f c.xctx }
def moveCore (f : Nat → Nat) (k : Core) : Core :=
  { k with
    group := k.group.map (fun g => { g with first := f g.first })
    ctxs := k.ctxs.map (fun x => { x with sends := x.sends.map (moveWord f) })
    slots := k.slots.map (moveSlot f)
    mq := k.mq.map (moveMCmd f)
    ports := k.ports.map (fun l => l.map (moveWord f)) }
def moveXCmd (f : Nat → Nat) (c : XCmd) : XCmd :=
  { c with core := f c.core, ctx := moveId f c.ctx, xctx := moveXctx f c.xctx, group := c.group.map (fun m => (f m.1, m.2)) }
def movePart (f : Nat → Nat) (q : Part) : Part :=
  { q with
    ringEnts := q.ringEnts.map (fun e => { e with ctx := moveId f e.ctx })
    launches := q.launches.map (fun l => { l with gone := l.gone.map (fun e => (e.1, f e.2.1, e.2.2)) })
    tenures := q.tenures.map (fun t => { t with ctx := moveId f t.ctx })
    tenReqs := q.tenReqs.map (fun t => { t with ctx := moveId f t.ctx }) }

/-- The troupes of a partition's clusters go with the cores; what else a cluster holds stays in it. -/
def moveTroupes (lo n dst : Nat) (l : List (Nat × Cluster)) : List (Nat × Cluster) :=
  let here := l.filter (fun c => decide (lo ≤ c.1) && decide (c.1 < lo + n))
  here.foldl (fun l c => if c.2.troupes = [] then l else tset l (dst + (c.1 - lo)) { tget l (dst + (c.1 - lo)) Cluster.reset with troupes := c.2.troupes })
    (l.map (fun c => if lo ≤ c.1 ∧ c.1 < lo + n then (c.1, { c.2 with troupes := [] }) else c))

/-- The n clusters of a partition move, with everything that names their cores, from a first cluster rank to another. -/
def moveClusters (p lo n dst : Nat) (s : State) : State :=
  let f := moveNo (16 * lo) (16 * n) (16 * dst)
  let stays := fun (c : Nat × Core) => !(decide (16 * dst ≤ c.1) && decide (c.1 < 16 * (dst + n)))
  { s with
    cores := (s.cores.filter stays).foldl (fun l c => tset l (f c.1) (if f c.1 = c.1 then c.2 else moveCore f c.2)) []
    clusters := moveTroupes lo n dst s.clusters
    parts := s.parts.setIfInBounds p (movePart f (s.part p))
    net := s.net.map (fun w => if w.part = p then moveWord f w else w)
    engine := s.engine.map (fun c => if c.xctx.part = p then moveXCmd f c else c)
    farWrites := s.farWrites.map (fun w => { w with ctx := moveId f w.ctx }) }

/-- A command of a core's matrix unit has started that runs to its end, and what it waits for, if anything, is not an entry of the retry ring,
which outlasts the save (R225, R376). -/
def matUnsettled (s : State) (core : Nat) : Bool :=
  (s.core core).mq.head?.any (fun c => c.runsOn && !(c.code == 7 && !(s.ctx ⟨core, c.ctx⟩).ring.isEmpty))

/-- A context has nothing left in its units: its vector queue is empty, its flags have accrued, and its results are out, but for those that wait
for a port behind a send that no router has accepted (R47, R75, R95, R168). -/
def Ctx.settled (x : Ctx) : Bool :=
  x.vq.isEmpty && x.vflags.isEmpty && x.varRes.all (fun e => !x.mayProduce e.reg) && x.inflight.all (fun e => !x.mayProduce e.reg)

/-- Every unit of a partition has settled (R376). -/
def settled (s : State) (p : Nat) : Bool :=
  s.reqs.all (fun q => q.part != p) && s.pushes.all (fun x => x.part != p) && s.updates.all (fun u => u.part != p) &&
    s.engine.all (fun c => c.xctx.part != p || c.state != 1) &&
    (partCores s p).all (fun core => !matUnsettled s core && (s.core core).strPulse == 0 && (s.core core).strNext == 0 && (s.core core).ctxs.toList.all Ctx.settled)

/-- The translation caches of the clusters a partition leaves drop its VMID's entries (R311). -/
def dropVmid (q : Part) (s : State) : State :=
  { s with clusters := s.clusters.map (fun c =>
      if q.owns c.1 then (c.1, { c.2 with tlb := c.2.tlb.filter (fun e => e.vmid != q.vmid) }) else c) }

/-- The save area of a partition is to be had: peers that hold copies of its lines against the access are asked for them first (R438). -/
def saveAreaThen (q : Part) (write : Bool) (s : State) (k : State → Out) : Out :=
  let lines := heldIn s q.save.toNat (saveEnd q)
  if linesHeld s lines write then .next (askPeers lines write (s.cycle + fabricCycles q) s) else k s

/-- SAVE_DONE: the units have settled, the L1s are written back and invalidated, the image is written, and the clusters hold nothing of
the partition; the physical function signals vector p (R249, R377, R392). -/
def execSaveDone (part : Nat) (s : State) : Out :=
  let q := s.part part
  if q.state = 2 ∧ q.switchAt = none ∧ settled s part then saveAreaThen q true s (fun s =>
    let s := (partCores s part).foldl (fun s core => flushL1 core s) s
    let s := moveClusters part q.base.toNat q.len.toNat (parkRank part) (dropVmid q (writeImage part s))
    .next { s.setPart part { s.part part with state := 3, savedLen := q.len } with msi := s.msi ++ [(0, part)] })
  else .next s

/-! ### RESTORE_DONE (R145, R378, R408) -/

/-- Saved port words enter their input ports in order, as far as these have room; the others stay ahead of later ones. [log DEDUCED 36] -/
def landSaved (p : Nat) (s : State) : State :=
  s.net.foldl (fun s x =>
    if x.part = p ∧ !wordBehind s x ∧ takesWord s x ∧ !portFull s x then landWord x { s with net := s.net.filter (fun w => w.id != x.id) }
    else s) s

/-- The context waits at a WFE. -/
def atWfe (k : Core) (x : Ctx) : Bool :=
  x.live && k.isResident x.pc && k.fetch x.pc &&& 0xFFFFFFF8 == layR 0x25 0 0 0 4 0

/-- A context may return from the WFE it waits at, as a free value says. -/
def wakeResumed (s : State) (c : CtxId) : State :=
  if atWfe (s.core c.core) (s.ctx c) then
    let r := draw s
    if r.1.getLsbD 0 then r.2.setCtx c { s.ctx c with wake := true } else r.2
  else s

/-- The commands that paused go on (R283, R286). -/
def resumeCmds (p : Nat) (s : State) : State :=
  { s with engine := s.engine.map (fun c => if c.xctx.part = p ∧ c.state = 2 then { c with state := 1 } else c) }

/-- cr.tsoff after a resume (R408). -/
def resumeOff (q : Part) (ticks : Nat) : Word :=
  if q.tshide then q.tsoff + BitVec.ofNat 64 ticks - BitVec.ofNat 64 (q.stopAt + 38) else q.tsoff

/-- RESTORE_DONE: the partition's state is back on its clusters, its words in their ports, and its cores start together (R378). [log DEDUCED 36] -/
def execRestoreDone (part : Nat) (s : State) : Out :=
  let q := s.part part
  if q.state = 4 then saveAreaThen q false s (fun s =>
    let s := moveClusters part (parkRank part) q.len.toNat q.base.toNat s
    let s := readImage part (partCores s part) s
    let q := s.part part
    let s := s.setPart part { q with state := 1, tsoff := resumeOff q s.ticks, sliceAt := s.ticks, sliced := false }
    .next ((partCores s part).foldl (fun s core => (ctxsOf core).foldl wakeResumed s) (landSaved part (resumeCmds part s))))
  else .next s

/-! ### SOFT_ERROR (R386) -/

/-- SOFT_ERROR: an uncorrectable soft error in a core's state, which the debug module notes, stops the partition with reason 0 (R295, R386). -/
def execSoftError (core : Nat) (s : State) : Out :=
  if isCore core ∧ partRuns s core then
    let c := s.cluster (rankOf core)
    .next (curtainStop (s.partOfRank (rankOf core)) 0
      (s.setCluster (rankOf core) { c with dcore := BitVec.ofNat 4 (core % 16) }))
  else .next s

end Sys2Proof.Machine
end

