-- ==== Sys2Proof/Machine/Help.lean ====
section
/-!
DEFINITION. Helpers: how they start and end, what they report, YIELD, and the helper-start trigger of the strings (R138–R142, R259).
-/

namespace Sys2Proof.Machine

open Sys2Proof

/-- The helper contexts of the executing core's group: h1 to h(n − 1) (R138). -/
def helperCount (k : Core) : Nat := (k.group.elim 0 (fun g => g.contexts)) - 1

/-- The lowest-numbered helper that is not live. -/
def freeHelper (k : Core) : Option Nat := ((List.range (helperCount k)).map (fun i => i + 1)).find? (fun i => !(k.ctx i).live)

/-- The state of a started helper (R139); what its context still has under way in the engine and the routers goes on, and the counters of
CNTRD run on from the group's start (R146). The wake latch starts clear. [log DESIGN CHOICE 62] -/
def helperCtx (k : Core) (i : Nat) (t arg : Word) (cycle : Nat) : Ctx :=
  let o := k.ctx i
  let sp := k.hstk + BitVec.ofNat 64 i * k.hstksz
  let x := { Ctx.reset with
    live := true, pc := t, enter := true, nextIssue := cycle + 1, sbase := sp
    slim := k.hstk + BitVec.ofNat 64 (i - 1) * k.hstksz, tvec := (k.ctx 0).tvec, p := (k.ctx 0).p
    exitVal := o.exitVal, killed := o.killed, sends := o.sends, ranges := o.ranges, cntReady := o.cntReady, cntHeld := o.cntHeld }
  (x.setReg 3 arg).setReg 27 sp

/-- A core starts a helper. -/
def startHelper (core i : Nat) (t arg : Word) (s : State) : State :=
  let k := s.core core
  s.setCore core (k.setCtx i (helperCtx k i t arg s.cycle))

/-- HSTART and HSTART.NB (R138). -/
def hstart (wait : Bool) (word : IWord) (d a b : Reg) (w : BitVec 3) (s : State) : Out :=
  ctx0Then word s (fun s => issueThen [a, b] [d] s (fun s =>
    let t := s.rdA a
    failThen (alignCheck t) s (fun s =>
      if helperCount s.mine = 0 then completeWith w [a, b] d (BitVec.allOnes 64) s
      else match freeHelper s.mine with
        | some i => destThen d s (fun s =>
            .next (finish w [a, b] (deliver d (BitVec.ofNat 64 i) (startHelper s.cur.core i t (s.rdB a b) s))))
        | none => if wait then destThen d s hold else completeWith w [a, b] d (BitVec.allOnes 64) s)))

/-- HSTART (R138). -/
def execHstart (d a b : Reg) (w : BitVec 3) (s : State) : Out := hstart true (layR 0x21 d a b 0 w) d a b w s

/-- HSTART.NB (R138). -/
def execHstartNb (d a b : Reg) (w : BitVec 3) (s : State) : Out := hstart false (layR 0x21 d a b 1 w) d a b w s

/-- The context's own loads and atomics have returned, and its vector queue is empty (R140, R168). -/
def ownReturned (s : State) : Bool := s.reqs.all (fun q => q.ctx != s.cur || q.isStore) && s.me.varRes.isEmpty && s.me.vq.isEmpty

/-- No result of the executing context is on its way to a port. -/
def portsSent (s : State) : Bool := s.me.inflight.all (fun e => !isPort e.reg)

/-- HEXIT: a release at .core, or at .pkg where the helper has tenures (R327), and the helper ends with g3 as it reads it at issue (R44,
R140); a collective that it joined runs on. [log DEDUCED 32] -/
def execHexit (w : BitVec 3) (s : State) : Out :=
  if s.cur.ctx = 0 then trapAt cILLEGAL (zext (layR 0x21 0 0 0 2 w)) s
  else issueThen [3] [] s (fun s =>
    if !ownReturned s ∨ !portsSent s then hold s
    else releaseThen (tenureScope s 1) s (fun s =>
      .next (endHelper s.cur (s.me.reg 3) false (retireAt w (fun x => x) s))))

/-- A helper's index in the range of helpers (R140). -/
def isHelperIndex (v : Word) : Bool := decide (1 ≤ v.toNat) && decide (v.toNat ≤ 10)

/-- HJOIN (R140). -/
def execHjoin (d a : Reg) (w : BitVec 3) (s : State) : Out :=
  issueThen [a] [d] s (fun s =>
    let v := s.rdA a
    if isHelperIndex v then
      if (s.mine.ctx v.toNat).live then destThen d s hold
      else completeWith w [a] d (s.mine.ctx v.toNat).exitVal s
    else completeWith w [a] d 0 s)

/-- The status word of a helper (R140). -/
def hstatWord (x : Ctx) : Word :=
  BitVec.ofNat 64 ((if x.live then 1 else 0) + (if x.live ∧ x.wait ≠ .none then 2 else 0) + (if x.live ∧ x.priv ≠ 0 then 4 else 0) +
    (if x.killed then 8 else 0) + 2 ^ 32 * (x.icount.toNat % 2 ^ 32))

/-- HSTAT (R140). -/
def execHstat (d a : Reg) (w : BitVec 3) (s : State) : Out :=
  issueThen [a] [d] s (fun s =>
    let v := s.rdA a
    completeWith w [a] d (if isHelperIndex v then hstatWord (s.mine.ctx v.toNat) else 0) s)

/-- YIELD (R142): the contexts that are ready now issue first; with none, one cycle passes. -/
def execYield (w : BitVec 3) (s : State) : Out :=
  issueThen [] [] s (fun s =>
    let others := (List.range 11).filter (fun i => i != s.cur.ctx && (s.mine.ctx i).isReady s.cycle)
    let s := finish w [] s
    .next (s.setMe (if others.isEmpty then { s.me with nextIssue := max s.me.nextIssue (s.cycle + 2) }
      else { s.me with yieldTo := others })))

/-- HKILL (R141): the helper ends at its next issue point. The fault-service context, which is in no group, is no helper that it ends (R397).
[log DESIGN CHOICE 96] -/
def execHkill (a : Reg) (w : BitVec 3) (s : State) : Out :=
  ctx0Then (layR 0x21 0 a 0 6 w) s (fun s => issueThen [a] [] s (fun s =>
    let v := s.rdA a
    let i := v.toNat
    if isHelperIndex v ∧ (s.mine.ctx i).live ∧ !(s.mine.ctx i).service then
      .next (finish w [a] (s.setMine (s.mine.setCtx i { s.mine.ctx i with killReq := true })))
    else .next (finish w [a] s)))

/-! ### HELPER_START_TRIGGER (R259) -/

/-- The descriptor that cr.strtgt names: its scratchpad byte. -/
def hdescAt (k : Core) : Nat := 16 * (k.strtgt.extractLsb' 24 14).toNat

/-- The bits HPEND and HLOST of cr.strtgt set or cleared. -/
def setHpend (on : Bool) (k : Core) : Core :=
  { k with strtgt := if on then k.strtgt ||| 0x4000000000000000 else k.strtgt &&& ~~~0x4000000000000000#64 }
def setHlost (k : Core) : Core := { k with strtgt := k.strtgt ||| 0x8000000000000000 }

/-- The entry and the argument of the descriptor that cr.strtgt names, as the core reads them now. -/
def readHdesc (k : Core) : Word × Word :=
  (BitVec.ofNat 64 (readLe k.spad (hdescAt k) 8 / 4 * 4), BitVec.ofNat 64 (readLe k.spad (hdescAt k + 8) 8))

/-- HELPER_START_TRIGGER: the trigger has fired, or a helper has ended while a start was pending, which starts what was read as its trigger fired (R258,
R259). -/
def execHelperStartTrigger (core : Nat) (s : State) : Out :=
  let k := s.core core
  if !isCore core then .next s
  else if k.strDue.getLsbD 1 then
    let k := { strConsume s.cycle 3 k with strDue := k.strDue &&& 1 }
    let s := s.setCore core k
    if k.strtgt.getLsbD 62 ∨ spBytes k.spsize < hdescAt k + 16 ∨ helperCount k = 0 then .next (s.setCore core (setHlost k))
    else match freeHelper k with
      | some i => .next (startHelper core i (readHdesc k).1 (readHdesc k).2 s)
      | none => .next (s.setCore core { setHpend true k with hpending := some (readHdesc k) })
  else if k.strtgt.getLsbD 62 then
    match freeHelper k with
    | some i =>
      let d := k.hpending.getD (readHdesc k)
      .next (startHelper core i d.1 d.2 (s.setCore core { setHpend false k with hpending := none }))
    | none => .next s
  else .next s

end Sys2Proof.Machine
end

