-- ==== Sys2Proof/Machine/Inject.lean ====
section
/-!
DEFINITION. Injected stores (R242–R250).
-/

namespace Sys2Proof.Machine

open Sys2Proof

/-- The target cores of an STI by global number, each with its bit in the mask of accepted targets, or none where the operand
names a core that does not exist (R243, R244). -/
def stiTargets (s : State) (set : Bool) (t : Word) : Option (List (Nat × Nat)) :=
  if set then
    let rank := (t.extractLsb' 48 16).toNat
    if s.ptlen ≤ rank ∨ t.extractLsb' 16 32 ≠ 0 then none
    else some (((List.range 16).filter (fun j => t.getLsbD j)).map (fun j => (s.myPart.coreNo (16 * rank + j), j)))
  else if 16 * s.ptlen ≤ t.toNat then none
  else some [(s.myPart.coreNo t.toNat, 0)]

/-- ADDRFORM for an STI to a peer window, LOCALRANGE for one to the local window (R243). -/
def stiForm (s : State) (addr : Word) : Option Trap :=
  orElse (formCheck s.ptlen addr) (if isPeer addr then some (.mk' cADDRFORM addr) else none)

/-- STI (R242–R245). -/
def execSti (d a b : Reg) (z : BitVec 2) (st r : BitVec 1) (w : BitVec 3) (s : State) : Out :=
  issueThen [a, b, d] (if r = 1 then [d] else []) s (fun s =>
    let addr := s.rdA a
    let t := s.rdB a b
    let v := s.rdD a b d
    let n := sizeOf_ z
    failThen (stiForm s addr) s (fun s => failThen (stackCheck s a addr n) s (fun s =>
      failThen (if addr.toNat % n ≠ 0 then some (.mk' cMISALIGN addr) else none) s (fun s =>
        failThen (if isLocal addr then some (.mk' cLOCALRANGE addr) else none) s (fun s =>
          match stiTargets s (st == 1) t with
          | none => trapAt cINJTARGET t s
          | some targets =>
            locThen w [a, b, d] 3 addr n needSti ⟨v, encode (.sti d a b z st r w), false, if r = 1 then d else 0, t, false, 0⟩ s (fun l s =>
              let q := { mkReq s addr l n (.sti (r == 1) targets) with rt := 1, data := v, dest := if r = 1 then d else 0 }
              if r = 1 then destThen d s (fun s => .next (finish w [a, b, d] (addReq q s)))
              else .next (finish w [a, b, d] (addReq q s))))))))

end Sys2Proof.Machine
end

