-- ==== Sys2Proof/Machine/Retry.lean ====
section
/-!
DEFINITION. The RETRY major: RPOP, RFIX, RREPLAY and RKILL (R379–R383).
-/

namespace Sys2Proof.Machine

open Sys2Proof

/-- The popped and uncompleted entry of a number in a partition's ring. -/
def Part.popped (q : Part) (n : Nat) : Option RingEntry := q.ringEnts.find? (fun e => e.popped && e.n == n)

/-- The entry that an operand names, with its partition: one popped and uncompleted of the executing partition's ring, and at H, where that has
none, one of the first SAVED partition that has (R382). [log DESIGN CHOICE 68] -/
def namedEntry (s : State) (v : Word) : Option (Nat × RingEntry) :=
  let n := (v.extractLsb' 0 32).toNat
  if v.getLsbD 63 ∧ v.extractLsb' 32 31 = 0 then
    match s.myPart.popped n with
    | some e => some (s.myPartNo, e)
    | none =>
      if s.me.priv = 2 then
        (List.range 64).findSome? (fun p => if (s.part p).state = 3 then ((s.part p).popped n).map (fun e => (p, e)) else none)
      else none
  else none

/-- An entry's hold in its context, while the access's context lives. -/
def entryHold (s : State) (e : RingEntry) : Option RingHold :=
  if (s.ctx e.ctx).live then (s.ctx e.ctx).ring.find? (fun h => h.entry == e.n) else none

/-- RPOP (R382). -/
def execRpop (d : Reg) (w : BitVec 3) (s : State) : Out :=
  privThen 1 (layR 0x28 d 0 0 0 w) s (fun s => issueThen [] [d] s (fun s => destThen d s (fun s =>
    let q := s.myPart
    if q.rrhead = q.rrtail then .next (finish w [] (deliver d 0 s))
    else
      let s := s.setPart s.myPartNo { q with
        rrhead := q.rrhead + 1
        ringEnts := q.ringEnts.map (fun e => if e.n = q.rrhead.toNat then { e with popped := true } else e) }
      .next (finish w [] (deliver d (zext q.rrhead ||| 0x8000000000000000) (acquireAt s.cur (capped q 5) s))))))

/-- A destination that is a port waits until the send before it has been accepted (R95). -/
def fixWaits (s : State) (e : RingEntry) : Bool := e.load && (entryHold s e).any (fun h => !(s.ctx e.ctx).mayProduce h.reg)

/-- A load's or atomic's destination takes a value in place of its access. -/
def fixEntry (p : Nat) (e : RingEntry) (v : Word) (s : State) : State :=
  let s := if e.load then (match entryHold s e with
      | some h => writeResult s e.ctx h.reg v 0 h.route
      | none => s) else s
  completeEntry p e.n s

/-- The lines that the end of an entry of a partition writes: its slot's, and where the partition is SAVED those of the save area that peers hold. -/
def entryLines (s : State) (p n : Nat) : List Nat :=
  let q := s.part p
  ringSlot q n / 64 :: (if q.state = 3 then heldIn s q.save.toNat (saveEnd q) else [])

/-- RFIX (R382). -/
def execRfix (a b : Reg) (w : BitVec 3) (s : State) : Out :=
  privThen 1 (layR 0x28 0 a b 1 w) s (fun s => issueThen [a, b] [] s (fun s =>
    match namedEntry s (s.rdA a) with
    | none => .next (finish w [a, b] s)
    | some (p, e) =>
      if fixWaits s e then hold s
      else peersThen p (entryLines s p e.n) s (fun s => .next (finish w [a, b] (savedRecord p e.ctx (fixEntry p e (s.rdB a b) s))))))

/-! ### RREPLAY -/

/-- The access of an entry of a partition as its word gives it: bytes, what it needs, and the request but for its location. -/
def replayOf (p : Nat) (s : State) (e : RingEntry) : Nat × Need × Req :=
  let v := e.word
  let base := { mkReq s e.va .nowhere 0 .store with ctx := e.ctx, part := p, pc := e.pc, data := e.data, replay := some e.n }
  let reg := (entryHold s e).elim 0 (fun h => h.reg)
  let route := (entryHold s e).bind (fun h => h.route)
  let drop := (entryHold s e).isNone
  let maj := (fld 26 6 v).toNat
  if maj = 0x14 then
    let op := fld 7 4 v
    let n := amoSize (fld 3 1 v)
    (n, amoNeed op, { base with size := n, kind := .amo op, scope := capped (s.part p) (fld 4 3 v), asked := fld 4 3 v, acq := amoAcq op, rel := amoRel op
                                dest := reg, expect := e.aux, drop := drop, route := route })
  else if maj = 0x15 then
    let n := sizeOf_ (fld 9 2 v)
    (n, needSti, { base with size := n, kind := .sti (fld 7 1 v == 1) ((stiTargets { s with cur := e.ctx } (fld 8 1 v == 1) e.aux).getD []), rt := 1
                             dest := if fld 7 1 v = 1 then fld 21 5 v else 0, drop := drop, route := route })
  else
    let n := sizeOf_ (fld 5 2 v)
    if maj = 0x13 then (n, needW, { base with size := n, rt := fld 3 2 v, drop := drop })
    else (n, needR, { base with size := n, rt := fld 3 2 v, kind := .load (maj == 0x11), dest := reg, drop := drop, route := route })

/-- A replay that faults again appends a new entry and completes the old one. [log DEDUCED 26] -/
def refault (e : RingEntry) (size : Nat) (kind : BitVec 3) (s : State) : State :=
  let h := entryHold s e
  completeEntry (s.partOfRank (rankOf e.ctx.core)) e.n
    (appendEntry e.ctx e.pc e.va e.data e.word e.load (h.elim 0 (fun h => h.reg)) e.aux size kind (h.any (fun h => h.acq)) s
      (h.bind (fun h => h.route)))

/-- A replay of an AMO whose encoded scope exceeds the ceiling counts as a demotion of the faulted core (R402). [log DEDUCED 26] -/
def countReplay (p : Nat) (e : RingEntry) (s : State) : State :=
  if (fld 26 6 e.word).toNat = 0x14 ∧ (s.part p).scopecap.toNat < (fld 4 3 e.word).toNat then
    s.setCore e.ctx.core { s.core e.ctx.core with scopedemote := (s.core e.ctx.core).scopedemote + 1 }
  else s

/-- The faulted core performs the access again, as it was issued, which was at U, and at its context's current translation. [log DEDUCED 26] -/
def replay (w : BitVec 3) (a : Reg) (p : Nat) (e : RingEntry) (s : State) : Out :=
  let r := replayOf p s e
  match resolve s { s.xctx e.ctx with priv := 0 } e.va r.1 r.2.1 with
  | (t, .ok l) =>
    let id := t.nextId
    let t := countReplay p e t
    hold ((addReq { r.2.2 with id := id, loc := l } t).setMe { t.me with wait := .replay id })
  | (t, .error x) =>
    if ringHasRoom t (t.part p) then
      peersThen p [ringSlot (t.part p) e.n / 64, nextSlotLine (t.part p)] t (fun t => .next (finish w [a] (refault e r.1 (match x with
        | .kind k => k
        | .viewperm => 0) t)))
    else hold t

/-- RREPLAY of an entry of a SAVED partition waits until the partition runs again, whose core then performs the access (R382). [log DESIGN CHOICE 68] -/
def replaySaved (w : BitVec 3) (a : Reg) (p n : Nat) (s : State) : Out :=
  match (s.part p).popped n with
  | none => .next (finish w [a] s)
  | some e => if (s.part p).state = 1 then replay w a p e s else hold (s.setMe { s.me with wait := .replayOf p n })

/-- RREPLAY (R382). -/
def execRreplay (a : Reg) (w : BitVec 3) (s : State) : Out :=
  privThen 1 (layR 0x28 0 a 0 2 w) s (fun s => issueThen [a] [] s (fun s =>
    match s.me.wait with
    | .replay id => if (s.req id).isSome then hold s else .next (finish w [a] s)
    | .replayOf p n => replaySaved w a p n s
    | _ => match namedEntry s (s.rdA a) with
      | none => .next (finish w [a] s)
      | some (p, e) => if p = s.myPartNo then replay w a p e s else replaySaved w a p e.n s))

/-! ### RKILL -/

/-- An entry is killed: a load's or atomic's destination is poisoned, and a deferred XLATE is raised (R382, R383). -/
def killEntry (p : Nat) (e : RingEntry) (s : State) : State :=
  let s := match entryHold s e with
    | none => s
    | some h =>
      let s := if e.load then s.setCtx e.ctx ((s.ctx e.ctx).setPoison h.reg e.pc e.va) else s
      raiseDeferred e.ctx cXLATE e.pc e.va h.order s
  completeEntry p e.n s

/-- RKILL (R382). -/
def execRkill (a : Reg) (w : BitVec 3) (s : State) : Out :=
  privThen 1 (layR 0x28 0 a 0 3 w) s (fun s => issueThen [a] [] s (fun s =>
    match namedEntry s (s.rdA a) with
    | none => .next (finish w [a] s)
    | some (p, e) => peersThen p (entryLines s p e.n) s (fun s => .next (finish w [a] (savedRecord p e.ctx (killEntry p e s))))))

end Sys2Proof.Machine
end

