-- ==== Sys2Proof/Machine/Sched.lean ====
section
/-!
DEFINITION. The SCHED major: LNCH, LWAIT, LQRY and LCANCEL, over the launches of a partition (R32, R361–R369, R371).
-/

namespace Sys2Proof.Machine

open Sys2Proof

/-! ### Launches and their ids (R361) -/

/-- The id that follows a number of launches. -/
def nextLaunchId (issued : Nat) : BitVec 32 := BitVec.ofNat 32 (issued % (2 ^ 32 - 1) + 1)

/-- The launch of an id that is known: issued within the last 2^31 launches of the partition. -/
def knownLaunch (q : Part) (id : Word) : Option Launch :=
  if id.toNat < 2 ^ 32 then
    (launchOf q (id.setWidth 32)).bind (fun l => if q.issued < l.issued + 2 ^ 31 then some l else none)
  else none

/-! ### The launch descriptor (R32) and its checks (R364) -/

/-- The n bytes of a descriptor from an offset. -/
def descField (desc off n : Nat) : Nat := desc / 256 ^ off % 256 ^ n

/-- The launch that a descriptor describes, with its place table and what it records of its context. [log DEDUCED 53] -/
def launchFrom (desc : Nat) (place : List Nat) (id : BitVec 32) (issued : Nat) (asid : BitVec 16) (ttab tvec : Word) : Launch :=
  { id := id, issued := issued, entry := BitVec.ofNat 64 (descField desc 0 8), groups := descField desc 8 4
    log2 := descField desc 12 1, contexts := descField desc 13 1, lines := descField desc 14 2, slots := descField desc 16 1
    prio := descField desc 17 1, pinned := (descField desc 18 1).testBit 0, troupe := (descField desc 18 1).testBit 1
    yield := (descField desc 18 1).testBit 2, dep0 := BitVec.ofNat 2 (descField desc 19 1)
    dep1 := BitVec.ofNat 2 (descField desc 19 1 / 4), pred0 := BitVec.ofNat 32 (descField desc 20 4)
    pred1 := BitVec.ofNat 32 (descField desc 24 4), args := BitVec.ofNat 64 (descField desc 32 8)
    seg := BitVec.ofNat 64 (descField desc 48 8), place := place, asid := asid, ttab := ttab, tvec := tvec, on0 := none, on1 := none
    disp := 0, ended := 0, running := 0, cancelled := false, gone := [] }

/-- The VA of a descriptor's place table. -/
def placeVa (desc : Nat) : Word := BitVec.ofNat 64 (descField desc 40 8)

/-- A predecessor that a launch may not name. -/
def badPred (q : Part) (kind : BitVec 2) (id : BitVec 32) : Bool := kind != 0 && (id == 0 || (knownLaunch q (zext id)).isNone)

/-- The first of codes 1 to 5 that applies. -/
def launchBad (q : Part) (desc : Nat) (l : Launch) : Option Nat :=
  if descField desc 28 4 ≠ 0 ∨ descField desc 56 8 ≠ 0 ∨ 8 ≤ descField desc 18 1 ∨ 16 ≤ descField desc 19 1 then some 1
  else if l.groups = 0 ∨ 65536 < l.groups ∨ 4 < l.log2 ∨ l.contexts = 0 ∨ 11 < l.contexts ∨ 480 < l.lines ∨ 8 < l.slots ∨ 3 < l.prio ∨
      l.dep0 = 3 ∨ l.dep1 = 3 then some 2
  else if l.entry.toNat % 4 ≠ 0 ∨ l.seg.toNat % 2048 ≠ 0 then some 3
  else if badPred q l.dep0 l.pred0 ∨ badPred q l.dep1 l.pred1 then some 4
  else if l.troupe ∧ l.log2 = 0 then some 5
  else none

/-- Code 6 or 7 with the group's index, where one applies. -/
def placeBad (q : Part) (l : Launch) : Option Nat :=
  let idx := List.range l.groups
  if l.pinned then
    match idx.find? (fun i => let e := l.place[i]?.getD 0; decide (16 * q.len.toNat ≤ e) || e % 2 ^ l.log2 != 0) with
    | some i => some (6 + 256 * i)
    | none => (idx.find? (fun i => !blockFits q l (l.place[i]?.getD 0))).map (fun i => 7 + 256 * i)
  else if (blocksOf q l).any (blockFits q l) then none
  else some 7

/-- The entries of a place table of n groups read as one number. -/
def placeList (table n : Nat) : List Nat := (List.range n).map (fun i => table / 2 ^ (32 * i) % 2 ^ 32)

/-- The partition's queue is full (R365). -/
def queueFull (q : Part) : Bool := decide (64 ≤ (q.launches.filter (fun l => !l.dispatched)).length)

/-- The launch that a dependency names, by its issue number: the dependency is judged by it, whatever launch takes its id later (R366). -/
def predOf (q : Part) (kind : BitVec 2) (id : BitVec 32) : Option Nat :=
  if kind = 0 then none else (knownLaunch q (zext id)).map (fun l => l.issued)

/-- A launch joins the queue and the ids move on. -/
def appendLaunch (p : Nat) (l : Launch) (s : State) : State :=
  let q := s.part p
  s.setPart p { q with
    launches := q.launches ++ [{ l with on0 := predOf q l.dep0 l.pred0, on1 := predOf q l.dep1 l.pred1 }], issued := q.issued + 1 }

/-! ### LNCH (R363) -/

/-- Read a run of bytes line by line, as loads of the executing context. -/
def readRun (fuel : Nat) (va : Word) (n : Nat) (s : State) : CtxRead :=
  match fuel with
  | 0 => .ok 0 s
  | f + 1 =>
    if n = 0 then .ok 0 s
    else
      let m := Nat.min n (64 - va.toNat % 64)
      match ctxRead s va m with
      | .ok v s => match readRun f (va + BitVec.ofNat 64 m) (n - m) s with
        | .ok u s => .ok (v + 256 ^ m * u) s
        | o => o
      | o => o

/-- Go on with the launch that a descriptor gives, its place table read where it is pinned; `s0` is the state in which the instruction waits. -/
def placeThen (s0 : State) (desc : Nat) (l : Launch) (s : State) (k : Launch → State → Out) : Out :=
  if l.pinned then
    match readRun (4 * l.groups / 64 + 2) (placeVa desc) (4 * l.groups) s with
    | .hold a => holdRead a s0
    | .trap t s => trap t s
    | .ok v s => k { l with place := placeList v l.groups } s
  else k l s

/-- LAUNCHBAD with a code. -/
def badThen (code : Option Nat) (s : State) (k : State → Out) : Out :=
  failThen (code.map (fun c => .mk' cLAUNCHBAD (BitVec.ofNat 64 c))) s k

/-- LNCH (R363). -/
def execLnch (d a : Reg) (w : BitVec 3) (s : State) : Out :=
  issueThen [a] [d] s (fun s =>
    let va := s.rdA a
    failThen (if va.toNat % 64 ≠ 0 then some (.mk' cMISALIGN va) else none) s (fun s =>
      let s0 := s
      readThen s va 64 (fun desc s =>
        let q := s.myPart
        let l := launchFrom desc [] (nextLaunchId q.issued) (q.issued + 1) s.mine.asid s.mine.ttab s.me.tvec
        badThen (launchBad q desc l) s (fun s => placeThen s0 desc l s (fun l s =>
          badThen (placeBad q l) s (fun s => destThen d s (fun s =>
            if queueFull s.myPart ∨ releaseWaits s (capped s.myPart 7) then hold s0
            else releaseThen (capped s.myPart 7) s (fun s =>
              .next (finish w [a] (deliver d (zext l.id) (appendLaunch s.myPartNo l s)))))))))))

/-! ### LWAIT, LQRY and LCANCEL (R367–R369) -/

/-- LWAIT (R367). -/
def execLwait (a : Reg) (w : BitVec 3) (s : State) : Out :=
  issueThen [a] [] s (fun s =>
    match knownLaunch s.myPart (s.rdA a) with
    | none => .next (finish w [a] s)
    | some l => if l.complete then .next (finish w [a] (acquireAt s.cur (capped s.myPart 7) s)) else hold s)

/-- The STATE of a launch (R368). -/
def Launch.stateCode (l : Launch) : Nat :=
  if l.complete then (if l.cancelled then 5 else 4) else if l.dispatched then 3 else if l.disp = 0 then 1 else 2

/-- The word of LQRY (R368). -/
def launchWord (l : Option Launch) : Word :=
  l.elim 0 (fun l => BitVec.ofNat 64 (l.stateCode + 2 ^ 8 * l.disp + 2 ^ 32 * l.ended))

/-- LQRY (R368). -/
def execLqry (d a : Reg) (w : BitVec 3) (s : State) : Out :=
  issueThen [a] [d] s (fun s => completeWith w [a] d (launchWord (knownLaunch s.myPart (s.rdA a))) s)

/-- The groups of a launch that are not dispatched are cancelled. -/
def cancelLaunch (p : Nat) (l : Launch) (s : State) : State :=
  discardWords p l.id (mapLaunch p l.issued (fun l => { l with cancelled := true }) s)

/-- LCANCEL (R369). -/
def execLcancel (d a : Reg) (w : BitVec 3) (s : State) : Out :=
  issueThen [a] [d] s (fun s => destThen d s (fun s =>
    match knownLaunch s.myPart (s.rdA a) with
    | none => completeWith w [a] d 2 s
    | some l =>
      if l.dispatched then completeWith w [a] d 2 s
      else completeWith w [a] d (if l.disp = 0 then 0 else 1) (cancelLaunch s.myPartNo l s)))

end Sys2Proof.Machine
end

