-- ==== Sys2Proof/Machine/Sync.lean ====
section
/-!
DEFINITION. Domains and the SYNC major: SYNC, BAR, DJOIN, DLEAVE, DQRY, and the completion of a SYNC with the yield at it (R287–R294, R375).
-/

namespace Sys2Proof.Machine

open Sys2Proof

/-- A level of a core is valid: level 1 while it runs a group, a higher one where it has joined (R287). -/
def Core.levelValid (k : Core) (l : Nat) : Bool :=
  if l = 1 then k.group.isSome else (k.dm[l - 1]?.getD 0).getLsbD 63

/-- The barrier slots of a core's group. -/
def Core.groupSlots (k : Core) : Nat := k.group.elim 0 (fun g => g.slots)

/-- The number of cores of a launch. -/
def Launch.size (l : Launch) : Nat := l.groups * 2 ^ l.log2

/-- The first and the last member of a level of a core (R287, R288). -/
def levelSpan (k : Core) (l : Launch) (level : Nat) : Nat × Nat :=
  let d := k.dm[level - 1]?.getD 0
  if level = 1 then (0, l.size - 1) else ((d.extractLsb' 0 20).toNat, (d.extractLsb' 20 20).toNat)

/-! ### Members (R288) -/

/-- A domain: its partition and launch, its level, its first and last member, and the word of the level, which its members share. -/
structure Domain where
  part  : Nat
  id    : BitVec 32
  level : Nat
  lo    : Nat
  hi    : Nat
  word  : Word
deriving DecidableEq, Repr

/-- The domain at a level of a core that runs a group of a known launch. -/
def domainOf (s : State) (core level : Nat) : Option Domain :=
  let k := s.core core
  k.group.bind (fun g => (launchOf (s.part g.part) g.launch).map (fun l =>
    let r := levelSpan k l level
    ⟨g.part, g.launch, level, r.1, r.2, k.dm[level - 1]?.getD 0⟩))

/-- The launch of a domain. -/
def Domain.launch (s : State) (m : Domain) : Option Launch := launchOf (s.part m.part) m.id

/-- The core runs a member of a domain, whatever it has joined. -/
def Domain.holds (m : Domain) (core : Nat) (k : Core) : Bool :=
  k.group.any (fun g => g.part == m.part && g.launch == m.id && decide (m.lo ≤ memberOf core g) && decide (memberOf core g ≤ m.hi))

/-- The cores that run a member of a domain. -/
def Domain.running (s : State) (m : Domain) : List Nat := (s.cores.filter (fun c => m.holds c.1 c.2)).map (fun c => c.1)

/-- An ended member that held the level with the same interval. -/
def Domain.endedMember (m : Domain) (e : Nat × Nat × List Word × List Word × List Word) : Bool :=
  decide (m.lo ≤ e.1) && decide (e.1 ≤ m.hi) && (m.level == 1 || e.2.2.1[m.level - 1]?.getD 0 == m.word)

/-- The ended members of a domain. -/
def Domain.ended (s : State) (m : Domain) : List (Nat × Nat × List Word × List Word × List Word) :=
  ((m.launch s).elim [] (fun l => l.gone)).filter m.endedMember

/-- The core has arrived at the domain's level, and the barrier is open to it as a whole. -/
def Domain.arrived (s : State) (m : Domain) (core : Nat) : Bool :=
  let k := s.core core
  match (k.ctx 0).wait with
  | .sync l _ _ none => l == m.level && (m.level == 1 || k.dm[m.level - 1]?.getD 0 == m.word)
  | _ => false

/-- Some member of the domain has not been dispatched. -/
def Domain.undispatched (s : State) (m : Domain) : Bool := (m.launch s).any (fun l => decide (l.disp * 2 ^ l.log2 ≤ m.hi))

/-- All are equal under a function. -/
def sameUnder (f : Nat → Nat) (l : List Nat) : Bool := l.all (fun x => l.all (fun y => f x == f y))

/-- The narrowest scope that contains every core of a list (R291). -/
def coverScope (l : List Nat) : BitVec 3 :=
  if sameUnder (fun c => c) l then 1 else if sameUnder rankOf l then 2 else if sameUnder (fun c => districtOfRank (rankOf c)) l then 3
  else if sameUnder dieOfCore l then 4 else 5

/-- The covering scope of a domain: of its members' places, and .pkg while a member has none (R291). -/
def Domain.scope (s : State) (m : Domain) : BitVec 3 :=
  capped (s.part m.part) (if m.undispatched s then 5 else coverScope (m.running s ++ (m.ended s).map (fun e => e.2.1)))

/-! ### SYNC and BAR (R289, R291) -/

/-- A leader's SYNC reaches its followers as it arrives: they are members too (R267, R288). -/
def forwardSync (word : IWord) (s : State) : State :=
  if s.cur.ctx = 0 ∧ s.me.fwd.isNone then
    (followers s s.cur.core).foldl (forward ⟨word, s.me.pc, s.me.pc + 4, none, s.cycle, false, false⟩) s
  else s

/-- SYNC and BAR: a release at the covering scope, and the arrival; SYNC_DONE ends the wait (R291). -/
def sync (bar : Bool) (word : IWord) (l : BitVec 2) (w : BitVec 3) (s : State) : Out :=
  let level := l.toNat + 1
  if s.cur.ctx ≠ 0 ∨ !s.mine.levelValid level ∨ s.mine.groupSlots < level then trapAt cILLEGAL (zext word) s
  else issueThen [] [] s (fun s =>
    match s.me.wait with
    | .sync _ _ _ _ => hold s
    | _ => releaseThen ((domainOf s s.cur.core level).elim 5 (fun m => m.scope s)) s (fun s =>
        hold (forwardSync word (s.setMe { s.me with wait := .sync level bar w none }))))

/-- SYNC (R291). -/
def execSync (l : BitVec 2) (w : BitVec 3) (s : State) : Out := sync false (laySync 0x23 0 0 0 0 l 0 w) l w s

/-- BAR (R291). -/
def execBar (l : BitVec 2) (w : BitVec 3) (s : State) : Out := sync true (laySync 0x23 0 0 0 4 l 0 w) l w s

/-! ### DJOIN, DLEAVE and DQRY (R289, R290, R294) -/

/-- A core with a level set and the deeper ones cleared (R290). -/
def setLevel (level : Nat) (v : Word) (k : Core) : Core :=
  { k with dm := Vector.ofFn (fun (i : Fin 4) =>
      if i.val + 1 = level then v else if level < i.val + 1 then 0 else k.dm[i.val]?.getD 0) }

/-- The interval of an operand may be joined at a level (R290). -/
def joinOk (s : State) (level : Nat) (v : Word) : Bool :=
  let k := s.mine
  let lo := (v.extractLsb' 0 20).toNat
  let hi := (v.extractLsb' 20 20).toNat
  match k.group, domainOf s s.cur.core (level - 1) with
  | some g, some m =>
    v.extractLsb' 40 24 == 0 && decide (lo ≤ memberOf s.cur.core g) && decide (memberOf s.cur.core g ≤ hi) && decide (m.lo ≤ lo) &&
      decide (hi ≤ m.hi) && k.levelValid (level - 1) && decide (level ≤ g.slots)
  | _, _ => false

/-- DJOIN (R290). -/
def execDjoin (a : Reg) (l : BitVec 2) (w : BitVec 3) (s : State) : Out :=
  if l = 0 ∨ s.cur.ctx ≠ 0 then trapAt cILLEGAL (zext (laySync 0x23 0 a 0 1 l 0 w)) s
  else issueThen [a] [] s (fun s =>
    let v := s.rdA a
    let d := if joinOk s (l.toNat + 1) v then v ||| 0x8000000000000000 else 0
    .next (finish w [a] (s.setMine (setLevel (l.toNat + 1) d s.mine))))

/-- DLEAVE (R290). -/
def execDleave (l : BitVec 2) (w : BitVec 3) (s : State) : Out :=
  if l = 0 ∨ s.cur.ctx ≠ 0 then trapAt cILLEGAL (zext (laySync 0x23 0 0 0 2 l 0 w)) s
  else issueThen [] [] s (fun s => .next (finish w [] (s.setMine (setLevel (l.toNat + 1) 0 s.mine))))

/-- The balance of a level, saturated to 24 bits (R294). -/
def balance (k : Core) (level : Nat) : Nat :=
  let b : Int := ((k.sent[level - 1]?.getD 0).toNat : Int) - (k.recv[level - 1]?.getD 0).toNat
  (max (-(2 ^ 23)) (min (2 ^ 23 - 1) b) % 2 ^ 24).toNat

/-- The word of DQRY (R294). -/
def levelWord (k : Core) (level : Nat) : Word :=
  let arr := match (k.ctx 0).wait with
    | .sync l _ _ _ => l == level
    | _ => false
  BitVec.ofNat 64 ((k.phase[level - 1]?.getD 0).toNat + (if arr then 2 ^ 32 else 0) + (if k.levelValid level then 2 ^ 33 else 0) +
    2 ^ 40 * balance k level)

/-- DQRY (R294). -/
def execDqry (d : Reg) (l : BitVec 2) (w : BitVec 3) (s : State) : Out :=
  issueThen [] [d] s (fun s => completeWith w [] d (levelWord s.mine (l.toNat + 1)) s)

/-! ### SYNC_DONE (R291, R293, R375) -/

/-- The n-th entry of a list of counts. -/
def countAt (l : List Word) (level : Nat) : Nat := (l[level - 1]?.getD 0).toNat

/-- The words sent and received at a level by running members and by ended ones, in the sum. -/
def wordSums (s : State) (level : Nat) (run : List Nat) (gone : List (Nat × Nat × List Word × List Word × List Word)) : Nat × Nat :=
  ((run.map (fun c => countAt (s.core c).sent.toList level)).sum + (gone.map (fun e => countAt e.2.2.2.1 level)).sum,
   (run.map (fun c => countAt (s.core c).recv.toList level)).sum + (gone.map (fun e => countAt e.2.2.2.2 level)).sum)

/-- The core waits at a BAR. -/
def atBar (s : State) (core : Nat) : Bool :=
  match ((s.core core).ctx 0).wait with
  | .sync _ bar _ _ => bar
  | _ => false

/-- Every member has arrived (R288, R291). -/
def Domain.allHere (s : State) (m : Domain) : Bool :=
  (m.running s).all (m.arrived s) && (m.running s).length + (m.ended s).length == m.hi + 1 - m.lo

/-- The members whose SYNCs still wait after the BARs of their barrier have gone on. -/
def Domain.leftOver (s : State) (m : Domain) : List Nat :=
  (m.running s).filter (fun core =>
    match ((s.core core).ctx 0).wait with
    | .sync l _ _ (some _) => l == m.level && (m.level == 1 || (s.core core).dm[m.level - 1]?.getD 0 == m.word)
    | _ => false)

/-- A core with the counts of a level at 0 and its phase counted. -/
def nextPhase (level : Nat) (k : Core) : Core :=
  { k with sent := k.sent.setIfInBounds (level - 1) 0, recv := k.recv.setIfInBounds (level - 1) 0
           phase := k.phase.setIfInBounds (level - 1) (k.phase[level - 1]?.getD 0 + 1) }

/-- A member's SYNC completes: the acquire, the counts, the instruction, and the strings source. -/
def memberDone (scope : BitVec 3) (level : Nat) (s : State) (core : Nat) : State :=
  match ((s.core core).ctx 0).wait with
  | .sync _ _ w _ =>
    let s := acquireAt ⟨core, 0⟩ scope s
    let s := s.setCore core (nextPhase level (s.core core))
    pulse core 5 (asCtx ⟨core, 0⟩ (finish w []) s)
  | _ => s

/-- The ended members' counts of a level have taken part. -/
def clearGone (m : Domain) (s : State) : State :=
  match m.launch s with
  | none => s
  | some l => mapLaunch m.part l.issued (fun l => { l with gone := l.gone.map (fun e =>
      if m.endedMember e then (e.1, e.2.1, e.2.2.1, e.2.2.2.1.set (m.level - 1) 0, e.2.2.2.2.set (m.level - 1) 0) else e) }) s

/-- A partition enters STOPPING: from now on the forced stop is due (R376, R392, R408). -/
def stopPart (p : Nat) (s : State) : State := s.setPart p { s.part p with state := 2, stopAt := s.ticks, switchAt := some s.ticks }

/-- A partition has no port word in a router or in an input port. -/
def noWords (s : State) (p : Nat) : Bool :=
  s.net.all (fun w => w.part != p) && s.cores.all (fun c => !(s.part p).owns (rankOf c.1) || !c.2.lpn)

/-- The partition yields at a completed level-1 SYNC of a launch (R375). -/
def yieldAt (m : Domain) (s : State) : State :=
  let q := s.part m.part
  if m.level = 1 ∧ q.yieldreq ∧ (m.launch s).any (fun l => l.yield) ∧
      q.launches.all (fun l => l.id == m.id || l.running == 0) ∧ noWords s m.part then
    stopPart m.part (s.setPart m.part { q with yieldreq := false })
  else s

/-- Members' SYNCs or BARs complete. -/
def membersDone (m : Domain) (run : List Nat) (s : State) : State :=
  let scope := m.scope s
  run.foldl (memberDone scope m.level) s

/-- A SYNC goes on waiting with the counts of members that have gone on. -/
def keepWaiting (r : Nat × Nat) (s : State) (core : Nat) : State :=
  let x := (s.core core).ctx 0
  match x.wait with
  | .sync l bar w _ => s.setCtx ⟨core, 0⟩ { x with wait := .sync l bar w (some r) }
  | _ => s

/-- Every member has arrived: a BAR completes, and a SYNC does once the words sent and received balance (R291). The counts of ended members take part in the
balance of a SYNC alone; a barrier of BARs leaves them for the next SYNC (R288). [log DEDUCED 31] -/
def syncStep (m : Domain) (s : State) : State :=
  let run := m.running s
  let bars := run.filter (atBar s)
  if bars = [] then
    let r := wordSums s m.level run (m.ended s)
    if r.1 = r.2 then yieldAt m (clearGone m (membersDone m run s)) else s
  else
    let r := wordSums s m.level bars (m.ended s)
    let syncs := run.filter (fun c => !atBar s c)
    let t := membersDone m bars s
    syncs.foldl (keepWaiting r) (if syncs = [] then t else clearGone m t)

/-- The SYNCs that waited on after the BARs of their barrier complete once the words balance (R291). [log DEDUCED 31] -/
def leftStep (m : Domain) (r : Nat × Nat) (s : State) : State :=
  let run := m.leftOver s
  let t := wordSums s m.level run []
  if r.1 + t.1 = r.2 + t.2 then yieldAt m (run.foldl (memberDone (m.scope s) m.level) s) else s

/-- SYNC_DONE: the barrier at which a core's ctx0 waits may complete (R291). [log DEDUCED 31] -/
def execSyncDone (core : Nat) (s : State) : Out :=
  match ((s.core core).ctx 0).wait with
  | .sync level _ _ rest =>
    match domainOf s core level with
    | none => .next s
    | some m =>
      if (s.part m.part).state ≠ 1 then .next s
      else match rest with
        | some r => .next (leftStep m r s)
        | none => if m.allHere s then .next (syncStep m s) else .next s
  | _ => .next s

end Sys2Proof.Machine
end

