-- ==== Sys2Proof/Machine/EvPcb.lean ====
section
/-!
DEFINITION. The commands of a partition control block: CREATE, SWITCH, RESUME, CONT, KILL, DESTROY, SVCSTART and LAUNCH (R282, R363, R364, R386,
R389–R397).
-/

namespace Sys2Proof.Machine

open Sys2Proof

/-! ### Commands and their refusals (R392) -/

/-- A command is refused: nothing but ERR changes. [log DESIGN CHOICE 38] -/
def refuse (p : Nat) (code : BitVec 4) (s : State) : State := s.setPart p { s.part p with err := code }

/-- A command runs already: the partition is STOPPING or RESTORING, a SWITCH waits for its timestamp, or a LAUNCH for its reads. [log DESIGN CHOICE 38] -/
def commandBusy (q : Part) : Bool := q.state == 2 || q.state == 4 || q.switchAt.isSome || q.launching

/-- PRANGE names one to 1,600 clusters of the package (R389). -/
def rangeOk (q : Part) : Bool := decide (1 ≤ q.len.toNat) && decide (q.base.toNat + q.len.toNat ≤ 1600)

/-- PRANGE of two partitions overlap. -/
def prangesMeet (q r : Part) : Bool := decide (q.base.toNat < r.base.toNat + r.len.toNat) && decide (r.base.toNat < q.base.toNat + q.len.toNat)

/-- No other partition that is not FREE has a cluster of a partition's PRANGE (R389). -/
def clustersFree (s : State) (p : Nat) : Bool :=
  (List.range 64).all (fun i => i == p || (s.part i).state == 0 || !prangesMeet (s.part p) (s.part i))

/-- The core lies in PRANGE. -/
def inPrange (q : Part) (core : Nat) : Bool := decide (16 * q.base.toNat ≤ core) && decide (core < 16 * (q.base.toNat + q.len.toNat))

/-! ### CREATE -/

/-- The clusters of PRANGE hold nothing any more but what their debug modules hold. [log DESIGN CHOICE 38] -/
def clearClusters (q : Part) (s : State) : State :=
  { s with
    cores := s.cores.filter (fun c => !inPrange q c.1)
    clusters := s.clusters.map (fun c => if inPrange q (16 * c.1) then (c.1, { c.2 with troupes := [], tlb := [], thr := false, spare := [] }) else c) }

/-- A partition as CREATE makes it: the registers of its control block stay, those held once per partition are at their reset values, and
ids and placement start (R63, R361, R372). -/
def createdPart (q : Part) (ticks : Nat) : Part :=
  { Part.reset with
    state := 1, err := q.err, reason := q.reason, base := q.base, len := q.len, hvec := q.hvec, save := q.save, swt := q.swt
    mbox := q.mbox, svcpc := q.svcpc, ldesc := q.ldesc, lasid := q.lasid, lttab := q.lttab, ltvec := q.ltvec, lres := q.lres
    sliceAt := ticks }

/-- CREATE (R392). [log DEDUCED 5] -/
def execCreate (part : Nat) (s : State) : Out :=
  let q := s.part part
  if q.state ≠ 0 then .next (refuse part 1 s)
  else if !rangeOk q then .next (refuse part 2 s)
  else if !clustersFree s part then .next (refuse part 3 s)
  else if q.save = 0 then .next (refuse part 4 s)
  else .next ((clearClusters q s).setPart part (createdPart q s.ticks))

/-! ### SWITCH, RESUME and CONT -/

/-- SWITCH (R392, R396). -/
def execSwitch (part : Nat) (s : State) : Out :=
  let q := s.part part
  if commandBusy q then .next (refuse part 1 s)
  else if q.state = 1 then
    .next (s.setPart part { q with switchAt := some (Nat.max q.swt.toNat (s.ticks + 200)) })
  else if q.state = 5 then .next (stopPart part s)
  else .next (refuse part 1 s)

/-- RESUME (R392). [log DESIGN CHOICE 38] -/
def execResume (part : Nat) (s : State) : Out :=
  let q := s.part part
  if q.state ≠ 3 then .next (refuse part 1 s)
  else if q.len ≠ q.savedLen ∨ !rangeOk q then .next (refuse part 2 s)
  else if !clustersFree s part then .next (refuse part 3 s)
  else .next ((clearClusters q s).setPart part { q with state := 4 })

/-- A group of the partition runs. -/
def groupsRun (q : Part) : Bool := q.launches.any (fun l => l.running != 0)

/-- ctx0 of a core whose group has started takes GANGSTOP at its next issue point, with the reason (R386); no access stands
behind it. [log DESIGN CHOICE 73] -/
def raiseGangstop (reason : BitVec 2) (s : State) (core : Nat) : State :=
  if (s.core core).group.any (fun g => g.started) then
    let c : CtxId := ⟨core, 0⟩
    let (fpc, s) := draw s
    { s.setCtx c { s.ctx c with deferred := (s.ctx c).deferred ++ [⟨cGANGSTOP, zext reason, fpc, s.nextId⟩] } with nextId := s.nextId + 1 }
  else s

/-- CONT (R386, R392). -/
def execCont (part : Nat) (gs : Bool) (s : State) : Out :=
  let q := s.part part
  if q.state ≠ 5 ∨ commandBusy q ∨ (q.reason = 0 ∧ groupsRun q) then .next (refuse part 1 s)
  else
    let s := s.setPart part { q with state := 1 }
    .next (if gs then (partCores s part).foldl (raiseGangstop q.reason) s else s)

/-! ### KILL and DESTROY -/

/-- A core of a partition, wherever it stands. -/
def coresOf (s : State) (p : Nat) : List Nat :=
  if (s.part p).state = 3 then
    (s.cores.map (fun c => c.1)).filter (fun n => decide (16 * parkRank p ≤ n) && decide (n < 16 * (parkRank p + (s.part p).savedLen.toNat)))
  else partCores s p

/-- A context that has been killed: what it has issued stands, and it waits for nothing. -/
def killedCtx (x : Ctx) : Ctx :=
  { x with
    live := false, service := false, killReq := false, wait := .none, frame := none, inflight := [], varRes := [], fpHold := none
    deferred := [], mfault := none, enter := false, yieldTo := [], missed := false, defDepth := 0, fwd := none, ring := [] }

/-- A core whose group and contexts have been killed. -/
def killedCore (k : Core) : Core :=
  { k with
    group := none, ports := Vector.replicate 4 [], strtgt := 0, strDue := 0, fwdBuf := [], ctxs := k.ctxs.map killedCtx
    mq := k.mq.map (fun m => { m with orphan := true }) }

/-- The launches of a partition after its groups have been killed: nothing of them is to be dispatched or runs. -/
def killedLaunch (l : Launch) : Launch := { l with cancelled := l.cancelled || !l.dispatched, ended := l.ended + l.running, running := 0 }

/-- Every group of a partition ends without its release, its queued launches are cancelled, its tenures go, its collectives are aborted and its
ring entries are completed as by RKILL (R286, R392). [log DESIGN CHOICE 38] -/
def killPart (p : Nat) (s : State) : State :=
  let s := (s.part p).ringEnts.foldl (fun s e => killEntry p e s) s
  let cores := coresOf s p
  let s := { s with
    reqs := s.reqs.map (fun (q : Req) => if q.part = p then { q with drop := true } else q)
    engine := s.engine.map (fun (c : XCmd) => if c.xctx.part = p ∧ c.isColl ∧ !c.ended ∧ c.phase ≠ 4 then failCmd 6 0 c else c)
    net := s.net.filter (fun w => w.part != p) }
  let s := cores.foldl (fun s core =>
    let cl := s.cluster (rankOf core)
    (s.setCore core (killedCore (s.core core))).setCluster (rankOf core) { cl with troupes := [] }) s
  s.setPart p { s.part p with launches := (s.part p).launches.map killedLaunch, tenures := [], tenReqs := [] }

/-- KILL (R392). Of a SAVED partition the image has its effect, too. -/
def execKill (part : Nat) (s : State) : Out :=
  let q := s.part part
  if commandBusy q ∨ !(q.state = 1 ∨ q.state = 3 ∨ q.state = 5) then .next (refuse part 1 s)
  else
    let s := killPart part s
    .next ((coresOf s part).foldl (savedRegs part) s)

/-- DESTROY (R392): the L1s are written back, and the clusters belong to nobody. A FREE partition has no running group and owns none: it is FREE after
it as before. -/
def execDestroy (part : Nat) (s : State) : Out :=
  let q := s.part part
  if commandBusy q ∨ groupsRun q then .next (refuse part 1 s)
  else if q.state = 0 then .next s
  else
    let cores := coresOf s part
    let s := cores.foldl (fun s core => flushL1 core s) s
    let s := { s with
      reqs := s.reqs.map (fun r => if r.part = part then { r with drop := true } else r)
      engine := s.engine.filter (fun c => c.xctx.part != part)
      net := s.net.filter (fun w => w.part != part)
      cores := s.cores.filter (fun c => !cores.contains c.1) }
    let s := if q.state = 3 then s else clearClusters q s
    .next (s.setPart part { q with state := 0, launches := [], tiles := [], tenures := [], tenReqs := [], ringEnts := [] })

/-! ### SVCSTART (R397) -/

/-- The fault-service context as SVCSTART starts it: privilege S, its stack in the reserved lines, no vector. -/
def serviceCtx (q : Part) (k : Core) (i cycle : Nat) : Ctx :=
  let sp := BitVec.ofNat 64 (512 * spLines k.spsize)
  let x := { helperCtx k i q.svcpc 0 cycle with
    priv := 1, sbase := sp, slim := sp - BitVec.ofNat 64 (512 * (q.svccore.extractLsb' 20 9).toNat), tvec := 0, service := true }
  x.setReg 27 sp

/-- SVCSTART (R392, R397). [log DESIGN CHOICE 38] -/
def execSvcstart (part : Nat) (s : State) : Out :=
  let q := s.part part
  let i := (q.svccore.extractLsb' 16 4).toNat
  let rel := (q.svccore.extractLsb' 0 15).toNat
  let core := q.coreNo rel
  if q.state ≠ 1 ∨ commandBusy q ∨ i = 0 ∨ 16 * q.len.toNat ≤ rel ∨ ((s.core core).ctx i).live then .next (refuse part 1 s)
  else .next (s.setCtx ⟨core, i⟩ (serviceCtx q (s.core core) i s.cycle))

/-! ### LAUNCH (R393) -/

/-- What becomes of a read that LAUNCH makes: a wait for its line, the cause code of its fault, or the value. -/
inductive LaunchRead where
  | wait (ask : Ask)
  | fault (code : Nat)
  | ok (v : Nat) (s : State)
deriving DecidableEq, Repr

/-- The translation that LAUNCH uses: at S, at position 0, and in the district of the partition's first cluster. -/
def launcherXctx (p : Nat) (q : Part) : Xctx := q.xctx p (16 * q.base.toNat) q.lasid q.lttab 0 1 0 q.base.toNat

/-- The name under which LAUNCH reads for a partition: no context's, so that every tenure stands in its way. -/
def launcherId (q : Part) : CtxId := ⟨16 * q.base.toNat, 11⟩

/-- LAUNCH reads n bytes of one line, as a load: it waits for tenures and for copies that peers hold, and a far home that is late answers with poison
(R324, R393, R428, R438). -/
def launchRead (p : Nat) (s : State) (va : Word) (n : Nat) : LaunchRead :=
  let q := s.part p
  if isLocal va ∨ isPeer va ∨ (formCheck q.len.toNat va).isSome then .fault 0x22
  else
    match resolve s (launcherXctx p q) va n needR with
    | (_, .error .viewperm) => .fault 0x0F
    | (_, .error (.kind _)) => .fault 0x0E
    | (t, .ok (.mem pa _)) =>
      match askFirst [⟨launcherId q, pa / 64, false⟩] t with
      | (some a, _) => .wait a
      | (none, t) =>
        let late := lateHome p pa t
        let r := deviceRead late.2 pa n
        if late.1 ∨ isBad r.1 (pa / 64) then .fault 0x12 else .ok r.2 r.1
    | (t, .ok (.mmio pa)) => .ok (mmioBytes t pa n) t
    | (_, .ok _) => .fault 0x12

/-- LAUNCH reads a run of bytes line by line. -/
def launchRun (p fuel : Nat) (va : Word) (n : Nat) (s : State) : LaunchRead :=
  match fuel with
  | 0 => .ok 0 s
  | f + 1 =>
    if n = 0 then .ok 0 s
    else
      let m := Nat.min n (64 - va.toNat % 64)
      match launchRead p s va m with
      | .ok v s => match launchRun p f (va + BitVec.ofNat 64 m) (n - m) s with
        | .ok u s => .ok (v + 256 ^ m * u) s
        | o => o
      | o => o

/-- LAUNCH is refused: ERR 5, and LRES says why beside the id of the last launch queued. -/
def launchRefused (p code fault : Nat) (s : State) : State :=
  let q := s.part p
  s.setPart p { q with err := 5, lres := (q.lres &&& 0xFFFFFFFF) ||| BitVec.ofNat 64 (2 ^ 32 * (code % 256) + 2 ^ 40 * (fault % 256)) }

/-- A launch whose checks have been made is queued, where there is room. -/
def launchQueue (p : Nat) (l : Launch) (s : State) : State :=
  match placeBad (s.part p) l with
  | some code => launchRefused p code 0 s
  | none =>
    if queueFull (s.part p) then refuse p 1 s
    else
      let s := appendLaunch p l s
      s.setPart p { s.part p with lres := zext l.id }

/-- LAUNCH waits for a line that it reads, and has no effect yet. [log DESIGN CHOICE 38] -/
def launchWaits (part : Nat) (a : Ask) (s : State) : State :=
  let t := a.put s
  t.setPart part { t.part part with launching := true }

/-- LAUNCH; one that waits goes on when its line is to be had (R393). -/
def execLaunch (part : Nat) (s : State) : Out :=
  let s0 := s
  let s := s.setPart part { s.part part with launching := false }
  let q := s.part part
  if q.state ≠ 1 ∨ commandBusy q then .next (refuse part 1 s)
  else if q.ldesc.toNat % 64 ≠ 0 then .next (launchRefused part 0 0x09 s)
  else
    match launchRead part s q.ldesc 64 with
    | .wait a => .next (launchWaits part a s0)
    | .fault f => .next (launchRefused part 0 f s)
    | .ok desc s =>
      let q := s.part part
      let l := launchFrom desc [] (nextLaunchId q.issued) (q.issued + 1) q.lasid q.lttab q.ltvec
      match launchBad q desc l with
      | some code => .next (launchRefused part code 0 s)
      | none =>
        if l.pinned then
          match launchRun part (4 * l.groups / 64 + 2) (placeVa desc) (4 * l.groups) s with
          | .wait a => .next (launchWaits part a s0)
          | .fault f => .next (launchRefused part 0 f s)
          | .ok v s => .next (launchQueue part { l with place := placeList v l.groups } s)
        else .next (launchQueue part l s)

end Sys2Proof.Machine
end

