-- ==== Sys2Proof/Machine/EvTurn.lean ====
section
/-!
DEFINITION. A kaleidoscope turn, from GO to ACTIVE (R421, R422, R424–R426).
-/

namespace Sys2Proof.Machine

open Sys2Proof

/-- An edge group. -/
def Fabric.edge (f : Fabric) (n : Nat) : Edge := f.edges[n]?.getD ⟨0, 0, false⟩

/-- A switchable group that the turn covers (R424). -/
def Fabric.turns (f : Fabric) (n : Nat) : Bool := decide (2 ≤ n) && (f.edge n).next != (f.edge n).pers

/-- The code of the first refusal that applies, 2, 5 or 6 (R425). -/
def turnRefusal (f : Fabric) : Option (BitVec 4) :=
  let cxl := fun n => (f.edge n).next == 1
  let pairs := (List.range 23).map (fun i => i + 1)
  if pairs.any (fun k => cxl (2 * k) != cxl (2 * k + 1)) then some 2
  else if !(List.range 48).any f.turns then some 5
  else if 22 < (pairs.filter (fun k => cxl (2 * k))).length then some 6
  else none

/-- A request is to a line of a departing range. -/
def toDeparting (s : State) (q : Req) : Bool :=
  match q.loc with
  | .mem pa _ => isDeparting s pa
  | _ => false

/-- KALEIDOSCOPE_TURN: GO starts a turn, or is refused with nothing else changed; an access that has issued keeps the location that it was
issued with, and completes (R424–R426). [log DEDUCED 44] -/
def execKaleidoscopeTurn (s : State) : Out :=
  let f := s.fabric
  if f.state ≠ 0 then .next { s with fabric := { f with result := 1 } }
  else
    match turnRefusal f with
    | some code => .next { s with fabric := { f with result := code } }
    | none => .next { s with fabric := { f with state := 1, goAt := s.cycle } }

/-- TURN_DRAIN: nothing is issued to the departing groups any more (R424). -/
def execTurnDrain (s : State) : Out := .next (if s.fabric.state = 1 then { s with fabric := { s.fabric with state := 2 } } else s)

/-- Every die's and every L1's copy of a far line is written back where it is dirty, and gone. -/
def dropFarLine (s : State) (line : Nat) : State :=
  let s := farClear s line
  s.mapCores (fun _ k => k.l1Drop line)

/-- The departing lines that a die or an L1 holds. -/
def departingLines (s : State) : List Nat :=
  (s.far.map (fun c => c.line) ++ s.cores.flatMap (fun c => c.2.l1.map (fun e => e.line))).filter (fun l => isDeparting s (64 * l))

/-- A group of a personality departs in the turn under way. -/
def Fabric.departs (f : Fabric) (pers : BitVec 2) : Bool := (List.range 48).any (fun n => f.turns n && (f.edge n).pers == pers)

/-- A far access that was issued before the turn is not over: a request, a push or a replica's update, or a part of a queued vector memory instruction. -/
def farUnderWay (s : State) : Bool :=
  s.reqs.any (fun q => !q.performed && toDeparting s q) || s.pushes.any (fun p => isDeparting s (64 * p.line)) ||
    s.updates.any (fun u => isDeparting s u.pa) ||
    s.cores.any (fun c => c.2.ctxs.toList.any (fun x => x.vq.any (fun v => v.elems.any (fun e => match e.2.2 with
      | .mem pa _ => isDeparting s pa
      | _ => false))))

/-- A request to a peer that left before the turn, when groups of SCALEUP depart, is not answered; or a message that has left, when groups of
SCALEOUT depart, is neither acknowledged nor past its partition's cr.fabto, whatever its engine does: over which group of its personality each went is not stated. [log DEDUCED 44] -/
def linkUnderWay (s : State) : Bool :=
  let f := s.fabric
  (f.departs 2 && s.reqs.any (fun q => q.sent && !q.performed && decide (q.issuedAt ≤ f.goAt) && (match q.loc with
    | .peer _ _ _ _ _ _ => true
    | _ => false))) ||
    (f.departs 3 && s.engine.any (fun c => c.state == 1 && c.left.any (fun l =>
      decide (s.cycle < l.2) && decide (s.cycle < l.1 + fabricCycles (s.part c.xctx.part)))))

/-- TURN_RETRAIN: what was under way at the departing groups is done, the copies of the departing ranges are written back, and the departing links
go down (R424). [log DEDUCED 44] -/
def execTurnRetrain (s : State) : Out :=
  if s.fabric.state = 2 ∧ !farUnderWay s ∧ !linkUnderWay s then
    let s := (departingLines s).foldl dropFarLine s
    let f := s.fabric
    .next { s with
      farWrites := s.farWrites.filter (fun w => farPending s w.line w.stamp)
      fabric := { f with
        state := 3
        edges := Vector.ofFn (fun (n : Fin 48) => if f.turns n then { f.edge n with up := false } else f.edge n) } }
  else .next s

/-- TURN_MAP: every arriving link is up or has failed (R424, R425). -/
def execTurnMap (failed : BitVec 48) (s : State) : Out :=
  let f := s.fabric
  let arrives := fun (n : Nat) => f.turns n && (f.edge n).next != 0
  if f.state = 3 then
    .next { s with fabric := { f with
      state := 4
      failed := BitVec.ofNat 48 (((List.range 48).filter (fun n => arrives n && failed.getLsbD n)).foldl (fun v n => v + 2 ^ n) 0)
      edges := Vector.ofFn (fun (n : Fin 48) => if arrives n then { f.edge n with up := !failed.getLsbD n } else f.edge n) } }
  else .next s

/-- A group is left OFF: it failed to train, or it is to be CXL and the other of its pair failed (R425). -/
def leftOff (f : Fabric) (n : Nat) : Bool :=
  f.turns n && (f.failed.getLsbD n || ((f.edge n).next == 1 && f.failed.getLsbD (if n % 2 = 0 then n + 1 else n - 1)))

/-- A group's control register at the end of the turn. -/
def turnedEdge (f : Fabric) (n : Nat) : Edge :=
  let e := f.edge n
  if !f.turns n then e else if leftOff f n then { e with pers := 0, up := false } else { e with pers := e.next }

/-- Two ranges share a byte. -/
def rangesMeet (a b : FarRange) : Bool := a.valid && b.valid && decide (a.base < b.base + b.size) && decide (b.base < a.base + a.size)

/-- The staged range of a pair may be installed beside the active ones (R425). -/
def mayInstall (active : Vector FarRange 24) (k : Nat) (r : FarRange) : Bool :=
  decide (1 ≤ r.size) && decide (r.size ≤ 16384) && !active.toList.any (rangesMeet r) &&
    decide ((active.toList.map (fun x => if x.valid then x.size else 0)).sum + r.size ≤ 32768) &&
    decide (0x1000 ≤ r.base) && decide (r.base + r.size ≤ 0xF000) && decide (r.size ≤ Config.farCapacity k)

/-- The ranges at the end of MAP, and whether some staged one was not installed: departing ones go, those of arriving CXL pairs come, from the
lowest pair on. [log DEDUCED 44] -/
def installed (f : Fabric) : Vector FarRange 24 × Bool :=
  let none : FarRange := ⟨false, 0, 0⟩
  let stay := Vector.ofFn (fun (k : Fin 24) =>
    if f.turns (2 * k.val) && (f.edge (2 * k.val)).pers == 1 then none else f.ranges[k.val]?.getD none)
  (List.range 24).foldl (fun r k =>
    let g := f.staged[k]?.getD none
    if f.turns (2 * k) ∧ (f.edge (2 * k)).next = 1 ∧ !leftOff f (2 * k) ∧ g.valid then
      if mayInstall r.1 k g then (r.1.setIfInBounds k g, r.2) else (r.1, true)
    else r) (stay, false)

/-- NORFEL: scale-up switches are attached, and each of them offers the Norfel extensions (R422). [log DESIGN CHOICE 70] -/
def norfelNow (f : Fabric) : Bool :=
  let l := (List.range 48).filter (fun n => (f.edge n).pers == 2 && (f.edge n).up)
  !l.isEmpty && l.all Config.norfelSwitch

/-- The fabric page with NORFEL as the attached switches make it. -/
def seeSwitches (f : Fabric) : Fabric := { f with norfel := norfelNow f }

/-- TURN_ACTIVE: MAP ends, the personalities and far ranges take effect, and RESULT is reported (R424–R426). -/
def execTurnActive (s : State) : Out :=
  let f := s.fabric
  if f.state = 4 then
    let r := installed f
    .next { s with fabric := seeSwitches { f with
      state := 0, result := if f.failed ≠ 0 then 3 else if r.2 then 4 else 0
      ranges := r.1, edges := Vector.ofFn (fun (n : Fin 48) => turnedEdge f n) } }
  else .next s

end Sys2Proof.Machine
end

