-- ==== Sys2Proof/Machine/Waits.lean ====
section
/-!
DEFINITION. What reaches a home from outside the cores and may have to wait there for the copies that peers hold: requests of peers, accesses of the host, and
messages that land (R399, R423, R433, R438, R443–R445).
-/

namespace Sys2Proof.Machine

open Sys2Proof

/-! ### Requests of peers (R433, R438) -/

/-- The lines that a request of a peer reaches through an export, where it is served at all. -/
def PeerWait.lines (w : PeerWait) (s : State) : List Nat :=
  (exportAddr s w.src w.exp w.ra w.op).elim [] (fun pa => linesOf (.mem pa []) (peerSize w.op))

/-- A copy that a peer holds stands against a request of a peer: not its own one where it asks to hold the line (R434, R438). -/
def PeerWait.against (w : PeerWait) (line : Nat) (d : PeerCopy) : Bool :=
  d.against line (peerAlone w.op) && !(d.peer == w.src && (w.op == .own || w.op == .cached))

/-- A request of a peer arrives at its home: it is served, or it waits for the holders of copies, which get the HOMETO of this package to answer
(R422, R433, R438). -/
def arrivePeer (s : State) (w : PeerWait) : State :=
  let lines := w.lines s
  if lines.any (fun l => s.peerDir.any (w.against l)) then
    { askPeers lines (peerAlone w.op) (s.cycle + cyclesOf s.fabric.hometo.toNat) s with peerWaits := s.peerWaits ++ [w] }
  else (servePeer s w.src w.exp w.ra w.op w.value w.expect none).1

/-- The requests of peers that waited arrive again, in their order. -/
def servePeerWaits (s : State) : State := s.peerWaits.foldl arrivePeer { s with peerWaits := [] }

/-! ### Accesses of the host (R305, R399, R423, R426) -/

/-- The home answers a host access to a byte: there is memory, and its range does not depart (R305, R426). -/
def hostServes (s : State) (pa : Nat) : Bool := isPopulated s pa && !isDeparting s pa

/-- A host write of up to eight bytes at a physical address, performed at the home. -/
def hostWrite (pa size : Nat) (value : Word) (s : State) : State :=
  (List.range (min size 8)).foldl (fun s i =>
    if hostServes s (pa + i) then deviceWrite s (pa + i) 1 (value.toNat / 256 ^ i % 256) else s) s

/-- A host read of up to eight bytes at a physical address, from the home; what the host sees of a poisoned response is not stated. [log DESIGN CHOICE 4;
DEDUCED 48] -/
def hostReadAt (pa size : Nat) (s : State) : Nat × State :=
  (List.range (min size 8)).foldl (fun r i =>
    if hostServes r.2 (pa + i) ∧ !isBad r.2 ((pa + i) / 64) then
      let t := deviceRead r.2 (pa + i) 1
      (r.1 + 256 ^ i * t.2, t.1)
    else
      let t := draw r.2
      (r.1 + 256 ^ i * (t.1.toNat % 256), t.2)) (0, s)

/-! ### Messages that land (R443–R445) -/

/-- A ring as its descriptor describes it (R443). -/
structure Ring where
  at_  : Nat
  base : Nat
  lg   : Nat
  contig : Bool
  head : Nat
  tail : Nat
  job  : Nat
deriving DecidableEq, Repr

/-- The bits of a ring's descriptor that are to be zero are (R443). -/
def ringWhole (s : State) (a : Nat) : Bool :=
  peek s (a + 9) 1 / 2 % 64 == 0 && peek s (a + 10) 6 == 0 && (List.range 20).all (fun i => peek s (a + 44 + i) 1 == 0)

/-- The ring of a number, where it is valid; one whose descriptor is not whole has no effect, as one that is not VALID (R8, R443).
[log DESIGN CHOICE 43; DEDUCED 88] -/
def ringOf (s : State) (part ring : Nat) : Option Ring :=
  let g := s.netPages[part]?.getD ⟨0, 0, 0, 0, 0⟩
  let a := g.ringtab.toNat + 64 * ring
  let lg := peek s (a + 8) 1
  let flags := peek s (a + 9) 1
  if g.ringlen.toNat ≤ ring ∨ !flags.testBit 7 ∨ !ringWhole s a ∨ lg < 12 ∨ 30 < lg then none
  else some ⟨a, peek s a 8, lg, flags.testBit 0, peek s (a + 16) 8, peek s (a + 24) 8, peek s (a + 40) 4 % 2 ^ 24⟩

/-- A device's write: the physical address, the bytes and the value. -/
abbrev DevWrite := Nat × Nat × Nat

/-- The header of a record, its bytes 8–63 first and then bytes 0–7 (R443, R444). -/
def landHeader (pa len kind split : Nat) (source : BitVec 128) : List DevWrite :=
  [(pa + 8, 56, split + 2 ^ 64 * source.toNat), (pa, 8, len + 2 ^ 32 * kind)]

/-- The data of a record from an offset of a ring on, continuing at its start. -/
def landData (r : Ring) (o : Nat) (data : List Byte) : List DevWrite := data.zipIdx.map (fun b => (r.base + (o + b.2) % 2 ^ r.lg, 1, b.1.toNat))

/-- The writes with which a message lands in a ring, or is refused, in their order (R444). [log DESIGN CHOICE 43] -/
def landWrites (r : Ring) (source : BitVec 128) (data : List Byte) (s : State) : List DevWrite :=
  let size := 2 ^ r.lg
  let len := data.length
  let n := 64 + (len + 63) / 64 * 64
  let o := r.tail % size
  let wraps := size < o + n
  let grow := if r.contig ∧ wraps then size - o + n else n
  let free := size - (r.tail + 2 ^ 64 - r.head) % 2 ^ 64
  if size - 64 < n ∨ free < grow then [(r.at_ + 32, 8, (peek s (r.at_ + 32) 8 + 1) % 2 ^ 64)]
  else
    (if r.contig ∧ wraps then landData r 64 data ++ landHeader (r.base + o) (size - o - 64) 2 0 0 ++ landHeader (r.base) len 1 len source
     else landData r (o + 64) data ++ landHeader (r.base + o) len 1 (if r.contig then len else min len (size - o - 64)) source) ++
    [(r.at_ + 24, 8, (r.tail + grow) % 2 ^ 64)]

/-- A device's writes are performed in their order, each at its home. -/
def putWrites (l : List DevWrite) (s : State) : State := l.foldl (fun s w => deviceWrite s w.1 w.2.1 w.2.2) s

/-- The writes of a message for a ring of a partition and a job, none where it is dropped (R444, R445). -/
def messageWrites (part job ring : Nat) (source : BitVec 128) (data : List Byte) (s : State) : List DevWrite :=
  match ringOf s part ring with
  | none => []
  | some r => if r.job = job % 2 ^ 24 then landWrites r source data s else []

/-! ### What the host and the network wait for (R438) -/

/-- The n bytes from a physical address on lie in these lines. -/
def spanLines (pa n : Nat) : List Nat := linesOf (.mem pa []) n

/-- An access of the host reads. -/
def DevOp.reads (o : DevOp) : Bool :=
  match o with
  | .read _ _ => true
  | _ => false

/-- The lines that it touches. -/
def DevOp.lines (o : DevOp) (s : State) : List Nat :=
  match o with
  | .write pa size _ => spanLines pa (min size 8)
  | .read pa size => spanLines pa (min size 8)
  | .mailbox _ pa size _ => spanLines pa (min size 8)
  | .landing part job ring source data => (messageWrites part job ring source data s).flatMap (fun w => spanLines w.1 w.2.1)
  | .own _ pa size _ => spanLines pa size

/-- One that waits stands before another: accesses of the host keep their order, and so do messages for a ring and the package's own writes of a line. -/
def DevOp.before (a b : DevOp) : Bool :=
  match a, b with
  | .landing p _ r _ _, .landing q _ t _ _ => p == q && r == t
  | .landing _ _ _ _ _, _ => false
  | _, .landing _ _ _ _ _ => false
  | .own _ pa _ _, .own _ pb _ _ => pa / 64 == pb / 64
  | .own _ _ _ _, _ => false
  | _, .own _ _ _ _ => false
  | _, _ => true

/-- It is performed. The host's write to a mailbox fires strings source 15 on the service core; the value of its read is kept (R399). -/
def DevOp.run (o : DevOp) (s : State) : State :=
  match o with
  | .write pa size value => hostWrite pa size value s
  | .read pa size =>
    let r := hostReadAt pa size s
    { r.2 with hostRead := BitVec.ofNat 64 r.1 }
  | .mailbox part pa size value =>
    let s := hostWrite pa size value s
    let q := s.part part
    let core := q.coreNo (q.svccore.extractLsb' 0 15).toNat
    if q.owns (rankOf core) then pulse core 15 s else s
  | .landing part job ring source data => putWrites (messageWrites part job ring source data s) s
  | .own _ pa size value => deviceWrite s pa size value

/-- The time that the holders of copies have to answer: that of the partition for whose own write it is, else the HOMETO of this package (R422, R438). -/
def DevOp.cycles (o : DevOp) (s : State) : Nat :=
  match o with
  | .own part _ _ _ => fabricCycles (s.part part)
  | _ => cyclesOf s.fabric.hometo.toNat

/-- It waits, for one before it or for copies that peers hold. -/
def DevOp.waits (o : DevOp) (s : State) : Bool := s.devWaits.any (fun a => a.before o) || linesHeld s (o.lines s) (!o.reads)

/-- It arrives at its home: it is performed, or it waits for the holders of copies (R438). [log DEDUCED 24] -/
def arriveDev (s : State) (o : DevOp) : State :=
  if o.waits s then
    { askPeers (o.lines s) (!o.reads) (s.cycle + o.cycles s) s with devWaits := s.devWaits ++ [o] }
  else o.run s

/-- Those that waited arrive again, in their order. -/
def serveDevWaits (s : State) : State := s.devWaits.foldl arriveDev { s with devWaits := [] }

/-- Copies have gone: what waited for them at a home arrives again. -/
def serveWaits (s : State) : State := serveDevWaits (servePeerWaits s)

end Sys2Proof.Machine
end

