-- ==== Sys2Proof/Machine/EvFabric.lean ====
section
/-!
DEFINITION. What reaches the package over its links, and what comes of a link that fails: timeouts, peer requests, severing, function-level resets and
landed messages (R428, R433, R438, R439, R443–R446).
-/

namespace Sys2Proof.Machine

open Sys2Proof

/-! ### Timeouts (R376, R428) -/

/-- A request that has left the package: to a peer, or to a far home; while its partition stops, every request is answered in the end.
[log DEDUCED 45] -/
def leftPackage (s : State) (q : Req) : Bool :=
  !q.performed && !q.isFence &&
    (match q.loc with
     | .peer _ _ _ _ _ _ => q.sent
     | .mem _ _ => (q.sent || (s.part q.part).state == 2) && (earlier s q).all (fun e => !e.blocks s q)
     | _ => false)

/-- FABRIC_TIMEOUT: a request that nothing has answered for cr.fabto is answered here with poison (R428). [log DEDUCED 45] -/
def execFabricTimeout (req : Nat) (s : State) : Out :=
  match s.req req with
  | none => .next s
  | some q =>
    if leftPackage s q ∧ q.issuedAt + fabricCycles (s.part q.part) ≤ s.cycle then
      match q.loc with
      | .peer _ _ _ _ _ _ => .next (answeredHere q s)
      | _ => .next (performedReq q 0 true false s)
    else .next s

/-! ### Peers (R433, R438) -/

/-- A peer gives up its copy of a line, as it answers an invalidation or a recall or evicts it; of an owner the data, if it has written the line, is
written at the home first (R334, R434, R438). -/
def giveUp (src exp ra : Nat) (data : Option (BitVec 512)) (s : State) : State :=
  let line := (exportBase s exp + ra) / 64
  match s.peerDir.find? (fun d => d.peer == src && d.line == line) with
  | none => s
  | some d =>
    let s := { s with peerDir := s.peerDir.filter (fun e => !(e.peer == src && e.line == line)) }
    serveWaits (match data with
      | some v => if d.owned then deviceWrite s (64 * line) 64 v.toNat else s
      | none => s)

/-- PEER_REQUEST: this package serves a request of a peer through an export, or hears that a copy is gone (R433, R438). [log DEDUCED 24] -/
def execPeerRequest (src exp ra : Nat) (op : PeerOp) (value expected : BitVec 64) (s : State) : Out :=
  match op with
  | .gone data => .next (giveUp src exp ra data s)
  | op => .next (arrivePeer s ⟨src, exp, ra, op, value, expected⟩)

/-- FANOUT_TIMEOUT: a peer has not answered an invalidation or a recall in time: it is severed, it leaves the directory, the notice for it is sent, and
what waited for its copies goes on (R438). [log DEDUCED 45] -/
def execFanoutTimeout (peer : Nat) (s : State) : Out :=
  if s.peerDir.any (fun d => d.peer == peer && d.till.any (fun t => decide (t ≤ s.cycle))) then
    .next (serveWaits { s with
      fabric := { s.fabric with sevmask := s.fabric.sevmask ||| (1#1024 <<< peer) }
      peerDir := s.peerDir.filter (fun d => d.peer != peer)
      notices := s.notices ++ [.severed peer] })
  else .next s

/-- SEVERED: every die's and L1's copy of a line homed at the peer is discarded, each dirty line is counted, and FLUSHED answers (R438). -/
def execSevered (peer : Nat) (s : State) : Out :=
  let dirty := (s.cores.flatMap (fun c => (c.2.l1.filter (fun e => homedAt peer e.line && e.dirty)).map (fun e => e.line)) ++
    (s.far.filter (fun c => homedAt peer c.line && c.owned)).map (fun c => c.line)).eraseDups
  .next { s with
    cores := s.cores.map (fun c => (c.1, { c.2 with l1 := c.2.l1.filter (fun e => !homedAt peer e.line) }))
    far := s.far.filter (fun c => !homedAt peer c.line)
    fabric := { s.fabric with sevlost := s.fabric.sevlost + BitVec.ofNat 64 dirty.length }
    notices := s.notices ++ [.flushed peer] }

/-- FLUSHED: the peer's severed bit is cleared (R438). -/
def execFlushed (peer : Nat) (s : State) : Out :=
  .next { s with fabric := { s.fabric with sevmask := s.fabric.sevmask &&& ~~~(1#1024 <<< peer) } }

/-- The link of a group that no turn covers: one of the host link's or one with a personality (R421, R424). -/
def hasLink (f : Fabric) (group : Nat) : Bool :=
  decide (group < 48) && (f.state == 0 || !f.turns group) && (decide (group < 2) || (f.edge group).pers != 0)

/-- The link of a group fails, or comes up, outside a turn of the group. -/
def setLink (group : Nat) (up : Bool) (f : Fabric) : Fabric :=
  if hasLink f group then { f with edges := f.edges.setIfInBounds group { f.edge group with up := up } } else f

/-- LINK_DOWN; what NORFEL says of the switches stays, and the copies of peers' lines with it (R422, R438). -/
def execLinkDown (group : Nat) (s : State) : Out := .next { s with fabric := setLink group false s.fabric }

/-- LINK_UP (R422, R438). -/
def execLinkUp (group : Nat) (s : State) : Out :=
  .next { s with fabric := if hasLink s.fabric group then seeSwitches (setLink group true s.fabric) else s.fabric }

/-! ### Function-level reset (R439) -/

/-- The partition that a virtual function is bound to (R398). -/
def boundPart (s : State) (vf : Nat) : Option Nat :=
  (List.range 64).find? (fun p => (s.part p).vfnum.getLsbD 7 && decide ((s.part p).vfnum.toNat % 64 = vf) && decide (vf < 64))

/-- What a partition has outstanding at peers. -/
def outstanding (p : Nat) (s : State) : List Req :=
  s.reqs.filter (fun q => q.part == p && q.sent && !q.performed && (linesOf q.loc q.size).isEmpty)

/-- What a partition has outstanding at peers is answered with poison. -/
def dropPeerReqs (p : Nat) (s : State) : State := (outstanding p s).foldl (fun s q => answeredHere q s) s

/-- The state with the entry of a virtual function in place of the one it had. -/
def setTag (vf : Nat) (d : List DeadTag) (s : State) : State := { s with deadTags := s.deadTags.filter (fun e => e.vf != vf) ++ d }

/-- VF_FLR: a running partition is killed first; then its responses are awaited up to cr.fabto, and it sends nothing new (R439). [log DEDUCED 42] -/
def execVfFlr (vf : Nat) (s : State) : Out :=
  match boundPart s vf with
  | none => .next s
  | some p =>
    let s := if (s.part p).state = 1 then killPart p s else s
    .next (setTag vf [⟨vf, p, true, s.cycle + fabricCycles (s.part p)⟩] s)

/-- TAG_REVIVE: once every response is in, or at the timeout, what is left is answered with poison and the tag is dead for 2 × cr.fabto; after that
it revives (R439). [log DEDUCED 42] -/
def execTagRevive (vf : Nat) (s : State) : Out :=
  match s.deadTags.find? (fun d => d.vf == vf) with
  | none => .next s
  | some d =>
    if d.awaits then
      if (outstanding d.part s).isEmpty ∨ d.till ≤ s.cycle then
        .next (setTag vf [{ d with awaits := false, till := s.cycle + 2 * fabricCycles (s.part d.part) }] (dropPeerReqs d.part s))
      else .next s
    else .next (if d.till ≤ s.cycle then setTag vf [] s else s)

/-! ### MESSAGE_LANDING (R443–R446) -/

/-- MESSAGE_LANDING: a message lands, is refused with receiver-not-ready, or is dropped, once no peer holds a line that it writes (R438, R444, R445). -/
def execMessageLanding (part job ring : Nat) (source : BitVec 128) (data : List (BitVec 8)) (s : State) : Out :=
  .next (if 64 ≤ part ∨ data.length = 0 ∨ 1048576 < data.length then s else arriveDev s (.landing part job ring source data))

end Sys2Proof.Machine
end

