-- ==== Sys2Proof/Machine/EvWrite.lean ====
section
/-!
DEFINITION. REGISTER_WRITE, and the debug modules' halt and resume (R295, R296, R386, R390, R414, R422, R441, R452).
-/

namespace Sys2Proof.Machine

open Sys2Proof

/-- A register of a partition control block written; a LAUNCH that is commanded while one waits is refused (R390, R392). -/
def writePcb (p off : Nat) (v : Word) (s : State) : State :=
  let q := s.part p
  let locked := fun (t : Part) => s.setPart p (if rangeLocked q then { q with err := 1 } else t)
  if off = 0x00 then (if q.launching ∧ v.extractLsb' 4 4 = 8 then s.setPart p { q with err := 1 } else s)
  else if off = 0x08 then locked { q with base := v.extractLsb' 0 11, len := v.extractLsb' 16 11 }
  else if off = 0x10 then locked { q with hvec := v &&& ~~~0xFFF#64 }
  else if off = 0x18 then locked { q with save := v &&& 0x000FFFFFFFFF0000 }
  else if off = 0x20 then s.setPart p { q with swt := v }
  else if off = 0x28 then locked { q with mbox := v &&& 0x000FFFFFFFFFF000 }
  else if off = 0x30 then s.setPart p { q with svcpc := v &&& ~~~3#64 }
  else if off = 0x40 then s.setPart p { q with ldesc := v }
  else if off = 0x48 then s.setPart p { q with lasid := v.extractLsb' 0 16 }
  else if off = 0x50 then s.setPart p { q with lttab := v &&& 0x000FFFFFFFFF8000 }
  else if off = 0x58 then s.setPart p { q with ltvec := v &&& ~~~0xFFF#64 }
  else s

/-- A register of a debug module written: BKH and TRACE; every other one is read-only or not there (R295, R452). -/
def writeDebug (rank off : Nat) (v : Word) (s : State) : State :=
  if off = 0 then s.setCluster rank { s.cluster rank with dmctl := v.extractLsb' 2 2 } else s

/-- The minimums of the sixteen classes total at most 3 MiB (R422). -/
def minsOk (a b : Word) : Bool :=
  decide (((List.range 8).map (fun i => (a.extractLsb' (8 * i) 8).toNat + (b.extractLsb' (8 * i) 8).toNat)).sum ≤ 192)

/-- A group's next personality. -/
def setNext (n : BitVec 2) (e : Edge) : Edge := { e with next := n }

/-- A register of the fabric page written (R422). -/
def writeFabric (off : Nat) (v : Word) (f : Fabric) : Fabric :=
  if off = 0x00 then { f with peer := v.extractLsb' 0 10 }
  else if off = 0x10 then { f with hometo := v.extractLsb' 0 24 }
  else if off = 0x18 then { f with exptab := v &&& 0x000FFFFFFFFFC001 }
  else if off = 0x20 then { f with hwin := v &&& 0x000FFFF000000000 }
  else if off = 0x30 then (if minsOk v f.tcmin1 then { f with tcmin0 := v } else f)
  else if off = 0x38 then (if minsOk f.tcmin0 v then { f with tcmin1 := v } else f)
  else if f.state ≠ 0 then f
  else if 0x110 ≤ off ∧ off < 0x280 then
    let n := (off - 0x100) / 8
    { f with edges := f.edges.setIfInBounds n (setNext (v.extractLsb' 4 2) (f.edges[n]?.getD ⟨0, 0, false⟩)) }
  else if 0x410 ≤ off ∧ off < 0x580 then
    let k := (off - 0x400) / 16
    let r := f.staged[k]?.getD ⟨false, 0, 0⟩
    let t : FarRange := (if off % 16 = 0 then ⟨v.getLsbD 0, (v.extractLsb' 28 24).toNat, r.size⟩ else ⟨r.valid, r.base, (v.extractLsb' 0 15).toNat⟩)
    { f with staged := f.staged.setIfInBounds k t }
  else f

/-- A register of a network page written (R441). [log DESIGN CHOICE 43] -/
def writeNetwork (off : Nat) (v : Word) (g : NetPage) : NetPage :=
  if off = 0x00 then { g with eptab := v &&& 0x000FFFFFFFFFFFE0 }
  else if off = 0x08 then { g with eplen := if 4096 < (v.extractLsb' 0 13).toNat then 4096 else v.extractLsb' 0 13 }
  else if off = 0x10 then { g with ringtab := v &&& 0x000FFFFFFFFFFFC0 }
  else if off = 0x18 then { g with ringlen := if 256 < (v.extractLsb' 0 9).toNat then 256 else v.extractLsb' 0 9 }
  else if off = 0x20 then { g with jobid := v.extractLsb' 0 24 }
  else g

/-- The nonce of the security page with eight bytes from an offset replaced (R414). -/
def writeNonce (off : Nat) (v : Word) (x : Security) : Security :=
  { x with nonce := (x.nonce &&& ~~~((0xFFFFFFFFFFFFFFFF : BitVec 256) <<< (8 * off))) ||| (zext256 v <<< (8 * off)) }
where
  zext256 (v : Word) : BitVec 256 := v.setWidth 256

/-- REGISTER_WRITE: a doubleword is written to a register that has no row of its own; where part of a register has one, the rest is written
here (R7, R390, R452). -/
def execRegisterWrite (pa : Nat) (value : BitVec 64) (s : State) : Out :=
  let off := pa % 0x1000 / 8 * 8
  .next (match pageAt pa with
    | .security => if 0x100 ≤ off ∧ off < 0x120 then { s with security := writeNonce (off - 0x100) value s.security } else s
    | .debug rank => writeDebug rank off value s
    | .pcb p => writePcb p off value s
    | .fabric => { s with fabric := writeFabric off value s.fabric }
    | .network p => { s with netPages := s.netPages.setIfInBounds p (writeNetwork off value (s.netPages[p]?.getD ⟨0, 0, 0, 0, 0⟩)) }
    | .none => s)

/-! ### Cross-trigger halt and resume (R296) -/

/-- The scope of a token that the external debugger has shown takes in a cluster: its partition, or all of them (R295, R415). -/
def debugOpen (s : State) (rank : Nat) : Bool :=
  s.security.opened == BitVec.allOnes 64 || ((s.part (s.partOfRank rank)).owns rank && s.security.opened.getLsbD (s.partOfRank rank))

/-- CROSS_TRIGGER_HALT: no core of the cluster issues; which core a request names as its cause is not stated (R295, R296). With `curtain` it is the
request of an external debugger, through the cluster's debug module, that the curtain tree stop the whole partition, for which R295 lists no
register (R386). [log DESIGN CHOICE 39; DESIGN CHOICE 40] -/
def execCrossTriggerHalt (request : HaltRequest) (s : State) : Out :=
  let rank := request.rank
  if request.curtain then
    .next (if debugOpen s rank ∧ (s.part (s.partOfRank rank)).owns rank then curtainStop (s.partOfRank rank) 1 s else s)
  else
    let r := draw s
    .next (r.2.setCluster rank { r.2.cluster rank with halted := true, cause := 1, dcore := r.1.extractLsb' 0 4 })

/-- DEBUG_RESUME: every halted core of the cluster goes on (R296). [log DESIGN CHOICE 40] -/
def execDebugResume (rank : Nat) (s : State) : Out :=
  let s := s.setCluster rank { s.cluster rank with halted := false }
  .next (s.mapCores (fun n k => if rankOf n = rank ∧ isCore n then { k with halted := false } else k))

end Sys2Proof.Machine
end

