-- ==== Sys2Proof/Machine/Sha.lean ====
section
/-!
DEFINITION. SHA-256 over bytes, for the boot's measurements, the attestation report and the debug token (R413–R415). The spec names the function and does
not state it; it is FIPS 180-4's.
-/

namespace Sys2Proof.Machine

open Sys2Proof

/-- The round constants. -/
def shaK : List (BitVec 32) :=
  [0x428A2F98, 0x71374491, 0xB5C0FBCF, 0xE9B5DBA5, 0x3956C25B, 0x59F111F1, 0x923F82A4, 0xAB1C5ED5]
  ++ [0xD807AA98, 0x12835B01, 0x243185BE, 0x550C7DC3, 0x72BE5D74, 0x80DEB1FE, 0x9BDC06A7, 0xC19BF174]
  ++ [0xE49B69C1, 0xEFBE4786, 0x0FC19DC6, 0x240CA1CC, 0x2DE92C6F, 0x4A7484AA, 0x5CB0A9DC, 0x76F988DA]
  ++ [0x983E5152, 0xA831C66D, 0xB00327C8, 0xBF597FC7, 0xC6E00BF3, 0xD5A79147, 0x06CA6351, 0x14292967]
  ++ [0x27B70A85, 0x2E1B2138, 0x4D2C6DFC, 0x53380D13, 0x650A7354, 0x766A0ABB, 0x81C2C92E, 0x92722C85]
  ++ [0xA2BFE8A1, 0xA81A664B, 0xC24B8B70, 0xC76C51A3, 0xD192E819, 0xD6990624, 0xF40E3585, 0x106AA070]
  ++ [0x19A4C116, 0x1E376C08, 0x2748774C, 0x34B0BCB5, 0x391C0CB3, 0x4ED8AA4A, 0x5B9CCA4F, 0x682E6FF3]
  ++ [0x748F82EE, 0x78A5636F, 0x84C87814, 0x8CC70208, 0x90BEFFFA, 0xA4506CEB, 0xBEF9A3F7, 0xC67178F2]

/-- The initial digest. -/
def shaInit : List (BitVec 32) := [0x6A09E667, 0xBB67AE85, 0x3C6EF372, 0xA54FF53A, 0x510E527F, 0x9B05688C, 0x1F83D9AB, 0x5BE0CD19]

/-- The word of a list at an index. -/
def shaAt (l : List (BitVec 32)) (i : Nat) : BitVec 32 := l[i]?.getD 0

/-- The message schedule extended by n words. -/
def shaExtend (n : Nat) (w : List (BitVec 32)) : List (BitVec 32) :=
  match n with
  | 0 => w
  | k + 1 =>
    let t := w.length
    let x := shaAt w (t - 15)
    let y := shaAt w (t - 2)
    let s0 := x.rotateRight 7 ^^^ x.rotateRight 18 ^^^ (x >>> 3)
    let s1 := y.rotateRight 17 ^^^ y.rotateRight 19 ^^^ (y >>> 10)
    shaExtend k (w ++ [shaAt w (t - 16) + s0 + shaAt w (t - 7) + s1])

/-- One round over the eight working variables. -/
def shaRound (v : List (BitVec 32)) (kw : BitVec 32) : List (BitVec 32) :=
  let a := shaAt v 0
  let e := shaAt v 4
  let t1 := shaAt v 7 + (e.rotateRight 6 ^^^ e.rotateRight 11 ^^^ e.rotateRight 25) + ((e &&& shaAt v 5) ^^^ (~~~e &&& shaAt v 6)) + kw
  let t2 := (a.rotateRight 2 ^^^ a.rotateRight 13 ^^^ a.rotateRight 22) +
    ((a &&& shaAt v 1) ^^^ (a &&& shaAt v 2) ^^^ (shaAt v 1 &&& shaAt v 2))
  [t1 + t2, a, shaAt v 1, shaAt v 2, shaAt v 3 + t1, e, shaAt v 5, shaAt v 6]

/-- The digest after a block of sixteen words. -/
def shaBlock (h : List (BitVec 32)) (m : List (BitVec 32)) : List (BitVec 32) :=
  let w := shaExtend 48 m
  let v := (shaK.zip w).foldl (fun v kw => shaRound v (kw.1 + kw.2)) h
  h.zipWith (fun x y => x + y) v

/-- The i-th word of a message, its bytes most significant first. -/
def shaWord (m : List Byte) (i : Nat) : BitVec 32 :=
  let b := fun (j : Nat) => (m[4 * i + j]?.getD 0)
  b 0 ++ b 1 ++ b 2 ++ b 3

/-- A message padded to a multiple of 64 bytes. -/
def shaPad (m : List Byte) : List Byte :=
  let n := m.length
  m ++ [0x80] ++ List.replicate ((119 - n % 64) % 64) 0 ++ (List.range 8).map (fun i => BitVec.ofNat 8 (8 * n / 256 ^ (7 - i)))

/-- The digest's 32 bytes. [log PRESUMED 47] -/
def sha256 (m : List Byte) : List Byte :=
  let p := shaPad m
  let blocks := (List.range (p.length / 64)).map (fun j => (List.range 16).map (fun i => shaWord p (16 * j + i)))
  (blocks.foldl shaBlock shaInit).flatMap (fun x => [x.extractLsb' 24 8, x.extractLsb' 16 8, x.extractLsb' 8 8, x.extractLsb' 0 8])

end Sys2Proof.Machine
end

