-- ==== Sys2Proof/Machine/EvHost.lean ====
section
/-!
DEFINITION. The host's reads and writes, the mailbox, power epochs, the boot, attestation and the debug unlock (R398, R399, R410, R411, R413–R415, R423).
-/

namespace Sys2Proof.Machine

open Sys2Proof

/-! ### The host (R398, R399, R413, R423) -/

/-- A window answers an access: it lies in it, and the boot has not stopped (R413, R423). [log DEDUCED 48] -/
def windowOpen (s : State) (offset size : Nat) : Bool := decide (offset + size ≤ 2 ^ 36) && !s.security.stopped

/-- The host's access to a register through BAR0: the page is there, and a debug module is in the scope of a token; its access to a partition control
block is its driver's, which R389 gives it, and no debugger's (R295, R389, R415, R423). [log DEDUCED 48] -/
def bar0Reaches (s : State) (pa : Nat) : Bool :=
  match pageAt pa with
  | .none => false
  | .debug rank => debugOpen s rank
  | _ => true

/-- A host write through BAR0: the doublewords that its bytes lie in are written by their units. -/
def bar0Write (pa size : Nat) (value : Word) (s : State) : State :=
  let n := min (min size 8) (8 - pa % 8)
  let m := min size 8 - n
  let s := if 0 < m ∧ bar0Reaches s (pa + n) then mmioPut (pa + n) m (value.toNat / 256 ^ n) s else s
  if bar0Reaches s pa then mmioPut pa n value.toNat s else s

/-- A byte of a register as the host reads it through BAR0; what it sees of a page that it does not reach is not stated. [log DESIGN CHOICE 4; DEDUCED 48] -/
def bar0Byte (pa : Nat) (s : State) : Nat × State :=
  if bar0Reaches s pa then ((mmioRead s (pa / 8 * 8)).toNat / 256 ^ (pa % 8) % 256, s)
  else
    let r := draw s
    (r.1.toNat % 256, r.2)

/-- Up to n bytes of registers as the host reads them. -/
def bar0Read (n pa : Nat) (s : State) : Nat × State :=
  match n with
  | 0 => (0, s)
  | n + 1 =>
    let r := bar0Byte pa s
    let t := bar0Read n (pa + 1) r.2
    (r.1 + 256 * t.1, t.2)

/-- The first physical address behind BAR0 (R423). -/
def bar0Base : Nat := 0xF0000000000

/-- The doubleword at the physical address of a debug module or of a partition control block is one that an external debugger reaches: the scope of the token
it has shown takes in the module's cluster, or the block's partition (R415). [log DEDUCED 48] -/
def debuggerReaches (s : State) (pa : Nat) : Bool :=
  match pageAt pa with
  | .debug rank => debugOpen s rank
  | .pcb p => s.security.opened.getLsbD p
  | _ => false

/-- An external debugger's access to a register: what it does not reach it does not change, and a read of that is not stated (R295, R415).
[log DESIGN CHOICE 4; DEDUCED 48] -/
def debuggerAccess (pa : Nat) (value : Option Word) (s : State) : State :=
  match value with
  | some v => if debuggerReaches s pa then { s with agenda := .write (pa / 8 * 8) v :: s.agenda } else s
  | none =>
    if debuggerReaches s pa then { s with hostRead := mmioRead s (pa / 8 * 8) }
    else
      let r := draw s
      { r.2 with hostRead := r.1 }

/-- HOST_BAR4_WRITE: a host write through BAR4, at the lines' homes, or through BAR0, to the registers behind it (R389, R423). [log DEDUCED 48] -/
def execHostBar4Write (addr : HostAddress) (size : Nat) (value : BitVec 64) (s : State) : Out :=
  let bar := addr.bar
  let offset := addr.offset
  .next (if !windowOpen s offset size then s
    else if bar = 4 then arriveDev s (.write (s.fabric.hwin.toNat + offset) size value)
    else if bar = 0 then bar0Write (bar0Base + offset) size value s
    else s)

/-- HOST_BAR4_READ: a host read through BAR4, or through BAR0 or BAR2 of a virtual function, which shows the mailbox in page 0 of a bound one and else
zeros; the value is kept as the last one read. After a failed boot BAR0 shows a status page, whose contents are not stated, and the others zeros
(R398, R399, R413, R423). [log DEDUCED 48] -/
def execHostBar4Read (addr : HostAddress) (size : Nat) (s : State) : Out :=
  let bar := addr.bar
  let offset := addr.offset
  let give := fun (r : Nat × State) => { r.2 with hostRead := BitVec.ofNat 64 r.1 }
  .next (if s.security.stopped then give (if bar = 0 then (let t := draw s; (t.1.toNat, t.2)) else (0, s))
    else if bar = 2 then
      match boundPart s addr.vf with
      | none => give (0, s)
      | some p => if 4096 ≤ offset then give (0, s) else arriveDev s (.read ((s.part p).mbox.toNat + offset) (min size (4096 - offset)))
    else if !windowOpen s offset size then give (0, s)
    else if bar = 4 then arriveDev s (.read (s.fabric.hwin.toNat + offset) size)
    else if bar = 0 then give (bar0Read (min size 8) (bar0Base + offset) s)
    else give (0, s))

/-- MAILBOX_HOST_WRITE: the bytes of a write through BAR2 that lie in page 0 reach the mailbox page, and strings source 15 fires on the service core;
the others are dropped (R398, R399). [log DEDUCED 42] -/
def execMailboxHostWrite (vf offset size : Nat) (value : BitVec 64) (s : State) : Out :=
  match boundPart s vf with
  | none => .next s
  | some p =>
    .next (if 4096 ≤ offset ∨ s.security.stopped then s
      else arriveDev s (.mailbox p ((s.part p).mbox.toNat + offset) (min size (4096 - offset)) value))

/-! ### POWER_GRANT_EPOCH (R410–R412) -/

/-- The split of the package's budget in a mode, in watts: matrix, SRAM traffic, DRAM, SerDes, the rest (R411). -/
def modeBudget (mode : BitVec 3) : List Nat :=
  if mode = 1 then [3000, 1200, 400, 200, 1700]
  else if mode = 2 then [1400, 1400, 1500, 500, 1700]
  else if mode = 3 then [1800, 1000, 1400, 600, 1700]
  else if mode = 4 then [3000, 1200, 1500, 600, 1700]
  else [2000, 1000, 1300, 500, 1700]

/-- The clusters of a partition. -/
def clustersOf (q : Part) : List Nat := (List.range q.len.toNat).map (fun i => q.base.toNat + i)

/-- What the clusters of a partition left over of a category in the last microsecond (R411). -/
def sparePool (s : State) (q : Part) (i : Nat) : Nat := ((clustersOf q).map (fun r => (s.cluster r).spare[i]?.getD 0)).sum

/-- A cluster's microsecond under way: what remains of its partition's pools for those after it, whether it is over its grant, and what it leaves. -/
structure Share where
  pools : List Nat
  heavy : Bool
  spare : List Nat
deriving DecidableEq, Repr

/-- A cluster's use of the five categories against its grant, and against what it gets of its partition's pools where its use exceeds the grant, a
part that is not stated (R411). [log DESIGN CHOICE 46] -/
def shareOf (ctr : Nat) (mode : BitVec 3) (pools used : List Nat) : Share :=
  let cats := List.range 5
  let grant := fun (i : Nat) => 1000 * (modeBudget mode)[i]?.getD 0
  let use := fun (i : Nat) => 1600 * used[i]?.getD 0
  let extra := fun (i : Nat) => if grant i < use i then (Config.freeValue (ctr + i)).toNat % (pools[i]?.getD 0 + 1) else 0
  ⟨cats.map (fun i => pools[i]?.getD 0 - extra i), cats.any (fun i => decide (grant i + extra i < use i)), cats.map (fun i => grant i - use i)⟩

/-- The clusters of a partition, one after the other, at the end of a microsecond (R411, R412). -/
def settlePower (mode : BitVec 3) (used : List (Nat × List Nat)) (hot ranks pools : List Nat) (s : State) : State :=
  match ranks with
  | [] => s
  | r :: t =>
    let h := shareOf s.freeCtr mode pools (tget used r [])
    let c := s.cluster r
    settlePower mode used hot t h.pools ({ s with freeCtr := s.freeCtr + 5 }.setCluster r { c with
      thr := c.slowed, slowed := h.heavy || hot.contains r, spare := h.spare })

/-- POWER_GRANT_EPOCH: a microsecond of the package has ended, with what each cluster used of each category, in milliwatts, and the clusters that have
a hot spot above its limit. A cluster over its grant, or hot, is throttled in the next microsecond; what clusters left over goes, in the next one, to
clusters of their partition alone, and no more than there is (R410–R412). [log DESIGN CHOICE 46; DEDUCED 59] -/
def execPowerGrantEpoch (used : List (Nat × List Nat)) (hot : List Nat) (s : State) : Out :=
  if s.ticks < 1000 * (s.epochs + 1) then .next s
  else
    let parts := (List.range 64).filter (fun p => (s.part p).owns (s.part p).base.toNat)
    let jobs := parts.map (fun p => ((s.part p).pwmode, clustersOf (s.part p), (List.range 5).map (sparePool s (s.part p))))
    .next { jobs.foldl (fun s j => settlePower j.1 used hot j.2.1 j.2.2 s) s with epochs := s.epochs + 1 }

/-! ### The boot (R413) -/

/-- The bytes of a 256-bit register, the lowest first. -/
def bytes256 (v : BitVec 256) : List Byte := (List.range 32).map (fun i => v.extractLsb' (8 * i) 8)

/-- The value of bytes, the lowest first. -/
def bytesValue (n : Nat) (l : List Byte) : BitVec n := BitVec.ofNat n (l.foldr (fun b v => b.toNat + 256 * v) 0)

/-- A digest as the value of a register. [log PRESUMED 47] -/
def digest (m : List Byte) : BitVec 256 := bytesValue 256 (sha256 m)

/-- A measurement register extended with a digest (R413). -/
def extendMeas (i : Nat) (d : BitVec 256) (x : Security) : Security :=
  { x with meas := x.meas.setIfInBounds i (digest (bytes256 (x.meas[i]?.getD 0) ++ bytes256 d)) }

/-- A stage is verified against a key and extended into the register of its number; a failed check stops the boot. [log DEDUCED 48] -/
def verifyStage (key : Nat) (image : List Byte) (signature : BitVec 3072) (x : Security) : Security :=
  if Config.rsaVerify key (digest image) signature then { extendMeas x.stages (digest image) x with stages := x.stages + 1 }
  else { x with stopped := true }

/-- BOOT: the boot ROM verifies and measures the firmware against the vendor's key (R413). -/
def execBoot (image : List (BitVec 8)) (signature : BitVec 3072) (s : State) : Out :=
  .next (if s.security.stages = 0 ∧ !s.security.stopped then { s with security := verifyStage 0 image signature s.security } else s)

/-- STAGE_VERIFY: a later stage is verified against the key its predecessor names (R413). -/
def execStageVerify (image : List (BitVec 8)) (signature : BitVec 3072) (s : State) : Out :=
  let n := s.security.stages
  .next (if 1 ≤ n ∧ n < 8 ∧ !s.security.stopped then { s with security := verifyStage n image signature s.security } else s)

/-! ### Attestation and debug unlock (R414, R415) -/

/-- ATTESTATION_REQUEST: 1 is written to REQ (R414). -/
def execAttestationRequest (s : State) : Out := .next { s with security := { s.security with busy := true } }

/-- The signed part of a report: the nonce, the measurements and the serial. -/
def reportBody (x : Security) : List Byte :=
  bytes256 x.nonce ++ x.meas.toList.flatMap bytes256 ++ (List.range 16).map (fun i => Config.serial.extractLsb' (8 * i) 8)

/-- ATTESTATION_REPORT_READY: the report stands in its buffer (R414). -/
def execAttestationReportReady (s : State) : Out :=
  let x := s.security
  if x.busy then
    let body := reportBody x
    let sig := Config.rsaSign (digest body)
    .next { s with security := { x with busy := false, report := body ++ (List.range 384).map (fun i => sig.extractLsb' (8 * i) 8) } }
  else .next s

/-- The n bytes of a token from an offset. -/
def tokenField (t : List Byte) (off n : Nat) : List Byte := (List.range n).map (fun i => t[off + i]?.getD 0)

/-- The token keeps R415: its serial and nonce are the device's, and the vendor's or the owner's key signed them with its scope. [log PRESUMED 47] -/
def tokenValid (x : Security) (t : List Byte) : Bool :=
  let sig := bytesValue 3072 (tokenField t 49 384)
  let d := digest (tokenField t 0 49)
  bytesValue 128 (tokenField t 0 16) == Config.serial && bytesValue 256 (tokenField t 16 32) == Config.unonce x.draws &&
    (Config.rsaVerify 0 d sig || Config.rsaVerify 8 d sig)

/-- The partitions that a token's scope names. -/
def tokenScope (t : List Byte) : BitVec 64 :=
  let b := (t[48]?.getD 0)
  if b.getLsbD 0 then BitVec.allOnes 64 else 1#64 <<< (b.toNat / 2)

/-- DEBUG_UNLOCK_TOKEN: a token is written; a valid one opens its scope and is measured, and either way a new nonce is drawn (R414, R415). -/
def execDebugUnlockToken (token : List (BitVec 8)) (s : State) : Out :=
  let x := s.security
  let y := if tokenValid x token then
      { extendMeas 7 (digest (tokenField token 0 49)) x with opened := x.opened ||| tokenScope token } else x
  .next { s with security := { y with token := token.take 512, draws := x.draws + 1 } }

end Sys2Proof.Machine
end

