-- ==== Sys2Proof/Machine/EvMem.lean ====
section
/-!
DEFINITION. What comes about at the homes and on the way there: requests and their responses, pushes, the age of T copies, far homes, replica updates and soft errors (R96, R230–R233, R244, R245, R252, R308, R325, R333, R334, R384).
-/

namespace Sys2Proof.Machine

open Sys2Proof

/-- A request that arrives at a line's home revokes the tenures against it whose lease has run out, and asks the peers for the copies that stand
against it, which they answer within its partition's cr.fabto (R325, R438). -/
def arrive (q : Req) (s : State) : State :=
  if q.isFence then s
  else
    let till := s.cycle + fabricCycles (s.part q.part)
    let s := askPeers (q.slotLines s) true till (revokeAt q.ctx q.loc q.size q.writes s)
    if peersBlock s q ∧ (earlier s q).all (fun e => !e.blocks s q) then
      (homeLines s q.loc q.size).foldl (fun s l => askPeers [l] (q.alone s l) till s) s
    else s

/-- A request for a far line has to ask the far home: its die has no copy, or does not own the line that it writes, or its acquire is of scope .sys,
and not of .peer (R333, R334). [log DESIGN CHOICE 103] -/
def asksFarHome (s : State) (q : Req) : Bool :=
  match q.loc with
  | .mem pa _ =>
    let line := pa / 64
    let die := dieOfCore q.ctx.core
    isFar s pa && ((farCopy s line die).isNone || (q.writes && !dieOwns s die line) || (q.acq && q.scope == 7))
  | _ => false

/-- A request leaves the package for the far home, and its time under cr.fabto begins (R333, R428). -/
def leaveForHome (q : Req) (s : State) : State := setReq s q.id (fun r => { r with sent := true, issuedAt := s.cycle })

/-- HOME_REQUEST: a request of a context is performed, where nothing keeps it back; a fence's mark is done with (R230, R252). [log DEDUCED 24] -/
def execHomeRequest (req : Nat) (s : State) : Out :=
  match s.req req with
  | none => .next s
  | some q =>
    match q.kind with
    | .fence k lo hi => if fenceDone s q k lo hi then .next (performReq q s) else .next s
    | _ =>
      let s := arrive q s
      if q.performed ∨ (q.sent ∧ (linesOf q.loc q.size).isEmpty) ∨ !mayPerform s q then .next s
      else if asksFarHome s q ∧ !q.sent then .next (leaveForHome q s)
      else .next (performReq q s)

/-- MEMORY_RESPONSE: the response of a request comes back. A request that was performed here brings its own value; the value and
the poison named are those of another package's answer (R41, R45, R96). One for a port waits until the send before it has been accepted (R95), and
that of a replay performed here until no peer holds the line of its ring slot (R438). [log DEDUCED 24] -/
def execMemoryResponse (req : Nat) (value : BitVec 64) (poisoned : Bool) (s : State) : Out :=
  match s.req req with
  | none => .next s
  | some q =>
    if (q.performed ∨ (linesOf q.loc q.size).isEmpty) ∧ (s.ctx q.ctx).mayProduce q.dest then
      .next (if q.performed ∧ linesHeld s (q.slotLines s) true then askPeers (q.slotLines s) true (s.cycle + fabricCycles (s.part q.part)) s
        else respond q value poisoned s)
    else .next s

/-- PUSH_ARRIVAL: a push is decided at its target (R245). -/
def execPushArrival (push : Nat) (s : State) : Out :=
  match s.pushes.find? (fun p => p.id == push) with
  | none => .next s
  | some p =>
    if s.pushes.any (fun e => decide (e.id < p.id) && e.target == p.target && e.line == p.line) then .next s
    else .next (pushArrive s p)

/-- T_LINE_EXPIRY: a T copy is discarded 4,096 cycles after its fill (R232). -/
def execTLineExpiry (core line : Nat) (s : State) : Out :=
  match (s.core core).l1Find line with
  | some e =>
    if e.st = .T ∧ e.fill + 4096 ≤ s.cycle then .next (s.setCore core ((s.core core).l1Drop line)) else .next s
  | none => .next s

/-- FAR_HOME_REQUEST: the far home gives the die of a request that has left for it the copy or the ownership of its line (R333). -/
def execFarHomeRequest (req : Nat) (s : State) : Out :=
  match s.req req with
  | none => .next s
  | some q =>
    match q.loc with
    | .mem pa _ =>
      let die := dieOfCore q.ctx.core
      if q.performed ∨ !isFar s pa ∨ !q.sent ∨ !mayPerform s q then .next s
      else .next (if q.writes then bringOwned s die (pa / 64) else bring s die (pa / 64))
    | _ => .next s

/-- The far stores of a list that still wait for an invalidation (R334). -/
def farStill (s : State) : List FarWrite := s.farWrites.filter (fun f => farPending s f.line f.stamp)

/-- FAR_INVALIDATION_ACK: a die acknowledges a pending invalidation: its copy and its cores' are gone (R333). One of a peer's line comes from that
peer at its own time (R334, R434). [log DEDUCED 24] -/
def execFarInvalidationAck (line die : Nat) (s : State) : Out :=
  let s := if 2 ^ 60 ≤ line then dropFar s line die else farInvalidated s line die
  .next { s with farWrites := farStill s }

/-- The cores for which a replica write is made: the context's, or those whose commands run as one under an engine (R280, R308). -/
def updateCores (s : State) (c : CtxId) : List Nat :=
  if c.ctx = 11 then
    c.core :: (s.engine.filter (fun d => !d.ended && d.group.any (fun m => m.1 == c.core))).flatMap (fun d => d.group.map (fun m => m.1))
  else [c.core]

/-- REPLICA_UPDATE: a replica's home installs the oldest update of a line there, after the peers have given up their copies; the cores for which it is
made discard their T copies (R232, R308, R354, R438). [log DEDUCED 54] -/
def execReplicaUpdate (update : Nat) (s : State) : Out :=
  match s.updates.find? (fun u => u.id == update) with
  | none => .next s
  | some u =>
    if s.updates.any (fun v => decide (v.id < u.id) && v.pa / 64 == u.pa / 64) then .next s
    else if peerHolds s (u.pa / 64) true then .next (askPeers [u.pa / 64] true (s.cycle + fabricCycles (s.part u.part)) s)
    else
      let cores := updateCores s u.ctx
      let s := cores.foldl (fun s core => dropOwnT s core (u.pa / 64)) { s with updates := s.updates.filter (fun v => v.id != update) }
      .next (doorbell u.part u.pa u.size (deviceWrite s u.pa u.size u.value.toNat))

/-- LLC_DRAM_SOFT_ERROR: the home of a line marks it poisoned (R384). -/
def execLlcDramSoftError (line : Nat) (s : State) : Out :=
  .next (if isPopulated s (64 * line) then { s with bad := s.bad.filter (fun b => b.line != line) ++ [⟨line, BitVec.allOnes 64⟩] } else s)

end Sys2Proof.Machine
end

