-- ==== Sys2Proof/Machine/Select.lean ====
section
/-!
DEFINITION. Which context may issue, in which cycle, and the deferred traps that wait for it (R44, R93, R110, R142, R149, R155, R267).
-/

namespace Sys2Proof.Machine

open Sys2Proof

/-- The partition of a core runs, and the core and its cluster are not halted; 35 ticks after the timestamp of a switch no core
issues any more (R296, R376, R386, R389). [log DEDUCED 37] -/
def coreRuns (s : State) (core : Nat) : Bool :=
  let q := s.part (s.partOfRank (rankOf core))
  q.state == 1 && q.owns (rankOf core) && q.switchAt.all (fun t => decide (s.ticks ≤ t + 35)) &&
    !(s.core core).halted && !(s.cluster (rankOf core)).halted

/-- A context may issue: it is live on a running core, its vector was no miss, it does not wait for its FPU's flags, and a
core that takes a forwarded stream has an instruction of it (R93, R110, R148, R267). -/
def canIssue (s : State) (c : CtxId) : Bool :=
  coreRuns s c.core && (s.ctx c).live && !(s.ctx c).missed && (s.ctx c).fpHold.isNone && decide (c.ctx < 11) &&
    (!(c.ctx == 0 && (isFollower s c.core || !(s.core c.core).fwdBuf.isEmpty)) || (s.ctx c).fwd.isSome)

/-- The cycle is one in which a context may be selected: its own time and its core's have come, and the cycle's issue slots are not over
(R44, R142). [log DEDUCED 8] -/
def inTime (s : State) (c : CtxId) : Bool :=
  !s.late && decide ((s.ctx c).nextIssue ≤ s.cycle) && decide ((s.core c.core).nextIssue ≤ s.cycle)

/-- A context that has yielded may be selected again: none of those that it waits for still stands before it (R142). -/
def yielded (s : State) (c : CtxId) : Bool := (s.ctx c).yieldTo.all (fun i => !((s.core c.core).ctx i).live)

/-- The contexts of a core in the order in which issue looks at them (R142). -/
def issueOrder (s : State) (core : Nat) : List CtxId := (List.range 11).map (fun i => ⟨core, ((s.core core).rr + 1 + i) % 11⟩)

/-- The debug module samples the PC of a ctx0 that is selected (R295). [log DESIGN CHOICE 40] -/
def samplePc (c : CtxId) (s : State) : State :=
  if c.ctx = 0 then s.setCore c.core { s.core c.core with dmpc := (s.ctx c).pc } else s

/-- A context that goes on by itself in a frame that its leader captured reads the frame's words again, from its own instruction memory, as a return into a
frame does (R137, R268). [log DESIGN CHOICE 30] -/
def ownFrame (s : State) : State :=
  match s.me.frame with
  | some f =>
    if s.me.enter ∧ s.me.fwd.isNone ∧ frameResident s.mine f then
      s.setMe { s.me with frame := some { f with words := s.mine.frameWords f.base f.words.length } }
    else s
  | none => s

/-- A context is selected: it is the executing one, and its results that are due are visible. [log DEDUCED 52] -/
def select (c : CtxId) (s : State) : State := ownFrame (settle (samplePc c { s with cur := c, note := .none }) c)

/-- The oldest deferred trap, by the order of its access (R155). [log DEDUCED 52] -/
def oldestDeferred (l : List Deferred) : Option Deferred :=
  l.foldl (fun o d => match o with
    | none => some d
    | some e => if d.order < e.order then some d else some e) none

/-- Take the oldest deferred trap at the issue point (R149, R155). [log DEDUCED 52] -/
def takeDeferred (d : Deferred) (s : State) : State :=
  let x := s.me
  slotTaken (takeTrap ⟨d.cause, d.tval, some d.fpc, true⟩ x.pc
    (s.setMe { x with deferred := x.deferred.filter (fun e => e != d) }))

/-- The context has arrived at a SYNC or BAR, which has then issued. -/
def Ctx.arrived (x : Ctx) : Bool :=
  match x.wait with
  | .sync _ _ _ _ => true
  | _ => false

end Sys2Proof.Machine
end

