-- ==== Sys2Proof/Machine/VFlt.lean ====
section
/-!
DEFINITION. The VFLT major: float elements, and the functions that are rounded correctly to F32 (R77, R182–R184).
-/

namespace Sys2Proof.Machine

open Sys2Proof

/-! ### Functions correctly rounded to F32 (R184) -/

/-- The bits behind the binary point of the fixed-point numbers below. -/
def fixBits : Nat := 256

/-- The natural logarithm of 2 in fixed point, from its series with the terms 1/(k 2^k). -/
def fixLn2 (k : Nat) : Nat :=
  match k with
  | 0 => 0
  | n + 1 => 2 ^ fixBits / ((n + 1) * 2 ^ (n + 1)) + fixLn2 n

/-- The terms of the exponential series of t in fixed point, from the k-th on, the term before it being given. -/
def fixExp (fuel k t term : Nat) : Nat :=
  match fuel with
  | 0 => 0
  | f + 1 => term + fixExp f (k + 1) t (term * t / 2 ^ fixBits / k)

/-- The first bits of the binary logarithm of y in [1, 2), in fixed point, by repeated squaring. -/
def fixLog (fuel y : Nat) (acc : Nat) : Nat :=
  match fuel with
  | 0 => acc
  | f + 1 =>
    let z := y * y / 2 ^ fixBits
    if 2 ^ (fixBits + 1) ≤ z then fixLog f (z / 2) (2 * acc + 1) else fixLog f z (2 * acc)

/-- A finite value as a fixed-point integer: the greatest not above it. -/
def fixOf (neg : Bool) (m : Nat) (e : Int) : Int :=
  let s := e + fixBits
  let v : Int := if 0 ≤ s then (m : Int) * 2 ^ s.toNat else (m : Int) / 2 ^ (-s).toNat
  if neg then -v else v

/-- 2^x (R184). [log DEDUCED 10] -/
def fexp2 (rm : BitVec 2) (a : Nat) : Nat × BitVec 8 :=
  match f32.decode a with
  | .nan sg => (f32.nan, flagIf sg fNV)
  | .inf neg => (if neg then 0 else 0x7F800000, 0)
  | .fin neg m e =>
    if m = 0 then (0x3F800000, 0)
    else if 12 ≤ (Nat.log2 m : Int) + e then f32.round rm false false 3 (if neg then -1000 else 1000)
    else
      let v := fixOf neg m e
      let n := v / 2 ^ fixBits
      let f := (v % 2 ^ fixBits).toNat
      if f = 0 then f32.round rm false false 1 n
      else
        let t := f * fixLn2 300 / 2 ^ fixBits
        f32.round rm false false (2 * fixExp 90 1 t (2 ^ fixBits) + 1) (n - fixBits - 1)

/-- log2 x (R184). [log DEDUCED 10] -/
def flog2 (rm : BitVec 2) (a : Nat) : Nat × BitVec 8 :=
  match f32.decode a with
  | .nan sg => (f32.nan, flagIf sg fNV)
  | .inf neg => if neg then (f32.nan, fNV) else (0x7F800000, 0)
  | .fin neg m e =>
    if m = 0 then (0xFF800000, fDZ)
    else if neg then (f32.nan, fNV)
    else
      let k := (Nat.log2 m : Int) + e
      let y := m * 2 ^ fixBits / 2 ^ Nat.log2 m
      if y = 2 ^ fixBits then f32.encode rm false (Val.ofInt k 0)
      else
        let v : Int := k * 2 ^ fixBits + fixLog fixBits y 0
        if 0 ≤ v then f32.round rm false false (2 * v.toNat + 1) (-(fixBits : Int) - 1)
        else f32.round rm false true (2 * v.natAbs - 1) (-(fixBits : Int) - 1)

/-- 1/√x (R184). [log DEDUCED 10] -/
def frsqrt (rm : BitVec 2) (a : Nat) : Nat × BitVec 8 :=
  match f32.decode a with
  | .nan sg => (f32.nan, flagIf sg fNV)
  | .inf neg => if neg then (f32.nan, fNV) else (0, 0)
  | .fin neg m e =>
    if m = 0 then (if neg then 0xFF800000 else 0x7F800000, fDZ)
    else if neg then (f32.nan, fNV)
    else
      let m' := if e % 2 = 0 then m else 2 * m
      let e' := if e % 2 = 0 then e else e - 1
      let q := 2 ^ 192 / m'
      let r := isqrt 193 q 0
      if r * r * m' = 2 ^ 192 then f32.encode rm false (.fin false r (-96 - e' / 2))
      else f32.round rm false false (2 * r + 1) (-97 - e' / 2)

/-- 1/x (R184). -/
def frecip (rm : BitVec 2) (a : Nat) : Nat × BitVec 8 := f32.div rm 0x3F800000 a

/-! ### Operands and results of a type (R77, R79, R182) -/

/-- An element as F32. -/
def toF32 (ty : BitVec 3) (x : Nat) : Nat × BitVec 8 := if ty = 7 then (x, 0) else (tyFmt ty).convert f32 0 false x

/-- An F32 result as an element, rounded to nearest. -/
def fromF32 (ty : BitVec 3) (r : Nat × BitVec 8) : Nat × BitVec 8 :=
  if ty = 7 then r
  else
    let c := f32.convert (tyFmt ty) 0 false r.1
    (c.1, r.2 ||| c.2)

/-- A unary, a binary and a ternary operation on F32 as one on elements of a type. -/
def el1 (f : Nat → Nat × BitVec 8) (ty : BitVec 3) (x : Nat) : Nat × BitVec 8 :=
  let a := toF32 ty x
  let r := f a.1
  fromF32 ty (r.1, a.2 ||| r.2)

def el2 (f : Nat → Nat → Nat × BitVec 8) (ty : BitVec 3) (x y _z : Nat) : Nat × BitVec 8 :=
  let a := toF32 ty x
  let b := toF32 ty y
  let r := f a.1 b.1
  fromF32 ty (r.1, a.2 ||| b.2 ||| r.2)

def el3 (f : Nat → Nat → Nat → Nat × BitVec 8) (ty tz : BitVec 3) (x y z : Nat) : Nat × BitVec 8 :=
  let a := toF32 ty x
  let b := toF32 ty y
  let c := toF32 tz z
  let r := f a.1 b.1 c.1
  fromF32 tz (r.1, a.2 ||| b.2 ||| c.2 ||| r.2)

/-- The sign bit of an element cleared, or turned. -/
def elFabs (w x : Nat) : Nat × BitVec 8 := (x % 2 ^ (w - 1), 0)
def elFneg (w x : Nat) : Nat × BitVec 8 := (if x < 2 ^ (w - 1) then x + 2 ^ (w - 1) else x - 2 ^ (w - 1), 0)

/-- The type that VFWMUL and VFWMA widen to. -/
def wideTy (ty : BitVec 3) : BitVec 3 := if ty = 6 then 7 else 6

/-- A product of elements at the wide type (R183). -/
def elFwmul (rm : BitVec 2) (ty : BitVec 3) (x y _z : Nat) : Nat × BitVec 8 :=
  let a := toF32 ty x
  let b := toF32 ty y
  let r := f32.mul rm a.1 b.1
  fromF32 (wideTy ty) (r.1, a.2 ||| b.2 ||| r.2)

/-- What a queued VFLT instruction writes when it runs. -/
def vfltRun (x : Ctx) (k : Core) (e : VEntry) : Option VRes :=
  let rm := e.rm
  let wide := fun (f : Nat → Nat → Nat → Nat × BitVec 8) (t : BitVec 3) =>
    vwiden 2 (tyWidth t) f (k.lineElems t e.a) (k.lineElems t e.b) x k e
  match e.instr with
  | .vfadd _ _ _ t _ => some (vmap (el2 (f32.add rm) t) t x k e)
  | .vfsub _ _ _ t _ => some (vmap (el2 (f32.sub rm) t) t x k e)
  | .vfmul _ _ _ t _ => some (vmap (el2 (f32.mul rm) t) t x k e)
  | .vfma _ _ _ t _ => some (vmap (el3 (f32.fma rm false) t t) t x k e)
  | .vfnma _ _ _ t _ => some (vmap (el3 (f32.fma rm true) t t) t x k e)
  | .vfmin _ _ _ t _ => some (vmap (el2 (f32.minMax false) t) t x k e)
  | .vfmax _ _ _ t _ => some (vmap (el2 (f32.minMax true) t) t x k e)
  | .vfabs _ _ t _ => some (vput (k.lineElems t e.a) (elFabs (tyWidth t)) t x k e)
  | .vfneg _ _ t _ => some (vput (k.lineElems t e.a) (elFneg (tyWidth t)) t x k e)
  | .vfwmul _ _ _ t _ => some (wide (elFwmul rm t) t)
  | .vfwma _ _ _ t _ => some (wide (el3 (f32.fma rm false) t (wideTy t)) t)
  | .vfexp2 _ _ t _ => some (vput (k.lineElems t e.a) (el1 (fexp2 rm) t) t x k e)
  | .vflog2 _ _ t _ => some (vput (k.lineElems t e.a) (el1 (flog2 rm) t) t x k e)
  | .vfrcp _ _ t _ => some (vput (k.lineElems t e.a) (el1 (frecip rm) t) t x k e)
  | .vfrsq _ _ t _ => some (vput (k.lineElems t e.a) (el1 (frsqrt rm) t) t x k e)
  | _ => none

/-! ### The instructions -/

/-- VFADD (R182). -/
def execVfadd (d a b : Reg) (t w : BitVec 3) (s : State) : Out := vec3 (.vfadd d a b t w) d a b w s

/-- VFSUB (R182). -/
def execVfsub (d a b : Reg) (t w : BitVec 3) (s : State) : Out := vec3 (.vfsub d a b t w) d a b w s

/-- VFMUL (R182). -/
def execVfmul (d a b : Reg) (t w : BitVec 3) (s : State) : Out := vec3 (.vfmul d a b t w) d a b w s

/-- VFMA (R182). -/
def execVfma (d a b : Reg) (t w : BitVec 3) (s : State) : Out := vec3 (.vfma d a b t w) d a b w s

/-- VFNMA (R182). -/
def execVfnma (d a b : Reg) (t w : BitVec 3) (s : State) : Out := vec3 (.vfnma d a b t w) d a b w s

/-- VFMIN (R182). -/
def execVfmin (d a b : Reg) (t w : BitVec 3) (s : State) : Out := vec3 (.vfmin d a b t w) d a b w s

/-- VFMAX (R182). -/
def execVfmax (d a b : Reg) (t w : BitVec 3) (s : State) : Out := vec3 (.vfmax d a b t w) d a b w s

/-- VFABS (R182). -/
def execVfabs (d a : Reg) (t w : BitVec 3) (s : State) : Out := vec2 (.vfabs d a t w) d a w s

/-- VFNEG (R182). -/
def execVfneg (d a : Reg) (t w : BitVec 3) (s : State) : Out := vec2 (.vfneg d a t w) d a w s

/-- VFWMUL (R183). -/
def execVfwmul (d a b : Reg) (t w : BitVec 3) (s : State) : Out := vec (.vfwmul d a b t w) (linesWide 2 d a (some b)) none none 2 w s

/-- VFWMA (R183). -/
def execVfwma (d a b : Reg) (t w : BitVec 3) (s : State) : Out := vec (.vfwma d a b t w) (linesWide 2 d a (some b)) none none 2 w s

/-- VFEXP2 (R184). -/
def execVfexp2 (d a : Reg) (t w : BitVec 3) (s : State) : Out := vec2 (.vfexp2 d a t w) d a w s

/-- VFLOG2 (R184). -/
def execVflog2 (d a : Reg) (t w : BitVec 3) (s : State) : Out := vec2 (.vflog2 d a t w) d a w s

/-- VFRCP (R184). -/
def execVfrcp (d a : Reg) (t w : BitVec 3) (s : State) : Out := vec2 (.vfrcp d a t w) d a w s

/-- VFRSQ (R184). -/
def execVfrsq (d a : Reg) (t w : BitVec 3) (s : State) : Out := vec2 (.vfrsq d a t w) d a w s

end Sys2Proof.Machine
end

