-- ==== Sys2Proof/Machine/VInt.lean ====
section
/-!
DEFINITION. The VINT major: integer elements (R180, R181).
-/

namespace Sys2Proof.Machine

open Sys2Proof

/-! ### Elements (R180, R181) -/

/-- An integer result of a width, and one that saturates. -/
def vi (w : Nat) (i : Int) : Nat × BitVec 8 := (wrap w i, 0)
def viSat (w : Nat) (lo hi i : Int) : Nat × BitVec 8 :=
  let r := satInt lo hi i
  (wrap w r.1, r.2)

/-- The bounds of a signed width. -/
def sLo (w : Nat) : Int := -(2 ^ (w - 1))
def sHi (w : Nat) : Int := 2 ^ (w - 1) - 1

def elAdd (w x y _z : Nat) : Nat × BitVec 8 := vi w ((x : Int) + y)
def elSub (w x y _z : Nat) : Nat × BitVec 8 := vi w ((x : Int) - y)
def elMul (w x y _z : Nat) : Nat × BitVec 8 := vi w ((x : Int) * y)
def elMulh (w x y _z : Nat) : Nat × BitVec 8 := vi w (sgn w x * sgn w y / 2 ^ w)
def elMin (w x y _z : Nat) : Nat × BitVec 8 := (if sgn w x ≤ sgn w y then x else y, 0)
def elMax (w x y _z : Nat) : Nat × BitVec 8 := (if sgn w x ≤ sgn w y then y else x, 0)
def elMinu (_w x y _z : Nat) : Nat × BitVec 8 := (min x y, 0)
def elMaxu (_w x y _z : Nat) : Nat × BitVec 8 := (max x y, 0)
def elAdds (w x y _z : Nat) : Nat × BitVec 8 := viSat w (sLo w) (sHi w) (sgn w x + sgn w y)
def elSubs (w x y _z : Nat) : Nat × BitVec 8 := viSat w (sLo w) (sHi w) (sgn w x - sgn w y)
def elAddsn (w x y _z : Nat) : Nat × BitVec 8 := viSat w 0 (2 ^ w - 1) ((x : Int) + y)
def elAbs (w x _y _z : Nat) : Nat × BitVec 8 := vi w (sgn w x).natAbs
def elNeg (w x _y _z : Nat) : Nat × BitVec 8 := vi w (-(x : Int))
def elMac (w x y z : Nat) : Nat × BitVec 8 := vi w ((z : Int) + x * y)
def elWmul (w x y _z : Nat) : Nat × BitVec 8 := vi (2 * w) (sgn w x * sgn w y)
def elWmac (w x y z : Nat) : Nat × BitVec 8 := vi (2 * w) ((z : Int) + sgn w x * sgn w y)

/-- The products of two lists of signed w-bit elements in groups of four, each group's sum. -/
def dot4 (w : Nat) (xs ys : List Nat) : List Int :=
  match xs, ys with
  | x0 :: x1 :: x2 :: x3 :: xs, y0 :: y1 :: y2 :: y3 :: ys =>
    (sgn w x0 * sgn w y0 + sgn w x1 * sgn w y1 + sgn w x2 * sgn w y2 + sgn w x3 * sgn w y3) :: dot4 w xs ys
  | _, _ => []

/-- The I32 elements of VDOT4 from the old ones: group j is active by the mask bit of element 4 j (R181). -/
def dot4Acc (m : Mask) (w j : Nat) (sums : List Int) (zs : List Nat) : List Nat :=
  match sums, zs with
  | a :: sums, z :: zs => (if isActive m w (4 * j) then wrap 32 ((z : Int) + a) else z) :: dot4Acc m w (j + 1) sums zs
  | _, _ => []

/-- VDOT4 on I8 elements into one line, on I4 elements into two (R181). -/
def vdot4Run (ty : BitVec 3) (x : Ctx) (k : Core) (e : VEntry) : VRes :=
  let w := tyWidth ty
  let sums := dot4 w (k.lineElems ty e.a) (k.lineElems ty e.b)
  if ty = 1 then oneLine e.d (ofElems 32 (dot4Acc (x.mask 0) w 0 sums (elems 32 128 (k.spadLine e.d)))) 0
  else
    let old := (List.range 256).map (fun j => elemAt 32 (k.spadLine (e.dst (j % 2))) (j / 2))
    let r := dot4Acc (x.mask 0) w 0 sums old
    ⟨[(e.dst 0, ofElems 32 (pickMod 2 0 r)), (e.dst 1, ofElems 32 (pickMod 2 1 r))], [], 0⟩

/-- A widening integer instruction of ratio 2. -/
def viWide (f : Nat → Nat → Nat → Nat → Nat × BitVec 8) (ty : BitVec 3) (x : Ctx) (k : Core) (e : VEntry) : VRes :=
  vwiden 2 (tyWidth ty) (f (tyWidth ty)) (k.lineElems ty e.a) (k.lineElems ty e.b) x k e

/-- What a queued VINT instruction writes when it runs; none for an instruction of another major. -/
def vintRun (x : Ctx) (k : Core) (e : VEntry) : Option VRes :=
  match e.instr with
  | .vadd _ _ _ t _ => some (vmap (elAdd (tyWidth t)) t x k e)
  | .vsub _ _ _ t _ => some (vmap (elSub (tyWidth t)) t x k e)
  | .vmul _ _ _ t _ => some (vmap (elMul (tyWidth t)) t x k e)
  | .vmulh _ _ _ t _ => some (vmap (elMulh (tyWidth t)) t x k e)
  | .vmin _ _ _ t _ => some (vmap (elMin (tyWidth t)) t x k e)
  | .vmax _ _ _ t _ => some (vmap (elMax (tyWidth t)) t x k e)
  | .vminu _ _ _ t _ => some (vmap (elMinu (tyWidth t)) t x k e)
  | .vmaxu _ _ _ t _ => some (vmap (elMaxu (tyWidth t)) t x k e)
  | .vadds _ _ _ t _ => some (vmap (elAdds (tyWidth t)) t x k e)
  | .vsubs _ _ _ t _ => some (vmap (elSubs (tyWidth t)) t x k e)
  | .vaddsn _ _ _ t _ => some (vmap (elAddsn (tyWidth t)) t x k e)
  | .vabs _ _ t _ => some (vput (k.lineElems t e.a) (fun v => elAbs (tyWidth t) v 0 0) t x k e)
  | .vneg _ _ t _ => some (vput (k.lineElems t e.a) (fun v => elNeg (tyWidth t) v 0 0) t x k e)
  | .vmac _ _ _ t _ => some (vmap (elMac (tyWidth t)) t x k e)
  | .vwmul _ _ _ t _ => some (viWide elWmul t x k e)
  | .vwmac _ _ _ t _ => some (viWide elWmac t x k e)
  | .vdot4 _ _ _ t _ => some (vdot4Run t x k e)
  | _ => none

/-! ### The instructions -/

/-- VADD (R180). -/
def execVadd (d a b : Reg) (t w : BitVec 3) (s : State) : Out := vec3 (.vadd d a b t w) d a b w s

/-- VSUB (R180). -/
def execVsub (d a b : Reg) (t w : BitVec 3) (s : State) : Out := vec3 (.vsub d a b t w) d a b w s

/-- VMUL (R180). -/
def execVmul (d a b : Reg) (t w : BitVec 3) (s : State) : Out := vec3 (.vmul d a b t w) d a b w s

/-- VMULH (R180). -/
def execVmulh (d a b : Reg) (t w : BitVec 3) (s : State) : Out := vec3 (.vmulh d a b t w) d a b w s

/-- VMIN (R180). -/
def execVmin (d a b : Reg) (t w : BitVec 3) (s : State) : Out := vec3 (.vmin d a b t w) d a b w s

/-- VMAX (R180). -/
def execVmax (d a b : Reg) (t w : BitVec 3) (s : State) : Out := vec3 (.vmax d a b t w) d a b w s

/-- VMINU (R180). -/
def execVminu (d a b : Reg) (t w : BitVec 3) (s : State) : Out := vec3 (.vminu d a b t w) d a b w s

/-- VMAXU (R180). -/
def execVmaxu (d a b : Reg) (t w : BitVec 3) (s : State) : Out := vec3 (.vmaxu d a b t w) d a b w s

/-- VADDS (R180). -/
def execVadds (d a b : Reg) (t w : BitVec 3) (s : State) : Out := vec3 (.vadds d a b t w) d a b w s

/-- VSUBS (R180). -/
def execVsubs (d a b : Reg) (t w : BitVec 3) (s : State) : Out := vec3 (.vsubs d a b t w) d a b w s

/-- VADDSN (R180). -/
def execVaddsn (d a b : Reg) (t w : BitVec 3) (s : State) : Out := vec3 (.vaddsn d a b t w) d a b w s

/-- VABS (R180). -/
def execVabs (d a : Reg) (t w : BitVec 3) (s : State) : Out := vec2 (.vabs d a t w) d a w s

/-- VNEG (R180). -/
def execVneg (d a : Reg) (t w : BitVec 3) (s : State) : Out := vec2 (.vneg d a t w) d a w s

/-- VMAC (R180). -/
def execVmac (d a b : Reg) (t w : BitVec 3) (s : State) : Out := vec3 (.vmac d a b t w) d a b w s

/-- VWMUL (R181). -/
def execVwmul (d a b : Reg) (t w : BitVec 3) (s : State) : Out := vec (.vwmul d a b t w) (linesWide 2 d a (some b)) none none 2 w s

/-- VWMAC (R181). -/
def execVwmac (d a b : Reg) (t w : BitVec 3) (s : State) : Out := vec (.vwmac d a b t w) (linesWide 2 d a (some b)) none none 2 w s

/-- VDOT4 (R181). -/
def execVdot4 (d a b : Reg) (t w : BitVec 3) (s : State) : Out :=
  if t = 1 then vec3 (.vdot4 d a b t w) d a b w s else vec (.vdot4 d a b t w) (linesWide 2 d a (some b)) none none 2 w s

end Sys2Proof.Machine
end

