-- ==== Sys2Proof/Machine/VLog.lean ====
section
/-!
DEFINITION. The VLOG major: bits and shifts, compares, VSEL and masks (R185–R188).
-/

namespace Sys2Proof.Machine

open Sys2Proof

/-! ### Elements (R185) -/

def elBAnd (x y _z : Nat) : Nat × BitVec 8 := (x &&& y, 0)
def elBOr (x y _z : Nat) : Nat × BitVec 8 := (x ||| y, 0)
def elBXor (x y _z : Nat) : Nat × BitVec 8 := (x ^^^ y, 0)
def elBAndn (x y _z : Nat) : Nat × BitVec 8 := (x - (x &&& y), 0)
def elShl (w x y _z : Nat) : Nat × BitVec 8 := (if w ≤ y then 0 else x * 2 ^ y % 2 ^ w, 0)
def elShr (w x y _z : Nat) : Nat × BitVec 8 := (if w ≤ y then 0 else x / 2 ^ y, 0)
def elSar (w x y _z : Nat) : Nat × BitVec 8 := (wrap w (toSigned w x / 2 ^ (min y w)), 0)

/-! ### Compares (R186) -/

/-- A truth value as an element. -/
def truth (b : Bool) : Nat × BitVec 8 := (if b then 1 else 0, 0)
def truthF (r : Bool × BitVec 8) : Nat × BitVec 8 := (if r.1 then 1 else 0, r.2)

def cmpEq (x y _z : Nat) : Nat × BitVec 8 := truth (x == y)
def cmpLt (w x y _z : Nat) : Nat × BitVec 8 := truth (decide (toSigned w x < toSigned w y))
def cmpLe (w x y _z : Nat) : Nat × BitVec 8 := truth (decide (toSigned w x ≤ toSigned w y))
def cmpLtn (x y _z : Nat) : Nat × BitVec 8 := truth (decide (x < y))
def cmpF (f : Nat → Nat → Bool × BitVec 8) (x y _z : Nat) : Nat × BitVec 8 := truthF (f x y)

/-- A compare: all bits of each active element its result, of each inactive one 0. -/
def vcmp (f : Nat → Nat → Nat → Nat × BitVec 8) (d : Reg) (ty : BitVec 3) (x : Ctx) (k : Core) (e : VEntry) : VRes :=
  let w := tyWidth ty
  let r := mapAct f (x.mask 0) w 0 (k.lineElems ty e.a) (k.lineElems ty e.b) ((k.lineElems ty e.a).map (fun _ => 0))
  oneMask d (BitVec.ofNat 1024 (maskOf w (r.1.map (fun v => v == 1)))) r.2

/-- VSEL: x where m0 is set, else y (R187). -/
def vselRun (ty : BitVec 3) (x : Ctx) (k : Core) (e : VEntry) : VRes :=
  let ys := k.lineElems ty e.b
  oneLine e.d (ofElems (tyWidth ty) (mapAct (fun v _ _ => (v, 0)) (x.mask 0) (tyWidth ty) 0 (k.lineElems ty e.a) ys ys).1) 0

/-! ### Masks (R188) -/

/-- The mask of the first elements of a type. -/
def firstMask (ty : BitVec 3) (v : Word) : Mask :=
  BitVec.ofNat 1024 (2 ^ (Nat.min v.toNat (tyCount ty) * (tyWidth ty / 4)) - 1)

/-- The number of elements of a type from i on whose first mask bit is set, and the least of them. -/
def maskPop (m : Mask) (ty : BitVec 3) : Nat := ((List.range (tyCount ty)).filter (isActive m (tyWidth ty))).length
def maskFirst (m : Mask) (ty : BitVec 3) : Word :=
  match (List.range (tyCount ty)).find? (isActive m (tyWidth ty)) with
  | some i => BitVec.ofNat 64 i
  | none => BitVec.allOnes 64

/-- What a queued VLOG instruction writes when it runs. -/
def vlogRun (x : Ctx) (k : Core) (e : VEntry) : Option VRes :=
  match e.instr with
  | .vand _ _ _ t _ => some (vmap elBAnd t x k e)
  | .vor _ _ _ t _ => some (vmap elBOr t x k e)
  | .vxor _ _ _ t _ => some (vmap elBXor t x k e)
  | .vandn _ _ _ t _ => some (vmap elBAndn t x k e)
  | .vshl _ _ _ t _ => some (vmap (elShl (tyWidth t)) t x k e)
  | .vshr _ _ _ t _ => some (vmap (elShr (tyWidth t)) t x k e)
  | .vsar _ _ _ t _ => some (vmap (elSar (tyWidth t)) t x k e)
  | .vcmpeq d _ _ t _ => some (vcmp cmpEq d t x k e)
  | .vcmplt d _ _ t _ => some (vcmp (cmpLt (tyWidth t)) d t x k e)
  | .vcmple d _ _ t _ => some (vcmp (cmpLe (tyWidth t)) d t x k e)
  | .vcmpltn d _ _ t _ => some (vcmp cmpLtn d t x k e)
  | .vfcmpeq d _ _ t _ => some (vcmp (cmpF (tyFmt t).feq) d t x k e)
  | .vfcmplt d _ _ t _ => some (vcmp (cmpF (tyFmt t).flt) d t x k e)
  | .vfcmple d _ _ t _ => some (vcmp (cmpF (tyFmt t).fle) d t x k e)
  | .vsel _ _ _ t _ => some (vselRun t x k e)
  | .vmand d a b _ _ => some (oneMask d (x.mask a.toNat &&& x.mask b.toNat) 0)
  | .vmor d a b _ _ => some (oneMask d (x.mask a.toNat ||| x.mask b.toNat) 0)
  | .vmxor d a b _ _ => some (oneMask d (x.mask a.toNat ^^^ x.mask b.toNat) 0)
  | .vmnot d a _ _ => some (oneMask d (~~~(x.mask a.toNat)) 0)
  | .vmset d _ t _ => some (oneMask d (firstMask t e.ga) 0)
  | _ => none

/-! ### The instructions -/

/-- VAND (R185). -/
def execVand (d a b : Reg) (t w : BitVec 3) (s : State) : Out := vec3 (.vand d a b t w) d a b w s

/-- VOR (R185). -/
def execVor (d a b : Reg) (t w : BitVec 3) (s : State) : Out := vec3 (.vor d a b t w) d a b w s

/-- VXOR (R185). -/
def execVxor (d a b : Reg) (t w : BitVec 3) (s : State) : Out := vec3 (.vxor d a b t w) d a b w s

/-- VANDN (R185). -/
def execVandn (d a b : Reg) (t w : BitVec 3) (s : State) : Out := vec3 (.vandn d a b t w) d a b w s

/-- VSHL (R185). -/
def execVshl (d a b : Reg) (t w : BitVec 3) (s : State) : Out := vec3 (.vshl d a b t w) d a b w s

/-- VSHR (R185). -/
def execVshr (d a b : Reg) (t w : BitVec 3) (s : State) : Out := vec3 (.vshr d a b t w) d a b w s

/-- VSAR (R185). -/
def execVsar (d a b : Reg) (t w : BitVec 3) (s : State) : Out := vec3 (.vsar d a b t w) d a b w s

/-- VCMPEQ (R186). -/
def execVcmpeq (d a b : Reg) (t w : BitVec 3) (s : State) : Out := vec (.vcmpeq d a b t w) (linesAb a b) none none 1 w s

/-- VCMPLT (R186). -/
def execVcmplt (d a b : Reg) (t w : BitVec 3) (s : State) : Out := vec (.vcmplt d a b t w) (linesAb a b) none none 1 w s

/-- VCMPLE (R186). -/
def execVcmple (d a b : Reg) (t w : BitVec 3) (s : State) : Out := vec (.vcmple d a b t w) (linesAb a b) none none 1 w s

/-- VCMPLTN (R186). -/
def execVcmpltn (d a b : Reg) (t w : BitVec 3) (s : State) : Out := vec (.vcmpltn d a b t w) (linesAb a b) none none 1 w s

/-- VFCMPEQ (R186). -/
def execVfcmpeq (d a b : Reg) (t w : BitVec 3) (s : State) : Out := vec (.vfcmpeq d a b t w) (linesAb a b) none none 1 w s

/-- VFCMPLT (R186). -/
def execVfcmplt (d a b : Reg) (t w : BitVec 3) (s : State) : Out := vec (.vfcmplt d a b t w) (linesAb a b) none none 1 w s

/-- VFCMPLE (R186). -/
def execVfcmple (d a b : Reg) (t w : BitVec 3) (s : State) : Out := vec (.vfcmple d a b t w) (linesAb a b) none none 1 w s

/-- VSEL (R187). -/
def execVsel (d a b : Reg) (t w : BitVec 3) (s : State) : Out := vec3 (.vsel d a b t w) d a b w s

/-- VMAND (R188). -/
def execVmand (d a b : Reg) (t w : BitVec 3) (s : State) : Out := vec (.vmand d a b t w) linesNone none none 1 w s

/-- VMOR (R188). -/
def execVmor (d a b : Reg) (t w : BitVec 3) (s : State) : Out := vec (.vmor d a b t w) linesNone none none 1 w s

/-- VMXOR (R188). -/
def execVmxor (d a b : Reg) (t w : BitVec 3) (s : State) : Out := vec (.vmxor d a b t w) linesNone none none 1 w s

/-- VMNOT (R188). -/
def execVmnot (d a : Reg) (t w : BitVec 3) (s : State) : Out := vec (.vmnot d a t w) linesNone none none 1 w s

/-- VMPOP (R188). -/
def execVmpop (d a : Reg) (t w : BitVec 3) (s : State) : Out :=
  vecG linesNone none d (fun s _ => (BitVec.ofNat 64 (maskPop (s.me.mask a.toNat) t), 0)) w s

/-- VMFIRST (R188). -/
def execVmfirst (d a : Reg) (t w : BitVec 3) (s : State) : Out :=
  vecG linesNone none d (fun s _ => (maskFirst (s.me.mask a.toNat) t, 0)) w s

/-- VMSET (R188). -/
def execVmset (d a : Reg) (t w : BitVec 3) (s : State) : Out := vec (.vmset d a t w) linesNone (some a) none 1 w s

end Sys2Proof.Machine
end

