-- ==== Sys2Proof/Machine/VMem.lean ====
section
/-!
DEFINITION. The VMEM major: line, strided and indexed loads and stores (R175–R179).
-/

namespace Sys2Proof.Machine

open Sys2Proof

/-! ### The parts of memory that an instruction accesses -/

/-- LOCALRANGE for a vector access that starts in the local window, with the first byte past the scratchpad, or the address of
one that starts in the command window or past the scratchpad (R158, R197). [log DEDUCED 65] -/
def vecLocal (s : State) (addr : Word) (n : Nat) : Option Trap :=
  let size := spBytes s.mine.spsize
  if !isLocal addr then none
  else if locOf addr + n ≤ size then none
  else some (.mk' cLOCALRANGE (if locOf addr < size then BitVec.ofNat 64 size else addr))

/-- The first trap of a list of checks. -/
def firstTrap {α : Type} (f : α → Option Trap) (l : List α) : Option Trap := l.findSome? f

/-- The address checks of R227 in their order, each over the elements in ascending order, before translation. -/
def vecAddr (s : State) (a : Reg) (size align : Nat) (l : List Word) : Option Trap :=
  orElse (firstTrap (formCheck s.ptlen) l) (orElse (firstTrap (fun v => stackCheck s a v size) l)
    (orElse (firstTrap (fun v => if v.toNat % align ≠ 0 then some (.mk' cMISALIGN v) else none) l)
      (firstTrap (fun v => vecLocal s v size) l)))

/-- VIEWPERM of the first of a list of addresses whose view is not admitted; it comes before every translation fault (R163, R178). -/
def viewAll (size : Nat) (need : Need) (l : List (Nat × Word)) (s : State) : Option Trap × State :=
  match l with
  | [] => (none, s)
  | (_, va) :: t =>
    if isLocal va then viewAll size need t s
    else match resolve s (s.xctx s.cur) va size need with
      | (u, .error .viewperm) => (some (.mk' cVIEWPERM va), u)
      | (u, _) => viewAll size need t u

/-- Where each of a list of addresses is, or the first fault, with the address of the part that meets it. [log DEDUCED 65] -/
def placeEach (size : Nat) (need : Need) (l : List (Nat × Word)) (s : State) : (Trap ⊕ List (Nat × Word × Loc)) × State :=
  match l with
  | [] => (.inr [], s)
  | (i, va) :: t =>
    let r : (Trap ⊕ Loc) × State :=
      if isLocal va then (.inr (.spad (locOf va)), s)
      else match resolve s (s.xctx s.cur) va size need with
        | (u, .error .viewperm) => (.inl (.mk' cVIEWPERM va), u)
        | (u, .error (.kind _)) => (.inl (xlTrap s va need), u)
        | (u, .ok loc) =>
          match lossAt u loc size with
          | some e => (.inl (.mk' cTENLOST va), tellLost u u.cur e.id)
          | none => (.inr loc, u)
    match r with
    | (.inl x, u) => (.inl x, u)
    | (.inr loc, u) =>
      match placeEach size need t u with
      | (.inl x, v) => (.inl x, v)
      | (.inr rest, v) => (.inr ((i, va, loc) :: rest), v)

/-- Where each of a list of addresses is, or the first trap in the order of R163. -/
def placeAll (size : Nat) (need : Need) (l : List (Nat × Word)) (s : State) : (Trap ⊕ List (Nat × Word × Loc)) × State :=
  match viewAll size need l s with
  | (some t, u) => (.inl t, u)
  | (none, u) => placeEach size need l u

/-- The location n bytes further on. -/
def locPlus (l : Loc) (n : Nat) : Loc :=
  match l with
  | .spad x => .spad (x + n)
  | .mem pa others => .mem (pa + n) (others.map (fun o => { o with off := o.off + n }))
  | .mmio pa => .mmio (pa + n)
  | .peer q e ra tc ca co => .peer q e (ra + n) tc ca co
  | .departing => .departing
  | .nowhere => .nowhere

/-- The two 256-byte requests in which a line's access to a peer travels (R434). -/
def twoOf (e : Nat × Word × Loc) : List (Nat × Word × Loc) :=
  (List.range 2).map (fun j => (e.1 + 256 * j, e.2.1 + BitVec.ofNat 64 (256 * j), locPlus e.2.2 (256 * j)))

/-- The eight doublewords of a 64-byte part of a line. -/
def eightOf (e : Nat × Word × Loc) : List (Nat × Word × Loc) :=
  (List.range 8).map (fun j => (e.1 + 8 * j, e.2.1 + BitVec.ofNat 64 (8 * j), locPlus e.2.2 (8 * j)))

/-- The scratchpad lines that the parts lie in. -/
def localLines (size : Nat) (l : List (Nat × Word × Loc)) : List Nat :=
  (l.flatMap (fun e => match e.2.2 with
    | .spad x => [x / 512, (x + size - 1) / 512]
    | _ => [])).eraseDups

/-- An acquire or a fence of the context is not complete, or an entry of its ring is an acquire or overlaps (R179, R380). -/
def vmemWaits (s : State) (size : Nat) (l : List (Nat × Word × Loc)) : Bool :=
  s.reqs.any (fun q => q.ctx == s.cur && (q.isFence || (q.acq && !q.performed))) ||
    ringFull s.me || l.any (fun e => ringBusy s.me e.2.1 size)

/-- A vector memory instruction on elements of a size, with what its parts are. [log DEDUCED 14] -/
def vmem (i : Instr) (v : VLines) (store : Bool) (rs : List Reg) (ga gb : Word) (size : Nat) (passes : Nat)
    (parts : List (Nat × Word × Loc)) (w : BitVec 3) (s : State) : Out :=
  if vmemWaits s size parts then hold s
  else
    let ls := localLines size parts
    .next (finish w rs (pushVec i v ga gb passes parts size (if store then [] else ls) (if store then ls else []) s))

/-! ### VLD and VST (R175) -/

/-- The 64-byte parts of a line's 512 bytes at an address. -/
def lineParts (addr : Word) : List (Nat × Word) := (List.range 8).map (fun j => (64 * j, addr + BitVec.ofNat 64 (64 * j)))

/-- The checks of VLD and VST on their address: ADDRFORM anywhere in the 512 bytes, STACKFAULT, MISALIGN, LOCALRANGE. -/
def lineAddr (s : State) (a : Reg) (addr : Word) : Option Trap :=
  orElse (formCheck s.ptlen addr) (orElse (stackCheck s a addr 512)
    (orElse (if addr.toNat % 64 ≠ 0 then some (.mk' cMISALIGN addr) else none)
      (orElse (vecLocal s addr 512) (firstTrap (fun p => formCheck s.ptlen p.2) (lineParts addr)))))

/-- The requests of a line's access to a peer, with their size: one for each 64-byte line that this package may cache, else the two (R434). -/
def peerParts (s : State) (e : Nat × Word × Loc) : Nat × List (Nat × Word × Loc) :=
  if (cachedLine s e.2.2).isSome then
    (64, (List.range 8).map (fun j => (e.1 + 64 * j, e.2.1 + BitVec.ofNat 64 (64 * j), locPlus e.2.2 (64 * j))))
  else (256, twoOf e)

/-- VLD and VST. An access to a peer window is one of 512 bytes, which the window has to hold whole (R431, R434). -/
def vline (i : Instr) (store : Bool) (d a : Reg) (w : BitVec 3) (s : State) : Out :=
  let v : VLines := ⟨[d], none, none, !store, false⟩
  holdThen (queueHolds v s) s (fun s => issueThen [a] [] s (fun s => failThen (vecCheck v s) s (fun s =>
    let addr := s.rdA a
    failThen (lineAddr s a addr) s (fun s =>
      let need := if store then needW else needR
      if isPeer addr then
        match placeAll 512 need [(0, addr)] s with
        | (.inl t, s) => trap t s
        | (.inr l, s) =>
          let size := (l.head?.elim 256 (fun e => (peerParts s e).1))
          vmem i v store [a] addr 0 size 1 (l.flatMap (fun e => (peerParts s e).2)) w s
      else
        match placeAll 64 need (lineParts addr) s with
        | (.inl t, s) => trap t s
        | (.inr l, s) => vmem i v store [a] addr 0 8 (if isLocal addr then 2 else 1) (l.flatMap eightOf) w s))))

/-- VLD (R175). -/
def execVld (d a : Reg) (w : BitVec 3) (s : State) : Out := vline (.vld d a w) false d a w s

/-- VST (R175). -/
def execVst (d a : Reg) (w : BitVec 3) (s : State) : Out := vline (.vst d a w) true d a w s

/-! ### VLDS, VSTS, VGATH and VSCAT (R176, R177) -/

/-- The active elements with their addresses. -/
def activeAddrs (m : Mask) (ty : BitVec 3) (addr : Nat → Word) : List (Nat × Word) :=
  ((List.range (tyCount ty)).filter (isActive m (tyWidth ty))).map (fun i => (i * (tyWidth ty / 8), addr i))

/-- What decides which elements are active, and their indices, is not written yet: the context's queue holds an instruction, or the
index line is still to be written. [log DEDUCED 14] -/
def elemsWait (s : State) (idx : Option Nat) : Bool := !s.me.vq.isEmpty || linesBusy s.mine idx.toList

/-- A vector memory instruction on elements: `addr` gives the address of an element. -/
def velems (i : Instr) (v : VLines) (store : Bool) (a : Reg) (rs : List Reg) (ty : BitVec 3) (gb : State → Word)
    (addr : State → Nat → Word) (w : BitVec 3) (s : State) : Out :=
  holdThen (queueHolds v s || elemsWait s (v.bLine s.me)) s (fun s => issueThen rs [] s (fun s => failThen (vecCheck v s) s (fun s =>
    let size := tyWidth ty / 8
    let l := activeAddrs (s.me.mask 0) ty (addr s)
    failThen (vecAddr s a size size (l.map (fun e => e.2))) s (fun s =>
      match placeAll size (if store then needW else needR) l s with
      | (.inl t, s) => trap t s
      | (.inr parts, s) => vmem i v store rs (s.rdA a) (gb s) size 1 parts w s))))

/-- Element i at a stride. -/
def strideAddr (a b : Reg) (s : State) (i : Nat) : Word := s.rdA a + BitVec.ofNat 64 i * s.rdB a b

/-- Element i by the index line. -/
def indexAddr (a b : Reg) (ty : BitVec 3) (s : State) (i : Nat) : Word :=
  s.rdA a + BitVec.ofNat 64 (elemAt (tyWidth ty) (s.mine.spadLine (s.me.lineNo b)) i * (tyWidth ty / 8))

/-- VLDS (R176). -/
def execVlds (d a b : Reg) (t w : BitVec 3) (s : State) : Out :=
  velems (.vlds d a b t w) (linesD d) false a [a, b] t (fun s => s.rdB a b) (strideAddr a b) w s

/-- VSTS (R176). -/
def execVsts (d a b : Reg) (t w : BitVec 3) (s : State) : Out :=
  velems (.vsts d a b t w) ⟨[d], none, none, false, false⟩ true a [a, b] t (fun s => s.rdB a b) (strideAddr a b) w s

/-- VGATH (R177). -/
def execVgath (d a b : Reg) (t w : BitVec 3) (s : State) : Out :=
  velems (.vgath d a b t w) ⟨[d], none, some b, true, false⟩ false a [a] t (fun _ => 0) (indexAddr a b t) w s

/-- VSCAT (R177). -/
def execVscat (d a b : Reg) (t w : BitVec 3) (s : State) : Out :=
  velems (.vscat d a b t w) ⟨[d], none, some b, false, false⟩ true a [a] t (fun _ => 0) (indexAddr a b t) w s

/-! ### What they do when they run (R178) -/

/-- The instruction writes memory. -/
def isVStore (e : VEntry) : Bool :=
  match e.instr with
  | .vst _ _ _ => true
  | .vsts _ _ _ _ _ => true
  | .vscat _ _ _ _ _ => true
  | _ => false

/-- A line with the n bytes from an offset replaced. -/
def bytesPut (line off n v : Nat) : Nat :=
  let old := line / 256 ^ off % 256 ^ n
  line - old * 256 ^ off + v % 256 ^ n * 256 ^ off

/-- A part of a line is loaded: the line, the address of the first failed byte, and the state. -/
def loadPart (c : CtxId) (n : Nat) (r : Nat × Option Word × State) (e : Nat × Word × Loc) (pc : Word) (order : Nat) : Nat × Option Word × State :=
  let s := revokeAt c e.2.2 n false r.2.2
  let t := loadAt c e.2.2 n s
  let s := if t.2.2.1 then raiseDeferred c cFARGONE pc e.2.1 order t.2.2.2 else t.2.2.2
  (bytesPut r.1 e.1 n (if t.2.1 then 0 else t.1), if t.2.1 then some (r.2.1.getD e.2.1) else r.2.1, s)

/-- The parts are loaded into the d line; a poisoned response leaves zeros and raises a deferred POISON. -/
def runLoad (c : CtxId) (e : VEntry) (s : State) : State :=
  let r := e.elems.foldl (fun r p => loadPart c e.psize r p e.pc e.order) ((s.core c.core).spadLine e.d, none, s)
  let s := r.2.2.setCore c.core ((r.2.2.core c.core).setSpadLine e.d r.1)
  match r.2.1 with
  | some va => raiseDeferred c cPOISON e.pc va e.order s
  | none => s

/-- The parts of the d line are stored, in ascending order, and each that fails is a failed store (R178). [log DESIGN CHOICE 77] -/
def runStore (c : CtxId) (e : VEntry) (s : State) : State :=
  let n := e.psize
  let line := (s.core c.core).spadLine e.d
  e.elems.foldl (fun s p => storeAt c e.pc p.2.1 e.order p.2.2 n (line / 256 ^ p.1 % 256 ^ n) (revokeAt c p.2.2 n true s)) s

end Sys2Proof.Machine
end

