-- ==== Sys2Proof/Machine/EvPipe.lean ====
section
/-!
DEFINITION. What comes about in a context and in its core's vector unit by itself: results, their traps, and the binding of vector passes (R44, R75, R76, R103, R110, R149, R155, R163–R168, R178, R190, R254).
-/

namespace Sys2Proof.Machine

open Sys2Proof

/-! ### Results (R44, R103) -/

/-- FIXED_RESULT_VISIBLE: a result in flight that is due, and next of its context's, becomes visible (R44). -/
def execFixedResultVisible (core ctx : Nat) (s : State) : Out :=
  let c : CtxId := ⟨core, ctx⟩
  match (s.ctx c).nextDue s.cycle with
  | some (.inl e) => .next (showFixed c e s)
  | _ => .next s

/-- VARIABLE_RESULT_WRITE: a variable-latency result that is due, and next of its context's, is written (R103). -/
def execVariableResultWrite (core ctx : Nat) (s : State) : Out :=
  let c : CtxId := ⟨core, ctx⟩
  match (s.ctx c).nextDue s.cycle with
  | some (.inr e) => .next (showVar c e s)
  | _ => .next s

/-! ### Traps -/

/-- FPEXC_TRAP: the flags of an FPU instruction are known, they accrue, and it traps (R76, R110). [log DEDUCED 20] -/
def execFpexcTrap (core ctx : Nat) (s : State) : Out :=
  let c : CtxId := ⟨core, ctx⟩
  match (s.ctx c).fpHold with
  | some h =>
    if (s.ctx c).live ∧ h.due ≤ s.cycle ∧ coreRuns s core then
      let s := settle { s with cur := c } c
      let x := s.me
      .next (takeTrap (.mk' cFPEXC (zext (h.flags &&& 0x1F))) x.pc
        (s.setMe { x with fpHold := none, fflags := x.fflags ||| h.flags }))
    else .next s
  | none => .next s

/-- DEFERRED_TRAP: the oldest deferred trap is taken at the context's issue point (R149, R155). -/
def execDeferredTrap (core ctx : Nat) (s : State) : Out :=
  let c : CtxId := ⟨core, ctx⟩
  let x := s.ctx c
  if canIssue s c ∧ inTime s c ∧ x.defDepth = 0 ∧ !x.arrived ∧ !x.killReq then
    match oldestDeferred x.deferred with
    | some d => .next (takeDeferred d (select c s))
    | none => .next s
  else .next s

/-! ### The vector unit -/

/-- The cycle in which a queue head that is bound now completes: its lane group has done its passes (R75, R164). [log DEDUCED 9] -/
def doneAt (s : State) (e : VEntry) : Nat := s.cycle + 5 * frames e.slip e.passes

/-- The lines and the masks that an instruction writes are written; its flags accrue when it completes. -/
def putVRes (c : CtxId) (due : Nat) (r : VRes) (s : State) : State :=
  let k := r.lines.foldl (fun k e => k.setSpadLine e.1 e.2) (s.core c.core)
  let x := k.ctx c.ctx
  accrueAt c due r.flags (s.setCore c.core (k.setCtx c.ctx { x with
    m := r.masks.foldl (fun m e => m.setIfInBounds e.1 e.2) x.m }))

/-- The first of two results. -/
def orRes (a b : Option VRes) : Option VRes :=
  match a with
  | some r => some r
  | none => b

/-- What an instruction of the queue that is no VMEM writes. -/
def vecRes (x : Ctx) (k : Core) (e : VEntry) : Option VRes :=
  orRes (vintRun x k e) (orRes (vfltRun x k e) (orRes (vlogRun x k e) (vxfRun x k e)))

/-- An access of a queued instruction to n bytes of the scratchpad waits for an operation of the core that issued before it: a queued vector instruction on
their line, or a copy into the local window (R167, R279). -/
def spadWaits (k : Core) (e : VEntry) (lo n : Nat) : Bool :=
  k.ctxs.toList.any (fun x => x.vq.any (fun v => decide (v.seq < e.seq) &&
      (v.wr ++ v.rd).any (fun l => decide (512 * l < lo + n) && decide (lo < 512 * l + 512))) ||
    x.ranges.any (fun r => decide (r.seq < e.seq) && decide (r.lo < lo + n) && decide (lo ≤ r.hi)))

/-- A queue head runs: its result, its appends or its accesses; none where one of its appends has to wait. [log DEDUCED 9] -/
def runEntry (c : CtxId) (e : VEntry) (s : State) : Option State :=
  match vecRes (s.ctx c) (s.core c.core) e with
  | some r =>
    match appendAll c e.xctx e.pc e.order (accrueAt c (doneAt s e) fOL) (vecOutliers (s.core c.core) e) s (spadWaits (s.core c.core) e) with
    | .wait => none
    | .ok n t => some (putVRes c (doneAt s e) { r with flags := r.flags ||| (if n = 0 then 0 else fOL) } t)
    | .fail cause va t => some (raiseDeferred c cause e.pc va e.order (putVRes c (doneAt s e) r t))
  | none => some (if isVStore e then runStore c e s else runLoad c e s)

/-- Two lists of lines have one in common. -/
def sharesLine (a b : List Nat) : Bool := a.any (fun l => b.contains l)

/-- An entry has to wait for an operation that issued before it: a queued one of the core, or a copy into the local window (R167). [log DEDUCED 9] -/
def lineWaits (k : Core) (e : VEntry) : Bool :=
  k.ctxs.toList.any (fun x => x.vq.any (fun v => decide (v.seq < e.seq) &&
      (sharesLine v.wr (e.rd ++ e.wr) || sharesLine v.rd e.wr)) ||
    x.ranges.any (fun r => decide (r.seq < e.seq) &&
      (e.rd ++ e.wr).any (fun l => decide (512 * l ≤ r.hi) && decide (r.lo < 512 * l + 512))))

/-- A queue head may run now, and the state after it. -/
def headRuns (s : State) (c : CtxId) : Option (VEntry × State) :=
  match (s.ctx c).vq with
  | [] => none
  | e :: rest =>
    if lineWaits (s.core c.core) e ∨ !e.elems.all (fun p => accessReady c p.2.2 e.psize (isVStore e) s) then none
    else
      let x := s.ctx c
      (runEntry c e (s.setCtx c { x with vq := rest })).map (fun t => (e, t))

/-- A queue head that waits has arrived with each of its accesses: it revokes the tenures against them whose lease has run out, and asks the peers for their
copies (R325, R438). -/
def askHead (c : CtxId) (s : State) : State :=
  match (s.ctx c).vq with
  | [] => s
  | e :: _ => if lineWaits (s.core c.core) e then s
    else e.elems.foldl (fun s p => askFor c p.2.2 e.psize (isVStore e) (revokeAt c p.2.2 e.psize (isVStore e) s)) s

/-- The contexts in the arbiter's order. -/
def arbiterOrder (k : Core) : List Nat := (List.range 11).map (fun i => (k.vserved + 1 + i) % 11)

/-- One lane group looks for a head to bind (R165). -/
def bindLane (core lane : Nat) (order : List Nat) (s : State) : State :=
  match order with
  | [] => s
  | i :: rest =>
    let c : CtxId := ⟨core, i⟩
    match headRuns s c with
    | none => bindLane core lane rest (askHead c s)
    | some (e, t) =>
      let x := s.ctx c
      let credit := if x.deficit < e.passes then x.deficit + x.vshare.toNat else x.deficit
      if credit < e.passes then bindLane core lane rest (s.setCtx c { x with deficit := credit })
      else
        let y := t.ctx c
        let t := t.setCtx c { y with deficit := if y.vq.isEmpty then 0 else credit - e.passes }
        let t := t.setCore core { takeLane lane s.cycle (frames e.slip e.passes) (t.core core) with vserved := i }
        if (t.core core).lve then
          let t := pulse core 3 t
          t.setCore core (strRaise (s.core core) (t.core core))
        else t

/-- The vector unit of a core works: its partition has not been saved, and is not being restored. -/
def vecMoves (s : State) (core : Nat) : Bool :=
  let p := (s.part (s.partOfRank (rankOf core))).state
  p == 1 || p == 2 || p == 5

/-- VECTOR_PASS_BIND: at the start of a frame each free lane group, in order, gets a queue head (R165). [log DEDUCED 9] -/
def execVectorPassBind (core : Nat) (s : State) : Out :=
  if s.cycle % 5 = 0 ∧ vecMoves s core then
    .next ((List.range 4).foldl (fun s lane =>
      if ((s.core core).lanes[lane]?.getD 0) ≤ s.cycle then bindLane core lane (arbiterOrder (s.core core)) s else s) s)
  else .next s

end Sys2Proof.Machine
end

