-- ==== Sys2Proof/Machine/Fpu.lean ====
section
/-!
DEFINITION. The scalar FPU, major 0x0C (R109–R118).
-/

namespace Sys2Proof.Machine

open Sys2Proof

/-- The context's next issue comes no earlier than a cycle. -/
def holdUntil (t : Nat) (s : State) : State := s.setMe { s.me with nextIssue := max s.me.nextIssue t }

/-- The end of a scalar FPU instruction with its result and flags (R75, R76, R110). While cr.frm.TE is zero the result is
produced with its latency. Otherwise the context waits until the flags are known, and an enabled one makes the instruction
wait for its trap instead, whose handler W spaces as it spaces the next instruction (R44). [log DEDUCED 20] -/
def fpuEnd (lat : Nat) (interlocked : Bool) (w : BitVec 3) (rs : List Reg) (d : Reg) (r : Word × BitVec 8) (s : State) : Out :=
  if s.me.fpTraps r.2 then
    .next { slotTaken (spaced w (s.setMe { s.me with fpHold := some ⟨s.cycle + lat, r.2⟩ })) with note := .trapped }
  else
    let t := s.cycle + lat
    let waits := s.me.te ≠ 0
    let s := finish w rs (if interlocked then produceFpuLater lat d r.1 r.2 s else produceFpu lat d r.1 r.2 s)
    .next (if waits then holdUntil t s else s)

/-- A scalar FPU instruction on the sources given: cr.frm is read at issue (R109). -/
def fpu (lat : Nat) (interlocked : Bool) (rs : List Reg) (f : Ctx → List Word → Word × BitVec 8) (d : Reg) (w : BitVec 3)
    (s : State) : Out :=
  issueThen rs [d] s (fun s => destThen d s (fun s => fpuEnd lat interlocked w rs d (f s.me (s.srcs rs)) s))

/-- The n-th operand as a number. -/
def opd (l : List Word) (i : Nat) : Nat := (l[i]?.getD 0).toNat

/-- A float result, zero-extended (R109). -/
def fres (r : Nat × BitVec 8) : Word × BitVec 8 := (BitVec.ofNat 64 r.1, r.2)

/-- A compare result. -/
def bres (r : Bool × BitVec 8) : Word × BitVec 8 := (ofBool r.1, r.2)

/-- An integer result. -/
def ires (r : Int × BitVec 8) : Word × BitVec 8 := (BitVec.ofInt 64 r.1, r.2)

/-- FADD (R112). -/
def execFadd (d a b : Reg) (w : BitVec 3) (s : State) : Out :=
  fpu 4 false [a, b] (fun x l => fres (f32.add x.rm (opd l 0) (opd l 1))) d w s

/-- FSUB (R112). -/
def execFsub (d a b : Reg) (w : BitVec 3) (s : State) : Out :=
  fpu 4 false [a, b] (fun x l => fres (f32.sub x.rm (opd l 0) (opd l 1))) d w s

/-- FMUL (R112). -/
def execFmul (d a b : Reg) (w : BitVec 3) (s : State) : Out :=
  fpu 4 false [a, b] (fun x l => fres (f32.mul x.rm (opd l 0) (opd l 1))) d w s

/-- FMA (R112). -/
def execFma (d a b : Reg) (w : BitVec 3) (s : State) : Out :=
  fpu 4 false [a, b, d] (fun x l => fres (f32.fma x.rm false (opd l 0) (opd l 1) (opd l 2))) d w s

/-- FNMA (R112). -/
def execFnma (d a b : Reg) (w : BitVec 3) (s : State) : Out :=
  fpu 4 false [a, b, d] (fun x l => fres (f32.fma x.rm true (opd l 0) (opd l 1) (opd l 2))) d w s

/-- FDIV (R103, R112). -/
def execFdiv (d a b : Reg) (w : BitVec 3) (s : State) : Out :=
  fpu 14 true [a, b] (fun x l => fres (f32.div x.rm (opd l 0) (opd l 1))) d w s

/-- FSQRT (R103, R112). -/
def execFsqrt (d a : Reg) (w : BitVec 3) (s : State) : Out :=
  fpu 16 true [a] (fun x l => fres (f32.sqrt x.rm (opd l 0))) d w s

/-- FMIN (R113). -/
def execFmin (d a b : Reg) (w : BitVec 3) (s : State) : Out :=
  fpu 4 false [a, b] (fun _ l => fres (f32.minMax false (opd l 0) (opd l 1))) d w s

/-- FMAX (R113). -/
def execFmax (d a b : Reg) (w : BitVec 3) (s : State) : Out :=
  fpu 4 false [a, b] (fun _ l => fres (f32.minMax true (opd l 0) (opd l 1))) d w s

/-- FEQ (R114). -/
def execFeq (d a b : Reg) (w : BitVec 3) (s : State) : Out :=
  fpu 4 false [a, b] (fun _ l => bres (f32.feq (opd l 0) (opd l 1))) d w s

/-- FLT (R114). -/
def execFlt (d a b : Reg) (w : BitVec 3) (s : State) : Out :=
  fpu 4 false [a, b] (fun _ l => bres (f32.flt (opd l 0) (opd l 1))) d w s

/-- FLE (R114). -/
def execFle (d a b : Reg) (w : BitVec 3) (s : State) : Out :=
  fpu 4 false [a, b] (fun _ l => bres (f32.fle (opd l 0) (opd l 1))) d w s

/-- FCLASS (R115). -/
def execFclass (d a : Reg) (w : BitVec 3) (s : State) : Out :=
  fpu 4 false [a] (fun _ l => (BitVec.ofNat 64 (fclass (opd l 0)), 0)) d w s

/-- FABS (R116). -/
def execFabs (d a : Reg) (w : BitVec 3) (s : State) : Out :=
  fpu 4 false [a] (fun _ l => (BitVec.ofNat 64 (opd l 0 % 2 ^ 31), 0)) d w s

/-- FNEG (R116). -/
def execFneg (d a : Reg) (w : BitVec 3) (s : State) : Out :=
  fpu 4 false [a] (fun _ l => (BitVec.ofNat 64 ((opd l 0 % 2 ^ 32) ^^^ 2 ^ 31), 0)) d w s

/-- CVT.F32.I64 (R117). -/
def execCvtF32I64 (d a : Reg) (w : BitVec 3) (s : State) : Out :=
  fpu 4 false [a] (fun x l => fres (f32.ofInt x.rm false (l[0]?.getD 0).toInt)) d w s

/-- CVT.I64.F32 (R117). -/
def execCvtI64F32 (d a : Reg) (w : BitVec 3) (s : State) : Out :=
  fpu 4 false [a] (fun x l => ires (f32.toInt x.rm (-2 ^ 63) (2 ^ 63 - 1) (opd l 0))) d w s

/-- CVT.F32.N64 (R117). -/
def execCvtF32N64 (d a : Reg) (w : BitVec 3) (s : State) : Out :=
  fpu 4 false [a] (fun x l => fres (f32.ofInt x.rm false (opd l 0))) d w s

/-- CVT.N64.F32 (R117). -/
def execCvtN64F32 (d a : Reg) (w : BitVec 3) (s : State) : Out :=
  fpu 4 false [a] (fun x l => ires (f32.toInt x.rm 0 (2 ^ 64 - 1) (opd l 0))) d w s

/-- CVT.BF16.F32 (R117). -/
def execCvtBf16F32 (d a : Reg) (w : BitVec 3) (s : State) : Out :=
  fpu 4 false [a] (fun x l => fres (f32.convert bf16 x.rm false (opd l 0))) d w s

/-- CVT.F32.BF16 (R117). -/
def execCvtF32Bf16 (d a : Reg) (w : BitVec 3) (s : State) : Out :=
  fpu 4 false [a] (fun _ l => fres (bf16.convert f32 0 false (opd l 0))) d w s

/-- CVT.E4M3.F32 (R117). -/
def execCvtE4m3F32 (d a : Reg) (w : BitVec 3) (s : State) : Out :=
  fpu 4 false [a] (fun x l => fres (f32.convert e4m3 x.rm x.fs (opd l 0))) d w s

/-- CVT.F32.E4M3 (R117). -/
def execCvtF32E4m3 (d a : Reg) (w : BitVec 3) (s : State) : Out :=
  fpu 4 false [a] (fun _ l => fres (e4m3.convert f32 0 false (opd l 0))) d w s

/-- CVT.E5M2.F32 (R117). -/
def execCvtE5m2F32 (d a : Reg) (w : BitVec 3) (s : State) : Out :=
  fpu 4 false [a] (fun x l => fres (f32.convert e5m2 x.rm x.fs (opd l 0))) d w s

/-- CVT.F32.E5M2 (R117). -/
def execCvtF32E5m2 (d a : Reg) (w : BitVec 3) (s : State) : Out :=
  fpu 4 false [a] (fun _ l => fres (e5m2.convert f32 0 false (opd l 0))) d w s

/-- FRND (R118). -/
def execFrnd (d a : Reg) (w : BitVec 3) (s : State) : Out :=
  fpu 4 false [a] (fun x l => fres (frnd x.rm (opd l 0))) d w s

end Sys2Proof.Machine
end

