-- ==== Sys2Proof/Machine/Imm.lean ====
section
/-!
DEFINITION. The immediate forms, shifts by an immediate, LUI, ADR and the bit-field instructions (R105–R108).
-/

namespace Sys2Proof.Machine

open Sys2Proof

/-- ADDI (R105). -/
def execAddi (d a : Reg) (i : BitVec 13) (w : BitVec 3) (s : State) : Out :=
  alu1 1 (fun x => x + sext i) d a w s

/-- ANDI (R105). -/
def execAndi (d a : Reg) (i : BitVec 13) (w : BitVec 3) (s : State) : Out :=
  alu1 1 (fun x => x &&& sext i) d a w s

/-- ORI (R105). -/
def execOri (d a : Reg) (i : BitVec 13) (w : BitVec 3) (s : State) : Out :=
  alu1 1 (fun x => x ||| sext i) d a w s

/-- XORI (R105). -/
def execXori (d a : Reg) (i : BitVec 13) (w : BitVec 3) (s : State) : Out :=
  alu1 1 (fun x => x ^^^ sext i) d a w s

/-- SLTI (R105). -/
def execSlti (d a : Reg) (i : BitVec 13) (w : BitVec 3) (s : State) : Out :=
  alu1 1 (fun x => ofBool (x.slt (sext i))) d a w s

/-- SLTIU (R105). -/
def execSltiu (d a : Reg) (i : BitVec 13) (w : BitVec 3) (s : State) : Out :=
  alu1 1 (fun x => ofBool (x.ult (sext i))) d a w s

/-- SHLI (R106). -/
def execShli (d a : Reg) (n : BitVec 6) (w : BitVec 3) (s : State) : Out :=
  alu1 1 (fun x => x <<< n.toNat) d a w s

/-- SHRI (R106). -/
def execShri (d a : Reg) (n : BitVec 6) (w : BitVec 3) (s : State) : Out :=
  alu1 1 (fun x => x >>> n.toNat) d a w s

/-- SARI (R106). -/
def execSari (d a : Reg) (n : BitVec 6) (w : BitVec 3) (s : State) : Out :=
  alu1 1 (fun x => x.sshiftRight n.toNat) d a w s

/-- ROLI (R106). -/
def execRoli (d a : Reg) (n : BitVec 6) (w : BitVec 3) (s : State) : Out :=
  alu1 1 (fun x => x.rotateLeft n.toNat) d a w s

/-- An instruction without sources, with one result of latency 1. -/
def alu0 (f : State → Word) (d : Reg) (w : BitVec 3) (s : State) : Out :=
  issueThen [] [d] s (fun s => destThen d s (fun s => .next (finish w [] (produce 1 d (f s) 0 s))))

/-- LUI (R107). -/
def execLui (d : Reg) (i : BitVec 18) (w : BitVec 3) (s : State) : Out :=
  alu0 (fun _ => sext i <<< 13) d w s

/-- ADR (R107). -/
def execAdr (d : Reg) (i : BitVec 18) (w : BitVec 3) (s : State) : Out :=
  alu0 (fun s => s.me.pc + sext i * 4) d w s

/-- The low n bits of a word. -/
def lowBits (n : Nat) (x : Word) : Word := x &&& (BitVec.allOnes 64 >>> (64 - n))

/-- The bits pos to pos + len − 1 of a word, zero-extended. -/
def fieldU (p : BitVec 6) (l : BitVec 5) (x : Word) : Word := lowBits (l.toNat + 1) (x >>> p.toNat)

/-- The bits pos to pos + len − 1 of a word, sign-extended. -/
def fieldS (p : BitVec 6) (l : BitVec 5) (x : Word) : Word :=
  ((x >>> p.toNat) <<< (63 - l.toNat)).sshiftRight (63 - l.toNat)

/-- A word with the bits pos to pos + len − 1 replaced by the low bits of another. -/
def fieldIns (p : BitVec 6) (l : BitVec 5) (x v : Word) : Word :=
  let m := (lowBits (l.toNat + 1) (BitVec.allOnes 64)) <<< p.toNat
  (v &&& ~~~m) ||| ((x <<< p.toNat) &&& m)

/-- EXTU (R108). -/
def execExtu (d a : Reg) (p : BitVec 6) (l : BitVec 5) (w : BitVec 3) (s : State) : Out :=
  alu1 1 (fieldU p l) d a w s

/-- EXTS (R108). -/
def execExts (d a : Reg) (p : BitVec 6) (l : BitVec 5) (w : BitVec 3) (s : State) : Out :=
  alu1 1 (fieldS p l) d a w s

/-- INS (R108). -/
def execIns (d a : Reg) (p : BitVec 6) (l : BitVec 5) (w : BitVec 3) (s : State) : Out :=
  issueThen [a, d] [d] s (fun s => destThen d s (fun s =>
    .next (finish w [a, d] (produce 1 d (fieldIns p l (s.rdA a) (s.rdB a d)) 0 s))))

end Sys2Proof.Machine
end

