-- ==== Sys2Proof/Machine/Lptr.lean ====
section
/-!
DEFINITION. The LPTR major and PADDI: arithmetic on line pointers (R169).
-/

namespace Sys2Proof.Machine

open Sys2Proof

/-- A line pointer (R93). -/
def Ctx.ptr (x : Ctx) (r : Reg) : BitVec 16 := x.p[r.toNat]?.getD 0

/-- A line pointer written (R169). -/
def setPtr (d : Reg) (v : BitVec 16) (s : State) : State := s.setMe { s.me with p := s.me.p.setIfInBounds d.toNat v }

/-- PSET (R169). -/
def execPset (d a : Reg) (w : BitVec 3) (s : State) : Out :=
  issueThen [a] [] s (fun s => .next (finish w [a] (setPtr d ((s.rdA a).setWidth 16) s)))

/-- PGET (R169). -/
def execPget (d a : Reg) (w : BitVec 3) (s : State) : Out :=
  issueThen [] [d] s (fun s => destThen d s (fun s => .next (finish w [] (produce 1 d (zext (s.me.ptr a)) 0 s))))

/-- PADD (R169). -/
def execPadd (d a b : Reg) (w : BitVec 3) (s : State) : Out :=
  issueThen [b] [] s (fun s => .next (finish w [b] (setPtr d (s.me.ptr a + (s.rdA b).setWidth 16) s)))

/-- PADDI (R169). -/
def execPaddi (d a : Reg) (i : BitVec 13) (w : BitVec 3) (s : State) : Out :=
  issueThen [] [] s (fun s => .next (finish w [] (setPtr d (s.me.ptr a + i.signExtend 16) s)))

end Sys2Proof.Machine
end

