-- ==== Sys2Proof/Machine/Troupe.lean ====
section
/-!
DEFINITION. Troupes: the TROUPE major, the forwarded stream at a follower, and the limits of TR.FORM and TR.REJOIN (R265–R271).
-/

namespace Sys2Proof.Machine

open Sys2Proof

/-- The clusters mates that a mask of local core numbers names, by global number. -/
def maskCores (core : Nat) (m : BitVec 16) : List Nat :=
  ((List.range 16).filter (fun i => m.getLsbD i)).map (fun i => 16 * rankOf core + i)

/-- A core's partition runs, and the core and its cluster are not halted. -/
def coreMoves (s : State) (core : Nat) : Bool :=
  partRuns s core && !(s.core core).halted && !(s.cluster (rankOf core)).halted

/-- A wait since a cycle has reached the limit of cr.trwait (R266). -/
def overLimit (s : State) (core since : Nat) : Bool :=
  (s.core core).trwait != 0 && decide (since + (s.core core).trwait.toNat ≤ s.cycle)

/-! ### TR.FORM (R266) -/

/-- Two cores run the same group. -/
def sameGroup (s : State) (a b : Nat) : Bool :=
  match (s.core a).group, (s.core b).group with
  | some g, some h => g.part == h.part && g.launch == h.launch && g.index == h.index && g.first == h.first
  | _, _ => false

/-- A mask that a troupe may be formed of. -/
def maskOk (s : State) (v : Word) : Bool :=
  v.extractLsb' 16 48 == 0 && decide (2 ≤ (maskCores s.cur.core (v.setWidth 16)).length) && v.getLsbD (s.cur.core % 16) &&
    (maskCores s.cur.core (v.setWidth 16)).all (sameGroup s s.cur.core)

/-- A core's ctx0 stands in a TR.FORM of a mask, within its limit. -/
def hasFormed (s : State) (m : BitVec 16) (core : Nat) : Bool :=
  match ((s.core core).ctx 0).wait with
  | .trForm n since _ _ _ => n == m && !overLimit s core since
  | _ => false

/-- The executing context gets a result: at once, or for a port as soon as the send before it has been accepted (R95). -/
def deliverNext (d : Reg) (v : Word) (s : State) : State :=
  if s.me.mayProduce d then deliver d v s else produceLater 0 d v 0 s

/-- A core's waiting TR.FORM completes with a result. -/
def endForm (v : Word) (s : State) (core : Nat) : State :=
  match ((s.core core).ctx 0).wait with
  | .trForm _ _ d a w => asCtx ⟨core, 0⟩ (fun s => finish w [a] (deliverNext d v s)) s
  | _ => s

/-- The troupe of a mask forms: its lowest core leads. -/
def formTroupe (rank : Nat) (m : BitVec 16) (s : State) : State :=
  let c := s.cluster rank
  let lead := ((List.range 16).find? (fun i => m.getLsbD i)).getD 0
  s.setCluster rank { c with troupes := c.troupes ++ [⟨m, lead, 0⟩] }

/-- The executing core waits in TR.FORM; with the last core of the mask the troupe forms and every member goes on. -/
def waitForm (m : BitVec 16) (s : State) : Out :=
  let all := maskCores s.cur.core m
  if all.all (hasFormed s m) then .next (formTroupe (rankOf s.cur.core) m (all.foldl (endForm 0) s)) else hold s

/-- TR.FORM (R266). -/
def execTrForm (d a : Reg) (w : BitVec 3) (s : State) : Out :=
  ctx0Then (layR 0x22 d a 0 0 w) s (fun s => issueThen [a] [d] s (fun s =>
    match s.me.wait with
    | .trForm m since _ _ _ =>
      if overLimit s s.cur.core since then .next (endForm 3 s s.cur.core) else waitForm m s
    | _ =>
      let v := s.rdA a
      if !maskOk s v then completeWith w [a] d 1 s
      else if (troupeOf s s.cur.core).isSome then completeWith w [a] d 2 s
      else destThen d s (fun s =>
        waitForm (v.setWidth 16) (s.setMe { s.me with wait := .trForm (v.setWidth 16) s.cycle d a w }))))

/-- TR_FORM_TIMEOUT: the limit has passed, and the member withdraws (R266). -/
def execTrFormTimeout (core : Nat) (s : State) : Out :=
  match ((s.core core).ctx 0).wait with
  | .trForm _ since _ _ _ => if coreMoves s core ∧ overLimit s core since then .next (endForm 3 s core) else .next s
  | _ => .next s

/-! ### TR.BREAK and TR.DETACH (R268, R270) -/

/-- A core leaves its troupe; a troupe reduced to its leader dissolves. -/
def leaveTroupe (core : Nat) (s : State) : State :=
  mapTroupe core (fun t =>
    let m := t.members &&& ~~~(1#16 <<< (core % 16))
    if m = 1#16 <<< t.leader then none else some { t with members := m, detached := t.detached &&& m }) s

/-- The executing core is a detached follower. -/
def amDetached (s : State) : Bool := (troupeOf s s.cur.core).any (fun t => t.detached.getLsbD (s.cur.core % 16))

/-- TR.BREAK (R270). [log DESIGN CHOICE 30] -/
def execTrBreak (w : BitVec 3) (s : State) : Out :=
  ctx0Then (layR 0x22 0 0 0 1 w) s (fun s => issueThen [] [] s (fun s =>
    if isLeader s s.cur.core then
      .next (finish w [] (mapTroupe s.cur.core (fun _ => none) (endStream (s.me.pc + 4) none false s)))
    else if amDetached s then .next (finish w [] (leaveTroupe s.cur.core s))
    else .next (finish w [] s)))

/-- TR.DETACH (R268). [log DESIGN CHOICE 30] -/
def execTrDetach (w : BitVec 3) (s : State) : Out :=
  ctx0Then (layR 0x22 0 0 0 2 w) s (fun s => issueThen [] [] s (fun s =>
    if s.me.fwd.isSome then .next (detach s.cur.core (finish w [] s)) else .next (finish w [] s)))

/-! ### TR.REJOIN (R269) -/

/-- A core's ctx0 stands in a TR.REJOIN. -/
def hasRejoined (s : State) (core : Nat) : Bool :=
  match ((s.core core).ctx 0).wait with
  | .trRejoin _ _ => true
  | _ => false

/-- A detached member is taken back: its TR.REJOIN completes, and it goes on after the leader's. -/
def reattach (pc : Word) (s : State) (core : Nat) : State :=
  match ((s.core core).ctx 0).wait with
  | .trRejoin _ w =>
    let s := mapTroupe core (fun t => some { t with detached := t.detached &&& ~~~(1#16 <<< (core % 16)) }) s
    asCtx ⟨core, 0⟩ (fun s => retireAt w (fun x => { x with pc := pc, enter := false }) s) s
  | _ => s

/-- The detached members of a core's troupe. -/
def detachedCores (s : State) (core : Nat) : List Nat := (troupeOf s core).elim [] (fun t => maskCores core t.detached)

/-- The members that have come to the executing leader's TR.REJOIN are reattached. -/
def reattachAll (s : State) : State :=
  ((detachedCores s s.cur.core).filter (hasRejoined s)).foldl (reattach (s.me.pc + 4)) s

/-- The executing leader's limit has passed: TROUPEHANG, with the members that are still detached. -/
def hang (s : State) : State :=
  let t := reattachAll s
  takeTrap (.mk' cTROUPEHANG ((troupeOf t t.cur.core).elim 0 (fun u => zext u.detached))) t.me.pc t

/-- The leader's TR.REJOIN since a cycle. -/
def leaderRejoin (w : BitVec 3) (since : Nat) (s : State) : Out :=
  if (detachedCores s s.cur.core).all (hasRejoined s) then .next (finish w [] (reattachAll s))
  else if overLimit s s.cur.core since then .next (hang s)
  else hold (s.setMe { s.me with wait := .trRejoin since w })

/-- The cycle since which the executing context stands in its TR.REJOIN. -/
def rejoinSince (s : State) : Nat :=
  match s.me.wait with
  | .trRejoin since _ => since
  | _ => s.cycle

/-- TR.REJOIN (R269): a forwarded one, which an attached follower issues, is a no-op. -/
def execTrRejoin (w : BitVec 3) (s : State) : Out :=
  ctx0Then (layR 0x22 0 0 0 3 w) s (fun s => issueThen [] [] s (fun s =>
    if isLeader s s.cur.core then leaderRejoin w (rejoinSince s) s
    else if s.me.fwd.isNone ∧ amDetached s then hold (s.setMe { s.me with wait := .trRejoin (rejoinSince s) w })
    else .next (finish w [] s)))

/-- TROUPEHANG: the limit of a leader's TR.REJOIN has passed (R269). -/
def execTroupehang (core : Nat) (s : State) : Out :=
  match ((s.core core).ctx 0).wait with
  | .trRejoin since _ =>
    if coreMoves s core ∧ isLeader s core ∧ overLimit s core since ∧ !(detachedCores s core).all (hasRejoined s) then
      .next (asCtx ⟨core, 0⟩ hang s)
    else .next s
  | _ => .next s

/-! ### TR.STAT (R271) -/

/-- The role of a core in its troupe. -/
def roleOf (t : Troupe) (core : Nat) : Nat := if t.leader = core % 16 then 1 else if t.detached.getLsbD (core % 16) then 3 else 2

/-- The word of TR.STAT. -/
def troupeWord (s : State) (core : Nat) : Word :=
  match troupeOf s core with
  | none => 0
  | some t => BitVec.ofNat 64 (t.members.toNat + 2 ^ 16 * t.detached.toNat + 2 ^ 32 * (t.leader % 16) + 2 ^ 36 * roleOf t core)

/-- TR.STAT (R271). -/
def execTrStat (d : Reg) (w : BitVec 3) (s : State) : Out :=
  issueThen [] [d] s (fun s => completeWith w [] d (troupeWord s s.cur.core) s)

/-! ### FORWARDED_INSTRUCTION (R267, R268) -/

/-- FORWARDED_INSTRUCTION: the next entry of the stream reaches the follower's ctx0, which issues it; the last entry sets it
free (R267, R268, R270). [log DESIGN CHOICE 30] -/
def execForwardedInstruction (core : Nat) (s : State) : Out :=
  let k := s.core core
  let x := k.ctx 0
  match k.fwdBuf with
  | [] => .next s
  | e :: t =>
    if x.fwd.isSome ∨ !x.live ∨ !coreMoves s core then .next s
    else if e.last then
      .next (s.setCore core ({ k with fwdBuf := t }.setCtx 0 { x with pc := e.pc, frame := e.frame, enter := true }))
    else if s.cycle < e.at_ + 3 then .next s
    else
      let s := s.setCore core ({ k with fwdBuf := t }.setCtx 0 { x with pc := e.pc, frame := e.frame, fwd := some e })
      .next { s with agenda := .issue ⟨core, 0⟩ :: s.agenda }

end Sys2Proof.Machine
end

