-- ==== Sys2Proof/Machine/Sys.lean ====
section
/-!
DEFINITION. The SYS major: traps and the return from them, halts, time, the end of a group, counters and GANG (R143, R146, R152, R385).
-/

namespace Sys2Proof.Machine

open Sys2Proof

/-- A trap after the instruction: it counts as complete, cr.tpc is the next address (R146), and the handler's first instruction issues no
earlier than 1 + W cycles after it (R44). [log DEDUCED 16] -/
def trapAfter (cause : BitVec 6) (tval : Word) (w : BitVec 3) (s : State) : Out :=
  issueThen [] [] s (fun s =>
    let s := slotTaken (takeTrap (.mk' cause tval) (s.me.pc + 4) (s.setMe { s.me with icount := s.me.icount + 1 }))
    .next (s.setMe { s.me with nextIssue := s.cycle + 1 + w.toNat }))

/-- TRAP (R146). -/
def execTrap (k : BitVec 10) (w : BitVec 3) (s : State) : Out := trapAfter cTRAPINSTR (zext k) w s

/-- SYSC (R146). -/
def execSysc (w : BitVec 3) (s : State) : Out := trapAfter cSYSCALL 0 w s

/-- HCALL (R146). -/
def execHcall (w : BitVec 3) (s : State) : Out := trapAfter cHCALLTRAP 0 w s

/-- ERET (R152). -/
def execEret (w : BitVec 3) (s : State) : Out :=
  privThen 1 (layR 0x27 0 0 0 3 w) s (fun s => issueThen [] [] s (returnFrom w))

/-- The debug module of a core's cluster records why it halts (R295). [log DEDUCED 16] -/
def noteHalt (core : Nat) (cause : BitVec 3) (whole : Bool) (s : State) : State :=
  let c := s.cluster (rankOf core)
  s.setCluster (rankOf core) { c with halted := c.halted || whole, cause := cause, dcore := BitVec.ofNat 4 (core % 16) }

/-- BKPT: the trap, or a halt of the cluster where its debug module asks for that (R146, R295). [log DEDUCED 16] -/
def execBkpt (w : BitVec 3) (s : State) : Out :=
  if (s.cluster (rankOf s.cur.core)).dmctl.getLsbD 0 then
    issueThen [] [] s (fun s => .next (noteHalt s.cur.core 2 true (finish w [] s)))
  else trapAfter cBKPT 0 w s

/-- HALT (R146). [log DEDUCED 16] -/
def execHalt (w : BitVec 3) (s : State) : Out :=
  privThen 1 (layR 0x27 0 0 0 5 w) s (fun s => issueThen [] [] s (fun s =>
    let s := finish w [] s
    .next (noteHalt s.cur.core 3 false (s.setMine { s.mine with halted := true }))))

/-- Every earlier instruction of the executing context has completed (R146). [log DEDUCED 33] -/
def allDone (s : State) : Bool :=
  s.me.inflight.isEmpty && s.me.varRes.isEmpty && s.me.vq.isEmpty && s.me.vflags.isEmpty && s.me.ring.isEmpty && s.reqs.all (fun q => q.ctx != s.cur)

/-- TSREAD (R146, R407). -/
def execTsread (d : Reg) (w : BitVec 3) (s : State) : Out :=
  issueThen [] [d] s (fun s => if allDone s then completeWith w [] d (guestTime s s.cur.core) s else destThen d s hold)

/-- GEXIT: no helper lives, the engines are fenced, a release at .sys, and ctx0's part in the group ends (R143, R168, R327). A
detached follower leaves its troupe by it (R270). [log DEDUCED 32; DESIGN CHOICE 75] -/
def execGexit (w : BitVec 3) (s : State) : Out :=
  ctx0Then (layR 0x27 0 0 0 7 w) s (fun s => issueThen [] [] s (fun s =>
    if (List.range 10).any (fun i => (s.mine.ctx (i + 1)).live && !(s.mine.ctx (i + 1)).service) ∨ !s.me.vq.isEmpty then hold s
    else engineThen s (fun s => releaseThen (capped s.myPart 7) s (fun s =>
      let s := if amDetached s then leaveTroupe s.cur.core s else s
      let s := dropResults s.cur (dropTenures s.cur (finish w [] s))
      .next (coreEnds s.cur.core (s.setMe { s.me with live := false, inflight := [], varRes := [], frame := none }))))))

/-- The counter that CNTRD reads (R146). -/
def counterOf (s : State) (n : Nat) : Word :=
  let k := s.mine
  if n = 0 then BitVec.ofNat 64 (s.cycle - k.startAt)
  else if n = 1 then s.me.cntReady
  else if n = 2 then s.me.cntHeld
  else if n = 3 then k.cntMiss
  else if n = 4 then k.cntPush
  else if n = 5 then k.cntLane
  else if n = 6 then k.cntMatrix
  else if n = 7 then k.cntEngine
  else 0

/-- CNTRD (R146). -/
def execCntrd (d a : Reg) (w : BitVec 3) (s : State) : Out :=
  issueThen [a] [d] s (fun s => completeWith w [a] d (counterOf s (s.rdA a).toNat) s)

/-- GANG (R146, R385). -/
def execGang (w : BitVec 3) (s : State) : Out :=
  privThen 1 (layR 0x27 0 0 0 9 w) s (fun s => issueThen [] [] s (fun s => .next (curtainStop s.myPartNo 2 (finish w [] s))))

end Sys2Proof.Machine
end

