-- ==== Sys2Proof/Machine/Tile.lean ====
section
/-!
DEFINITION. The TILE major: tiles, handles and tenures, with the grants and revocations at the tile home (R31, R317–R328).
-/

namespace Sys2Proof.Machine

open Sys2Proof

/-! ### Handles (R318) -/

/-- The index that a handle names, where the handle is live. -/
def handleIdx (q : Part) (v : Word) : Option Nat :=
  if v.toNat < 2 ^ 32 then
    match q.tiles.find? (fun t => t.idx == v.toNat % 2 ^ 20) with
    | some t => if t.tile.isSome ∧ t.gen = v.toNat / 2 ^ 20 then some t.idx else none
    | none => none
  else none

/-- Go on with a live handle's index, else trap HANDLEDEAD. -/
def handleThen (v : Word) (s : State) (k : Nat → State → Out) : Out :=
  match handleIdx s.myPart v with
  | some i => k i s
  | none => trapAt cHANDLEDEAD v s

/-- The handle of an index in a generation. -/
def handleWord (i gen : Nat) : Word := BitVec.ofNat 64 (i + 2 ^ 20 * gen)

/-- An index may be taken. -/
def idxFree (q : Part) (i : Nat) : Bool :=
  match q.tiles.find? (fun t => t.idx == i) with
  | some t => t.tile.isNone && decide (t.gen < 4095)
  | none => true

/-- The first free index from one on, in ring order. [log DEDUCED 27] -/
def freeIdx (q : Part) (start : Nat) : Option Nat :=
  ((List.range (Nat.min (q.tiles.length + 1) (2 ^ 20))).map (fun i => (start + i) % 2 ^ 20)).find? (idxFree q)

/-- The generation that an index carries when it is taken. -/
def nextGen (q : Part) (i : Nat) : Nat :=
  match q.tiles.find? (fun t => t.idx == i) with
  | some t => t.gen + 1
  | none => 0

/-- An index is taken for a tile. [log DEDUCED 27] -/
def takeIdx (q : Part) (i : Nat) (t : Tile) : Part :=
  { q with tiles := q.tiles.filter (fun e => e.idx != i) ++ [⟨i, nextGen q i, some t⟩] }

/-- An index's tile is closed; what its lost tenures still have to tell stays (R318, R326). -/
def closeIdx (q : Part) (i : Nat) : Part :=
  { q with tiles := q.tiles.map (fun e => if e.idx = i then { e with tile := none } else e)
           tenures := q.tenures.map (fun t => if t.idx = i then { t with idx := 2 ^ 20 } else t) }

/-! ### TILE.OPEN (R31, R317) -/

/-- The negative statuses. -/
def stFootprint : Word := 0xFFFFFFFFFFFFFFFF
def stFull : Word := 0xFFFFFFFFFFFFFFFE
def stDesc : Word := 0xFFFFFFFFFFFFFFFD
def stXlate : Word := 0xFFFFFFFFFFFFFFFC
def stKind : Word := 0xFFFFFFFFFFFFFFFB

/-- The tile with a base, an element size, extents and pitches. -/
def mkTile (base esize : Nat) (ext pitch : List Nat) : Tile :=
  { base := base, min := base, esize := esize, ext := ext, pitch := pitch
    max := base + ((ext.tail.zip pitch).map (fun d => (d.1 - 1) * d.2)).sum + ext.head?.getD 0 * 2 ^ esize - 1 }

/-- A field of the 64-byte descriptor. -/
def tileField (desc off n : Nat) : Nat := desc / 256 ^ off % 256 ^ n

/-- The tile that a descriptor describes in virtual addresses, or none where it breaks R317. -/
def descTile (desc : Nat) : Option Tile :=
  let rank := tileField desc 9 1
  let esize := tileField desc 8 1
  let ext := fun k => tileField desc (16 + 4 * k) 4
  let pitch := fun k => tileField desc (24 + 8 * k) 8
  if rank = 0 ∨ 4 < rank ∨ 3 < esize ∨ tileField desc 10 6 ≠ 0 ∨ tileField desc 56 8 ≠ 0 ∨ tileField desc 0 8 % 2 ^ esize ≠ 0 ∨
      (List.range 4).any (fun k => if k < rank then ext k == 0 else ext k != 0) ∨
      (List.range 4).any (fun k => k != 0 && (if k < rank then pitch k == 0 else pitch k != 0)) then none
  else some (mkTile (tileField desc 0 8) esize ((List.range rank).map ext) ((List.range (rank - 1)).map (fun k => pitch (k + 1))))

/-- A tile moved from its virtual to its physical base. -/
def Tile.at_ (t : Tile) (pa : Nat) : Tile := { t with base := pa, min := pa, max := pa + (t.max - t.min) }

/-- The physical addresses of a tile follow its base's: where stage 2 maps the page of the base in smaller ones, they may not. The base alone is translated
as a load; what follows it is no access, of which the colours would be asked (R304, R317, R405). [log DEDUCED 27] -/
def placedWhole (s : State) (x : Xctx) (t : Tile) (e : TlbEntry) (pa : Nat) : Bool :=
  match checkLeaf x (BitVec.ofNat 64 t.base) needR e with
  | .error _ => false
  | .ok (ipa, _) => (List.range (t.max / 65536 - t.min / 65536)).all (fun k =>
    let off := (t.min / 65536 + k + 1) * 65536 - t.min
    ((stage2Using s x needR e.s2 (ipa + off)).map (fun r => r.1)) == some (pa + off))

/-- What TILE.OPEN gives for a tile in virtual addresses, and the state after it. -/
def openTile (t : Tile) (s : State) : Word × State :=
  let va := BitVec.ofNat 64 t.base
  let x := s.xctx s.cur
  if isLocal va ∨ isPeer va then (stKind, s)
  else if 2 ^ 64 ≤ t.max then (stDesc, s)
  else if (formCheck s.ptlen va).isSome then (stXlate, s)
  else
    match translated s x va needR with
    | .error _ => (stXlate, s)
    | .ok (l, e) =>
      let s := tlbFill x e s
      let size := pageSize l.large
      if t.max / size ≠ t.min / size ∨ !placedWhole s x t e l.pa then (stFootprint, s)
      else if l.kind = 2 ∨ !isDram l.pa then (stKind, s)
      else
        let r := draw s
        match freeIdx s.myPart (r.1.toNat % 2 ^ 20) with
        | none => (stFull, s)
        | some i =>
          let q := s.myPart
          (handleWord i (nextGen q i), r.2.setPart s.myPartNo (takeIdx q i (t.at_ l.pa)))

/-- TILE.OPEN (R317). -/
def execTileOpen (d a : Reg) (w : BitVec 3) (s : State) : Out :=
  issueThen [a] [d] s (fun s =>
    let v := s.rdA a
    failThen (if v.toNat % 64 ≠ 0 then some (.mk' cMISALIGN v) else none) s (fun s =>
      failThen (if spBytes s.mine.spsize < v.toNat + 64 then some (.mk' cLOCALRANGE v) else none) s (fun s => destThen d s (fun s =>
        if spadBusy s.mine v.toNat 64 false ∨ orderHolds s v 64 false then hold s
        else match descTile (readRange s.mine.spad v.toNat 64) with
          | none => .next (finish w [a] (deliver d stDesc s))
          | some t =>
            let r := openTile t s
            .next (finish w [a] (deliver d r.1 r.2))))))

/-! ### TILE.CLOSE and TILE.QRY (R319) -/

/-- A queued request is waited for by its context. -/
def TenReq.lives (s : State) (r : TenReq) : Bool :=
  match (s.ctx r.ctx).wait with
  | .tenure id _ _ => id == r.id
  | _ => false

/-- The tenures held on an index, and the requests that wait for it. -/
def heldOn (q : Part) (i : Nat) : List Tenure := q.tenures.filter (fun t => t.idx == i && !t.lost)
def waitingOn (s : State) (q : Part) (i : Nat) : List TenReq := q.tenReqs.filter (fun r => r.idx == i && r.lives s)

/-- TILE.CLOSE (R319). -/
def execTileClose (d a : Reg) (w : BitVec 3) (s : State) : Out :=
  issueThen [a] [d] s (fun s => handleThen (s.rdA a) s (fun i s => destThen d s (fun s =>
    if (heldOn s.myPart i).isEmpty ∧ (waitingOn s s.myPart i).isEmpty then
      .next (finish w [a] (deliver d 0 (s.setPart s.myPartNo (closeIdx s.myPart i))))
    else .next (finish w [a] (deliver d 1 s)))))

/-- The tenure of a context on an index, lost or not. -/
def myTenure (q : Part) (i : Nat) (c : CtxId) : Option Tenure := q.tenures.find? (fun t => t.idx == i && t.ctx == c)

/-- The word of TILE.QRY (R319). -/
def tileWord (s : State) (i : Nat) : Word :=
  let q := s.myPart
  let t := myTenure q i s.cur
  let own := t.elim 0 (fun t => if t.lost then 0 else if t.write then 2 else 1)
  let held := heldOn q i
  BitVec.ofNat 64 (own + (if t.any (fun t => t.lost) then 4 else 0) + (if held.any (fun t => t.write) then 8 else 0) +
    2 ^ 4 * Nat.min (held.filter (fun t => !t.write)).length 65535 + 2 ^ 20 * Nat.min (waitingOn s q i).length 65535 +
    2 ^ 36 * ((q.tile i).elim 0 (fun t => t.ext.length)))

/-- TILE.QRY (R319). -/
def execTileQry (d a : Reg) (w : BitVec 3) (s : State) : Out :=
  issueThen [a] [d] s (fun s => handleThen (s.rdA a) s (fun i s => completeWith w [a] d (tileWord s i) s))

/-! ### Grants (R321–R323) -/

/-- A tenure request and a tenure held conflict. -/
def tenureConflicts (c : CtxId) (write : Bool) (t : Tile) (h : Tenure × Tile) : Bool :=
  h.1.ctx != c && (write || h.1.write) && tilesOverlap t h.2

/-- A request that waits in some partition before one of a number, with its tile. -/
def waitingBefore (s : State) (id : Nat) : List (TenReq × Tile) :=
  s.parts.toList.flatMap (fun q => (q.tenReqs.filter (fun r => decide (r.id < id) && r.lives s)).filterMap (fun r =>
    (q.tile r.idx).map (fun t => (r, t))))

/-- A request of a number may be granted: it conflicts with no tenure held and no request queued before it (R322). [log DEDUCED 27] -/
def mayGrant (s : State) (c : CtxId) (id : Nat) (write : Bool) (t : Tile) : Bool :=
  (heldTenures s).all (fun h => !tenureConflicts c write t h) &&
    (waitingBefore s id).all (fun r => !(r.1.ctx != c && (write || r.1.write) && tilesOverlap t r.2))

/-- The lines of a tile that some L1 holds. -/
def cachedLines (s : State) (t : Tile) : List Nat :=
  (s.cores.flatMap (fun c => (c.2.l1.filter (fun e => t.touches e.line)).map (fun e => e.line))).eraseDups

/-- What a grant does to the tile's lines (R323). -/
def grantLines (t : Tile) (write : Bool) (s : State) : State :=
  (cachedLines s t).foldl (fun s line =>
    if write then invalidate (flushPushes s line) 0 line none else recallO s 0 line) s

/-- A tenure of a context begins, in place of what it held on the index; a lost one keeps what it has to tell. [log DEDUCED 27] -/
def grant (p i : Nat) (c : CtxId) (write : Bool) (t : Tile) (s : State) : State :=
  let s := acquireAt c (capped (s.part p) 5) (grantLines t write s)
  let q := s.part p
  let kept := (q.tenures.filter (fun e => !(e.idx == i && e.ctx == c && !e.lost))).map (fun e =>
    if e.idx = i ∧ e.ctx = c then { e with idx := 2 ^ 20 } else e)
  { s.setPart p { q with tenures := kept ++
      [⟨s.nextId, i, c, write, s.cycle, (s.core c.core).tenlease.toNat, false, false, t.loLine, t.hiLine⟩] } with
    nextId := s.nextId + 1 }

/-- The context holds what a request asks for (R320). -/
def holdsAlready (q : Part) (i : Nat) (c : CtxId) (write : Bool) : Bool :=
  (myTenure q i c).any (fun t => !t.lost && (t.write || !write))

/-- The tile of an index that is open. -/
def tileOf (q : Part) (i : Nat) : Tile := (q.tile i).getD ⟨0, 0, 0, 0, [], []⟩

/-! ### The tenure instructions (R320) -/

/-- TEN.R and TEN.W: granted at once, or queued until TENURE_GRANT. -/
def tenWait (write : Bool) (a : Reg) (w : BitVec 3) (s : State) : Out :=
  issueThen [a] [] s (fun s => handleThen (s.rdA a) s (fun i s =>
    match s.me.wait with
    | .tenure _ _ _ => hold s
    | _ =>
      let q := s.myPart
      if holdsAlready q i s.cur write then .next (finish w [a] s)
      else if mayGrant s s.cur s.nextId write (tileOf q i) then
        .next (finish w [a] (grant s.myPartNo i s.cur write (tileOf q i) s))
      else
        let r : TenReq := ⟨s.nextId, i, (s.rdA a).toNat / 2 ^ 20, s.cur, write⟩
        let s := { s.setPart s.myPartNo { q with tenReqs := q.tenReqs ++ [r] } with nextId := s.nextId + 1 }
        hold (s.setMe { s.me with wait := .tenure r.id a w })))

/-- TEN.R (R320). -/
def execTenR (a : Reg) (w : BitVec 3) (s : State) : Out := tenWait false a w s

/-- TEN.W (R320). -/
def execTenW (a : Reg) (w : BitVec 3) (s : State) : Out := tenWait true a w s

/-- TEN.TRYR and TEN.TRYW. -/
def tenTry (write : Bool) (d a : Reg) (w : BitVec 3) (s : State) : Out :=
  issueThen [a] [d] s (fun s => handleThen (s.rdA a) s (fun i s => destThen d s (fun s =>
    let q := s.myPart
    if holdsAlready q i s.cur write then .next (finish w [a] (deliver d 1 s))
    else if mayGrant s s.cur s.nextId write (tileOf q i) then
      .next (finish w [a] (deliver d 1 (grant s.myPartNo i s.cur write (tileOf q i) s)))
    else .next (finish w [a] (deliver d 0 s)))))

/-- TEN.TRYR (R320). -/
def execTenTryr (d a : Reg) (w : BitVec 3) (s : State) : Out := tenTry false d a w s

/-- TEN.TRYW (R320). -/
def execTenTryw (d a : Reg) (w : BitVec 3) (s : State) : Out := tenTry true d a w s

/-- What TEN.REL gives. -/
def relWord (t : Option Tenure) : Word := t.elim 2 (fun t => if t.lost then 1 else 0)

/-- TEN.REL (R320, R322, R326). -/
def execTenRel (d a : Reg) (w : BitVec 3) (s : State) : Out :=
  issueThen [a] [d] s (fun s => handleThen (s.rdA a) s (fun i s => destThen d s (fun s =>
    releaseThen (capped s.myPart 5) s (fun s =>
      let q := s.myPart
      let r := relWord (myTenure q i s.cur)
      .next (finish w [a] (deliver d r (s.setPart s.myPartNo { q with
        tenures := q.tenures.filter (fun t => !(t.idx == i && t.ctx == s.cur)) })))))))

/-- TEN.DOWN (R320, R322). -/
def execTenDown (a : Reg) (w : BitVec 3) (s : State) : Out :=
  issueThen [a] [] s (fun s => handleThen (s.rdA a) s (fun i s =>
    if (myTenure s.myPart i s.cur).any (fun t => t.write && !t.lost) then
      releaseThen (capped s.myPart 5) s (fun s =>
        .next (finish w [a] (s.setPart s.myPartNo { s.myPart with
          tenures := s.myPart.tenures.map (fun t => if t.idx = i ∧ t.ctx = s.cur then { t with write := false } else t) })))
    else .next (finish w [a] s)))

/-! ### TILE.SPLIT (R328) -/

/-- The children of a tile cut at c along dimension k. -/
def splitTile (t : Tile) (k c : Nat) : Tile × Tile :=
  let pitch := if k = 0 then 2 ^ t.esize else t.pitch[k - 1]?.getD 0
  (mkTile t.base t.esize (t.ext.set k c) t.pitch, mkTile (t.base + c * pitch) t.esize (t.ext.set k (t.ext[k]?.getD 0 - c)) t.pitch)

/-- A tenure of the parent, as a child's. -/
def childTenure (i id : Nat) (t : Tile) (e : Tenure) : Tenure := { e with id := id, idx := i, lo := t.loLine, hi := t.hiLine }

/-- The parent is closed, and its tenures pass to two children on two free indices. -/
def splitPart (q : Part) (i j0 j1 : Nat) (c : Tile × Tile) (nextId : Nat) : Part :=
  let mine := q.tenures.filter (fun t => t.idx == i)
  let t0 := mine.zipIdx.map (fun e => childTenure j0 (nextId + 2 * e.2) c.1 e.1)
  let t1 := mine.zipIdx.map (fun e => childTenure j1 (nextId + 2 * e.2 + 1) c.2 e.1)
  let q := takeIdx (takeIdx q j0 c.1) j1 c.2
  let q := closeIdx { q with tenures := q.tenures.filter (fun t => t.idx != i) } i
  { q with tenures := q.tenures ++ t0 ++ t1, tenReqs := q.tenReqs.filter (fun r => r.idx != i) }

/-- The cut that a split spec names on a tile, where it is good. -/
def splitCut (t : Tile) (v : Word) : Option (Nat × Nat) :=
  let k := v.toNat % 4
  let c := v.toNat / 2 ^ 8 % 2 ^ 32
  if v &&& 0xFFFFFF00000000FC = 0 ∧ k < t.ext.length ∧ 1 ≤ c ∧ c < t.ext[k]?.getD 0 then some (k, c) else none

/-- Both results of a split. -/
def deliver2 (d : Reg) (u v : Word) (s : State) : State := deliver (d + 1) v (deliver d u s)

/-- TILE.SPLIT (R328). -/
def execTileSplit (d a b : Reg) (w : BitVec 3) (s : State) : Out :=
  issueThen [a, b] [d, d + 1] s (fun s => handleThen (s.rdA a) s (fun i s =>
    let q := s.myPart
    let t := tileOf q i
    match splitCut t (s.rdB a b) with
    | none => .next (finish w [a, b] (deliver2 d stDesc stDesc s))
    | some (k, c) =>
      let r := draw s
      match freeIdx q (r.1.toNat % 2 ^ 20) with
      | none => .next (finish w [a, b] (deliver2 d stFull stFull s))
      | some j0 =>
        let r1 := draw r.2
        let c' := splitTile t k c
        match freeIdx (takeIdx q j0 c'.1) (r1.1.toNat % 2 ^ 20) with
        | none => .next (finish w [a, b] (deliver2 d stFull stFull s))
        | some j1 =>
          let n := (q.tenures.filter (fun t => t.idx == i)).length
          let s := r1.2.setPart s.myPartNo (splitPart q i j0 j1 c' s.nextId)
          .next (finish w [a, b] (deliver2 d (handleWord j0 (nextGen q j0)) (handleWord j1 (nextGen q j1))
            { s with nextId := s.nextId + 2 * n }))))

/-! ### TENURE_GRANT and LEASE_REVOKE (R322, R325) -/

/-- The queued request of a number, with its partition. -/
def findTenReq (s : State) (id : Nat) : Option (Nat × TenReq) :=
  (List.range 64).findSome? (fun p => ((s.part p).tenReqs.find? (fun r => r.id == id)).map (fun r => (p, r)))

/-- A request leaves its queue. -/
def dropTenReq (p id : Nat) (s : State) : State := s.setPart p { s.part p with tenReqs := (s.part p).tenReqs.filter (fun r => r.id != id) }

/-- TENURE_GRANT: a queued request is granted and its TEN.R or TEN.W completes (R322); one that nobody waits for any more leaves. -/
def execTenureGrant (request : Nat) (s : State) : Out :=
  match findTenReq s request with
  | none => .next s
  | some (p, r) =>
    match (s.ctx r.ctx).wait with
    | .tenure id a w =>
      if id ≠ r.id then .next (dropTenReq p request s)
      else match (s.part p).tile r.idx with
        | none => .next (dropTenReq p request s)
        | some t =>
          if (s.part p).state = 1 ∧ mayGrant s r.ctx r.id r.write t then
            .next (asCtx r.ctx (fun s => forwardIssued s.word false s (finish w [a] s)) (grant p r.idx r.ctx r.write t (dropTenReq p request s)))
          else .next s
    | _ => .next (dropTenReq p request s)

/-- A request that waits for a line conflicts with a tenure. -/
def waitsFor (s : State) (h : Tenure × Tile) (q : Req) : Bool :=
  !q.performed && (match q.loc with
    | .mem _ _ => (linesOf q.loc q.size).any (fun l => tenureAgainst s q.ctx l q.writes h)
    | _ => false)

/-- LEASE_REVOKE: the lease has run out, and an access waits (R325). -/
def execLeaseRevoke (tenure : Nat) (s : State) : Out :=
  match (heldTenures s).find? (fun h => h.1.id == tenure) with
  | none => .next s
  | some h => if h.1.expired s.cycle ∧ s.reqs.any (waitsFor s h) then .next (revoke h s) else .next s

end Sys2Proof.Machine
end

