-- ==== Sys2Proof/Machine/Vamo.lean ====
section
/-!
DEFINITION. The VAMO major: element adds of a quarter line at its home (R436).
-/

namespace Sys2Proof.Machine

open Sys2Proof

/-- VAMO of an element type (R436). [log DEDUCED 14] -/
def vamo (ty : BitVec 2) (a b : Reg) (w : BitVec 3) (s : State) : Out :=
  issueThen [a] [] s (fun s =>
    let addr := s.rdA a
    let l := s.me.lineNo b
    failThen (formCheck s.ptlen addr) s (fun s =>
      failThen (if addr.toNat % 128 ≠ 0 then some (.mk' cMISALIGN addr) else none) s (fun s =>
        failThen (if isLocal addr then some (.mk' cLOCALRANGE addr) else none) s (fun s =>
          failThen (lineCheck s.mine [l]) s (fun s =>
            let off := 512 * l + 128 * (addr.extractLsb' 7 2).toNat
            if spadBusy s.mine off 128 false ∨ orderHolds s (BitVec.ofNat 64 off) 128 false then hold s
            else preciseLoc addr 128 needRW s (fun loc s =>
              let data : BitVec 1024 := BitVec.ofNat 1024 (readRange s.mine.spad off 128)
              .next (finish w [a] (addReq (mkReq s addr loc 128 (.vamo ty data (vamoAll ty))) s))))))))

/-- VAMO.F32 (R436). -/
def execVamoF32 (a b : Reg) (w : BitVec 3) (s : State) : Out := vamo 0 a b w s

/-- VAMO.BF16 (R436). -/
def execVamoBf16 (a b : Reg) (w : BitVec 3) (s : State) : Out := vamo 1 a b w s

/-- VAMO.I32 (R436). -/
def execVamoI32 (a b : Reg) (w : BitVec 3) (s : State) : Out := vamo 2 a b w s

end Sys2Proof.Machine
end

