-- ==== Sys2Proof/Machine/Dispatch.lean ====
section
/-!
DEFINITION. One arm for each row of the opcode table, each a direct call of the row's meaning.
-/

namespace Sys2Proof.Machine

open Sys2Proof

def exec (i : Instr) (s : State) : Host.Outcome State Fault Refusal :=
  match i with
  | .add d a b w => Sys2Proof.Machine.execAdd d a b w s
  | .sub d a b w => Sys2Proof.Machine.execSub d a b w s
  | .and d a b w => Sys2Proof.Machine.execAnd d a b w s
  | .or d a b w => Sys2Proof.Machine.execOr d a b w s
  | .xor d a b w => Sys2Proof.Machine.execXor d a b w s
  | .andn d a b w => Sys2Proof.Machine.execAndn d a b w s
  | .shl d a b w => Sys2Proof.Machine.execShl d a b w s
  | .shr d a b w => Sys2Proof.Machine.execShr d a b w s
  | .sar d a b w => Sys2Proof.Machine.execSar d a b w s
  | .rol d a b w => Sys2Proof.Machine.execRol d a b w s
  | .ror d a b w => Sys2Proof.Machine.execRor d a b w s
  | .slt d a b w => Sys2Proof.Machine.execSlt d a b w s
  | .sltu d a b w => Sys2Proof.Machine.execSltu d a b w s
  | .seq d a b w => Sys2Proof.Machine.execSeq d a b w s
  | .min d a b w => Sys2Proof.Machine.execMin d a b w s
  | .max d a b w => Sys2Proof.Machine.execMax d a b w s
  | .minu d a b w => Sys2Proof.Machine.execMinu d a b w s
  | .maxu d a b w => Sys2Proof.Machine.execMaxu d a b w s
  | .mul d a b w => Sys2Proof.Machine.execMul d a b w s
  | .mulh d a b w => Sys2Proof.Machine.execMulh d a b w s
  | .mulhu d a b w => Sys2Proof.Machine.execMulhu d a b w s
  | .div d a b w => Sys2Proof.Machine.execDiv d a b w s
  | .divu d a b w => Sys2Proof.Machine.execDivu d a b w s
  | .rem d a b w => Sys2Proof.Machine.execRem d a b w s
  | .remu d a b w => Sys2Proof.Machine.execRemu d a b w s
  | .clz d a w => Sys2Proof.Machine.execClz d a w s
  | .ctz d a w => Sys2Proof.Machine.execCtz d a w s
  | .popc d a w => Sys2Proof.Machine.execPopc d a w s
  | .brev d a w => Sys2Proof.Machine.execBrev d a w s
  | .sextB d a w => Sys2Proof.Machine.execSextB d a w s
  | .sextH d a w => Sys2Proof.Machine.execSextH d a w s
  | .sextW d a w => Sys2Proof.Machine.execSextW d a w s
  | .zextW d a w => Sys2Proof.Machine.execZextW d a w s
  | .sel d a b w => Sys2Proof.Machine.execSel d a b w s
  | .addw d a b w => Sys2Proof.Machine.execAddw d a b w s
  | .subw d a b w => Sys2Proof.Machine.execSubw d a b w s
  | .mulw d a b w => Sys2Proof.Machine.execMulw d a b w s
  | .addi d a i_ w => Sys2Proof.Machine.execAddi d a i_ w s
  | .andi d a i_ w => Sys2Proof.Machine.execAndi d a i_ w s
  | .ori d a i_ w => Sys2Proof.Machine.execOri d a i_ w s
  | .xori d a i_ w => Sys2Proof.Machine.execXori d a i_ w s
  | .slti d a i_ w => Sys2Proof.Machine.execSlti d a i_ w s
  | .sltiu d a i_ w => Sys2Proof.Machine.execSltiu d a i_ w s
  | .shli d a n w => Sys2Proof.Machine.execShli d a n w s
  | .shri d a n w => Sys2Proof.Machine.execShri d a n w s
  | .sari d a n w => Sys2Proof.Machine.execSari d a n w s
  | .roli d a n w => Sys2Proof.Machine.execRoli d a n w s
  | .lui d i_ w => Sys2Proof.Machine.execLui d i_ w s
  | .adr d i_ w => Sys2Proof.Machine.execAdr d i_ w s
  | .extu d a p l w => Sys2Proof.Machine.execExtu d a p l w s
  | .exts d a p l w => Sys2Proof.Machine.execExts d a p l w s
  | .ins d a p l w => Sys2Proof.Machine.execIns d a p l w s
  | .fadd d a b w => Sys2Proof.Machine.execFadd d a b w s
  | .fsub d a b w => Sys2Proof.Machine.execFsub d a b w s
  | .fmul d a b w => Sys2Proof.Machine.execFmul d a b w s
  | .fma d a b w => Sys2Proof.Machine.execFma d a b w s
  | .fnma d a b w => Sys2Proof.Machine.execFnma d a b w s
  | .fdiv d a b w => Sys2Proof.Machine.execFdiv d a b w s
  | .fsqrt d a w => Sys2Proof.Machine.execFsqrt d a w s
  | .fmin d a b w => Sys2Proof.Machine.execFmin d a b w s
  | .fmax d a b w => Sys2Proof.Machine.execFmax d a b w s
  | .feq d a b w => Sys2Proof.Machine.execFeq d a b w s
  | .flt d a b w => Sys2Proof.Machine.execFlt d a b w s
  | .fle d a b w => Sys2Proof.Machine.execFle d a b w s
  | .fclass d a w => Sys2Proof.Machine.execFclass d a w s
  | .fabs d a w => Sys2Proof.Machine.execFabs d a w s
  | .fneg d a w => Sys2Proof.Machine.execFneg d a w s
  | .cvtF32I64 d a w => Sys2Proof.Machine.execCvtF32I64 d a w s
  | .cvtI64F32 d a w => Sys2Proof.Machine.execCvtI64F32 d a w s
  | .cvtF32N64 d a w => Sys2Proof.Machine.execCvtF32N64 d a w s
  | .cvtN64F32 d a w => Sys2Proof.Machine.execCvtN64F32 d a w s
  | .cvtBf16F32 d a w => Sys2Proof.Machine.execCvtBf16F32 d a w s
  | .cvtF32Bf16 d a w => Sys2Proof.Machine.execCvtF32Bf16 d a w s
  | .cvtE4m3F32 d a w => Sys2Proof.Machine.execCvtE4m3F32 d a w s
  | .cvtF32E4m3 d a w => Sys2Proof.Machine.execCvtF32E4m3 d a w s
  | .cvtE5m2F32 d a w => Sys2Proof.Machine.execCvtE5m2F32 d a w s
  | .cvtF32E5m2 d a w => Sys2Proof.Machine.execCvtF32E5m2 d a w s
  | .frnd d a w => Sys2Proof.Machine.execFrnd d a w s
  | .beq a b o w => Sys2Proof.Machine.execBeq a b o w s
  | .bne a b o w => Sys2Proof.Machine.execBne a b o w s
  | .blt a b o w => Sys2Proof.Machine.execBlt a b o w s
  | .bge a b o w => Sys2Proof.Machine.execBge a b o w s
  | .bltu a b o w => Sys2Proof.Machine.execBltu a b o w s
  | .bgeu a b o w => Sys2Proof.Machine.execBgeu a b o w s
  | .j o w => Sys2Proof.Machine.execJ o w s
  | .call o w => Sys2Proof.Machine.execCall o w s
  | .jr a w => Sys2Proof.Machine.execJr a w s
  | .jalr d a w => Sys2Proof.Machine.execJalr d a w s
  | .callr a w => Sys2Proof.Machine.execCallr a w s
  | .ret w => Sys2Proof.Machine.execRet w s
  | .fjmp a w => Sys2Proof.Machine.execFjmp a w s
  | .ld d a o s_ t w => Sys2Proof.Machine.execLd d a o s_ t w s
  | .ldu d a o s_ t w => Sys2Proof.Machine.execLdu d a o s_ t w s
  | .st d a o s_ t w => Sys2Proof.Machine.execSt d a o s_ t w s
  | .lda d a s_ z w => Sys2Proof.Machine.execLda d a s_ z w s
  | .strl a b s_ z w => Sys2Proof.Machine.execStrl a b s_ z w s
  | .swap d a b s_ z w => Sys2Proof.Machine.execSwap d a b s_ z w s
  | .cas d a b s_ z w => Sys2Proof.Machine.execCas d a b s_ z w s
  | .atadd d a b s_ z w => Sys2Proof.Machine.execAtadd d a b s_ z w s
  | .atand d a b s_ z w => Sys2Proof.Machine.execAtand d a b s_ z w s
  | .ator d a b s_ z w => Sys2Proof.Machine.execAtor d a b s_ z w s
  | .atxor d a b s_ z w => Sys2Proof.Machine.execAtxor d a b s_ z w s
  | .atmin d a b s_ z w => Sys2Proof.Machine.execAtmin d a b s_ z w s
  | .atmax d a b s_ z w => Sys2Proof.Machine.execAtmax d a b s_ z w s
  | .atminn d a b s_ z w => Sys2Proof.Machine.execAtminn d a b s_ z w s
  | .atmaxn d a b s_ z w => Sys2Proof.Machine.execAtmaxn d a b s_ z w s
  | .atfadd d a b s_ w => Sys2Proof.Machine.execAtfadd d a b s_ w s
  | .atfmax d a b s_ w => Sys2Proof.Machine.execAtfmax d a b s_ w s
  | .ataddnr a b s_ z w => Sys2Proof.Machine.execAtaddnr a b s_ z w s
  | .sti d a b z s_ r w => Sys2Proof.Machine.execSti d a b z s_ r w s
  | .fenceFull a b s_ g w => Sys2Proof.Machine.execFenceFull a b s_ g w s
  | .fenceAcq a b s_ g w => Sys2Proof.Machine.execFenceAcq a b s_ g w s
  | .fenceRel a b s_ g w => Sys2Proof.Machine.execFenceRel a b s_ g w s
  | .fenceEng w => Sys2Proof.Machine.execFenceEng w s
  | .vwpin d a w => Sys2Proof.Machine.execVwpin d a w s
  | .vwset d a b w => Sys2Proof.Machine.execVwset d a b w s
  | .vwclr d a w => Sys2Proof.Machine.execVwclr d a w s
  | .vwget d a w => Sys2Proof.Machine.execVwget d a w s
  | .tlbiL a w => Sys2Proof.Machine.execTlbiL a w s
  | .tlbiB a b w => Sys2Proof.Machine.execTlbiB a b w s
  | .publish a w => Sys2Proof.Machine.execPublish a w s
  | .probe d a w => Sys2Proof.Machine.execProbe d a w s
  | .tileOpen d a w => Sys2Proof.Machine.execTileOpen d a w s
  | .tileClose d a w => Sys2Proof.Machine.execTileClose d a w s
  | .tenR a w => Sys2Proof.Machine.execTenR a w s
  | .tenW a w => Sys2Proof.Machine.execTenW a w s
  | .tenTryr d a w => Sys2Proof.Machine.execTenTryr d a w s
  | .tenTryw d a w => Sys2Proof.Machine.execTenTryw d a w s
  | .tenRel d a w => Sys2Proof.Machine.execTenRel d a w s
  | .tenDown a w => Sys2Proof.Machine.execTenDown a w s
  | .tileSplit d a b w => Sys2Proof.Machine.execTileSplit d a b w s
  | .tileQry d a w => Sys2Proof.Machine.execTileQry d a w s
  | .vld d a w => Sys2Proof.Machine.execVld d a w s
  | .vst d a w => Sys2Proof.Machine.execVst d a w s
  | .vlds d a b t w => Sys2Proof.Machine.execVlds d a b t w s
  | .vsts d a b t w => Sys2Proof.Machine.execVsts d a b t w s
  | .vgath d a b t w => Sys2Proof.Machine.execVgath d a b t w s
  | .vscat d a b t w => Sys2Proof.Machine.execVscat d a b t w s
  | .vadd d a b t w => Sys2Proof.Machine.execVadd d a b t w s
  | .vsub d a b t w => Sys2Proof.Machine.execVsub d a b t w s
  | .vmul d a b t w => Sys2Proof.Machine.execVmul d a b t w s
  | .vmulh d a b t w => Sys2Proof.Machine.execVmulh d a b t w s
  | .vmin d a b t w => Sys2Proof.Machine.execVmin d a b t w s
  | .vmax d a b t w => Sys2Proof.Machine.execVmax d a b t w s
  | .vminu d a b t w => Sys2Proof.Machine.execVminu d a b t w s
  | .vmaxu d a b t w => Sys2Proof.Machine.execVmaxu d a b t w s
  | .vadds d a b t w => Sys2Proof.Machine.execVadds d a b t w s
  | .vsubs d a b t w => Sys2Proof.Machine.execVsubs d a b t w s
  | .vaddsn d a b t w => Sys2Proof.Machine.execVaddsn d a b t w s
  | .vabs d a t w => Sys2Proof.Machine.execVabs d a t w s
  | .vneg d a t w => Sys2Proof.Machine.execVneg d a t w s
  | .vmac d a b t w => Sys2Proof.Machine.execVmac d a b t w s
  | .vwmul d a b t w => Sys2Proof.Machine.execVwmul d a b t w s
  | .vwmac d a b t w => Sys2Proof.Machine.execVwmac d a b t w s
  | .vdot4 d a b t w => Sys2Proof.Machine.execVdot4 d a b t w s
  | .vfadd d a b t w => Sys2Proof.Machine.execVfadd d a b t w s
  | .vfsub d a b t w => Sys2Proof.Machine.execVfsub d a b t w s
  | .vfmul d a b t w => Sys2Proof.Machine.execVfmul d a b t w s
  | .vfma d a b t w => Sys2Proof.Machine.execVfma d a b t w s
  | .vfnma d a b t w => Sys2Proof.Machine.execVfnma d a b t w s
  | .vfmin d a b t w => Sys2Proof.Machine.execVfmin d a b t w s
  | .vfmax d a b t w => Sys2Proof.Machine.execVfmax d a b t w s
  | .vfabs d a t w => Sys2Proof.Machine.execVfabs d a t w s
  | .vfneg d a t w => Sys2Proof.Machine.execVfneg d a t w s
  | .vfwmul d a b t w => Sys2Proof.Machine.execVfwmul d a b t w s
  | .vfwma d a b t w => Sys2Proof.Machine.execVfwma d a b t w s
  | .vfexp2 d a t w => Sys2Proof.Machine.execVfexp2 d a t w s
  | .vflog2 d a t w => Sys2Proof.Machine.execVflog2 d a t w s
  | .vfrcp d a t w => Sys2Proof.Machine.execVfrcp d a t w s
  | .vfrsq d a t w => Sys2Proof.Machine.execVfrsq d a t w s
  | .vand d a b t w => Sys2Proof.Machine.execVand d a b t w s
  | .vor d a b t w => Sys2Proof.Machine.execVor d a b t w s
  | .vxor d a b t w => Sys2Proof.Machine.execVxor d a b t w s
  | .vandn d a b t w => Sys2Proof.Machine.execVandn d a b t w s
  | .vshl d a b t w => Sys2Proof.Machine.execVshl d a b t w s
  | .vshr d a b t w => Sys2Proof.Machine.execVshr d a b t w s
  | .vsar d a b t w => Sys2Proof.Machine.execVsar d a b t w s
  | .vcmpeq d a b t w => Sys2Proof.Machine.execVcmpeq d a b t w s
  | .vcmplt d a b t w => Sys2Proof.Machine.execVcmplt d a b t w s
  | .vcmple d a b t w => Sys2Proof.Machine.execVcmple d a b t w s
  | .vcmpltn d a b t w => Sys2Proof.Machine.execVcmpltn d a b t w s
  | .vfcmpeq d a b t w => Sys2Proof.Machine.execVfcmpeq d a b t w s
  | .vfcmplt d a b t w => Sys2Proof.Machine.execVfcmplt d a b t w s
  | .vfcmple d a b t w => Sys2Proof.Machine.execVfcmple d a b t w s
  | .vsel d a b t w => Sys2Proof.Machine.execVsel d a b t w s
  | .vmand d a b t w => Sys2Proof.Machine.execVmand d a b t w s
  | .vmor d a b t w => Sys2Proof.Machine.execVmor d a b t w s
  | .vmxor d a b t w => Sys2Proof.Machine.execVmxor d a b t w s
  | .vmnot d a t w => Sys2Proof.Machine.execVmnot d a t w s
  | .vmpop d a t w => Sys2Proof.Machine.execVmpop d a t w s
  | .vmfirst d a t w => Sys2Proof.Machine.execVmfirst d a t w s
  | .vmset d a t w => Sys2Proof.Machine.execVmset d a t w s
  | .vcvt d a b t w => Sys2Proof.Machine.execVcvt d a b t w s
  | .vqo4 d a b t w => Sys2Proof.Machine.execVqo4 d a b t w s
  | .vdqo4 d a b t w => Sys2Proof.Machine.execVdqo4 d a b t w s
  | .vrsum d a t w => Sys2Proof.Machine.execVrsum d a t w s
  | .vrmax d a t w => Sys2Proof.Machine.execVrmax d a t w s
  | .vrmin d a t w => Sys2Proof.Machine.execVrmin d a t w s
  | .vramax d a t w => Sys2Proof.Machine.execVramax d a t w s
  | .vdot d a b t w => Sys2Proof.Machine.execVdot d a b t w s
  | .vbcast d a t w => Sys2Proof.Machine.execVbcast d a t w s
  | .vmov d a t w => Sys2Proof.Machine.execVmov d a t w s
  | .vperm d a b t w => Sys2Proof.Machine.execVperm d a b t w s
  | .vslide d a b t w => Sys2Proof.Machine.execVslide d a b t w s
  | .vext d a b t w => Sys2Proof.Machine.execVext d a b t w s
  | .vins d a b t w => Sys2Proof.Machine.execVins d a b t w s
  | .vhad d a b t w => Sys2Proof.Machine.execVhad d a b t w s
  | .viota d t w => Sys2Proof.Machine.execViota d t w s
  | .vzip d a b t w => Sys2Proof.Machine.execVzip d a b t w s
  | .vunzip d a b t w => Sys2Proof.Machine.execVunzip d a b t w s
  | .accRd d a w => Sys2Proof.Machine.execAccRd d a w s
  | .accWr d a w => Sys2Proof.Machine.execAccWr d a w s
  | .accClr d w => Sys2Proof.Machine.execAccClr d w s
  | .mwait a w => Sys2Proof.Machine.execMwait a w s
  | .mstat d w => Sys2Proof.Machine.execMstat d w s
  | .rpt c i_ l x y z s_ w => Sys2Proof.Machine.execRpt c i_ l x y z s_ w s
  | .xsend d a b w => Sys2Proof.Machine.execXsend d a b w s
  | .xwait a w => Sys2Proof.Machine.execXwait a w s
  | .xstat d a b w => Sys2Proof.Machine.execXstat d a b w s
  | .hstart d a b w => Sys2Proof.Machine.execHstart d a b w s
  | .hstartNb d a b w => Sys2Proof.Machine.execHstartNb d a b w s
  | .hexit w => Sys2Proof.Machine.execHexit w s
  | .hjoin d a w => Sys2Proof.Machine.execHjoin d a w s
  | .hstat d a w => Sys2Proof.Machine.execHstat d a w s
  | .yield w => Sys2Proof.Machine.execYield w s
  | .hkill a w => Sys2Proof.Machine.execHkill a w s
  | .trForm d a w => Sys2Proof.Machine.execTrForm d a w s
  | .trBreak w => Sys2Proof.Machine.execTrBreak w s
  | .trDetach w => Sys2Proof.Machine.execTrDetach w s
  | .trRejoin w => Sys2Proof.Machine.execTrRejoin w s
  | .trStat d w => Sys2Proof.Machine.execTrStat d w s
  | .sync l w => Sys2Proof.Machine.execSync l w s
  | .djoin a l w => Sys2Proof.Machine.execDjoin a l w s
  | .dleave l w => Sys2Proof.Machine.execDleave l w s
  | .dqry d l w => Sys2Proof.Machine.execDqry d l w s
  | .bar l w => Sys2Proof.Machine.execBar l w s
  | .cfetch d a w => Sys2Proof.Machine.execCfetch d a w s
  | .cwait a w => Sys2Proof.Machine.execCwait a w s
  | .cstat d a w => Sys2Proof.Machine.execCstat d a w s
  | .cevict a w => Sys2Proof.Machine.execCevict a w s
  | .evwait a w => Sys2Proof.Machine.execEvwait a w s
  | .evsig a w => Sys2Proof.Machine.execEvsig a w s
  | .evrd d a w => Sys2Proof.Machine.execEvrd d a w s
  | .evclr a w => Sys2Proof.Machine.execEvclr a w s
  | .wfe w => Sys2Proof.Machine.execWfe w s
  | .crr d c w => Sys2Proof.Machine.execCrr d c w s
  | .crw d a c w => Sys2Proof.Machine.execCrw d a c w s
  | .crset d a c w => Sys2Proof.Machine.execCrset d a c w s
  | .crclr d a c w => Sys2Proof.Machine.execCrclr d a c w s
  | .trap k w => Sys2Proof.Machine.execTrap k w s
  | .sysc w => Sys2Proof.Machine.execSysc w s
  | .hcall w => Sys2Proof.Machine.execHcall w s
  | .eret w => Sys2Proof.Machine.execEret w s
  | .bkpt w => Sys2Proof.Machine.execBkpt w s
  | .halt w => Sys2Proof.Machine.execHalt w s
  | .tsread d w => Sys2Proof.Machine.execTsread d w s
  | .gexit w => Sys2Proof.Machine.execGexit w s
  | .cntrd d a w => Sys2Proof.Machine.execCntrd d a w s
  | .gang w => Sys2Proof.Machine.execGang w s
  | .rpop d w => Sys2Proof.Machine.execRpop d w s
  | .rfix a b w => Sys2Proof.Machine.execRfix a b w s
  | .rreplay a w => Sys2Proof.Machine.execRreplay a w s
  | .rkill a w => Sys2Proof.Machine.execRkill a w s
  | .vamoF32 a b w => Sys2Proof.Machine.execVamoF32 a b w s
  | .vamoBf16 a b w => Sys2Proof.Machine.execVamoBf16 a b w s
  | .vamoI32 a b w => Sys2Proof.Machine.execVamoI32 a b w s
  | .lnch d a w => Sys2Proof.Machine.execLnch d a w s
  | .lwait a w => Sys2Proof.Machine.execLwait a w s
  | .lqry d a w => Sys2Proof.Machine.execLqry d a w s
  | .lcancel d a w => Sys2Proof.Machine.execLcancel d a w s
  | .qpeek d q w => Sys2Proof.Machine.execQpeek d q w s
  | .qclr q w => Sys2Proof.Machine.execQclr q w s
  | .qstat d q w => Sys2Proof.Machine.execQstat d q w s
  | .pset d a w => Sys2Proof.Machine.execPset d a w s
  | .pget d a w => Sys2Proof.Machine.execPget d a w s
  | .padd d a b w => Sys2Proof.Machine.execPadd d a b w s
  | .paddi d a i_ w => Sys2Proof.Machine.execPaddi d a i_ w s
  | .fixedResultVisible core ctx => Sys2Proof.Machine.execFixedResultVisible core ctx s
  | .variableResultWrite core ctx => Sys2Proof.Machine.execVariableResultWrite core ctx s
  | .fpexcTrap core ctx => Sys2Proof.Machine.execFpexcTrap core ctx s
  | .deferredTrap core ctx => Sys2Proof.Machine.execDeferredTrap core ctx s
  | .segmentFetchDone core slot => Sys2Proof.Machine.execSegmentFetchDone core slot s
  | .vectorPassBind core => Sys2Proof.Machine.execVectorPassBind core s
  | .scratchpadResize core => Sys2Proof.Machine.execScratchpadResize core s
  | .plane core blocks => Sys2Proof.Machine.execPlane core blocks s
  | .mma core blocks => Sys2Proof.Machine.execMma core blocks s
  | .mmaR core blocks => Sys2Proof.Machine.execMmaR core blocks s
  | .had core blocks => Sys2Proof.Machine.execHad core blocks s
  | .drain core => Sys2Proof.Machine.execDrain core s
  | .zero core => Sys2Proof.Machine.execZero core s
  | .mark core => Sys2Proof.Machine.execMark core s
  | .matrixCommandDone core => Sys2Proof.Machine.execMatrixCommandDone core s
  | .copy core ticket elems => Sys2Proof.Machine.execCopy core ticket elems s
  | .fill core ticket elems => Sys2Proof.Machine.execFill core ticket elems s
  | .allreduce core ticket => Sys2Proof.Machine.execAllreduce core ticket s
  | .reducescatter core ticket => Sys2Proof.Machine.execReducescatter core ticket s
  | .allgather core ticket => Sys2Proof.Machine.execAllgather core ticket s
  | .abort core ticket => Sys2Proof.Machine.execAbort core ticket s
  | .engineCommandDone core ticket => Sys2Proof.Machine.execEngineCommandDone core ticket s
  | .portWordArrival word => Sys2Proof.Machine.execPortWordArrival word s
  | .forwardedInstruction core => Sys2Proof.Machine.execForwardedInstruction core s
  | .trFormTimeout core => Sys2Proof.Machine.execTrFormTimeout core s
  | .troupehang core => Sys2Proof.Machine.execTroupehang core s
  | .syncDone core => Sys2Proof.Machine.execSyncDone core s
  | .homeRequest req => Sys2Proof.Machine.execHomeRequest req s
  | .pushArrival push => Sys2Proof.Machine.execPushArrival push s
  | .tLineExpiry core line => Sys2Proof.Machine.execTLineExpiry core line s
  | .memoryResponse req value poisoned => Sys2Proof.Machine.execMemoryResponse req value poisoned s
  | .farHomeRequest req => Sys2Proof.Machine.execFarHomeRequest req s
  | .farInvalidationAck line die => Sys2Proof.Machine.execFarInvalidationAck line die s
  | .replicaUpdate update => Sys2Proof.Machine.execReplicaUpdate update s
  | .tenureGrant request => Sys2Proof.Machine.execTenureGrant request s
  | .leaseRevoke tenure => Sys2Proof.Machine.execLeaseRevoke tenure s
  | .stringsTimer core => Sys2Proof.Machine.execStringsTimer core s
  | .wake core => Sys2Proof.Machine.execWake core s
  | .helperStartTrigger core => Sys2Proof.Machine.execHelperStartTrigger core s
  | .groupPlacement part => Sys2Proof.Machine.execGroupPlacement part s
  | .groupStart core => Sys2Proof.Machine.execGroupStart core s
  | .tsliceExpiry part => Sys2Proof.Machine.execTsliceExpiry part s
  | .forcedSwitchStop part => Sys2Proof.Machine.execForcedSwitchStop part s
  | .saveDone part => Sys2Proof.Machine.execSaveDone part s
  | .restoreDone part => Sys2Proof.Machine.execRestoreDone part s
  | .softError core => Sys2Proof.Machine.execSoftError core s
  | .create part => Sys2Proof.Machine.execCreate part s
  | .switch part => Sys2Proof.Machine.execSwitch part s
  | .resume part => Sys2Proof.Machine.execResume part s
  | .cont part gs => Sys2Proof.Machine.execCont part gs s
  | .kill part => Sys2Proof.Machine.execKill part s
  | .destroy part => Sys2Proof.Machine.execDestroy part s
  | .svcstart part => Sys2Proof.Machine.execSvcstart part s
  | .launch part => Sys2Proof.Machine.execLaunch part s
  | .registerWrite pa value => Sys2Proof.Machine.execRegisterWrite pa value s
  | .crossTriggerHalt request => Sys2Proof.Machine.execCrossTriggerHalt request s
  | .debugResume rank => Sys2Proof.Machine.execDebugResume rank s
  | .kaleidoscopeTurn => Sys2Proof.Machine.execKaleidoscopeTurn s
  | .turnDrain => Sys2Proof.Machine.execTurnDrain s
  | .turnRetrain => Sys2Proof.Machine.execTurnRetrain s
  | .turnMap failed => Sys2Proof.Machine.execTurnMap failed s
  | .turnActive => Sys2Proof.Machine.execTurnActive s
  | .fabricTimeout req => Sys2Proof.Machine.execFabricTimeout req s
  | .peerRequest src exp ra op value expected => Sys2Proof.Machine.execPeerRequest src exp ra op value expected s
  | .fanoutTimeout peer => Sys2Proof.Machine.execFanoutTimeout peer s
  | .severed peer => Sys2Proof.Machine.execSevered peer s
  | .flushed peer => Sys2Proof.Machine.execFlushed peer s
  | .messageLanding part job ring source data => Sys2Proof.Machine.execMessageLanding part job ring source data s
  | .hostBar4Write addr size value => Sys2Proof.Machine.execHostBar4Write addr size value s
  | .hostBar4Read addr size => Sys2Proof.Machine.execHostBar4Read addr size s
  | .mailboxHostWrite vf offset size value => Sys2Proof.Machine.execMailboxHostWrite vf offset size value s
  | .vfFlr vf => Sys2Proof.Machine.execVfFlr vf s
  | .tagRevive vf => Sys2Proof.Machine.execTagRevive vf s
  | .powerGrantEpoch used hot => Sys2Proof.Machine.execPowerGrantEpoch used hot s
  | .boot image signature => Sys2Proof.Machine.execBoot image signature s
  | .stageVerify image signature => Sys2Proof.Machine.execStageVerify image signature s
  | .attestationRequest => Sys2Proof.Machine.execAttestationRequest s
  | .attestationReportReady => Sys2Proof.Machine.execAttestationReportReady s
  | .debugUnlockToken token => Sys2Proof.Machine.execDebugUnlockToken token s
  | .routerAccept core ctx => Sys2Proof.Machine.execRouterAccept core ctx s
  | .linkDown group => Sys2Proof.Machine.execLinkDown group s
  | .linkUp group => Sys2Proof.Machine.execLinkUp group s
  | .llcDramSoftError line => Sys2Proof.Machine.execLlcDramSoftError line s

end Sys2Proof.Machine
end

