-- ==== Sys2Proof/Machine/Issue.lean ====
section
/-!
DEFINITION. Issue: when a context may issue, the word it issues, what is checked at its issue point before the instruction,
and what a troupe's leader and followers do around it (R44, R127, R128, R134, R141, R142, R155, R267, R268).
-/

namespace Sys2Proof.Machine

open Sys2Proof

noncomputable section

/-- The fields d, a and b that a word of an admitted major uses as registers (R134). -/
def stepRoles (v : IWord) : Bool × Bool × Bool :=
  let maj := (fld 26 6 v).toNat
  let f8 := (fld 3 8 v).toNat
  let f5 := (fld 3 5 v).toNat
  if maj = 0x01 then (true, true, !decide (25 ≤ f8 ∧ f8 ≤ 32))
  else if maj = 0x0C then (true, true, !(decide (f8 = 6) || decide (12 ≤ f8)))
  else if maj = 0x09 ∨ maj = 0x0A then (true, false, false)
  else if maj = 0x19 then (true, true, decide (2 ≤ f5))
  else if maj = 0x1A then (true, true, !(decide (f5 = 11) || decide (f5 = 12)))
  else if maj = 0x1B then (true, true, !(decide (f5 = 7) || decide (f5 = 8) || decide (11 ≤ f5)))
  else if maj = 0x1C then (true, true, decide (f5 < 18))
  else if maj = 0x1D then (true, decide (f5 ≠ 15), ([1, 2, 7, 10, 11, 12, 13, 16, 17] : List Nat).contains f5)
  else if maj = 0x2C then (true, true, decide (2 ≤ f8))
  else (true, true, false)

/-- A captured word with the fields of a replay's stagger stepped (R134). -/
def steppedWord (f : Frame) (v : IWord) : IWord :=
  let by_ := BitVec.ofNat 5 (f.k * f.stride.toNat)
  let put := fun (lo : Nat) (on : Bool) (v : IWord) =>
    if on then (v &&& ~~~(0x1F#32 <<< lo)) ||| (((fld lo 5 v + by_).setWidth 32) <<< lo) else v
  let r := stepRoles v
  put 11 (r.2.2 && f.smask.getLsbD 0) (put 16 (r.2.1 && f.smask.getLsbD 1) (put 21 (r.1 && f.smask.getLsbD 2) v))

/-- The check of the first fetch that a context makes by itself: its address, and those of a frame that it goes on in (R122, R128, R268).
[log DESIGN CHOICE 30] -/
def firstFetch (k : Core) (x : Ctx) : Option Trap := (x.pc :: x.frame.elim [] Frame.vas).findSome? (enterCheck k)

/-- The word that issues next, or the trap that its fetch takes with the address for cr.tpc (R127, R128, R134). -/
def nextWord (s : State) : IWord ⊕ (Trap × Word) :=
  let x := s.me
  match x.fwd with
  | some e => .inl e.word
  | none =>
    match (if x.enter then firstFetch s.mine x else none), x.frame with
    | some t, _ => .inr (t, x.pc)
    | none, some f => .inl (steppedWord f (f.words[f.index]?.getD (s.mine.fetch x.pc)))
    | none, none => if s.mine.isResident x.pc then .inl (s.mine.fetch x.pc) else .inr (.mk' cCODEEND x.pc, x.pc)

/-- The forwarded instructions that a follower holds and has not issued. -/
def Core.buffered (k : Core) : Nat := k.fwdBuf.length + (if (k.ctx 0).fwd.isSome then 1 else 0)

/-- A follower of the executing leader has no room for another instruction (R267). -/
def streamFull (s : State) : Bool :=
  decide (s.cur.ctx = 0) && (followers s s.cur.core).any (fun f => decide (8 ≤ (s.core f).buffered))

/-- The outcome of a conditional branch with the executing context's operands (R122, R268). -/
def branchTaken (i : Instr) (s : State) : Bool :=
  match i with
  | .beq a b _ _ => s.rdA a == s.rdB a b
  | .bne a b _ _ => s.rdA a != s.rdB a b
  | .blt a b _ _ => (s.rdA a).slt (s.rdB a b)
  | .bge a b _ _ => !(s.rdA a).slt (s.rdB a b)
  | .bltu a b _ _ => (s.rdA a).ult (s.rdB a b)
  | .bgeu a b _ _ => !(s.rdA a).ult (s.rdB a b)
  | _ => false

/-- A jump to a register's target (R122, R124, R268). -/
def jumpsByReg (i : Instr) : Bool :=
  match i with
  | .jr _ _ | .jalr _ _ _ | .callr _ _ | .ret _ | .fjmp _ _ => true
  | _ => false

/-- What follows an instruction in a troupe: the leader's is forwarded, a follower whose branch or jump goes another way detaches (R267, R268). -/
def afterIssue (w : IWord) (i : Instr) (s0 s : State) : State :=
  if s.note = .retired ∧ s.cur.ctx = 0 then
    match s0.me.fwd with
    | some e => if (jumpsByReg i ∧ s.me.pc ≠ e.next) ∨ branchTaken i s0 ≠ e.taken then detach s.cur.core s else s
    | none => forwardIssued w (branchTaken i s0) s0 s
  else s

/-- The selected context issues its next word. -/
def issueWord (w : IWord) (s : State) : Out :=
  match decode w with
  | .error _ => trapAt cILLEGAL (zext w) s
  | .ok i =>
    match exec i s with
    | .next t => .next (afterIssue w i s t)
    | o => o

/-- A helper that HKILL asked to end may end now: its vector work is done, and its tenures can be released at .pkg (R141, R168, R327). -/
def mayEnd (s : State) : Bool :=
  s.me.vq.isEmpty && (!s.myPart.tenures.any (fun t => t.ctx == s.cur) || released s s.cur (tenureScope s 0))

/-- The issue point of a selected context: it ends where HKILL asked for it, takes a deferred trap, waits for the routers or
for its followers, and otherwise issues (R95, R141, R149). -/
def issuePoint (s : State) : Out :=
  if s.me.killReq then
    if mayEnd s then .next (slotTaken (endHelperAll s.cur 0x8000000000000000 true s)) else hold s
  else
    match (if s.me.defDepth = 0 ∧ !s.me.arrived then oldestDeferred s.me.deferred else none) with
    | some d => .next (takeDeferred d s)
    | none =>
      if !s.me.sends.isEmpty ∨ streamFull s then hold s
      else
        match nextWord s with
        | .inr (t, pc) => .next (slotTaken (takeTrap t pc s))
        | .inl w => issueWord w s

/-- A context issues, if it may. -/
def issue (c : CtxId) (s : State) : Out := if canIssue s c then issuePoint (select c s) else .next s

end

end Sys2Proof.Machine
end

