-- ==== Sys2Proof/Machine/Next.lean ====
section
/-!
DEFINITION. The acts: what the head of the agenda does, what the machine does by itself when the agenda is empty, and how a word is placed to be
issued next (R142, R452).
-/

namespace Sys2Proof.Machine

open Sys2Proof

noncomputable section

/-- Put a word where a context fetches its next instruction, with all that its issue takes: a running partition, the context
live, its segment resident and nothing before it. [log DEDUCED 5] -/
def placeWord (v : IWord) (s : State) : State :=
  let core := s.cur.core
  let c : CtxId := ⟨core, 0⟩
  let p := s.partOfRank (rankOf core)
  let q := s.part p
  let s := s.setPart p (if q.owns (rankOf core) then { q with state := 1 }
    else { q with state := 1, base := BitVec.ofNat 11 (rankOf core), len := 1 })
  let s := s.setCluster (rankOf core) { s.cluster (rankOf core) with halted := false, troupes := [] }
  let k := s.core core
  let x := k.ctx 0
  let k := { k with
    halted := false, fwdBuf := [], rr := 10, nextIssue := 0
    slots := k.slots.setIfInBounds (slotOf x.pc) (.resident (segOf x.pc) 0)
    imem := writeLe k.imem (slotOf x.pc * 2048 + x.pc.toNat % 2048) 4 v.toNat }
  let s := s.setCore core (k.setCtx 0 { x with
    live := true, missed := false, fpHold := none, frame := none, fwd := none, killReq := false, deferred := [], sends := [], yieldTo := []
    nextIssue := 0 })
  { s with agenda := .issue c :: s.agenda, late := false }

/-- The rows that a doubleword written to an MMIO register sets off, beside what REGISTER_WRITE stores (R295, R392, R414, R415, R424). -/
def writeEvents (s : State) (pa : Nat) (v : Word) : List Instr :=
  let off := pa % 0x1000 / 8 * 8
  match pageAt pa with
  | .pcb p =>
    if off ≠ 0 then []
    else match (v.extractLsb' 4 4).toNat with
      | 1 => [.create p]
      | 2 => [.switch p]
      | 3 => [.resume p]
      | 4 => [.cont p (v.getLsbD 8)]
      | 5 => [.kill p]
      | 6 => [.destroy p]
      | 7 => [.svcstart p]
      | 8 => if (s.part p).launching then [] else [.launch p]
      | _ => []
  | .debug rank => if off ≠ 0 then [] else (if v.getLsbD 0 then [.crossTriggerHalt ⟨rank, false⟩] else []) ++ (if v.getLsbD 1 then [.debugResume rank] else [])
  | .fabric => if off = 8 ∧ v.getLsbD 0 then [.kaleidoscopeTurn] else []
  | .security =>
    if off = 0x120 ∧ v.getLsbD 0 then [.attestationRequest]
    else if 0x600 ≤ off ∧ off < 0x800 then
      [.debugUnlockToken ((List.range 512).map (fun i =>
        if off - 0x600 ≤ i ∧ i < off - 0x600 + 8 then v.extractLsb' (8 * (i - (off - 0x600))) 8 else s.security.token[i]?.getD 0))]
    else []
  | _ => []

/-! ### What the machine does by itself -/

/-- The numbers of the cores that are listed. -/
def listedCores (s : State) : List Nat := (s.cores.map (fun c => c.1)).filter isCore

/-- What may come about on a core by itself. -/
def coreEvents (s : State) (core : Nat) : List Instr :=
  (List.range 11).flatMap (fun i => [.fixedResultVisible core i, .variableResultWrite core i, .fpexcTrap core i, .routerAccept core i]) ++
  (List.range 32).filterMap (fun i => match (s.core core).slot i with
    | .fetching _ _ _ _ => some (.segmentFetchDone core i)
    | _ => none) ++
  [.groupStart core, .scratchpadResize core, .wake core, .stringsTimer core, .helperStartTrigger core, .forwardedInstruction core,
    .trFormTimeout core, .troupehang core, .syncDone core, .plane core 1, .mma core 1, .mmaR core 1, .had core 1, .drain core,
    .zero core, .mark core, .matrixCommandDone core, .vectorPassBind core] ++
  (s.core core).l1.map (fun e => .tLineExpiry core e.line)

/-- What may come about of the requests, pushes, words and commands on their way. -/
def flightEvents (s : State) : List Instr :=
  s.reqs.flatMap (fun q => [.homeRequest q.id, .fabricTimeout q.id] ++ (if q.performed then [.memoryResponse q.id 0 false] else [])) ++
  s.pushes.map (fun p => .pushArrival p.id) ++ s.updates.map (fun u => .replicaUpdate u.id) ++ s.net.map (fun w => .portWordArrival w.id) ++
  s.far.map (fun c => .farInvalidationAck c.line c.die) ++ s.peerDir.map (fun d => .fanoutTimeout d.peer) ++
  s.engine.flatMap (fun c => [.copy c.core c.ticket 1, .fill c.core c.ticket 1, .allreduce c.core c.ticket,
    .reducescatter c.core c.ticket, .allgather c.core c.ticket, .abort c.core c.ticket, .engineCommandDone c.core c.ticket])

/-- What may come about of the partitions and the fabric. [log DEDUCED 49] -/
def packageEvents (s : State) : List Instr :=
  (List.range 64).flatMap (fun p => [.groupPlacement p, .tsliceExpiry p, .forcedSwitchStop p, .saveDone p, .restoreDone p] ++
    (if (s.part p).launching then [.launch p] else []) ++ (s.part p).tenReqs.map (fun r => .tenureGrant r.id) ++ (s.part p).tenures.map (fun t => .leaseRevoke t.id)) ++
  [.turnDrain, .turnRetrain, .turnMap 0, .turnActive, .attestationReportReady] ++ s.deadTags.map (fun d => .tagRevive d.vf)

/-- An event is enabled: it changes something. -/
def changes (s : State) (i : Instr) : Bool :=
  match exec i s with
  | .next t => decide (t ≠ s)
  | _ => true

/-- The first event that is enabled. -/
def enabledEvent (s : State) : Option Instr :=
  ((listedCores s).flatMap (coreEvents s) ++ flightEvents s ++ packageEvents s).find? (changes s)

/-! ### Issue in a cycle (R142) -/

/-- What becomes of the state where a context is selected now. -/
def tryIssue (s : State) (c : CtxId) : State :=
  match issue c s with
  | .next t => t
  | _ => s

/-- A live context is held: it could not issue if it were selected now, or it waits for its FPU's flags, or a follower for the leader's
stream (R93, R95, R103, R110, R267). [log DEDUCED 60] -/
def heldNow (s : State) (c : CtxId) : Bool :=
  if canIssue s c then decide ((tryIssue { s with note := .none } c).note = .held) else true

/-- A context is ready in this cycle, and what it has yielded to has gone before it (R142). -/
def readyNow (s : State) (c : CtxId) : Bool := canIssue s c && inTime s c && yielded s c && !heldNow s c

/-- No context of the core that issue looks at before this one is ready (R142). -/
def firstReady (s : State) (c : CtxId) : Bool :=
  (((issueOrder s c.core).takeWhile (fun d => d != c)).filter (readyNow s)).isEmpty

/-- A context may be selected now: issue comes to it, or it is held and only looks whether it still is (R142). -/
def maySelect (s : State) (c : CtxId) : Bool := canIssue s c && inTime s c && ((yielded s c && firstReady s c) || heldNow s c)

/-- What is left of a state when the model's own marks of a selection, and what translation caches keep of a walk, are set aside. -/
def plain (s : State) : State :=
  { s with note := .none, cur := ⟨0, 0⟩, freeCtr := 0, clusters := s.clusters.map (fun c => (c.1, { c.2 with tlb := [] })) }

/-- A context may be selected now, and this changes something: it issues, or it arrives at what it will wait for. -/
def moves (s : State) (c : CtxId) : Bool :=
  maySelect s c && (!heldNow s c || decide (plain (tryIssue s c) ≠ plain s))

/-- The first context that is to be selected in this cycle. -/
def dueIssuer (s : State) : Option CtxId := ((listedCores s).flatMap (issueOrder s)).find? (moves s)

/-! ### The end of a cycle (R146) -/

/-- The core and the context could take part in a cycle: the partition runs, and the context is live. -/
def takesPart (s : State) (c : CtxId) : Bool :=
  coreRuns s c.core && (s.ctx c).live && !(s.ctx c).missed && decide ((s.ctx c).nextIssue ≤ s.cycle)

/-- The flags that accrue in a cycle have accrued (R75), and a cycle in which a context did not issue is counted (R146): it was held, or it was
ready and not selected. [log DEDUCED 60] -/
def countCycle (s : State) (c : CtxId) (x : Ctx) : Ctx :=
  let x := x.accrued s.cycle
  if !takesPart s c then x
  else if heldNow s c then { x with cntHeld := x.cntHeld + 1 }
  else { x with cntReady := x.cntReady + 1 }

/-- A context that waits without a state of its own is marked as held or not. -/
def markHeld (s : State) (c : CtxId) (x : Ctx) : Ctx :=
  if takesPart s c && (x.wait == .none || x.wait == .held) then { x with wait := if heldNow s c then .held else .none } else x

/-- Every context of every listed core is changed, by what the state shows of it. -/
def mapCtxs (f : CtxId → Ctx → Ctx) (s : State) : State :=
  { s with cores := s.cores.map (fun e => (e.1, { e.2 with ctxs := Vector.ofFn (fun (i : Fin 11) => f ⟨e.1, i.val⟩ (e.2.ctx i.val)) })) }

/-- A cycle ends and the next begins; what waits at a home for copies that peers hold looks again (R44, R142, R146, R258, R438). -/
def tick (s : State) : State :=
  let s := { (mapCtxs (countCycle s) s).mapCores (fun _ k => strEndCycle k) with cycle := s.cycle + 1, late := false }
  let s := mapCtxs (markHeld s) s
  if s.peerWaits = [] ∧ s.devWaits = [] then s else serveWaits s

/-! ### The next act -/

/-- The results that are due and the FPEXC traps whose flags are known: they come about at the start of their cycle (R44, R103, R110). -/
def dueResult (s : State) : Option Instr :=
  ((listedCores s).flatMap (fun core => (List.range 11).map (fun i => (⟨core, i⟩ : CtxId)))).findSome? (fun c =>
    match (s.ctx c).nextDue s.cycle with
    | some (.inl _) => some (.fixedResultVisible c.core c.ctx)
    | some (.inr _) => some (.variableResultWrite c.core c.ctx)
    | none =>
      if (s.ctx c).live && coreRuns s c.core && (s.ctx c).fpHold.any (fun h => decide (h.due ≤ s.cycle)) then some (.fpexcTrap c.core c.ctx) else none)

/-- What has to come about in this cycle before anything of the agenda but an issue: results, and the contexts that issue selects. -/
def dueAct (s : State) : Option Act :=
  match dueResult s with
  | some i => some (.event i)
  | none => (dueIssuer s).map .issue

/-- What stays of an act of the agenda when it has been performed: cycles pass one by one. -/
def restOf (a : Act) (rest : List Act) : List Act :=
  match a with
  | .pass n => if 1 < n then .pass (n - 1) :: rest else rest
  | _ => rest

/-- The act of the next step, and the agenda after it (R142). An issue comes about where issue selects its context, and waits for the cycle in
which it does; anything else waits until the contexts that issue selects in this cycle have issued. With an empty agenda an event that is enabled
comes about, or the cycle ends. [log DESIGN CHOICE 3] -/
def choose (s : State) : Act × List Act :=
  match s.agenda with
  | .issue c :: rest =>
    if !canIssue s c || maySelect s c then (.issue c, rest) else ((dueAct s).getD (.pass 1), s.agenda)
  | a :: rest =>
    match dueAct s with
    | some b => (b, s.agenda)
    | none => (a, restOf a rest)
  | [] =>
    match dueAct s with
    | some b => (b, [])
    | none => match enabledEvent s with
      | some i => (.event i, [])
      | none => (.pass 1, [])

/-- The act of the next step. [log DESIGN CHOICE 3] -/
def nextAct (s : State) : Act := (choose s).1

/-- The state in which it is performed. -/
def afterAct (s : State) : State := { s with agenda := (choose s).2 }

/-- The event belongs to the start of its cycle or to an issue point, and leaves the cycle's issue slots open. -/
def isEarly (i : Instr) : Bool :=
  match i with
  | .fixedResultVisible _ _ | .variableResultWrite _ _ | .fpexcTrap _ _ | .deferredTrap _ _ => true
  | _ => false

/-- An act is performed; the row of an event without an encoding is what an event may be. What a unit does in a cycle comes after the instructions
that issue in it (R75, R120). A write stores what the register keeps, and sets off the rows it commands. [log DESIGN CHOICE 3; DESIGN CHOICE 6; DEDUCED 49] -/
def perform (a : Act) (s : State) : Out :=
  match a with
  | .issue c => issue c s
  | .event i => if encode i = 0 then exec i (if isEarly i then s else { s with late := true }) else .next s
  | .write pa v =>
    match exec (.registerWrite pa v) { s with late := true } with
    | .next t => .next { t with agenda := (writeEvents s pa v).map .event ++ t.agenda }
    | o => o
  | .pass n => .next (if n = 0 then s else tick s)
  | .image core at_ bytes => .next (spadImage core at_ bytes s)
  | .debugger pa value => .next (debuggerAccess pa value s)

end

end Sys2Proof.Machine
end

