-- ==== Sys2Proof/Machine/Step.lean ====
section
/-!
DEFINITION. One step of the machine: the first act of the agenda is performed; with an empty agenda the machine's own order
chooses it. Beside it, the state in which a given word is the next one to issue.
-/

namespace Sys2Proof.Machine

open Sys2Proof

/-- One step. [log DESIGN CHOICE 3] -/
noncomputable def step (s : State) : Host.Outcome State Fault Refusal := perform (nextAct s) (afterAct s)

/-- The state with the word w of 32 bits as the next one to issue: it stands in instruction memory at the PC of ctx0 of the
executing context's core, in a resident segment, and that context is live on a running core and is selected next. [log DEDUCED 5] -/
def State.withFetchWord (s : State) (nbits w : Nat) : State := placeWord (BitVec.ofNat 32 (w % 2 ^ nbits)) s

end Sys2Proof.Machine
end

