-- ==== Sys2Proof/Safety.lean ====
section
/-!
DEFINITION. The terms that claims use: when an instruction may complete, with what it completes, and what counts as a safe state.
-/

namespace Sys2Proof

open Sys2Proof.Machine

/-! ### Completion -/

/-- Nothing before its own checks holds or traps an instruction with these sources and this destination, and the destination, where it is a
port, has a route that may be used (R46, R61, R95, R96, R103, R261). -/
def ReadyTo (rs : List Reg) (d : Reg) (s : State) : Prop := hazard rs [d] s = .clear ∧ portFault s d = none

/-- Nothing before its own checks holds or traps an instruction with these sources and no destination. -/
def Ready (rs : List Reg) (s : State) : Prop := hazard rs [] s = .clear

/-- The instruction is complete with a result of a fixed latency in flight for its destination (R44, R45). -/
def resultOf (w : BitVec 3) (rs : List Reg) (latency : Nat) (d : Reg) (v : Word) (s : State) : Out :=
  .next (finish w rs (produce latency d v 0 s))

/-- The instruction is complete with an interlocked result written to its destination, in a state that its effect has left (R45). -/
def writes (w : BitVec 3) (rs : List Reg) (d : Reg) (v : Word) (s : State) : Out := .next (finish w rs (deliver d v s))

/-! ### Translated accesses -/

/-- An access of a request type of the executing context to an address that is not local meets nothing that holds it, is translated and permitted, and
reaches the location l in the state u, no loss of a tenure to be told there (R157, R227, R235, R326, R380). -/
def reaches (rt : BitVec 2) (addr : Word) (n : Nat) (need : Need) (s u : State) (l : Loc) : Prop :=
  ringBusy s.me addr n = false ∧ resolve s (s.xctx s.cur) addr n need = (u, .ok l) ∧ placeWaits u rt l n = false ∧ lossAt u l n = none

/-! ### Accesses from outside -/

/-- An access of the host, or a message that lands, arrives at its home by an event: it is performed, with this state, where nothing waits at a home and
no peer holds a copy against it; where some peer does, or an earlier one has to be performed first, it waits, nothing is written, and each holder has a time to answer by
(R438). -/
def homeAnswers (o : DevOp) (i : Instr) (done s : State) : Prop :=
  let against := fun (d : PeerCopy) => ∃ l ∈ o.lines s, d.against l (!o.reads) = true
  (s.devWaits = [] → (∀ d ∈ s.peerDir, ¬ against d) → exec i s = .next done) ∧
  (((∃ d ∈ s.peerDir, against d) ∨ ∃ a ∈ s.devWaits, a.before o = true) →
    ∃ t, exec i s = .next t ∧ t.devWaits = s.devWaits ++ [o] ∧ t.mem = s.mem ∧ t.bad = s.bad ∧ t.hostRead = s.hostRead ∧ t.cores = s.cores ∧
      (∀ d ∈ t.peerDir, against d → d.till.isSome = true))

/-! ### What stays -/

/-- Beside the destination d, where the context stands and what its ports have passed on, an instruction has left the machine as it was (R41, R44,
R94): memory and scratchpad, special registers and accumulators, the other registers, the results already in flight, every other context and
core, and all clusters, partitions, requests and units. -/
def onlyRegister (d : Reg) (s t : State) : Prop :=
  { t with cores := s.cores, note := s.note, nextId := s.nextId } = s ∧
  (∀ a, getByte t.mem a = getByte s.mem a) ∧ (∀ a, getByte t.mine.spad a = getByte s.mine.spad a) ∧
  (∀ n, n ≠ s.cur.core → t.core n = s.core n) ∧
  { t.mine with ctxs := s.mine.ctxs, nextIssue := s.mine.nextIssue, rr := s.mine.rr, issueSeq := s.mine.issueSeq, ports := s.mine.ports,
                msgrecv := s.mine.msgrecv, recv := s.mine.recv, sent := s.mine.sent } = s.mine ∧
  (∀ c : CtxId, c ≠ s.cur → { t.ctx c with yieldTo := (s.ctx c).yieldTo } = s.ctx c) ∧
  (∀ r, r ≠ d → t.me.reg r = s.me.reg r ∧ t.me.isPoisoned r = s.me.isPoisoned r) ∧
  (∀ e ∈ s.me.inflight, e ∈ t.me.inflight) ∧ (∀ e ∈ t.me.inflight, e ∈ s.me.inflight ∨ e.reg = d) ∧
  (∀ e ∈ s.me.varRes, e ∈ t.me.varRes) ∧ (∀ e ∈ t.me.varRes, e ∈ s.me.varRes ∨ e.reg = d) ∧
  { t.me with g := s.me.g, poison := s.me.poison, pc := s.me.pc, icount := s.me.icount, nextIssue := s.me.nextIssue, yieldTo := s.me.yieldTo
              fwd := s.me.fwd, wait := s.me.wait, frame := s.me.frame, inflight := s.me.inflight
              varRes := s.me.varRes, sends := s.me.sends, fpHold := s.me.fpHold, enter := s.me.enter } = s.me

/-! ### Safe states -/

/-- A core's own memories are in canonical form (R127, R156). -/
def coreSafe (k : Core) : Bool := Memory.wf k.imem && Memory.wf k.spad

/-- Every memory of the machine is in canonical form. -/
def memSafe (s : State) : Bool := Memory.wf s.mem && s.cores.all (fun c => coreSafe c.2)

end Sys2Proof
end

