-- ==== Sys2Proof/Certificates/Slice0/Obligations.lean ====
section
/-!
DEFINITION. The statements for the provers.
-/

open Sys2Proof Sys2Proof.Machine


/-- For every well-formed instruction, with every operand at every value its encoding admits, the decoder reads the encoder's word
as that instruction. (R37, R38, R42, R43) -/
def Obligations.DecodeEncode : Prop := ∀ i : Instr, i.wf = true → decode (encode i) = .ok i

/-- Every word the decoder accepts is the encoding of the instruction it reads, and that instruction is well formed: no bit of a
word is ignored. The all-zeros and all-ones words and every word of major 0x00, 0x2E–0x3E or 0x3F are refused. (R37, R38) -/
def Obligations.DecodeExact : Prop :=
  (∀ (v : IWord) (i : Instr), decode v = .ok i → encode i = v ∧ i.wf = true) ∧
  (∀ v : IWord, (v.toNat / 2 ^ 26 = 0 ∨ 0x2E ≤ v.toNat / 2 ^ 26) → ∃ e, decode v = .error e)

/-- One word of each of several families, written out from its fields as the spec gives them, is decoded as the instruction it
stands for. (R39, R56, R60) -/
def Obligations.DecodeWords : Prop :=
  ∀ p ∈ ([
      (0b00000100110001100011000000000000, .add 6 6 6 0),
      (0b00001000101001011011001111000000, .addi 5 5 0x1678 0),
      (0b00100100101001001000110100011000, .lui 5 0x091A3 0),
      (0b00101100111010000000110000111000, .extu 7 8 12 7 0),
      (0b00110001010010110000000010000000, .cvtI64F32 10 11 0),
      (0b00110100011001000101111111101000, .blt 3 4 0x3FD 0),
      (0b01000100111000110000000101110000, .ld 7 3 2 3 2 0),
      (0b01010001000010010101000111011000, .cas 8 9 10 5 1 0),
      (0b01010100100001010011011110000000, .sti 4 5 6 3 1 1 0),
      (0b01011000000001010011010100100000, .fenceFull 5 6 5 1 0),
      (0b01011100111010000100100000001000, .vwset 7 8 9 0),
      (0b01101100100010010111011000011001, .vfma 4 9 14 6 1),
      (0b01110000001000000000101101000000, .vcmplt 1 0 1 3 0),
      (0b01111100000000111001111001000000, .rpt 0 7 3 1 1 0 1 0),
      (0b10000001000010010101000000000000, .xsend 8 9 10 0),
      (0b10001100000001010000000110000000, .djoin 5 2 0),
      (0b10011000010010010000000001011000, .crclr 2 9 2 0),
      (0b10011100001010100000000000000000, .trap 0x2A 0),
      (0b10101000101001100000000000000000, .lnch 5 6 0),
      (0b10101100101111010000000000000000, .qpeek 5 1 0),
      (0b10110000001001010000000000000000, .pset 1 5 0)
    ] : List (IWord × Instr)), decode p.1 = .ok p.2

/-- A context at the head of the agenda that issue may select in this cycle is selected; where nothing of its own stands before the
instruction, it replays no frame, its PC lies in a resident segment and the word there decodes to i, the step is the execution of
i in the state in which the context is selected; a leader of a troupe then forwards it. A context that may not issue at all is
passed over. Anything else at the head of the agenda waits for the results that are due and for the contexts that issue selects in
this cycle: then an event is executed as it stands, after this cycle's issue, bytes of a launch's image are copied into a scratchpad (log entry 90), an
external debugger reaches a register, and one cycle of those that shall pass ends. With an
empty agenda what is due comes about, then an event that is enabled, and else the cycle ends. (The agenda is the model's own: log
entry 3.) (R38, R44, R127, R128, R142) -/
def Obligations.StepRunsDecoded : Prop :=
  ∀ (s : State) (rest : List Act),
    (∀ (c : CtxId) (i : Instr), s.agenda = .issue c :: rest → maySelect s c = true →
      let u := select c { s with agenda := rest }
      let word : IWord := BitVec.ofNat 32 (readLe u.mine.imem (slotOf u.me.pc * 2048 + u.me.pc.toNat % 2048) 4)
      u.me.killReq = false → (u.me.deferred = [] ∨ u.me.defDepth ≠ 0 ∨ u.me.arrived = true) → u.me.sends = [] →
      streamFull u = false → u.me.fwd = none → u.me.frame = none → u.mine.isResident u.me.pc = true → decode word = .ok i →
        (step s = match exec i u with
          | .next t => .next (afterIssue word i u t)
          | .fault f => .fault f
          | .refused r => .refused r) ∧
        (u.cur.ctx ≠ 0 ∨ followers u u.cur.core = [] → step s = exec i u)) ∧
    (∀ c : CtxId, s.agenda = .issue c :: rest → canIssue s c = false → step s = .next { s with agenda := rest }) ∧
    (∀ b : Act, dueAct s = some b → (s.agenda = [] ∨ (∃ i, s.agenda = .event i :: rest) ∨ (∃ n, s.agenda = .pass n :: rest)) → step s = perform b s) ∧
    (dueAct s = none →
      (∀ i : Instr, s.agenda = .event i :: rest → encode i = 0 →
        step s = exec i { s with agenda := rest, late := if isEarly i then s.late else true }) ∧
      (∀ (core at_ : Nat) (bytes : List Byte), s.agenda = .image core at_ bytes :: rest → step s = .next (spadImage core at_ bytes { s with agenda := rest })) ∧
      (∀ (pa : Nat) (v : Option Word), s.agenda = .debugger pa v :: rest → step s = .next (debuggerAccess pa v { s with agenda := rest })) ∧
      (∀ n : Nat, s.agenda = .pass (n + 1) :: rest → step s = .next (tick { s with agenda := if n = 0 then rest else .pass n :: rest })) ∧
      (s.agenda = [] → enabledEvent s = none → step s = .next (tick s)))

/-- A selected context whose next word (forwarded, replayed or fetched) does not decode traps ILLEGAL with the word as cr.tval and
nothing else of the word happens; where its PC is not in a resident segment it traps CODEEND in sequence, and at its first own
fetch XLATE for a FAILED segment and CODEABSENT for any other. (R38, R122, R127, R128, R134, R155) -/
def Obligations.FetchAndIllegalWords : Prop :=
  ∀ (s : State) (rest : List Act) (c : CtxId), s.agenda = .issue c :: rest → maySelect s c = true →
    let u := select c { s with agenda := rest }
    u.me.killReq = false → (u.me.deferred = [] ∨ u.me.defDepth ≠ 0 ∨ u.me.arrived = true) → u.me.sends = [] → streamFull u = false →
      (∀ (v : IWord) (e : Reject), nextWord u = .inl v → decode v = .error e →
        step s = trap (.mk' cILLEGAL (BitVec.setWidth 64 v)) u) ∧
      (u.me.fwd = none → u.me.frame = none → u.mine.isResident u.me.pc = false →
        step s = trap (.mk' (if !u.me.enter then cCODEEND else if u.mine.isFailed u.me.pc then cXLATE else cCODEABSENT) u.me.pc) u)

/-- Taking a trap makes the fixed-latency results in flight visible (those for a port as far as the routers have taken the sends
before them: log entry 60) and writes cr.tpc, cr.tcause, cr.tval, cr.rptst with the frame state, SPRV
with the privilege, and cr.fpc with DEF set only for a trap that carries an access PC; the privilege becomes S from U and S and H
from H, H always for HCALLTRAP and SCOPECAP; and the PC goes to 64 bytes per cause from cr.tvec, or from the partition's
hypervisor vector at H. Variable-latency results stay under way, the frame ends, and the instruction is not counted. Where the vector is resident and no
result in flight is for a port, a trap of a context that leads no attached follower and
follows none changes nothing but that context (and when its core may issue next): every other context, every other core, every
byte of memory and of scratchpad, the ports, clusters, partitions, requests and units stay as they were; of the context itself
every register but those of trap entry and the ones that results in flight write stay too. (R47, R136, R147, R148, R149, R155) -/
def Obligations.TrapEntry : Prop :=
  ∀ (t : Trap) (tpc : Word) (s : State), s.cur.ctx < 11 →
    (let x := s.me
     let level : BitVec 2 := if t.cause = cHCALLTRAP ∨ t.cause = cSCOPECAP then 2 else if x.priv.toNat ≤ 1 then 1 else 2
     let y := (takeTrap t tpc s).me
     y.tpc = tpc ∧ y.tcause = t.cause ∧ y.tval = t.tval ∧ y.fpc = t.fpc.getD x.fpc ∧ y.deff = t.fpc.isSome ∧
     y.rptst = frameWord x.frame ∧ y.sprv = x.priv ∧ y.priv = level ∧
     y.pc = (if level = 2 then s.myPart.hvec else x.tvec) + BitVec.ofNat 64 (64 * t.cause.toNat) ∧
     y.frame = none ∧ (∀ e ∈ y.inflight, 28 ≤ e.reg.toNat) ∧ ((∀ e ∈ x.inflight, e.reg.toNat < 28) → y.inflight = []) ∧ y.varRes = x.varRes ∧ y.icount = x.icount ∧
     y.g = (settleAll s s.cur).me.g ∧ y.fflags = (settleAll s s.cur).me.fflags ∧ (takeTrap t tpc s).note = .trapped) ∧
    (s.me.fwd = none → (s.cur.ctx ≠ 0 ∨ followers s s.cur.core = []) →
      (∀ e ∈ s.me.inflight, isPort e.reg = false) →
      s.mine.isResident (trapVector s.myPart s.me (trapLevel s.me.priv t.cause) t.cause) = true →
      let u := takeTrap t tpc s
      { u with cores := s.cores, note := s.note } = s ∧
      { u.mine with ctxs := s.mine.ctxs, nextIssue := s.mine.nextIssue } = s.mine ∧
      (∀ n, n ≠ s.cur.core → u.core n = s.core n) ∧
      (∀ c : CtxId, c ≠ s.cur → u.ctx c = s.ctx c) ∧
      (∀ a, getByte u.mem a = getByte s.mem a) ∧ (∀ a, getByte u.mine.spad a = getByte s.mine.spad a) ∧
      (∀ r : Reg, (∀ e ∈ s.me.inflight, e.reg ≠ r) → u.me.reg r = s.me.reg r ∧ u.me.isPoisoned r = s.me.isPoisoned r) ∧
      u.me.p = s.me.p ∧ u.me.m = s.me.m ∧ u.me.frm = s.me.frm ∧ u.me.chk = s.me.chk ∧ u.me.sbase = s.me.sbase ∧ u.me.slim = s.me.slim ∧
      u.me.tvec = s.me.tvec ∧ u.me.vq = s.me.vq ∧ u.me.stage = s.me.stage ∧ u.me.live = s.me.live)

/-- Where the slot of the vector address does not hold that address's segment in state RESIDENT, whatever it holds instead, the
context is left with cr.tpc, cr.tcause, cr.tval, cr.fpc, cr.rptst and the privilege as trap entry set them, it may not issue any
more, its partition goes from RUNNING to HALTED with reason 0, and its cluster reads CAUSE 4 with CORE naming the core; where the
slot holds the segment, the context may go on and partition and cluster are as they were. (R148) -/
def Obligations.VectorMissStopsThePartition : Prop :=
  ∀ (t : Trap) (tpc : Word) (s : State), s.cur.ctx < 11 → s.myPart.state = 1 → s.myPart.owns (rankOf s.cur.core) = true →
    let level := trapLevel s.me.priv t.cause
    let vec := trapVector s.myPart s.me level t.cause
    let u := takeTrap t tpc s
    ((∀ seq, s.mine.slot (slotOf vec) ≠ .resident (segOf vec) seq) →
      u.me.tpc = tpc ∧ u.me.tcause = t.cause ∧ u.me.tval = t.tval ∧ u.me.fpc = t.fpc.getD s.me.fpc ∧
      u.me.rptst = frameWord s.me.frame ∧ u.me.priv = level ∧ u.me.sprv = s.me.priv ∧ u.me.pc = vec ∧
      (∀ v : State, (v.ctx s.cur).missed = true → canIssue v s.cur = false) ∧ u.me.missed = true ∧
      (u.part s.myPartNo).state = 5 ∧ (u.part s.myPartNo).reason = 0 ∧
      (u.cluster (rankOf s.cur.core)).cause = 4 ∧ (u.cluster (rankOf s.cur.core)).dcore = BitVec.ofNat 4 (s.cur.core % 16)) ∧
    ((∃ seq, s.mine.slot (slotOf vec) = .resident (segOf vec) seq) →
      u.me.missed = false ∧ u.me.pc = vec ∧ u.parts = s.parts ∧ (u.cluster (rankOf s.cur.core)).cause = (s.cluster (rankOf s.cur.core)).cause)

/-- At U, ERET traps PRIV. At S and H it restores the privilege from SPRV, clears SPRV and goes to cr.tpc: into the frame of
cr.rptst where its ACT bit is set and the frame's words are resident, else through Enter; a check that fails traps at the new
privilege, its handler's first instruction 1 + W cycles after the ERET at the earliest, with cr.tpc the target, cr.rptst and the frame kept where it is the frame's words that are not resident (both the model's reading, log entry
17). (R44, R137, R152) -/
def Obligations.EretReturns : Prop :=
  ∀ (w : BitVec 3) (s : State),
    (s.me.priv = 0 → exec (.eret w) s = trap (.mk' cPRIV (BitVec.setWidth 64 (encode (.eret w)))) s) ∧
    (s.me.priv ≠ 0 →
      let x := s.me
      let target := x.tpc
      let back := fun (f : Option Frame) => s.setMe { x with priv := x.sprv, sprv := 0, defDepth := x.defDepth - 1, frame := f }
      let f := frameOf s.mine x.rptst target
      (x.rptst.getLsbD 63 = false →
        ((s.cur.ctx < 11 ∧ (s.me.fwd.isSome ∨ s.mine.isResident target = true) →
          exec (.eret w) s = .next (retireAt w (fun y => { y with pc := target }) (back none))) ∧
        (s.cur.ctx < 11 → s.me.fwd = none → s.mine.isResident target = false →
          exec (.eret w) s =
            .next (slotTaken (takeTrap (.mk' (if s.mine.isFailed target then cXLATE else cCODEABSENT) target) target (spaced w (back none))))))) ∧
      (s.cur.ctx < 11 → x.rptst.getLsbD 63 = true → frameResident s.mine f = true →
        exec (.eret w) s = .next (retireAt w (fun y => { y with pc := target }) (back (some f)))) ∧
      (s.cur.ctx < 11 → x.rptst.getLsbD 63 = true → frameResident s.mine f = false →
        exec (.eret w) s = .next (slotTaken (takeTrap (.mk' cCODEABSENT target) target (spaced w (back (some f)))))))

/-- TRAP, SYSC, HCALL and BKPT are complete and counted and take their trap with cr.tpc the next address, TRAP with its number as
cr.tval, and the handler's first instruction issues no earlier than 1 + W cycles after them (that W delays the handler is the model's reading, log entry
16); where the cluster's debug module asks for it, BKPT completes and halts the cluster with CAUSE 2 instead. (R44, R101, R146, R147,
R295) -/
def Obligations.SoftwareTraps : Prop :=
  ∀ (k : BitVec 10) (w : BitVec 3) (s : State),
    let counted := s.setMe { s.me with icount := s.me.icount + 1 }
    let entry := fun (cause : BitVec 6) (tval : Word) =>
      let t := slotTaken (takeTrap (.mk' cause tval) (s.me.pc + 4) counted)
      Host.Outcome.next (t.setMe { t.me with nextIssue := s.cycle + 1 + w.toNat })
    exec (.trap k w) s = entry cTRAPINSTR (BitVec.setWidth 64 k) ∧
    exec (.sysc w) s = entry cSYSCALL 0 ∧
    exec (.hcall w) s = entry cHCALLTRAP 0 ∧
    ((s.cluster (rankOf s.cur.core)).dmctl.getLsbD 0 = false → exec (.bkpt w) s = entry cBKPT 0) ∧
    ((s.cluster (rankOf s.cur.core)).dmctl.getLsbD 0 = true →
      ∃ t, exec (.bkpt w) s = .next t ∧ (t.cluster (rankOf s.cur.core)).halted = true ∧ (t.cluster (rankOf s.cur.core)).cause = 2 ∧
        (t.cluster (rankOf s.cur.core)).dcore = BitVec.ofNat 4 (s.cur.core % 16) ∧ t.cores = (finish w [] s).cores)

/-- At U, the instructions of level S trap PRIV with their word; in a helper, those that only ctx0 may issue trap ILLEGAL with
their word, as HEXIT does in ctx0. Neither has any other effect. (That the ILLEGAL comes before what a poisoned or awaited source or an empty port does
is the model's choice, log entry 84.) (R57, R61, R138, R140, R143, R146, R152, R265, R312, R382) -/
def Obligations.PrivilegedInstructions : Prop :=
  ∀ (d a b : Reg) (w : BitVec 3) (s : State),
    let word := fun (i : Instr) => BitVec.setWidth 64 (encode i)
    (s.me.priv = 0 → ∀ i ∈ [Instr.rpop d w, .rfix a b w, .rreplay a w, .rkill a w, .eret w, .halt w, .gang w, .tlbiL a w, .tlbiB a b w],
      exec i s = trap (.mk' cPRIV (word i)) s) ∧
    (s.cur.ctx ≠ 0 → ∀ i ∈ [Instr.hstart d a b w, .hstartNb d a b w, .hkill a w, .gexit w, .trForm d a w, .trBreak w, .trDetach w, .trRejoin w],
      exec i s = trap (.mk' cILLEGAL (word i)) s) ∧
    (s.cur.ctx = 0 → exec (.hexit w) s = trap (.mk' cILLEGAL (word (.hexit w))) s)

/-- A register that awaits an interlocked result, or a port with fewer words than the instruction reads from it, holds the
instruction; else, with cr.chk set, a source or destination whose fixed-latency result is in flight traps STALLSHORT with the
PC of a producer of one of them; else a poisoned source traps POISON with the PC and address recorded for it, which one of several being the model's
choice (log entry 61); else nothing does. g0 and the ports
are never in the way but for the words a port holds (the model's reading, log entry 19). (R41, R45, R46, R61, R95, R96, R103) -/
def Obligations.HazardCases : Prop :=
  ∀ (rs ds : List Reg) (s : State),
    let waits := fun (r : Reg) => r ≠ 0 ∧ r.toNat < 28 ∧
      ((∃ e ∈ s.me.varRes, e.reg = r) ∨ (∃ h ∈ s.me.ring, h.reg = r) ∨ (∃ q ∈ s.reqs, q.ctx = s.cur ∧ q.dest = r ∧ q.drop = false))
    let starved := fun (r : Reg) => 28 ≤ r.toNat ∧ (s.mine.port (r.toNat - 28)).length < rs.count r
    let flying := fun (r : Reg) => r ≠ 0 ∧ r.toNat < 28 ∧ ∃ e ∈ s.me.inflight, e.reg = r
    let bad := fun (r : Reg) => r ≠ 0 ∧ r.toNat < 28 ∧ s.me.isPoisoned r = true
    let held_ := (∃ r ∈ rs ++ ds, waits r) ∨ (∃ r ∈ rs, starved r)
    (held_ ↔ hazard rs ds s = .hold) ∧
    (¬ held_ → s.me.chk = true → (∃ r ∈ rs ++ ds, flying r) →
      ∃ r ∈ rs ++ ds, ∃ e ∈ s.me.inflight, flying r ∧ e.reg = r ∧ hazard rs ds s = .trap (.mk' cSTALLSHORT e.pc)) ∧
    (¬ held_ → (s.me.chk = false ∨ ¬ ∃ r ∈ rs ++ ds, flying r) → (∃ r ∈ rs, bad r) →
      ∃ r ∈ rs, bad r ∧ hazard rs ds s =
        .trap ⟨cPOISON, (s.me.prec[r.toNat]?.getD (0, 0)).2, some (s.me.prec[r.toNat]?.getD (0, 0)).1, false⟩) ∧
    (¬ held_ → (s.me.chk = false ∨ ¬ ∃ r ∈ rs ++ ds, flying r) → ¬ (∃ r ∈ rs, bad r) → hazard rs ds s = .clear)

/-- For an arithmetic, a floating-point, a load and a store form: where a hazard holds it, the instruction has not issued and only
a cycle passes for its context, and where a hazard traps, the trap is taken with the instruction's own effect left out; with no
hazard, a result for a port whose route is not valid or leaves the partition traps PORTFAULT with the route. (R38, R46, R61, R95,
R149, R261) -/
def Obligations.HeldAndTrappedForms : Prop :=
  ∀ (d a b : Reg) (o : BitVec 9) (z t : BitVec 2) (w : BitVec 3) (s : State),
    let r := s.mine.qroute[d.toNat - 28]?.getD 0
    (∀ p ∈ [(Instr.add d a b w, [a, b], [d]), (.fadd d a b w, [a, b], [d]), (.ld d a o z t w, [a], [d]), (.st d a o z t w, [a, d], [])],
      (hazard p.2.1 p.2.2 s = .hold → exec p.1 s = .next (held s)) ∧
      (∀ e, hazard p.2.1 p.2.2 s = .trap e → exec p.1 s = trap e s)) ∧
    (hazard [a, b] [d] s = .clear → 28 ≤ d.toNat → (r.getLsbD 31 = false ∨ 16 * s.ptlen ≤ (r.extractLsb' 0 15).toNat) →
      exec (.add d a b w) s = trap (.mk' cPORTFAULT r) s)

/-- An instruction that completes leaves its context one instruction further: the PC at the next word (or as the frame's replay
says), cr.icount one more, the next issue no earlier than 1 + W cycles later; its core may issue in the next cycle and turns to
the next context; each port read loses its words from the head, and cr.msgrecv counts them; its
next fetch is not its first any more. Registers, poison, flags and special
registers of the context, every other context's registers, every other core, all memory, every cluster, partition, request and
unit stay as they were. (R41, R44, R94, R101, R128, R142, R263) -/
def Obligations.RetireEffect : Prop :=
  ∀ (w : BitVec 3) (rs : List Reg) (s : State), s.cur.ctx < 11 →
    let t := finish w rs s
    t.me = ({ s.me with
      nextIssue := s.cycle + 1 + w.toNat, fwd := none, wait := .none, icount := s.me.icount + 1, enter := false
      yieldTo := s.me.yieldTo.filter (fun i => i != s.cur.ctx) } : Ctx).advance ∧
    (s.me.frame = none → t.me.pc = s.me.pc + 4 ∧ t.me.frame = none) ∧
    t.mine.nextIssue = s.cycle + 1 ∧ t.mine.rr = s.cur.ctx ∧ t.mine.issueSeq = s.mine.issueSeq + 1 ∧ t.note = .retired ∧
    (∀ q < 4, t.mine.port q = (s.mine.port q).drop (rs.count (BitVec.ofNat 5 (28 + q)))) ∧
    (∀ q < 4, rs = [BitVec.ofNat 5 (28 + q)] → s.mine.port q ≠ [] → t.mine.msgrecv = s.mine.msgrecv + 1) ∧
    { t with cores := s.cores, note := s.note } = s ∧
    (∀ n, n ≠ s.cur.core → t.core n = s.core n) ∧
    { t.mine with ctxs := s.mine.ctxs, nextIssue := s.mine.nextIssue, rr := s.mine.rr, issueSeq := s.mine.issueSeq, ports := s.mine.ports,
                  msgrecv := s.mine.msgrecv, recv := s.mine.recv } = s.mine ∧
    (∀ c : CtxId, c ≠ s.cur → { t.ctx c with yieldTo := (s.ctx c).yieldTo } = s.ctx c)

/-- A result of latency L is in flight from its issue on and due L cycles later; until it becomes visible the register keeps its
value. Becoming visible writes the register, clears its poison bit and accrues its flags; for g0 only the flags accrue; for a port
the word joins those the context sends on that port's route (or on the one that the result keeps from before a write of cr.qroute: log entry 95), of which it never has more than one that no router has accepted. Of
results due in one cycle the later-issued stands later, so that its value prevails. (R44, R45, R46, R75, R94, R95, R96) -/
def Obligations.ResultsInFlight : Prop :=
  ∀ (s : State), s.cur.ctx < 11 →
    (∀ (lat : Nat) (d : Reg) (v : Word) (flags : BitVec 8), ¬ (d = 0 ∧ flags = 0) →
      (produce lat d v flags s).me.inflight = insertInflight s.me.inflight ⟨d, v, s.cycle + lat, s.me.pc, flags, s.mine.issueSeq, false, none⟩ ∧
      (produce lat d v flags s).me.g = s.me.g ∧ (produce lat d v flags s).me.fflags = s.me.fflags) ∧
    (∀ (lat : Nat) (v : Word), produce lat 0 v 0 s = s) ∧
    (s.me.sends.length ≤ 1 → (settle s s.cur).me.sends.length ≤ 1) ∧
    (∀ (l : List Inflight) (e : Inflight), l.Pairwise (fun x y => x.visibleAt ≤ y.visibleAt) →
      ∃ l₁ l₂, l = l₁ ++ l₂ ∧ insertInflight l e = l₁ ++ e :: l₂ ∧ (∀ x ∈ l₁, x.visibleAt ≤ e.visibleAt) ∧
        (∀ x ∈ l₂, e.visibleAt < x.visibleAt)) ∧
    (∀ (r : Reg) (v : Word) (flags : BitVec 8) (kept : Option Word),
      let t := writeResult s s.cur r v flags kept
      t.me.fflags = s.me.fflags ||| flags ∧
      (r ≠ 0 → r.toNat < 28 → t.me.reg r = v ∧ t.me.isPoisoned r = false ∧ t.me.sends = s.me.sends) ∧
      (∀ r', r' ≠ r → t.me.reg r' = s.me.reg r' ∧ t.me.isPoisoned r' = s.me.isPoisoned r') ∧
      (r = 0 → t.me.g = s.me.g ∧ t.me.poison = s.me.poison ∧ t.me.sends = s.me.sends) ∧
      (28 ≤ r.toNat → t.me.g = s.me.g ∧ ∃ x, t.me.sends = s.me.sends ++ [x] ∧ x.value = v ∧ x.src = s.cur.core ∧ x.route = r.toNat - 28 ∧
        x.port = ((kept.getD (s.mine.qroute[r.toNat - 28]?.getD 0)).extractLsb' 16 2).toNat ∧ x.launch = s.mine.launch.setWidth 32) ∧
      { t with cores := s.cores, nextId := s.nextId } = s)

/-- FIXED_RESULT_VISIBLE and VARIABLE_RESULT_WRITE take the result of a context that is next of those due out of its list and write
it, the flags of a vector instruction accruing at the end of the cycle: of a fixed-latency and a variable-latency one the one that is due earlier, and of two due in one cycle the earlier-issued; one
for a port waits while a send has not been accepted. FPEXC_TRAP, once the flags of the held instruction are known, accrues them and
traps FPEXC at that instruction with the flags in cr.tval; DEFERRED_TRAP takes the oldest deferred trap of a context at its issue
point, with the PC it would have issued at and DEF set. (R44, R75, R76, R95, R103, R110, R149, R155) -/
def Obligations.ResultEvents : Prop :=
  ∀ (core ctx : Nat) (s : State), ctx < 11 →
    let c : CtxId := ⟨core, ctx⟩
    let x := s.ctx c
    let may := fun (r : Reg) => r.toNat < 28 ∨ x.sends = []
    (∀ e, x.nextDue s.cycle = some (.inl e) →
      let t := s.setCtx c { x with inflight := x.inflight.erase e }
      (e.fpu = true → exec (.fixedResultVisible core ctx) s = .next (writeResult t c e.reg e.value e.flags e.route)) ∧
      (e.fpu = false → exec (.fixedResultVisible core ctx) s = .next (accrueAt c s.cycle e.flags (writeResult t c e.reg e.value 0 e.route))) ∧
      e ∈ x.inflight ∧ e.visibleAt ≤ s.cycle ∧ may e.reg ∧
      (x.varRes.Pairwise (fun v v' => v.due ≤ v'.due) → ∀ v ∈ x.varRes, v.due ≤ s.cycle → may v.reg → e.visibleAt ≤ v.due)) ∧
    (∀ v, x.nextDue s.cycle = some (.inr v) →
      exec (.variableResultWrite core ctx) s = .next (writeResult (s.setCtx c { x with varRes := x.varRes.erase v }) c v.reg v.value v.flags v.route) ∧
      v ∈ x.varRes ∧ v.due ≤ s.cycle ∧ may v.reg ∧
      (x.inflight.Pairwise (fun e e' => e.visibleAt ≤ e'.visibleAt) → ∀ e ∈ x.inflight, e.visibleAt ≤ s.cycle → may e.reg → v.due ≤ e.visibleAt)) ∧
    (x.nextDue s.cycle = none → (∀ e ∈ x.inflight, e.visibleAt ≤ s.cycle → ¬ may e.reg) ∧ (∀ v ∈ x.varRes, v.due ≤ s.cycle → ¬ may v.reg) ∧
      exec (.fixedResultVisible core ctx) s = .next s ∧ exec (.variableResultWrite core ctx) s = .next s) ∧
    (∀ h, x.fpHold = some h → h.due ≤ s.cycle → x.live = true → coreRuns s core = true →
      let u := settle { s with cur := c } c
      exec (.fpexcTrap core ctx) s =
        .next (takeTrap (.mk' cFPEXC (BitVec.setWidth 64 (h.flags &&& 0x1F))) u.me.pc
          (u.setMe { u.me with fpHold := none, fflags := u.me.fflags ||| h.flags }))) ∧
    (∀ d ∈ x.deferred, (∀ e ∈ x.deferred, e ≠ d → d.order < e.order) → canIssue s c = true → inTime s c = true → x.defDepth = 0 →
      x.arrived = false → x.killReq = false →
      let u := select c s
      exec (.deferredTrap core ctx) s =
        .next (slotTaken (takeTrap ⟨d.cause, d.tval, some d.fpc, true⟩ u.me.pc
          (u.setMe { u.me with deferred := u.me.deferred.filter (fun e => e != d) }))))

/-- At reset every partition is FREE, every context of every core is not live with its general registers and poison bits zero, its
masks all ones, its privilege U and WEIGHT 8, every slot is EMPTY, cr.pquota is 32, cr.amaxsc 5, cr.trwait 65,536 and cr.tenlease
1,048,576, cr.scopecap is 7 and cr.tsscale 65,536, TCMIN0 and TCMIN1 are 0x0808_0808_0808_0808, no personality is set, and nothing
is in flight. (That memory reads 0, and the zeros the spec gives no reset value for, are the model's choices: log entries 1 and
2.) (R63, R127, R390, R422) -/
def Obligations.ResetState : Prop :=
  let s := State.reset
  (∀ p < 64, (s.part p).state = 0 ∧ (s.part p).scopecap = 7 ∧ (s.part p).tsscale = 65536 ∧ (s.part p).s2ctl = false) ∧
  (∀ c : CtxId, c.ctx < 11 →
    (s.ctx c).live = false ∧ (∀ r : Reg, (s.ctx c).reg r = 0) ∧ (s.ctx c).poison = 0 ∧ (s.ctx c).priv = 0 ∧ (s.ctx c).vshare = 8 ∧
    (∀ k < 4, (s.ctx c).m[k]?.getD 0 = BitVec.allOnes 1024) ∧ (s.ctx c).inflight = [] ∧ (s.ctx c).vq = []) ∧
  (∀ n, (∀ i < 32, (s.core n).slot i = .empty) ∧ (s.core n).pquota = 32 ∧ (s.core n).amaxsc = 5 ∧ (s.core n).trwait = 65536 ∧
    (s.core n).tenlease = 1048576 ∧ (∀ q, (s.core n).port q = []) ∧ (s.core n).mq = [] ∧ (s.core n).group = none) ∧
  (∀ r, (s.cluster r).halted = false ∧ (s.cluster r).troupes = []) ∧
  s.fabric.tcmin0 = 0x0808080808080808 ∧ s.fabric.tcmin1 = 0x0808080808080808 ∧ (∀ k < 48, s.fabric.edges[k]? = some ⟨0, 0, false⟩) ∧
  s.reqs = [] ∧ s.pushes = [] ∧ s.net = [] ∧ s.engine = [] ∧ s.msi = [] ∧ s.security.stages = 0

/-- From any state in which bonded and far memory and every core's instruction memory and scratchpad are in canonical form
(addresses rising, no byte listed that reads as an unlisted one), a step that answers a next state leaves them so, whatever the
agenda says: equal contents stay equal data. (R5, R127, R156, R377) -/
def Obligations.StepKeepsMemoriesCanonical : Prop :=
  ∀ s t : State, memSafe s = true → step s = .next t → memSafe t = true

/-- At reset every memory is in canonical form. (R127, R156) -/
def Obligations.ResetIsSafe : Prop := memSafe State.reset = true

/-- Each instruction of the ALU major whose result has a fixed latency, once nothing before its own checks holds or traps it and
its destination's route (if it is a port) may be used, completes with the value of R104's table for its operands as a result in
flight for its destination, 3 cycles away for a multiplication and 1 cycle away for the others, and raises no flag. A port as a
source gives its head word, a port as d of SEL is the third source. DIV, DIVU, REM and REMU complete with an interlocked result for d: the quotient
truncated toward zero or the remainder that
belongs to it, all ones and the dividend for a zero divisor, the minimum and 0 for the minimum divided by -1; it is due 6 + ⌈n/4⌉
cycles after issue, n being the significant bits of the dividend's magnitude (of the dividend read as N64 for DIVU and REMU), or 6
cycles after issue for a zero divisor. (R41, R44, R45, R103, R104) -/
def Obligations.IntegerResults : Prop :=
  ∀ (s : State) (d a b : Reg) (w : BitVec 3),
    (ReadyTo [a, b] d s →
      let x := s.rdA a
      let y := s.rdB a b
      let n := y.toNat % 64
      let done := fun (lat : Nat) (v : Word) => resultOf w [a, b] lat d v s
      exec (.add d a b w) s = done 1 (x + y) ∧
      exec (.sub d a b w) s = done 1 (x - y) ∧
      exec (.and d a b w) s = done 1 (x &&& y) ∧
      exec (.or d a b w) s = done 1 (x ||| y) ∧
      exec (.xor d a b w) s = done 1 (x ^^^ y) ∧
      exec (.andn d a b w) s = done 1 (x &&& ~~~y) ∧
      exec (.shl d a b w) s = done 1 (BitVec.ofNat 64 (x.toNat * 2 ^ n)) ∧
      exec (.shr d a b w) s = done 1 (BitVec.ofNat 64 (x.toNat / 2 ^ n)) ∧
      exec (.sar d a b w) s = done 1 (BitVec.ofInt 64 (x.toInt / 2 ^ n)) ∧
      exec (.rol d a b w) s = done 1 (if n = 0 then x else (x <<< n) ||| (x >>> (64 - n))) ∧
      exec (.ror d a b w) s = done 1 (if n = 0 then x else (x >>> n) ||| (x <<< (64 - n))) ∧
      exec (.slt d a b w) s = done 1 (if x.toInt < y.toInt then 1 else 0) ∧
      exec (.sltu d a b w) s = done 1 (if x.toNat < y.toNat then 1 else 0) ∧
      exec (.seq d a b w) s = done 1 (if x = y then 1 else 0) ∧
      exec (.min d a b w) s = done 1 (BitVec.ofInt 64 (min x.toInt y.toInt)) ∧
      exec (.max d a b w) s = done 1 (BitVec.ofInt 64 (max x.toInt y.toInt)) ∧
      exec (.minu d a b w) s = done 1 (BitVec.ofNat 64 (min x.toNat y.toNat)) ∧
      exec (.maxu d a b w) s = done 1 (BitVec.ofNat 64 (max x.toNat y.toNat)) ∧
      exec (.mul d a b w) s = done 3 (BitVec.ofInt 64 (x.toInt * y.toInt)) ∧
      exec (.mulh d a b w) s = done 3 (BitVec.ofInt 64 (x.toInt * y.toInt / 2 ^ 64)) ∧
      exec (.mulhu d a b w) s = done 3 (BitVec.ofNat 64 (x.toNat * y.toNat / 2 ^ 64)) ∧
      exec (.addw d a b w) s = done 1 (BitVec.signExtend 64 ((x + y).setWidth 32)) ∧
      exec (.subw d a b w) s = done 1 (BitVec.signExtend 64 ((x - y).setWidth 32)) ∧
      exec (.mulw d a b w) s = done 3 (BitVec.signExtend 64 (x.setWidth 32 * y.setWidth 32 : BitVec 32))) ∧
    (ReadyTo [a, b, d] d s →
      exec (.sel d a b w) s =
        resultOf w [a, b, d] 1 d (if s.rdD a b d ≠ 0 then s.rdA a else s.rdB a b) s) ∧
    (ReadyTo [a] d s →
      let x := s.rdA a
      let done := fun (v : Word) => resultOf w [a] 1 d v s
      (∀ n ≤ 64, x.toNat < 2 ^ (64 - n) → (n < 64 → 2 ^ (63 - n) ≤ x.toNat) → exec (.clz d a w) s = done (BitVec.ofNat 64 n)) ∧
      (∀ n ≤ 64, (∀ i < n, x.getLsbD i = false) → (n < 64 → x.getLsbD n = true) → exec (.ctz d a w) s = done (BitVec.ofNat 64 n)) ∧
      exec (.popc d a w) s = done (BitVec.ofNat 64 (((List.range 64).filter (fun i => x.getLsbD i)).length)) ∧
      (∃ v : Word, (∀ i < 64, v.getLsbD i = x.getLsbD (63 - i)) ∧ exec (.brev d a w) s = done v) ∧
      exec (.sextB d a w) s = done (BitVec.signExtend 64 (x.setWidth 8)) ∧
      exec (.sextH d a w) s = done (BitVec.signExtend 64 (x.setWidth 16)) ∧
      exec (.sextW d a w) s = done (BitVec.signExtend 64 (x.setWidth 32)) ∧
      exec (.zextW d a w) s = done (BitVec.setWidth 64 (x.setWidth 32))) ∧
    (ReadyTo [a, b] d s →
      let x := s.rdA a
      let y := s.rdB a b
      let done := fun (lat : Nat) (v : Word) => Host.Outcome.next (finish w [a, b] (produceLater lat d v 0 s))
      (y = 0 →
        exec (.div d a b w) s = done 6 (BitVec.allOnes 64) ∧ exec (.divu d a b w) s = done 6 (BitVec.allOnes 64) ∧
        exec (.rem d a b w) s = done 6 x ∧ exec (.remu d a b w) s = done 6 x) ∧
      (∀ n : Nat, y ≠ 0 → x.toInt.natAbs < 2 ^ n → (x ≠ 0 → 2 ^ n ≤ 2 * x.toInt.natAbs) → (x = 0 → n = 0) →
        let q : Word := if x.toInt = -(2 ^ 63) ∧ y.toInt = -1 then x else BitVec.ofInt 64 (Int.tdiv x.toInt y.toInt)
        exec (.div d a b w) s = done (6 + (n + 3) / 4) q ∧ exec (.rem d a b w) s = done (6 + (n + 3) / 4) (x - q * y)) ∧
      (∀ n : Nat, y ≠ 0 → x.toNat < 2 ^ n → (x ≠ 0 → 2 ^ n ≤ 2 * x.toNat) → (x = 0 → n = 0) →
        let q : Word := BitVec.ofNat 64 (x.toNat / y.toNat)
        exec (.divu d a b w) s = done (6 + (n + 3) / 4) q ∧ exec (.remu d a b w) s = done (6 + (n + 3) / 4) (x - q * y)))

/-- Each immediate form completes with the operation of its twin on the sign-extended immediate, each shift by an immediate with
the shift by n, LUI with sext(imm18) << 13, ADR with its own address plus sext(imm18) × 4, and EXTU, EXTS and INS with the field
of len bits at pos of the source taken out or put in; every one is a result in flight for d with latency 1. (R45, R105, R106,
R107, R108) -/
def Obligations.ImmediateResults : Prop :=
  ∀ (s : State) (d a : Reg) (i : BitVec 13) (n pos : BitVec 6) (len : BitVec 5) (u : BitVec 18) (w : BitVec 3),
    (ReadyTo [a] d s →
      let x := s.rdA a
      let y : Word := BitVec.signExtend 64 i
      let l := len.toNat + 1
      let f := x.toNat / 2 ^ pos.toNat % 2 ^ l
      let done := fun (v : Word) => resultOf w [a] 1 d v s
      exec (.addi d a i w) s = done (x + y) ∧
      exec (.andi d a i w) s = done (x &&& y) ∧
      exec (.ori d a i w) s = done (x ||| y) ∧
      exec (.xori d a i w) s = done (x ^^^ y) ∧
      exec (.slti d a i w) s = done (if x.toInt < i.toInt then 1 else 0) ∧
      exec (.sltiu d a i w) s = done (if x.toNat < y.toNat then 1 else 0) ∧
      exec (.shli d a n w) s = done (BitVec.ofNat 64 (x.toNat * 2 ^ n.toNat)) ∧
      exec (.shri d a n w) s = done (BitVec.ofNat 64 (x.toNat / 2 ^ n.toNat)) ∧
      exec (.sari d a n w) s = done (BitVec.ofInt 64 (x.toInt / 2 ^ n.toNat)) ∧
      exec (.roli d a n w) s = done (if n = 0 then x else (x <<< n.toNat) ||| (x >>> (64 - n.toNat))) ∧
      (pos.toNat + l ≤ 64 →
        exec (.extu d a pos len w) s = done (BitVec.ofNat 64 f) ∧
        exec (.exts d a pos len w) s = done (BitVec.ofInt 64 (if f < 2 ^ len.toNat then (f : Int) else (f : Int) - 2 ^ l)))) ∧
    (ReadyTo [a, d] d s → pos.toNat + len.toNat + 1 ≤ 64 →
      ∃ v : Word, exec (.ins d a pos len w) s = resultOf w [a, d] 1 d v s ∧
        ∀ j < 64, v.getLsbD j =
          if pos.toNat ≤ j ∧ j < pos.toNat + len.toNat + 1 then (s.rdA a).getLsbD (j - pos.toNat) else (s.rdB a d).getLsbD j) ∧
    (ReadyTo [] d s →
      exec (.lui d u w) s = resultOf w [] 1 d (BitVec.ofInt 64 (u.toInt * 2 ^ 13)) s ∧
      exec (.adr d u w) s = resultOf w [] 1 d (BitVec.ofInt 64 (s.me.pc.toInt + u.toInt * 4)) s)

/-- Each scalar FPU instruction, once nothing before its own checks holds or traps it and its destination's route may be used, has
the result and the flags of its operation on its operands under cr.frm as it stands. With no flag enabled in cr.frm.TE among them
it completes, its result due 4 cycles later (14 for FDIV and 16 for FSQRT, interlocked), and while TE is not zero its context
issues nothing before that; with an enabled one it writes nothing and its context waits, its PC unchanged, to trap FPEXC in the
cycle in which the flags are known, and the handler issues nothing for W cycles after it. (R73, R75, R76, R103, R109, R110, R112, R113, R114, R115, R116, R117) -/
def Obligations.FpuResults : Prop :=
  ∀ (s : State) (d a b : Reg) (w : BitVec 3),
    let rm := s.me.rm
    let ends := fun (lat : Nat) (interlocked : Bool) (rs : List Reg) (o : Out) (r : Word × BitVec 8) =>
      (s.me.te &&& r.2.extractLsb' 0 5 = 0 →
        let t := finish w rs (if interlocked then produceFpuLater lat d r.1 r.2 s else produceFpu lat d r.1 r.2 s)
        o = .next (if s.me.te = 0 then t else t.setMe { t.me with nextIssue := max t.me.nextIssue (s.cycle + lat) })) ∧
      (s.me.te &&& r.2.extractLsb' 0 5 ≠ 0 → s.cur.ctx < 11 →
        ∃ t, o = .next t ∧ t.me = { s.me with
            fpHold := some ⟨s.cycle + lat, r.2⟩, nextIssue := s.cycle + 1 + w.toNat, yieldTo := s.me.yieldTo.filter (fun i => i != s.cur.ctx) } ∧
          t.mine.nextIssue = s.cycle + 1 ∧ t.note = .trapped ∧
          { t with cores := s.cores, note := s.note } = s)
    (ReadyTo [a, b] d s →
      let x := (s.rdA a).toNat
      let y := (s.rdB a b).toNat
      ends 4 false [a, b] (exec (.fadd d a b w) s) (fres (f32.add rm x y)) ∧
      ends 4 false [a, b] (exec (.fsub d a b w) s) (fres (f32.sub rm x y)) ∧
      ends 4 false [a, b] (exec (.fmul d a b w) s) (fres (f32.mul rm x y)) ∧
      ends 4 false [a, b] (exec (.fmin d a b w) s) (fres (f32.minMax false x y)) ∧
      ends 4 false [a, b] (exec (.fmax d a b w) s) (fres (f32.minMax true x y)) ∧
      ends 4 false [a, b] (exec (.feq d a b w) s) (bres (f32.feq x y)) ∧
      ends 4 false [a, b] (exec (.flt d a b w) s) (bres (f32.flt x y)) ∧
      ends 4 false [a, b] (exec (.fle d a b w) s) (bres (f32.fle x y)) ∧
      ends 14 true [a, b] (exec (.fdiv d a b w) s) (fres (f32.div rm x y))) ∧
    (ReadyTo [a, b, d] d s →
      let x := (s.rdA a).toNat
      let y := (s.rdB a b).toNat
      let z := (s.rdD a b d).toNat
      ends 4 false [a, b, d] (exec (.fma d a b w) s) (fres (f32.fma rm false x y z)) ∧
      ends 4 false [a, b, d] (exec (.fnma d a b w) s) (fres (f32.fma rm true x y z))) ∧
    (ReadyTo [a] d s →
      let x := (s.rdA a).toNat
      ends 4 false [a] (exec (.fclass d a w) s) ((BitVec.ofNat 64 (fclass x), 0)) ∧
      ends 4 false [a] (exec (.fabs d a w) s) ((BitVec.ofNat 64 (x % 2 ^ 31), 0)) ∧
      ends 4 false [a] (exec (.fneg d a w) s) ((BitVec.ofNat 64 (if x / 2 ^ 31 % 2 = 0 then x % 2 ^ 31 + 2 ^ 31 else x % 2 ^ 31), 0)) ∧
      ends 4 false [a] (exec (.cvtF32I64 d a w) s) (fres (f32.ofInt rm false (s.rdA a).toInt)) ∧
      ends 4 false [a] (exec (.cvtI64F32 d a w) s) (ires (f32.toInt rm (-2 ^ 63) (2 ^ 63 - 1) x)) ∧
      ends 4 false [a] (exec (.cvtF32N64 d a w) s) (fres (f32.ofInt rm false x)) ∧
      ends 4 false [a] (exec (.cvtN64F32 d a w) s) (ires (f32.toInt rm 0 (2 ^ 64 - 1) x)) ∧
      ends 4 false [a] (exec (.cvtBf16F32 d a w) s) (fres (f32.convert bf16 rm false x)) ∧
      ends 4 false [a] (exec (.cvtF32Bf16 d a w) s) (fres (bf16.convert f32 0 false x)) ∧
      ends 4 false [a] (exec (.cvtE4m3F32 d a w) s) (fres (f32.convert e4m3 rm s.me.fs x)) ∧
      ends 4 false [a] (exec (.cvtF32E4m3 d a w) s) (fres (e4m3.convert f32 0 false x)) ∧
      ends 4 false [a] (exec (.cvtE5m2F32 d a w) s) (fres (f32.convert e5m2 rm s.me.fs x)) ∧
      ends 4 false [a] (exec (.cvtF32E5m2 d a w) s) (fres (e5m2.convert f32 0 false x)) ∧
      ends 4 false [a] (exec (.frnd d a w) s) (fres (frnd rm x)) ∧
      ends 16 true [a] (exec (.fsqrt d a w) s) (fres (f32.sqrt rm x)))

/-- For every float format, a non-zero value that does not overflow is rounded to a finite value of its sign less than one quantum
away: at most half a quantum under RNE, to the even code where two are as near, toward zero under RTZ, upward under RUP and downward under RDN; NX is
raised exactly where
the result differs from the value. It overflows, with OF and NX, exactly where the mode rounds it past the largest finite value, and is then the
infinity of its sign under RNE and the mode away from zero, in E4M3 the canonical NaN with NV, and else the largest finite value of its sign. (R10, R67,
R68, R73, R78) -/
def Obligations.RoundingIsCorrect : Prop :=
  ∀ f ∈ [f32, bf16, e4m3, e5m2], ∀ (rm : BitVec 2) (neg : Bool) (m : Nat) (e : Int), m ≠ 0 →
    let r := f.round rm false neg m e
    let ulp : ℚ := (2 : ℚ) ^ (max ((Nat.log2 m : Int) + e) f.emin - f.fb)
    let exact : ℚ := (m : ℚ) * (2 : ℚ) ^ e
    (r.2 &&& fOF = 0 →
      ∃ (n : Nat) (q : Int), f.decode r.1 = .fin neg n q ∧
        let got : ℚ := (n : ℚ) * (2 : ℚ) ^ q
        |got - exact| < ulp ∧ (rm = 0 → 2 * |got - exact| ≤ ulp ∧ (2 * |got - exact| = ulp → r.1 % 2 = 0)) ∧ (rm = 1 → got ≤ exact) ∧
        (rm = 2 → if neg then got ≤ exact else exact ≤ got) ∧ (rm = 3 → if neg then exact ≤ got else got ≤ exact) ∧
        (r.2 &&& fNX = 0 ↔ got = exact)) ∧
    (∀ (n : Nat) (q : Int), f.decode f.top = .fin false n q →
      let big : ℚ := (n : ℚ) * (2 : ℚ) ^ q
      let step : ℚ := (2 : ℚ) ^ q
      let sign := if neg then 2 ^ (f.eb + f.fb) else 0
      let away := (rm = 2 ∧ neg = false) ∨ (rm = 3 ∧ neg = true)
      let beyond := (rm = 0 ∧ (big + step / 2 < exact ∨ (f ≠ e4m3 ∧ big + step / 2 = exact))) ∨ (away ∧ big < exact) ∨ (rm ≠ 0 ∧ big + step ≤ exact)
      (r.2 &&& fOF ≠ 0 ↔ beyond) ∧
      (beyond → rm ≠ 0 → ¬ away → r = (sign + f.top, fOF ||| fNX)) ∧
      (beyond → (rm = 0 ∨ away) → (∀ i, f.inf = some i → r = (sign + i, fOF ||| fNX)) ∧ (f.inf = none → r = (f.nan, fOF ||| fNX ||| fNV))))

/-- A branch whose condition holds goes to its own address plus four times its offset where that lies in a resident segment (an
attached follower of a troupe is not checked), and traps XLATE or CODEABSENT at itself with the target in cr.tval where it does
not; a branch whose condition does not hold goes on with the next word.
J, JR, JALR and FJMP go to their target where it is word-aligned and resident, JALR with the address of the next word in its
destination; a misaligned register target traps MISALIGN, one that is not resident XLATE or CODEABSENT, with the target in
cr.tval; at a target whose segment is being fetched FJMP waits with cr.fjwait set and traps CODELATE with it clear. (R51, R122, R123,
R131) -/
def Obligations.BranchesAndJumps : Prop :=
  (∀ (a b : Reg) (o : BitVec 10) (w : BitVec 3) (s : State), Ready [a, b] s →
    let x := s.rdA a
    let y := s.rdB a b
    let target : Word := BitVec.ofInt 64 (s.me.pc.toInt + 4 * o.toInt)
    let goes := fun (i : Instr) (cond : Prop) =>
      (cond → (s.me.fwd.isSome ∨ s.mine.isResident target = true) → exec i s = .next (finishAt w [a, b] target s)) ∧
      (cond → s.me.fwd = none → s.mine.isResident target = false →
        exec i s = trap (.mk' (if s.mine.isFailed target then cXLATE else cCODEABSENT) target) s) ∧
      (¬ cond → exec i s = .next (finish w [a, b] s))
    goes (.beq a b o w) (x = y) ∧
    goes (.bne a b o w) (x ≠ y) ∧
    goes (.blt a b o w) (x.toInt < y.toInt) ∧
    goes (.bge a b o w) (y.toInt ≤ x.toInt) ∧
    goes (.bltu a b o w) (x.toNat < y.toNat) ∧
    goes (.bgeu a b o w) (y.toNat ≤ x.toNat)) ∧
  ∀ (d a : Reg) (o : BitVec 23) (w : BitVec 3) (s : State),
    let near : Word := BitVec.ofInt 64 (s.me.pc.toInt + 4 * o.toInt)
    let far := s.rdA a
    let ok := fun (t : Word) => s.me.fwd.isSome = true ∨ s.mine.isResident t = true
    let bad := fun (t : Word) => s.me.fwd = none ∧ s.mine.isResident t = false
    let traps := fun (c : BitVec 6) (t : Word) => trap (.mk' c t) s
    let absent := fun (t : Word) => if s.mine.isFailed t then cXLATE else cCODEABSENT
    (ok near → exec (.j o w) s = .next (finishAt w [] near s)) ∧ (bad near → exec (.j o w) s = traps (absent near) near) ∧
    (Ready [a] s →
      (far.toNat % 4 ≠ 0 → ∀ i ∈ [Instr.jr a w, .fjmp a w], exec i s = traps cMISALIGN far) ∧
      (far.toNat % 4 = 0 →
        (ok far → exec (.jr a w) s = .next (finishAt w [a] far s)) ∧ (bad far → exec (.jr a w) s = traps (absent far) far) ∧
        (ok far → s.mine.isFetching far = false → exec (.fjmp a w) s = .next (finishAt w [a] far s)) ∧
        (bad far → s.mine.isFetching far = false → exec (.fjmp a w) s = traps (absent far) far) ∧
        (s.me.fwd = none → s.mine.isFetching far = true → s.me.fjwait = true → exec (.fjmp a w) s = .next (held s)) ∧
        (s.me.fwd = none → s.mine.isFetching far = true → s.me.fjwait = false → exec (.fjmp a w) s = traps cCODELATE far))) ∧
    (hazard [a] [d] s = .clear →
      (far.toNat % 4 ≠ 0 → exec (.jalr d a w) s = traps cMISALIGN far) ∧
      (far.toNat % 4 = 0 → bad far → exec (.jalr d a w) s = traps (absent far) far) ∧
      (far.toNat % 4 = 0 → ok far → portFault s d = none → exec (.jalr d a w) s = .next (finishAt w [a] far (deliver d (s.me.pc + 4) s))))

/-- CALL and CALLR store the address of the next word in the doubleword below sp, within the stack's bounds, aligned and inside
the scratchpad, set sp to it and go to their target; RET goes to the address in the doubleword at sp and adds 8 to sp. A slot
outside cr.slim to cr.sbase traps STACKFAULT, a misaligned one MISALIGN and one past the scratchpad LOCALRANGE, with the slot's
address; a target of CALLR or RET that is not word-aligned traps MISALIGN and a target that is not resident XLATE or CODEABSENT, with the target in
cr.tval and sp as it was. They wait while four entries of the retry ring are outstanding, while the slot is busy and behind an acquire or a fence. (R122,
R123, R124, R125, R167, R237, R252, R380) -/
def Obligations.CallsAndReturns : Prop :=
  ∀ (a : Reg) (o : BitVec 23) (w : BitVec 3) (s : State),
    let near : Word := BitVec.ofInt 64 (s.me.pc.toInt + 4 * o.toInt)
    let far := s.rdA a
    let sp := s.me.reg 27
    let ok := fun (t : Word) => s.me.fwd.isSome = true ∨ s.mine.isResident t = true
    let bad := fun (t : Word) => s.me.fwd = none ∧ s.mine.isResident t = false
    let absent := fun (t : Word) => if s.mine.isFailed t then cXLATE else cCODEABSENT
    let inStack := fun (n : Word) => s.me.slim.toNat ≤ n.toNat ∧ n.toNat + 8 ≤ s.me.sbase.toNat
    let good := fun (n : Word) => inStack n ∧ n.toNat % 8 = 0 ∧ n.toNat + 8 ≤ spBytes s.mine.spsize
    let pushed := deliver 27 (sp - 8) (s.setMine { s.mine with spad := writeLe s.mine.spad (sp - 8).toNat 8 (s.me.pc + 4).toNat })
    let free := fun (n : Word) (write : Bool) => s.me.ring.length < 4 ∧ spadBusy s.mine n.toNat 8 write = false ∧ orderHolds s n 8 write = false
    let traps := fun (c : BitVec 6) (n : Word) => trap (.mk' c n) s
    let slotTraps := fun (i : Instr) (n : Word) =>
      (¬ inStack n → exec i s = traps cSTACKFAULT n) ∧ (inStack n → n.toNat % 8 ≠ 0 → exec i s = traps cMISALIGN n) ∧
      (inStack n → n.toNat % 8 = 0 → spBytes s.mine.spsize < n.toNat + 8 → exec i s = traps cLOCALRANGE n)
    (hazard [27] [27] s = .clear →
      slotTraps (.call o w) (sp - 8) ∧ slotTraps (.ret w) sp ∧
      (good (sp - 8) →
        (bad near → exec (.call o w) s = traps (absent near) near) ∧
        (ok near → ¬ free (sp - 8) true → exec (.call o w) s = .next (held s)) ∧
        (ok near → free (sp - 8) true → exec (.call o w) s = .next (finishAt w [] near pushed))) ∧
      (good sp → ¬ free sp false → exec (.ret w) s = .next (held s)) ∧
      (good sp → free sp false →
        let back : Word := BitVec.ofNat 64 (readLe s.mine.spad sp.toNat 8)
        (back.toNat % 4 ≠ 0 → exec (.ret w) s = traps cMISALIGN back) ∧
        (back.toNat % 4 = 0 → bad back → exec (.ret w) s = traps (absent back) back) ∧
        (back.toNat % 4 = 0 → ok back → exec (.ret w) s = .next (finishAt w [] back (deliver 27 (sp + 8) s))))) ∧
    (hazard [a, 27] [27] s = .clear →
      (far.toNat % 4 ≠ 0 → exec (.callr a w) s = traps cMISALIGN far) ∧
      (far.toNat % 4 = 0 → slotTraps (.callr a w) (sp - 8) ∧
        (good (sp - 8) →
          (bad far → exec (.callr a w) s = traps (absent far) far) ∧
          (ok far → ¬ free (sp - 8) true → exec (.callr a w) s = .next (held s)) ∧
          (ok far → free (sp - 8) true → exec (.callr a w) s = .next (finishAt w [a] far pushed)))))

/-- An arithmetic, immediate, scalar floating-point, branch or jump instruction that neither traps nor stores leaves as they were:
every byte of memory and of scratchpad, every special register and accumulator, every register and poison bit of its context but
its destination's, every result already in flight, every other context and core, and all clusters, partitions, requests and units.
New results under way are for its destination alone. CALL and CALLR, where they neither trap nor are held, write besides the 8 bytes of scratchpad at
sp − 8 and no other byte of
scratchpad or memory, and no register but sp; RET writes no byte and no register but sp. (R41, R44, R94, R124, R149) -/
def Obligations.ScalarFrame : Prop :=
  ∀ (d a b : Reg) (i : BitVec 13) (o : BitVec 10) (l : BitVec 23) (u : BitVec 18) (n pos : BitVec 6) (len : BitVec 5) (w : BitVec 3) (s t : State),
    s.cur.ctx < 11 →
    (∀ x ∈ [Instr.add d a b w, .sub d a b w, .and d a b w, .or d a b w, .xor d a b w, .andn d a b w, .shl d a b w, .shr d a b w,
        .sar d a b w, .rol d a b w, .ror d a b w, .slt d a b w, .sltu d a b w, .seq d a b w, .min d a b w, .max d a b w, .minu d a b w,
        .maxu d a b w, .mul d a b w, .mulh d a b w, .mulhu d a b w, .div d a b w, .divu d a b w, .rem d a b w, .remu d a b w, .clz d a w,
        .ctz d a w, .popc d a w, .brev d a w, .sextB d a w, .sextH d a w, .sextW d a w, .zextW d a w, .sel d a b w, .addw d a b w,
        .subw d a b w, .mulw d a b w, .addi d a i w, .andi d a i w, .ori d a i w, .xori d a i w, .slti d a i w, .sltiu d a i w,
        .shli d a n w, .shri d a n w, .sari d a n w, .roli d a n w, .lui d u w, .adr d u w, .extu d a pos len w, .exts d a pos len w,
        .ins d a pos len w, .fadd d a b w, .fsub d a b w, .fmul d a b w, .fma d a b w, .fnma d a b w, .fdiv d a b w, .fsqrt d a w,
        .fmin d a b w, .fmax d a b w, .feq d a b w, .flt d a b w, .fle d a b w, .fclass d a w, .fabs d a w, .fneg d a w, .cvtF32I64 d a w,
        .cvtI64F32 d a w, .cvtF32N64 d a w, .cvtN64F32 d a w, .cvtBf16F32 d a w, .cvtF32Bf16 d a w, .cvtE4m3F32 d a w, .cvtF32E4m3 d a w,
        .cvtE5m2F32 d a w, .cvtF32E5m2 d a w, .frnd d a w, .jalr d a w],
      exec x s = .next t → t.note ≠ .trapped → onlyRegister d s t) ∧
    (∀ x ∈ [Instr.beq a b o w, .bne a b o w, .blt a b o w, .bge a b o w, .bltu a b o w, .bgeu a b o w, .j l w, .jr a w, .fjmp a w],
      exec x s = .next t → t.note ≠ .trapped → onlyRegister 0 s t) ∧
    (∀ x ∈ [Instr.call l w, .callr a w], exec x s = .next t → t.note ≠ .trapped →
      onlyRegister 27 s (t.setMine { t.mine with spad := s.mine.spad }) ∧
      (∀ n : Nat, (n < (s.me.reg 27 - 8).toNat ∨ (s.me.reg 27 - 8).toNat + 8 ≤ n) → getByte t.mine.spad n = getByte s.mine.spad n) ∧
      (∀ n, getByte t.mem n = getByte s.mem n)) ∧
    (exec (.ret w) s = .next t → t.note ≠ .trapped → onlyRegister 27 s t)

/-- LD, LDU and ST trap at themselves with the address: ADDRFORM for a view field on a local or peer address or one that names no
position of the partition, and past the command window's page in the local class; then STACKFAULT for a base of g27 with a byte
outside cr.slim to cr.sbase; then MISALIGN; then LOCALRANGE for a local address past the scratchpad, but that a store may go to
the command window. (R125, R158, R197, R226, R227) -/
def Obligations.AddressChecks : Prop :=
  ∀ (d a : Reg) (o : BitVec 9) (z t : BitVec 2) (w : BitVec 3) (s : State),
    let addr : Word := BitVec.ofInt 64 ((s.rdA a).toInt + o.toInt * 2 ^ z.toNat)
    let n := 2 ^ z.toNat
    let view := addr.toNat / 2 ^ 52
    let loc := addr.toNat % 2 ^ 52
    let badForm := (view ≠ 0 ∧ (loc < 0x100000 ∨ 2 ^ 51 ≤ loc ∨ s.ptlen < view)) ∨ (loc < 0x100000 ∧ 0x41000 ≤ loc)
    let badStack := a = 27 ∧ (addr.toNat < s.me.slim.toNat ∨ s.me.sbase.toNat < addr.toNat + n)
    let badAlign := addr.toNat % n ≠ 0
    let outside := fun (store : Bool) => loc < 0x100000 ∧ spBytes s.mine.spsize < loc + n ∧ ¬ (store = true ∧ 0x40000 ≤ loc ∧ loc + n ≤ 0x40040)
    let traps := fun (c : BitVec 6) => trap (.mk' c addr) s
    let checks := fun (store : Bool) (out : Out) =>
      (badForm → out = traps cADDRFORM) ∧ (¬ badForm → badStack → out = traps cSTACKFAULT) ∧
      (¬ badForm → ¬ badStack → badAlign → out = traps cMISALIGN) ∧
      (¬ badForm → ¬ badStack → ¬ badAlign → outside store → out = traps cLOCALRANGE) ∧
      (¬ badForm → ¬ badStack → ¬ badAlign → ¬ outside store → memCheck s a addr n store = none ∧ mAddr (s.rdA a) o z = addr)
    (hazard [a] [d] s = .clear → checks false (exec (.ld d a o z t w) s) ∧ checks false (exec (.ldu d a o z t w) s)) ∧
    (hazard [a, d] [] s = .clear → checks true (exec (.st d a o z t w) s))

/-- A load from scratchpad gives the little-endian value of its bytes, sign-extended by LD and zero-extended by LDU, to its destination; a store
writes exactly its bytes there. No fence and no earlier access keeps back a store to the command window: a store to the command window changes the
staging buffer, and a doubleword to its last doubleword commits the staged command with the next number. (R156, R158, R197, R198, R226, R229) -/
def Obligations.LocalLoadsAndStores : Prop :=
  ∀ (d a : Reg) (o : BitVec 9) (z t : BitVec 2) (w : BitVec 3) (s : State),
    let addr := mAddr (s.rdA a) o z
    let n := 2 ^ z.toNat
    let x := locOf addr
    let value := readLe s.mine.spad x n
    (ReadyTo [a] d s → memCheck s a addr n false = none → isLocal addr = true → ringFull s.me = false → spadBusy s.mine x n false = false →
      orderHolds s (BitVec.ofNat 64 x) n false = false →
        exec (.ldu d a o z t w) s = writes w [a] d (BitVec.ofNat 64 value) s ∧
        exec (.ld d a o z t w) s =
          writes w [a] d (BitVec.ofInt 64 (if value < 2 ^ (8 * n - 1) then (value : Int) else (value : Int) - 2 ^ (8 * n))) s) ∧
    (Ready [a, d] s → memCheck s a addr n true = none → isLocal addr = true →
      let data := s.rdB a d
      (x < 0x40000 → ringFull s.me = false → orderHolds s addr n true = false → spadBusy s.mine x n true = false →
        let m := writeLe s.mine.spad x n data.toNat
        exec (.st d a o z t w) s = .next (finish w [a, d] (s.setMine { s.mine with spad := m })) ∧
        (∀ i < n, (getByte m (x + i)).toNat = data.toNat / 256 ^ i % 256) ∧
        (∀ b, (b < x ∨ x + n ≤ b) → getByte m b = getByte s.mine.spad b)) ∧
      (0x40000 ≤ x → (x - 0x40000) % n = 0 → x - 0x40000 + n ≤ 56 →
        exec (.st d a o z t w) s = .next (finish w [a, d] (s.setMe { s.me with stage := linePut s.me.stage (x - 0x40000) n data.toNat }))) ∧
      (x = 0x40038 → z = 3 → s.mine.mq.length < 16 →
        ∃ u c, exec (.st d a o z t w) s = .next (finish w [a, d] u) ∧ u.mine.mq = s.mine.mq ++ [c] ∧ u.mine.mseq = s.mine.mseq + 1 ∧
          c.seq = s.mine.mseq + 1 ∧ c.bytes = linePut s.me.stage 56 8 data.toNat ∧ c.ctx = s.cur.ctx ∧
          (s.cur.ctx < 11 → u.me.mlast = s.mine.mseq + 1)))

/-- An access that is translated and permitted joins its context's requests and the instruction completes, the register of a load awaiting the
response, unless the core's own L1 serves the load or owns the line of the store. Of LD, LDU and ST alike: what waits for an entry of the retry ring
or for what placed accesses wait for holds; a view it may not use traps VIEWPERM; a page that only H reaches traps PRIV; another fault of U goes to
the retry ring where the partition has one, and waits while that is full or a peer holds the line of the entry, and else traps XLATE; a lost tenure
traps TENLOST. (R389 keeps the partition control blocks to H; that the debug, fabric and network pages and NONCE are kept to it in the same way is the
model's reading, log entry 41.) (R227, R229, R231, R235, R236, R326, R379, R380, R381, R389) -/
def Obligations.TranslatedLoadsAndStores : Prop :=
  ∀ (d a : Reg) (o : BitVec 9) (z t : BitVec 2) (w : BitVec 3) (s : State),
    let addr := mAddr (s.rdA a) o z
    let n := 2 ^ z.toNat
    let data := s.rdB a d
    let stops := fun (i : Instr) (rs : List Reg) (need : Need) (data : Word) (load : Bool) (dest : Reg) =>
      (ringBusy s.me addr n = true → exec i s = .next (held s)) ∧
      (ringBusy s.me addr n = false → ∀ u,
        (resolve s (s.xctx s.cur) addr n need = (u, .error .viewperm) → exec i s = trap (.mk' cVIEWPERM addr) u) ∧
        (∀ k, resolve s (s.xctx s.cur) addr n need = (u, .error (.kind k)) →
          (privPage s (s.xctx s.cur) addr need = true → exec i s = trap (.mk' cPRIV (zext (encode i))) u) ∧
          (privPage s (s.xctx s.cur) addr need = false →
            (ringTakes u = false → exec i s = trap (.mk' cXLATE addr) u) ∧
            (ringTakes u = true → ringHasRoom u u.myPart = true →
              let slot := ringSlot u.myPart u.myPart.rrtail.toNat / 64
              ((∀ d ∈ u.peerDir, d.line ≠ slot) →
                exec i s = .next (finish w rs (appendEntry u.cur u.me.pc addr data (encode i) load dest 0 n k false u))) ∧
              ((∃ d ∈ u.peerDir, d.line = slot) → ∃ v, exec i s = .next (held v) ∧ v.mem = u.mem ∧ v.cores = u.cores ∧ v.parts = u.parts ∧
                (∀ d ∈ v.peerDir, d.line = slot → d.till.isSome = true))) ∧
            (ringTakes u = true → ringHasRoom u u.myPart = false → exec i s = .next (held u)))) ∧
        (∀ l, resolve s (s.xctx s.cur) addr n need = (u, .ok l) →
          (placeWaits u t l n = true → exec i s = .next (held u)) ∧
          (∀ h, placeWaits u t l n = false → lossAt u l n = some h → exec i s = trap (.mk' cTENLOST addr) (tellLost u u.cur h.id))))
    (hazard [a] [d] s = .clear → memCheck s a addr n false = none → isLocal addr = false →
      ∀ p ∈ [(Instr.ld d a o z t w, ReqKind.load true), (.ldu d a o z t w, .load false)],
        stops p.1 [a] needR 0 true d ∧
        (∀ u l, reaches t addr n needR s u l → portFault u d = none →
          let q : Req := { mkReq u addr l n p.2 with rt := t, dest := d }
          (hitNow u q = false → exec p.1 s = .next (finish w [a] (addReq q u))) ∧
          (hitNow u q = true → exec p.1 s = .next (finish w [a] (deliver d (l1Load q u).1 (l1Load q u).2))))) ∧
    (hazard [a, d] [] s = .clear → memCheck s a addr n true = none → isLocal addr = false →
      stops (.st d a o z t w) [a, d] needW data false 0 ∧
      (∀ u l, reaches t addr n needW s u l →
        let q : Req := { mkReq u addr l n .store with rt := t, data := data }
        (ownedNow u q = false → exec (.st d a o z t w) s = .next (finish w [a, d] (addReq q u))) ∧
        (ownedNow u q = true → exec (.st d a o z t w) s = .next (finish w [a, d] (l1Store q u)))))

/-- Each atomic on scratchpad reads the word of 4 or 8 bytes at its address, replaces it as its operation says, and gives the old
value to its destination (STRL and ATADDNR have none), once the accesses it orders are performed; in translated space or a peer
window it joins its context's requests with its operation, its scope under the partition's ceiling, and acquire unless it is STRL
and release unless it is LDA. Of a word of n bits with the old value old, the operand x and the expected value e, the operations 0
to 14 store: nothing; x; x; x where old = e; old + x; the bitwise and, or and exclusive or; the signed minimum and maximum; the
unsigned minimum and maximum; the F32 sum and maximum; and old + x; the value returned is the old word, a 32-bit one sign-extended
but for the float operations. (R238, R239, R240, R241, R402) -/
def Obligations.AtomicInstructions : Prop :=
  (∀ n ∈ [32, 64], ∀ old < 2 ^ n, ∀ x < 2 ^ n, ∀ e < 2 ^ n,
        let signed := fun (v : Nat) => (BitVec.ofNat n v).toInt
        amoNew 0 n old x e = none ∧ amoNew 1 n old x e = some x ∧ amoNew 2 n old x e = some x ∧
        amoNew 3 n old x e = (if old = e then some x else none) ∧ amoNew 4 n old x e = some ((old + x) % 2 ^ n) ∧
        amoNew 5 n old x e = some (old &&& x) ∧ amoNew 6 n old x e = some (old ||| x) ∧ amoNew 7 n old x e = some (old ^^^ x) ∧
        (∃ v, amoNew 8 n old x e = some v ∧ v < 2 ^ n ∧ signed v = min (signed old) (signed x)) ∧
        (∃ v, amoNew 9 n old x e = some v ∧ v < 2 ^ n ∧ signed v = max (signed old) (signed x)) ∧
        amoNew 10 n old x e = some (min old x) ∧ amoNew 11 n old x e = some (max old x) ∧
        amoNew 12 n old x e = some (f32.add 0 old x).1 ∧ amoNew 13 n old x e = some (f32.minMax true old x).1 ∧
        amoNew 14 n old x e = some ((old + x) % 2 ^ n) ∧
        (∀ op : BitVec 4, op.toNat < 12 → amoResult op n old = BitVec.ofInt 64 (signed old)) ∧
        amoResult 12 n old = BitVec.ofNat 64 old ∧ amoResult 13 n old = BitVec.ofNat 64 old) ∧
  ∀ (d a b : Reg) (sc : BitVec 3) (z : BitVec 1) (w : BitVec 3) (s : State),
    let addr := s.rdA a
    let y := s.rdB a b
    let cap := if s.myPart.scopecap.toNat < sc.toNat then s.myPart.scopecap else sc
    let runs := fun (i : Instr) (op : BitVec 4) (rs : List Reg) (dest : Option Reg) (z : BitVec 1) (data expect : Word) =>
      let n := if z = 0 then 4 else 8
      hazard rs dest.toList s = .clear → memCheck s a addr n false = none → scopeCheck s sc = none →
      (isLocal addr = true → ringFull s.me = false → spadBusy s.mine (locOf addr) n true = false → orderHolds s (BitVec.ofNat 64 (locOf addr)) n (op != 0) = false →
        (op = 0 ∨ (releaseHolds s.me = false ∧ released s s.cur 1 = true)) → (∀ r ∈ dest, portFault s r = none) →
        let old := readLe s.mine.spad (locOf addr) n
        let u := match amoNew op (8 * n) old (data.toNat % 2 ^ (8 * n)) (expect.toNat % 2 ^ (8 * n)) with
          | some v => s.setMine { s.mine with spad := writeLe s.mine.spad (locOf addr) n v }
          | none => s
        exec i s = .next (finish w rs (countDemote sc (match dest with
          | some r => deliver r (amoResult op (8 * n) old) u
          | none => u)))) ∧
      (isLocal addr = false → op ≠ 0 → releaseHolds s.me = true → exec i s = .next (held s)) ∧
      (isLocal addr = false → (op = 0 ∨ releaseHolds s.me = false) → ∀ u l, reaches 3 addr n (amoNeed op) s u l → (∀ r ∈ dest, portFault u r = none) →
        (op = 0 ∨ (releaseHolds u.me = false ∧ (cap.toNat < 6 ∨ (released u u.cur cap = true ∧ u.me.failed = [])))) →
        exec i s = .next (finish w rs (addReq { mkReq u addr l n (.amo op) with
          scope := cap, asked := sc, acq := op != 1, rel := op != 0, dest := dest.getD 0, data := data, expect := expect } (countDemote sc u))))
    runs (.lda d a sc z w) 0 [a] (some d) z 0 0 ∧
    runs (.strl a b sc z w) 1 [a, b] (none) z y 0 ∧
    runs (.swap d a b sc z w) 2 [a, b] (some d) z y 0 ∧
    runs (.cas d a b sc z w) 3 [a, b, d] (some d) z y (s.rdD a b d) ∧
    runs (.atadd d a b sc z w) 4 [a, b] (some d) z y 0 ∧
    runs (.atand d a b sc z w) 5 [a, b] (some d) z y 0 ∧
    runs (.ator d a b sc z w) 6 [a, b] (some d) z y 0 ∧
    runs (.atxor d a b sc z w) 7 [a, b] (some d) z y 0 ∧
    runs (.atmin d a b sc z w) 8 [a, b] (some d) z y 0 ∧
    runs (.atmax d a b sc z w) 9 [a, b] (some d) z y 0 ∧
    runs (.atminn d a b sc z w) 10 [a, b] (some d) z y 0 ∧
    runs (.atmaxn d a b sc z w) 11 [a, b] (some d) z y 0 ∧
    runs (.atfadd d a b sc w) 12 [a, b] (some d) 0 y 0 ∧
    runs (.atfmax d a b sc w) 13 [a, b] (some d) 0 y 0 ∧
    runs (.ataddnr a b sc z w) 14 [a, b] (none) z y 0

/-- An STI whose address is translated and permitted joins its context's requests with its targets, and with .rep awaits the mask
in g[d]; in the local window it traps LOCALRANGE and with an operand that names no core of the partition INJTARGET. A push that
reaches a core which runs no group is denied, one that finds the line there is accepted, one that meets a full quota is refused,
and the counters of the sender and of the target count it; else the line is filled as pushed and unused, poisoned where the pushed line is (that it is
filled poisoned is the model's reading, log entry 94). (R242, R243, R244, R245, R248) -/
def Obligations.InjectedStores : Prop :=
  ∀ (d a b : Reg) (z : BitVec 2) (st r : BitVec 1) (w : BitVec 3) (s : State),
    (hazard [a, b, d] (if r = 1 then [d] else []) s = .clear → stiForm s (s.rdA a) = none →
      stackCheck s a (s.rdA a) (2 ^ z.toNat) = none → (s.rdA a).toNat % 2 ^ z.toNat = 0 →
      let addr := s.rdA a
      let n := 2 ^ z.toNat
      (isLocal addr = true → exec (.sti d a b z st r w) s = trap (.mk' cLOCALRANGE addr) s) ∧
      (isLocal addr = false → stiTargets s (st == 1) (s.rdB a b) = none →
        exec (.sti d a b z st r w) s = trap (.mk' cINJTARGET (s.rdB a b)) s) ∧
      (isLocal addr = false → ∀ targets, stiTargets s (st == 1) (s.rdB a b) = some targets → ∀ u l, reaches 3 addr n needSti s u l →
        (r = 1 → portFault u d = none) →
        exec (.sti d a b z st r w) s = .next (finish w [a, b, d] (addReq { mkReq u addr l n (.sti (r == 1) targets) with
          rt := 1, data := s.rdD a b d, dest := if r = 1 then d else 0 } u)))) ∧
    (∀ x : Word, (x.toNat < 16 * s.ptlen → stiTargets s false x = some [(s.myPart.coreNo x.toNat, 0)]) ∧
      (16 * s.ptlen ≤ x.toNat → stiTargets s false x = none)) ∧
    (∀ (p : Push), p ∈ s.pushes → (∀ e ∈ s.pushes, e.id = p.id → e = p) →
      (∀ e ∈ s.pushes, e.id < p.id → e.target = p.target → e.line ≠ p.line) →
      let gone := s.pushes.filter (fun e => e.id != p.id)
      let v := farInvalidated { s with pushes := gone } p.line (dieOfCore p.target)
      let k := v.core p.target
      ∃ t, exec (.pushArrival p.id) s = .next t ∧ t.pushes = gone ∧
        (k.group = none → (t.core p.ctx.core).pdenied = (s.core p.ctx.core).pdenied + 1) ∧
        (k.group ≠ none → (∃ e, k.l1Find p.line = some e ∧ e.st ≠ .T) → t.cores = v.cores ∧
          t.reqs = s.reqs.map (fun q => if q.id = p.req then { q with value := q.value ||| (1#64 <<< p.bit) } else q)) ∧
        (k.group ≠ none → (∀ e, k.l1Find p.line = some e → e.st = .T) → k.pquota.toNat ≤ k.pushed →
          (t.core p.target).prefused = k.prefused + 1 ∧ (t.core p.ctx.core).pdenied = (s.core p.ctx.core).pdenied + 1 ∧ t.reqs = s.reqs) ∧
        (k.group ≠ none → (∀ e, k.l1Find p.line = some e → e.st = .T) → k.pushed < k.pquota.toNat →
          (k.l1.filter (fun e => l1Set k e.line == l1Set k p.line && e.st == .P)).length < 8 →
          (t.core p.target).l1Find p.line = some ⟨p.line, .P, p.data, false, s.cycle, 0, [], isBad v p.line⟩))

/-- A FENCE with an empty range completes at once, or, at .peer and wider and unless it is an ACQ, reports a failed store. A REL without a range, and
a fence with one, of a scope below .peer under the ceiling, completes and stands among the context's requests to keep back what it orders until it is
complete (that it waits there and not at issue is the model's reading, log entry 23); every other fence holds its context until what it orders, over
its range, is performed, reports a failed store as FABSTORE from .peer on unless it is an ACQ, and but for a REL discards T copies, of its range, from
.clu on and no other copy. FENCE.ENG waits for the context's engine and matrix commands and traps ENGFAULT for a failure that nothing has reported.
(That the earliest failed store, which FABSTORE reports, is the one that failed first in time is the model's choice, log entry 82.)
(R232, R234, R250, R252, R253, R282, R402) -/
def Obligations.Fences : Prop :=
  ∀ (a b : Reg) (sc : BitVec 3) (w : BitVec 3) (s : State), scopeCheck s sc = none → releaseHolds s.me = false →
    let cap := if s.myPart.scopecap.toNat < sc.toNat then s.myPart.scopecap else sc
    let lo := (s.rdA a).toNat
    let hi := min (lo + (s.rdB a b).toNat) (2 ^ 64)
    let mark := fun (kind : BitVec 2) (lo hi : Nat) => addReq { mkReq s 0 .nowhere 0 (.fence kind lo hi) with scope := cap } s
    let reports := fun (i : Instr) => ∀ f l, s.me.failed = f :: l →
      exec i s = trap ⟨cFABSTORE, f.va, some f.pc, false⟩ (s.setMe { s.me with failed := l })
    let waits := fun (k : BitVec 2) (rs : List Reg) (range : Option (Nat × Nat)) (i : Instr) =>
      let r := range.getD (0, 2 ^ 64)
      (fenceReady s k cap r.1 r.2 = true → (k = 1 ∨ cap.toNat < 6 ∨ s.me.failed = []) →
        exec i s = .next (finish w rs (countDemote sc (if k ≠ 2 ∧ 2 ≤ cap.toNat then s.setMine (dropT s.mine range) else s)))) ∧
      (fenceReady s k cap r.1 r.2 = false → exec i s = .next (held s)) ∧
      (k ≠ 1 → 6 ≤ cap.toNat → fenceReady s k cap r.1 r.2 = true → reports i)
    let plain := fun (k : BitVec 2) (i : Instr) =>
      (k = 2 → cap.toNat < 6 → exec i s = .next (finish w [] (countDemote sc (mark 2 0 (2 ^ 64))))) ∧
      ((k ≠ 2 ∨ 6 ≤ cap.toNat) → waits k [] none i)
    let ranged := fun (k : BitVec 2) (i : Instr) =>
      (hi = lo → (k = 1 ∨ cap.toNat < 6 ∨ s.me.failed = []) → exec i s = .next (finish w [a, b] (countDemote sc s))) ∧
      (hi = lo → k ≠ 1 → 6 ≤ cap.toNat → reports i) ∧
      (lo < hi → cap.toNat < 6 → exec i s = .next (finish w [a, b] (countDemote sc (mark k lo hi)))) ∧
      (lo < hi → 6 ≤ cap.toNat → waits k [a, b] (some (lo, hi)) i)
    plain 0 (.fenceFull a b sc 0 w) ∧ plain 1 (.fenceAcq a b sc 0 w) ∧ plain 2 (.fenceRel a b sc 0 w) ∧
    (∀ (m : Core) (r : Nat × Nat) (e : L1Line), (e ∈ m.l1 → e.st ≠ .T → e ∈ (dropT m (some r)).l1) ∧
      (e.st = .T → e ∉ (dropT m none).l1)) ∧
    (Ready [a, b] s → ranged 0 (.fenceFull a b sc 1 w) ∧ ranged 1 (.fenceAcq a b sc 1 w) ∧ ranged 2 (.fenceRel a b sc 1 w)) ∧
    (enginePending s = true → exec (.fenceEng w) s = .next (held s)) ∧
    (enginePending s = false → (∀ c ∈ s.engine, c.ctx = s.cur → c.unreported = false) → exec (.fenceEng w) s = .next (finish w [] s)) ∧
    (enginePending s = false → ∀ c l₁ l₂, s.engine = l₁ ++ c :: l₂ → (∀ e ∈ l₁, e.ctx = s.cur → e.unreported = false) → c.ctx = s.cur →
      c.unreported = true → exec (.fenceEng w) s =
        trap (.mk' cENGFAULT (BitVec.ofNat 64 (c.ticket + 2 ^ 32 * c.status.toNat))) (markReported c.core c.ticket s))

/-- HOME_REQUEST performs a request that nothing keeps back, a fence's mark once what it orders is performed, and sends one that has to ask a far home
on to it; MEMORY_RESPONSE ends a performed load or atomic and writes its destination with its own value, or poisons it, and ends an STI with .rep,
once all of its pushes are decided, with the mask of those that were accepted. T_LINE_EXPIRY discards a T copy 4,096 cycles after its fill (R232 lets
it go earlier; not before is the model's choice, log entry 83), FAR_HOME_REQUEST gives the die of a request that has left for the far home its copy or
ownership, FAR_INVALIDATION_ACK drops a die's copy and the stores that waited for it, REPLICA_UPDATE writes the oldest update of a line at its
replica, the T copies gone of the cores it is made for, or asks the peers for their copies of it, and LLC_DRAM_SOFT_ERROR marks a line of existing memory. (R96,
R232, R234, R236, R244, R252, R308, R333, R334, R384, R438) -/
def Obligations.RequestEvents : Prop :=
  ∀ s : State,
    (∀ id q, s.req id = some q → q.isFence = false → q.performed = false → (q.sent = false ∨ (linesOf q.loc q.size).isEmpty = false) →
      mayPerform (arrive q s) q = true →
      ((asksFarHome (arrive q s) q = false ∨ q.sent = true) → exec (.homeRequest id) s = .next (performReq q (arrive q s))) ∧
      (asksFarHome (arrive q s) q = true → q.sent = false → exec (.homeRequest id) s = .next (leaveForHome q (arrive q s)))) ∧
    (∀ id q k lo hi, s.req id = some q → q.kind = .fence k lo hi → fenceDone s q k lo hi = true →
      ∃ t, exec (.homeRequest id) s = .next t ∧ t.reqs = s.reqs.filter (fun r => r.id != id)) ∧
    (∀ id q v poison, s.req id = some q → q.performed = true → ((∃ sg, q.kind = .load sg) ∨ ∃ op, q.kind = .amo op) → q.drop = false → q.replay = none → q.gone = false →
      q.ctx.ctx < 11 → q.dest ≠ 0 → q.dest.toNat < 28 →
      ∃ t, exec (.memoryResponse id v poison) s = .next t ∧ t.reqs = s.reqs.filter (fun r => r.id != id) ∧
        (q.poison = false → (t.ctx q.ctx).reg q.dest = q.value ∧ (t.ctx q.ctx).isPoisoned q.dest = false) ∧
        (q.poison = true → (t.ctx q.ctx).isPoisoned q.dest = true ∧ (t.ctx q.ctx).reg q.dest = (s.ctx q.ctx).reg q.dest) ∧
        t.mem = s.mem) ∧
    (∀ id q v poison rep targets, s.req id = some q → q.performed = true → q.kind = .sti rep targets → q.drop = false → q.replay = none →
      q.ctx.ctx < 11 → q.dest ≠ 0 → q.dest.toNat < 28 →
      (s.pushes.any (fun p => p.req == id) = true → exec (.memoryResponse id v poison) s = .next s) ∧
      (s.pushes.any (fun p => p.req == id) = false → ∃ t, exec (.memoryResponse id v poison) s = .next t ∧
        t.reqs = s.reqs.filter (fun r => r.id != id) ∧ (t.ctx q.ctx).reg q.dest = q.value ∧ (t.ctx q.ctx).isPoisoned q.dest = false ∧ t.mem = s.mem)) ∧
    (∀ core line e, (s.core core).l1Find line = some e → e.st = .T → e.fill + 4096 ≤ s.cycle →
      exec (.tLineExpiry core line) s = .next (s.setCore core ((s.core core).l1Drop line))) ∧
    (∀ id q pa others, s.req id = some q → q.loc = .mem pa others → q.performed = false → isFar s pa = true → q.sent = true →
      mayPerform s q = true →
      exec (.farHomeRequest id) s =
        .next (if q.writes then bringOwned s (dieOfCore q.ctx.core) (pa / 64) else bring s (dieOfCore q.ctx.core) (pa / 64))) ∧
    (∀ line die, ∃ t, exec (.farInvalidationAck line die) s = .next t ∧ (line < 2 ^ 60 → t.mem = (farInvalidated s line die).mem) ∧
      (∀ f ∈ t.farWrites, farPending t f.line f.stamp = true) ∧ (∀ c, farCopy s line die = some c → c.inval.isSome = true → farCopy t line die = none)) ∧
    (∀ u ∈ s.updates, (∀ v ∈ s.updates, v.id = u.id → v = u) → (∀ v ∈ s.updates, v.id < u.id → v.pa / 64 ≠ u.pa / 64) →
      (peerHolds s (u.pa / 64) true = false → exec (.replicaUpdate u.id) s = .next (doorbell u.part u.pa u.size
        (deviceWrite ((updateCores s u.ctx).foldl (fun r core => dropOwnT r core (u.pa / 64))
          { s with updates := s.updates.filter (fun v => v.id != u.id) }) u.pa u.size u.value.toNat))) ∧
      (peerHolds s (u.pa / 64) true = true → exec (.replicaUpdate u.id) s =
        .next (askPeers [u.pa / 64] true (s.cycle + fabricCycles (s.part u.part)) s))) ∧
    (∀ line, isPopulated s (64 * line) = true → exec (.llcDramSoftError line) s =
      .next { s with bad := s.bad.filter (fun b => b.line != line) ++ [⟨line, BitVec.allOnes 64⟩] })

/-- Where no L1 holds a line and no push of it is under way, it is in bonded memory and not poisoned, requests are performed on it as the rules say. An
uncached store, its context holding no write tenure there, changes exactly its bytes in memory, and an uncached load gives the bytes that stand
there, sign- or zero-extended, and changes no byte. An atomic stores the new value of its operation where it has one, changes no other byte, and
has the old value as its result, extended as the operation says. An STI changes exactly its bytes and sends each target the line as it then stands. A VAMO adds
one of the elements still to be added to that element's bytes, and to no other; which one is a free value (the model's choice, log entry 14). (R230,
R231, R234, R239, R240, R244, R323, R345, R403, R436) -/
def Obligations.UncachedHomeAccess : Prop :=
  ∀ (q : Req) (pa : Nat) (s : State), q.loc = .mem pa [] → q.replay = none → 0 < q.size →
    let quiet := fun (l : Nat) => isFar s (64 * l) = false ∧ farCopy s l (dieOfCore q.ctx.core) = none ∧ (∀ c ∈ s.cores, c.2.l1Find l = none) ∧
      (∀ p ∈ s.pushes, p.line ≠ l) ∧ isBad s l = false
    let t := performReq q s
    let old := readLe s.mem pa q.size
    let bytes := fun (at_ n v : Nat) => (∀ i < n, (getByte t.mem (at_ + i)).toNat = v / 256 ^ i % 256) ∧
      (∀ b, (b < at_ ∨ at_ + n ≤ b) → getByte t.mem b = getByte s.mem b)
    (pa % 64 + q.size ≤ 64 → q.size ≤ 8 → isFar s pa = false → quiet (pa / 64) →
      (q.rt = 3 → (∀ h ∈ heldTenures s, h.1.ctx = q.ctx → h.1.write = true → h.2.inRange (pa / 64) = false) →
        (q.kind = .store → bytes pa q.size q.data.toNat) ∧
        (∀ sg, q.kind = .load sg → (∃ r ∈ s.reqs, r.id = q.id) →
          t.mem = s.mem ∧ ∀ r ∈ t.reqs, r.id = q.id → r.performed = true ∧ r.poison = false ∧
            r.value = (if sg = true ∧ 2 ^ (8 * q.size - 1) ≤ old then BitVec.ofInt 64 ((old : Int) - 2 ^ (8 * q.size)) else BitVec.ofNat 64 old))) ∧
      (∀ op, q.kind = .amo op →
        let n := 8 * q.size
        (∀ v, amoNew op n old (q.data.toNat % 2 ^ n) (q.expect.toNat % 2 ^ n) = some v → bytes pa q.size v) ∧
        (amoNew op n old (q.data.toNat % 2 ^ n) (q.expect.toNat % 2 ^ n) = none → t.mem = s.mem) ∧
        (∀ r ∈ t.reqs, r.id = q.id → r.performed = true ∧ r.poison = false ∧ r.value = amoResult op n old)) ∧
      (∀ rep targets, q.kind = .sti rep targets → bytes pa q.size q.data.toNat ∧
        ∃ l, t.pushes = s.pushes ++ l ∧ l.map (fun p => (p.target, p.bit)) = targets ∧
          (∀ p ∈ l, p.line = pa / 64 ∧ p.req = q.id ∧ p.ctx = q.ctx ∧ p.data = homeData t (pa / 64)))) ∧
    (pa % 128 = 0 → quiet (pa / 64) → quiet (pa / 64 + 1) → ∀ ty data left, q.kind = .vamo ty data left → left ≠ 0 →
      (∀ e, left.getLsbD e = true → vamoSize ty * e < 128) →
      ∃ e, left.getLsbD e = true ∧
        (let n := vamoSize ty
         let rest := left &&& ~~~(1#64 <<< e)
         bytes (pa + n * e) n (vamoElem ty (readLe s.mem (pa + n * e) n) (data.toNat / 256 ^ (n * e) % 256 ^ n)) ∧
         ∀ r ∈ t.reqs, r.id = q.id → rest ≠ 0 ∧ r.kind = .vamo ty data rest))

/-- A load that does not trap leaves every byte of memory and of its scratchpad, and every register but
its destination's, as they were, unless it enters its partition's retry ring. A store or an atomic changes at its issue no byte of memory either but
through the ring, no byte of its scratchpad outside its bytes at its address, and of the registers only an atomic's destination; what it does to
memory is done when its request is performed. What enters the ring writes the 32 bytes of the entry at the tail, where no copy of that line
and no push to it is about, and otherwise changes no byte outside that line. No other core's scratchpad or instruction memory is touched. (R149, R226,
R229, R231, R239, R379, R381) -/
def Obligations.MemoryFrame : Prop :=
  ∀ (d a b : Reg) (o : BitVec 9) (z t : BitVec 2) (sc : BitVec 3) (sz : BitVec 1) (w : BitVec 3) (s u : State), s.cur.ctx < 11 →
    let slot := ringSlot s.myPart s.myPart.rrtail.toNat
    (ringTakes s = true → ∀ p ∈ s.pushes, p.line ≠ slot / 64) →
    let alone := (∀ c ∈ s.cores, c.2.l1Find (slot / 64) = none) ∧ (∀ c ∈ s.far, c.line ≠ slot / 64) ∧ (∀ c ∈ s.peerDir, c.line ≠ slot / 64)
    let keeps := fun (i : Instr) (dest : Reg) (lo n : Nat) =>
      exec i s = .next u → u.note ≠ .trapped →
        (∀ x, (ringTakes s = true → x / 64 ≠ slot / 64) → getByte u.mem x = getByte s.mem x) ∧
        (alone → ∀ x, (x < slot ∨ slot + 32 ≤ x) → getByte u.mem x = getByte s.mem x) ∧
        (∀ x, (x < lo ∨ lo + n ≤ x) → getByte u.mine.spad x = getByte s.mine.spad x) ∧
        u.mine.imem = s.mine.imem ∧ (∀ k, k ≠ s.cur.core → (u.core k).spad = (s.core k).spad ∧ (u.core k).imem = (s.core k).imem) ∧
        (∀ r, r ≠ dest → u.me.reg r = s.me.reg r) ∧ u.me.p = s.me.p ∧ u.me.m = s.me.m ∧ u.me.frm = s.me.frm ∧ u.me.fflags = s.me.fflags ∧
        u.me.sbase = s.me.sbase ∧ u.me.slim = s.me.slim ∧ u.me.tvec = s.me.tvec ∧ u.me.tpc = s.me.tpc ∧ u.me.priv = s.me.priv ∧
        u.mine.accs = s.mine.accs
    let n := 2 ^ z.toNat
    let m := if sz = 0 then 4 else 8
    keeps (.ld d a o z t w) d 0 0 ∧ keeps (.ldu d a o z t w) d 0 0 ∧ keeps (.lda d a sc sz w) d 0 0 ∧
    keeps (.st d a o z t w) 0 (locOf (mAddr (s.rdA a) o z)) n ∧
    keeps (.strl a b sc sz w) 0 (locOf (s.rdA a)) m ∧ keeps (.ataddnr a b sc sz w) 0 (locOf (s.rdA a)) m ∧
    (∀ i ∈ [Instr.swap d a b sc sz w, .cas d a b sc sz w, .atadd d a b sc sz w, .atand d a b sc sz w, .ator d a b sc sz w,
        .atxor d a b sc sz w, .atmin d a b sc sz w, .atmax d a b sc sz w, .atminn d a b sc sz w, .atmaxn d a b sc sz w],
      keeps i d (locOf (s.rdA a)) m) ∧
    keeps (.atfadd d a b sc w) d (locOf (s.rdA a)) 4 ∧ keeps (.atfmax d a b sc w) d (locOf (s.rdA a)) 4

/-- VWPIN puts the core's position in the view of a translated address that has none, VWSET a given position, VWCLR none, and VWGET gives the position
an address names, each 2 cycles later; PROBE completes with the record of a load that would fault or of its translation and never traps; TLBI removes
the named entries after a release and completes when no access that used them is outstanding; PUBLISH, past its checks, waits for the engines,
releases, and once no tenure and no copy of another package stands against a line it writes exchanges all its frames in one step (the model's choice,
log entry 21) and removes the pages. (R309, R312, R313, R316, R323, R324, R438) -/
def Obligations.TranslationInstructions : Prop :=
  ∀ (d a b : Reg) (w : BitVec 3) (s : State),
    let x := s.rdA a
    let done := fun (rs : List Reg) (v : Word) => Host.Outcome.next (finish w rs (produceLater 2 d v 0 s))
    let translated_ := ¬ x.toNat % 2 ^ 52 < 0x100000 ∧ x.toNat % 2 ^ 52 < 2 ^ 51
    let withView := fun (v : Nat) => BitVec.ofNat 64 (x.toNat % 2 ^ 52 + 2 ^ 52 * (v % 2 ^ 12))
    (ReadyTo [a] d s →
      exec (.vwpin d a w) s = done [a] (if translated_ ∧ x.toNat / 2 ^ 52 = 0 then withView (s.posOf s.cur.core + 1) else x) ∧
      exec (.vwclr d a w) s = done [a] (withView 0) ∧
      exec (.vwget d a w) s = done [a] (if translated_ then BitVec.ofNat 64 (if x.toNat / 2 ^ 52 = 0 then s.posOf s.cur.core else x.toNat / 2 ^ 52 - 1)
        else BitVec.allOnes 64) ∧
      exec (.probe d a w) s = .next (finish w [a] (deliver d (probeRecord s x).1 (probeRecord s x).2))) ∧
    (hazard [a, b] [d] s = .clear →
      let p := (s.rdB a b).toNat
      (translated_ → p < s.ptlen → portFault s d = none → exec (.vwset d a b w) s = done [a, b] (withView (p + 1))) ∧
      ((¬ translated_ ∨ s.ptlen ≤ p) → exec (.vwset d a b w) s = trap (.mk' cADDRFORM x) s)) ∧
    (s.me.priv ≠ 0 → (∀ n, s.me.wait ≠ .stage n) → releaseHolds s.me = false →
      let scope := if s.myPart.scopecap.toNat < 5 then s.myPart.scopecap else 5
      released s s.cur scope = true → s.me.failed = [] →
      (Ready [a] s → let v := invalOf s (a == 0) (locOf x) (locOf x + 1)
        usesEntry { v with large := namesLarge v [rankOf s.cur.core] s } [rankOf s.cur.core] s.nextId (dropEntries v [rankOf s.cur.core] s) = false →
        exec (.tlbiL a w) s = .next (finish w [a] (dropEntries v [rankOf s.cur.core] s))) ∧
      (Ready [a, b] s →
        let v := invalOf s (a == 0) (locOf x) (if (s.rdB a b).toNat = 0 then locOf x + 1 else locOf x + (s.rdB a b).toNat)
        let ranks := if s.me.priv = 2 then List.range 1600 else s.myPart.ranks
        usesEntry { v with large := namesLarge v ranks s } ranks s.nextId (dropEntries v ranks s) = false →
        exec (.tlbiB a b w) s = .next (finish w [a, b] (dropEntries v ranks s)))) ∧
    (∀ (v : Inval) (ranks : List Nat) (r : Nat), ∀ e ∈ ((dropEntries v ranks s).cluster r).tlb, r ∈ ranks → v.names e = false) ∧
    (Ready [a] s → x.toNat % 64 ≠ 0 → exec (.publish a w) s = trap (.mk' cMISALIGN x) s) ∧
    (Ready [a] s → x.toNat % 64 = 0 → isTranslated x = true → formCheck s.ptlen x = none →
      ∀ sh leaves places, publishCheck s (s.xctx s.cur) x = .inr (sh, leaves, places) → enginePending s = false →
      (∀ c ∈ s.engine, c.ctx = s.cur → c.unreported = false) → releaseHolds s.me = false →
      released s s.cur (if s.myPart.scopecap.toNat < 5 then s.myPart.scopecap else 5) = true →
      usesEntry (Shadow.inval (s.xctx s.cur) sh) s.myPart.ranks s.nextId s = false →
      (∀ u, askFirst (publishLines s.cur sh leaves places) s = (none, u) →
        exec (.publish a w) s = .next (finish w [a] (publishPages (s.xctx s.cur) sh leaves places u))) ∧
      (∀ q u, askFirst (publishLines s.cur sh leaves places) s = (some q, u) → ∃ t, exec (.publish a w) s = .next t ∧ t.note = .held ∧ t.mem = s.mem ∧
        t.me.pc = s.me.pc))

/-- TILE.OPEN gives a handle for the tile its descriptor names, or the status that says why not; a dead handle traps HANDLEDEAD;
TILE.CLOSE closes a tile that nobody holds or waits for and gives 0, else 1; TILE.QRY gives the state of the tile; TEN.R and TEN.W
complete at once where the tenure may be granted or is held, and else wait in the tile's queue for TENURE_GRANT; TEN.TRYR and
TEN.TRYW give 1 or 0 at once; TEN.REL releases and gives 0, 1 for a lost tenure or 2 for none; TEN.DOWN turns a write tenure into
a read one; TILE.SPLIT replaces a tile by two. LEASE_REVOKE takes a tenure whose lease has run out and that an access waits for. (From which index on
TILE.OPEN and TILE.SPLIT look for a free one is a free value, and a context that has lost its tenure may be granted a new one: the model's reading, log
entry 27.)
(R317, R318, R319, R320, R322, R325, R326, R328) -/
def Obligations.TilesAndTenures : Prop :=
  ∀ (d a b : Reg) (w : BitVec 3) (s : State),
    let v := s.rdA a
    let q := s.myPart
    (ReadyTo [a] d s → v.toNat % 64 = 0 → v.toNat + 64 ≤ spBytes s.mine.spsize → spadBusy s.mine v.toNat 64 false = false →
      orderHolds s v 64 false = false →
      (descTile (readLe s.mine.spad v.toNat 64) = none → exec (.tileOpen d a w) s = writes w [a] d (BitVec.allOnes 64 - 2) s) ∧
      (∀ t, descTile (readLe s.mine.spad v.toNat 64) = some t → exec (.tileOpen d a w) s = writes w [a] d (openTile t s).1 (openTile t s).2)) ∧
    (handleIdx q v = none →
      (Ready [a] s → ∀ i ∈ [Instr.tenR a w, .tenW a w, .tenDown a w], exec i s = trap (.mk' cHANDLEDEAD v) s) ∧
      (hazard [a] [d] s = .clear → ∀ i ∈ [Instr.tileClose d a w, .tileQry d a w, .tenTryr d a w, .tenTryw d a w, .tenRel d a w],
        exec i s = trap (.mk' cHANDLEDEAD v) s)) ∧
    (∀ i, handleIdx q v = some i →
      (ReadyTo [a] d s →
        ((heldOn q i = [] ∧ waitingOn s q i = []) → exec (.tileClose d a w) s = writes w [a] d 0 (s.setPart s.myPartNo (closeIdx q i))) ∧
        (¬ (heldOn q i = [] ∧ waitingOn s q i = []) → exec (.tileClose d a w) s = writes w [a] d 1 s) ∧
        exec (.tileQry d a w) s = writes w [a] d (tileWord s i) s ∧
        (∀ p ∈ [(Instr.tenTryr d a w, false), (.tenTryw d a w, true)],
          (holdsAlready q i s.cur p.2 = true → exec p.1 s = writes w [a] d 1 s) ∧
          (holdsAlready q i s.cur p.2 = false → mayGrant s s.cur s.nextId p.2 (tileOf q i) = true →
            exec p.1 s = writes w [a] d 1 (grant s.myPartNo i s.cur p.2 (tileOf q i) s)) ∧
          (holdsAlready q i s.cur p.2 = false → mayGrant s s.cur s.nextId p.2 (tileOf q i) = false → exec p.1 s = writes w [a] d 0 s)) ∧
        (releaseHolds s.me = false → released s s.cur (capped q 5) = true →
          exec (.tenRel d a w) s = writes w [a] d (match myTenure q i s.cur with
              | none => 2
              | some t => if t.lost then 1 else 0)
            (s.setPart s.myPartNo { q with tenures := q.tenures.filter (fun t => !(t.idx == i && t.ctx == s.cur)) }))) ∧
      (Ready [a] s →
        (∀ p ∈ [(Instr.tenR a w, false), (.tenW a w, true)], (∀ n r w', s.me.wait ≠ .tenure n r w') →
          (holdsAlready q i s.cur p.2 = true → exec p.1 s = .next (finish w [a] s)) ∧
          (holdsAlready q i s.cur p.2 = false → mayGrant s s.cur s.nextId p.2 (tileOf q i) = true →
            exec p.1 s = .next (finish w [a] (grant s.myPartNo i s.cur p.2 (tileOf q i) s))) ∧
          (holdsAlready q i s.cur p.2 = false → mayGrant s s.cur s.nextId p.2 (tileOf q i) = false → s.cur.ctx < 11 →
            ∃ t, exec p.1 s = .next t ∧ t.note = .held ∧ t.me.wait = .tenure s.nextId a w ∧ t.me.pc = s.me.pc ∧
              t.parts = (s.setPart s.myPartNo { q with tenReqs := q.tenReqs ++ [⟨s.nextId, i, v.toNat / 2 ^ 20, s.cur, p.2⟩] }).parts)) ∧
        ((∀ t, myTenure q i s.cur = some t → (t.write = false ∨ t.lost = true)) → exec (.tenDown a w) s = .next (finish w [a] s)) ∧
        (∀ t, myTenure q i s.cur = some t → t.write = true → t.lost = false → releaseHolds s.me = false → released s s.cur (capped q 5) = true →
          exec (.tenDown a w) s = .next (finish w [a] (s.setPart s.myPartNo { q with
            tenures := q.tenures.map (fun t => if t.idx = i ∧ t.ctx = s.cur then { t with write := false } else t) })))) ∧
      (hazard [a, b] [d, d + 1] s = .clear →
        (splitCut (tileOf q i) (s.rdB a b) = none →
          exec (.tileSplit d a b w) s = .next (finish w [a, b] (deliver (d + 1) (BitVec.allOnes 64 - 2) (deliver d (BitVec.allOnes 64 - 2) s)))) ∧
        (∀ k c j0 j1, splitCut (tileOf q i) (s.rdB a b) = some (k, c) → freeIdx q ((Config.freeValue s.freeCtr).toNat % 2 ^ 20) = some j0 →
          let halves := splitTile (tileOf q i) k c
          freeIdx (takeIdx q j0 halves.1) ((Config.freeValue (s.freeCtr + 1)).toNat % 2 ^ 20) = some j1 →
          ∃ u, exec (.tileSplit d a b w) s = .next (finish w [a, b] (deliver (d + 1) (BitVec.ofNat 64 (j1 + 2 ^ 20 * nextGen q j1))
              (deliver d (BitVec.ofNat 64 (j0 + 2 ^ 20 * nextGen q j0)) u))) ∧
            u.parts = (s.setPart s.myPartNo (splitPart q i j0 j1 halves s.nextId)).parts ∧ u.cores = s.cores ∧ u.mem = s.mem))) ∧
    (∀ p r a' w', findTenReq s r.id = some (p, r) → (s.ctx r.ctx).wait = .tenure r.id a' w' → (s.part p).state = 1 →
      ∀ t, (s.part p).tile r.idx = some t → mayGrant s r.ctx r.id r.write t = true →
      exec (.tenureGrant r.id) s =
        .next (asCtx r.ctx (fun s => forwardIssued s.word false s (finish w' [a'] s)) (grant p r.idx r.ctx r.write t (dropTenReq p r.id s)))) ∧
    (∀ h ∈ heldTenures s, (∀ e ∈ heldTenures s, e.1.id = h.1.id → e = h) → h.1.expired s.cycle = true → (∃ r ∈ s.reqs, waitsFor s h r = true) →
      ∃ t, exec (.leaseRevoke h.1.id) s = .next t ∧ (∀ g ∈ heldTenures t, g.1.id ≠ h.1.id))

/-- CFETCH of an address outside translated code space traps ADDRFORM, of one whose slot holds another segment with a live PC
CODEBUSY; else it gives a ticket and, unless its segment is there or on its way, starts the fetch into its slot. CWAIT waits while
its ticket's fetch is under way, CSTAT gives the state of the address's slot, CEVICT empties the slot of a segment without a live
PC. SEGMENT_FETCH_DONE makes the slot RESIDENT with the segment's bytes, or FAILED. RPT captures its words and replays them as
often as it counts; a count of 0 passes them over. (R127, R129, R130, R131, R132, R133, R134, R157) -/
def Obligations.CodeSlotsAndFrames : Prop :=
  ∀ (d a c : Reg) (i : BitVec 6) (l : BitVec 4) (x y z : BitVec 1) (st : BitVec 2) (w : BitVec 3) (s : State),
    let va := s.rdA a
    let k := s.mine
    let slot := va.toNat / 2048 % 32
    (hazard [a] [d] s = .clear →
      ((va.toNat / 2 ^ 52 ≠ 0 ∨ va.toNat < 0x100000) → exec (.cfetch d a w) s = trap (.mk' cADDRFORM va) s) ∧
      (¬ (va.toNat / 2 ^ 52 ≠ 0 ∨ va.toNat < 0x100000) →
        (codeTaken k va = true → exec (.cfetch d a w) s = trap (.mk' cCODEBUSY va) s) ∧
        (codeTaken k va = false → portFault s d = none →
          (∀ n, (k.slot slot).current (segOf va) = some n → exec (.cfetch d a w) s = writes w [a] d (BitVec.ofNat 64 (slot + 32 * n.toNat)) s) ∧
          ((k.slot slot).current (segOf va) = none →
            exec (.cfetch d a w) s = writes w [a] d (BitVec.ofNat 64 (slot + 32 * (k.fetchSeq + 1).toNat))
              (s.setMine { k with fetchSeq := k.fetchSeq + 1
                                  slots := k.slots.setIfInBounds slot (.fetching (segOf va) (k.fetchSeq + 1) s.cur.ctx (s.xctx s.cur)) })))) ∧
      (portFault s d = none → ∃ v : Word, exec (.cstat d a w) s = writes w [a] d v s ∧
        (v = 0 ∨ v = 1 ∨ v = 2 ∨ v = 3) ∧ (v = 2 ↔ k.isResident va = true) ∧ (v = 1 ↔ k.isFetching va = true) ∧ (v = 3 ↔ k.isFailed va = true))) ∧
    (Ready [a] s →
      (∀ g n o e, k.slot (va.extractLsb' 0 5).toNat = .fetching g n o e → codeTicket (va.extractLsb' 0 5).toNat n = va →
        exec (.cwait a w) s = .next (held s)) ∧
      ((∀ g n o e, k.slot (va.extractLsb' 0 5).toNat = .fetching g n o e → codeTicket (va.extractLsb' 0 5).toNat n ≠ va) →
        exec (.cwait a w) s = .next (finish w [a] s)) ∧
      ((k.slot slot).seg = some (segOf va) → k.isLive (segOf va) = false →
        exec (.cevict a w) s = .next (finish w [a] (s.setMine { k with slots := k.slots.setIfInBounds slot .empty }))) ∧
      ((k.slot slot).seg = some (segOf va) → k.isLive (segOf va) = true →
        exec (.cevict a w) s = trap (.mk' cCODEBUSY va) s) ∧
      ((k.slot slot).seg ≠ some (segOf va) → exec (.cevict a w) s = .next (finish w [a] s))) ∧
    (∀ core n g q o e, core < 25600 → n < 32 → (s.core core).slot n = .fetching g q o e →
      ∃ t, exec (.segmentFetchDone core n) s = .next t ∧
        ((t.core core).slot n = .resident g q ∨ (t.core core).slot n = .failed g q) ∧
        (∀ u pa others v, resolve s e g 1 needX = (u, .ok (.mem pa others)) →
          (fetchLines core pa n 32 u = (v, true) → (t.core core).slot n = .resident g q ∧ (t.core core).imem = (v.core core).imem) ∧
          (fetchLines core pa n 32 u = (v, false) → (t.core core).slot n = .failed g q)) ∧
        (∀ u err, resolve s e g 1 needX = (u, .error err) → (t.core core).slot n = .failed g q ∧ (t.core core).imem = (u.core core).imem)) ∧
    (let rs := if c = 0 then [] else [c]
     let count := if c = 0 then i.toNat + 1 else (s.rdA c).toNat
     let len := l.toNat + 1
     let base := s.me.pc + 4
     Ready rs s → s.me.fwd = none →
      (65536 < count → exec (.rpt c i l x y z st w) s = trap (.mk' cREPEATBAD (BitVec.allOnes 64)) s) ∧
      (∀ t, count ≤ 65536 → captureCheck k base len = some t → exec (.rpt c i l x y z st w) s = trap t s) ∧
      (count = 0 → captureCheck k base len = none →
        exec (.rpt c i l x y z st w) s = .next (finishAt w rs (base + BitVec.ofNat 64 (4 * len)) s)) ∧
      (1 ≤ count → count ≤ 65536 → captureCheck k base len = none → s.cur.ctx < 11 →
        ∃ t f, exec (.rpt c i l x y z st w) s = .next t ∧ t.me.frame = some f ∧ t.me.pc = base ∧ f.base = base ∧ f.count = count ∧ f.k = 0 ∧
          f.index = 0 ∧ f.words.length = len ∧ (∀ j < len, f.words[j]? = some (k.fetch (base + BitVec.ofNat 64 (4 * j)))) ∧
          f.stride = st ∧ f.smask.getLsbD 2 = x.getLsbD 0 ∧ f.smask.getLsbD 1 = y.getLsbD 0 ∧ f.smask.getLsbD 0 = z.getLsbD 0))

/-- Each vector instruction that writes lines or masks reads its g sources at issue, is checked for lines the scratchpad does not have (LOCALRANGE)
and for the bank rule (BANKRULE with cr.chk set), and joins its context's queue of four with its line numbers, its sources and its passes: one, or as
many as the lines it widens to. A full queue holds it before any of its checks, and one that accesses the scratchpad is held by an acquire or fence
that is not complete and by a change of the scratchpad's size. (R157, R159, R162, R163, R165, R169, R180, R181, R185, R189, R193) -/
def Obligations.VectorIssue : Prop :=
  ∀ (d a b : Reg) (t w : BitVec 3) (s : State), s.cur.ctx < 11 →
    let one := fun (ds : List Reg) (la lb : Option Reg) => (⟨ds, la, lb, true, false⟩ : VLines)
    let queues := fun (i : Instr) (v : VLines) (ga gb : Option Reg) (passes : Nat) =>
      ((4 ≤ s.me.vq.length ∨ vecWaits v s = true) → exec i s = .next (held s)) ∧
      (Ready (ga.toList ++ gb.toList) s → s.me.vq.length < 4 → vecWaits v s = false → (∀ e, vecCheck v s = some e → exec i s = trap e s) ∧
        (vecCheck v s = none → ∃ u e, exec i s = .next (finish w (ga.toList ++ gb.toList) u) ∧
        u.me = { s.me with vq := s.me.vq ++ [e] } ∧ u.mem = s.mem ∧ u.mine.spad = s.mine.spad ∧ e.instr = i ∧ e.passes = passes ∧
        e.seq = s.mine.issueSeq ∧ e.pc = s.me.pc ∧ e.rm = s.me.rm ∧ e.elems = [] ∧
        (∀ r l, v.d = r :: l → e.d = s.me.lineNo r) ∧ (∀ r, v.a = some r → e.a = s.me.lineNo r) ∧ (∀ r, v.b = some r → e.b = s.me.lineNo r) ∧
        e.wr = v.writes s.me ∧ e.rd = v.reads s.me ∧ (∀ r, ga = some r → e.ga = s.rdA r) ∧
        (∀ r, gb = some r → e.gb = s.src r (ga.toList.count r)) ∧
        (s.me.chk = false → banksOk (v.banked s.me) = false → e.slip = true ∧ u.mine.bankslip = s.mine.bankslip + 1)))
    (∀ p ∈ [
        (Instr.vadd d a b t w, one [d] (some a) (some b), none, none, 1), (.vsub d a b t w, one [d] (some a) (some b), none, none, 1),
        (.vmul d a b t w, one [d] (some a) (some b), none, none, 1), (.vmulh d a b t w, one [d] (some a) (some b), none, none, 1),
        (.vmin d a b t w, one [d] (some a) (some b), none, none, 1), (.vmax d a b t w, one [d] (some a) (some b), none, none, 1),
        (.vminu d a b t w, one [d] (some a) (some b), none, none, 1), (.vmaxu d a b t w, one [d] (some a) (some b), none, none, 1),
        (.vadds d a b t w, one [d] (some a) (some b), none, none, 1), (.vsubs d a b t w, one [d] (some a) (some b), none, none, 1),
        (.vaddsn d a b t w, one [d] (some a) (some b), none, none, 1), (.vmac d a b t w, one [d] (some a) (some b), none, none, 1),
        (.vfadd d a b t w, one [d] (some a) (some b), none, none, 1), (.vfsub d a b t w, one [d] (some a) (some b), none, none, 1),
        (.vfmul d a b t w, one [d] (some a) (some b), none, none, 1), (.vfma d a b t w, one [d] (some a) (some b), none, none, 1),
        (.vfnma d a b t w, one [d] (some a) (some b), none, none, 1), (.vfmin d a b t w, one [d] (some a) (some b), none, none, 1),
        (.vfmax d a b t w, one [d] (some a) (some b), none, none, 1), (.vand d a b t w, one [d] (some a) (some b), none, none, 1),
        (.vor d a b t w, one [d] (some a) (some b), none, none, 1), (.vxor d a b t w, one [d] (some a) (some b), none, none, 1),
        (.vandn d a b t w, one [d] (some a) (some b), none, none, 1), (.vshl d a b t w, one [d] (some a) (some b), none, none, 1),
        (.vshr d a b t w, one [d] (some a) (some b), none, none, 1), (.vsar d a b t w, one [d] (some a) (some b), none, none, 1),
        (.vsel d a b t w, one [d] (some a) (some b), none, none, 1), (.vdqo4 d a b t w, one [d] (some a) (some b), none, none, 1),
        (.vperm d a b t w, one [d] (some a) (some b), none, none, 1), (.vzip d a b t w, one [d] (some a) (some b), none, none, 1),
        (.vunzip d a b t w, one [d] (some a) (some b), none, none, 1), (.vabs d a t w, one [d] (some a) none, none, none, 1),
        (.vneg d a t w, one [d] (some a) none, none, none, 1), (.vfabs d a t w, one [d] (some a) none, none, none, 1),
        (.vfneg d a t w, one [d] (some a) none, none, none, 1), (.vfexp2 d a t w, one [d] (some a) none, none, none, 1),
        (.vflog2 d a t w, one [d] (some a) none, none, none, 1), (.vfrcp d a t w, one [d] (some a) none, none, none, 1),
        (.vfrsq d a t w, one [d] (some a) none, none, none, 1), (.vmov d a t w, one [d] (some a) none, none, none, 1),
        (.vcmpeq d a b t w, one [] (some a) (some b), none, none, 1), (.vcmplt d a b t w, one [] (some a) (some b), none, none, 1),
        (.vcmple d a b t w, one [] (some a) (some b), none, none, 1), (.vcmpltn d a b t w, one [] (some a) (some b), none, none, 1),
        (.vfcmpeq d a b t w, one [] (some a) (some b), none, none, 1), (.vfcmplt d a b t w, one [] (some a) (some b), none, none, 1),
        (.vfcmple d a b t w, one [] (some a) (some b), none, none, 1), (.vwmul d a b t w, one [d, d + 1] (some a) (some b), none, none, 2),
        (.vwmac d a b t w, one [d, d + 1] (some a) (some b), none, none, 2), (.vfwmul d a b t w, one [d, d + 1] (some a) (some b), none, none, 2),
        (.vfwma d a b t w, one [d, d + 1] (some a) (some b), none, none, 2), (.vmand d a b t w, one [] none none, none, none, 1),
        (.vmor d a b t w, one [] none none, none, none, 1), (.vmxor d a b t w, one [] none none, none, none, 1),
        (.vmnot d a t w, one [] none none, none, none, 1), (.vmset d a t w, one [] none none, some a, none, 1),
        (.vqo4 d a b t w, (⟨[d], some a, some b, true, true⟩ : VLines), none, none, 1), (.vbcast d a t w, one [d] none none, some a, none, 1),
        (.vslide d a b t w, one [d] (some a) none, none, some b, 1), (.vins d a b t w, one [d] none none, some a, some b, 1),
        (.vhad d a b t w, one [d] (some a) none, none, none, 1), (.viota d t w, one [d] none none, none, none, 1)],
      queues p.1 p.2.1 p.2.2.1 p.2.2.2.1 p.2.2.2.2) ∧
    (if t = 1 then queues (.vdot4 d a b t w) (one [d] (some a) (some b)) none none 1
      else queues (.vdot4 d a b t w) (one [d, d + 1] (some a) (some b)) none none 2) ∧
    (let r := Machine.tyWidth (b.extractLsb' 0 3) / Machine.tyWidth t
     queues (.vcvt d a b t w) (one (if 2 ≤ r then (List.range r).map (fun i => d + BitVec.ofNat 5 i) else [d]) (some a) none) none none
       (if 2 ≤ r then r else 1)) ∧
    (∀ v : VLines, (∃ l ∈ v.ds s.me ++ (v.aLine s.me).toList ++ (v.bLine s.me).toList, spLines s.mine.spsize ≤ l) →
      ∃ l, spLines s.mine.spsize ≤ l ∧ vecCheck v s = some (.mk' cLOCALRANGE (BitVec.ofNat 64 (512 * l))))

/-- VMPOP, VMFIRST, the reductions VRSUM, VRMAX, VRMIN, VRAMAX and VDOT, and VEXT take a lane group that is free, once their context's queue is empty
and the lines they read are written, for one frame or, slipping the bank rule, for two, and have their result, with its flags, 8 cycles later; with no
lane group free, or anything before them not done, they are held before any of their checks. (That an acquire or a fence that is not complete and a
line still to be written hold them too is the model's choice: log entry 15. VRAMAX without an active element that is a number gives a free value: log
entry 11.) (R89, R157, R162, R166, R167, R188, R192, R193) -/
def Obligations.VectorResultsForRegisters : Prop :=
  ∀ (d a b : Reg) (t w : BitVec 3) (s : State),
    let m := s.me.mask 0
    let xs := s.mine.lineElems t (s.me.lineNo a)
    let ys := s.mine.lineElems t (s.me.lineNo b)
    let gives := fun (i : Instr) (v : VLines) (gb : Option Reg) (r : Word × BitVec 8) =>
      (ReadyTo gb.toList d s → ∀ n, freeLane s.mine s.cycle = some n → s.me.vq = [] → vecWaits v s = false →
        linesBusy s.mine (v.reads s.me) = false → (∀ e, vecCheck v s = some e → exec i s = trap e s) ∧
        (vecCheck v s = none → ∃ u, exec i s = .next (finish w gb.toList (produce 8 d r.1 r.2 u)) ∧ u.me = s.me ∧ u.mem = s.mem ∧ u.mine.spad = s.mine.spad ∧
            (n < 4 → u.mine.lanes[n]? = some (s.cycle + (if s.me.chk = false ∧ banksOk (v.banked s.me) = false then 10 else 5))))) ∧
      ((freeLane s.mine s.cycle = none ∨ s.me.vq ≠ [] ∨ vecWaits v s = true ∨ linesBusy s.mine (v.reads s.me) = true) →
        exec i s = .next (held s))
    gives (.vmpop d a t w) linesNone none
      (BitVec.ofNat 64 (((List.range (4096 / Machine.tyWidth t)).filter (fun i => (s.me.mask a.toNat).getLsbD (i * (Machine.tyWidth t / 4)))).length), 0) ∧
    gives (.vmfirst d a t w) linesNone none (maskFirst (s.me.mask a.toNat) t, 0) ∧
    gives (.vrsum d a t w) (linesA a) none (rsum m t xs) ∧ gives (.vrmax d a t w) (linesA a) none (rminMax true m t xs) ∧
    gives (.vrmin d a t w) (linesA a) none (rminMax false m t xs) ∧ gives (.vramax d a t w) (linesA a) none (ramax (Config.freeValue s.freeCtr) m t xs) ∧
    gives (.vdot d a b t w) (linesAb a b) none (rdot m t xs ys) ∧
    gives (.vext d a b t w) (linesA a) (some b) (extElem t (s.mine.spadLine (s.me.lineNo a)) (s.rdA b), 0)

/-- When it runs, an elementwise vector instruction writes to each active element of its destination line the value of its
operation on the elements of its sources and leaves the inactive ones as they were; a widening one writes element i, twice as
wide, to element i/2 of line i mod 2; a compare writes to every mask bit of an element whether it is active and its comparison
holds; and the mask instructions combine masks. (R171, R172, R180, R181, R182, R185, R186, R187, R188, R193) -/
def Obligations.VectorElements : Prop :=
  ∀ (x : Ctx) (k : Core) (e : VEntry) (d a b : Reg) (t w : BitVec 3),
    let n := Machine.tyWidth t
    let count := 4096 / n
    let act := fun (i : Nat) => (x.mask 0).getLsbD (i * (n / 4))
    let A := fun (i : Nat) => elemAt n (k.spadLine e.a) i
    let B := fun (i : Nat) => elemAt n (k.spadLine e.b) i
    let D := fun (i : Nat) => elemAt n (k.spadLine e.d) i
    let sg := fun (v : Nat) => (BitVec.ofNat n v).toInt
    let wrapped := fun (v : Int) => (v % 2 ^ n).toNat
    let line := fun (f : Nat → Nat) => ∃ v g, vecRes x k e = some ⟨[(e.d, v)], [], g⟩ ∧ v < 2 ^ 4096 ∧ ∀ i < count, elemAt n v i = f i
    let gives := fun (f : Nat → Nat → Nat → Nat) => line (fun i => if act i then f (A i) (B i) (D i) else D i)
    let compares := fun (f : Nat → Nat → Bool) => ∃ m g, vecRes x k e = some ⟨[], [(d.toNat, m)], g⟩ ∧
      ∀ j < 1024, m.getLsbD j = (act (j / (n / 4)) && f (A (j / (n / 4))) (B (j / (n / 4))))
    let widens := fun (f : Nat → Nat → Nat → Nat) => ∀ l₀ l₁, e.wr = [l₀, l₁] → ∃ v₀ v₁ g, vecRes x k e = some ⟨[(l₀, v₀), (l₁, v₁)], [], g⟩ ∧
      ∀ i < count,
        let old := elemAt (2 * n) (k.spadLine (if i % 2 = 0 then l₀ else l₁)) (i / 2)
        elemAt (2 * n) (if i % 2 = 0 then v₀ else v₁) (i / 2) = if act i then f (A i) (B i) old else old
    let mask := fun (m : Mask) => vecRes x k e = some ⟨[], [(d.toNat, m)], 0⟩
    (e.instr = .vadd d a b t w → gives (fun p q _ => (p + q) % 2 ^ n)) ∧
    (e.instr = .vsub d a b t w → gives (fun p q _ => wrapped ((p : Int) - q))) ∧
    (e.instr = .vmul d a b t w → gives (fun p q _ => p * q % 2 ^ n)) ∧
    (e.instr = .vmulh d a b t w → gives (fun p q _ => wrapped (sg p * sg q / 2 ^ n))) ∧
    (e.instr = .vmin d a b t w → gives (fun p q _ => if sg p ≤ sg q then p else q)) ∧
    (e.instr = .vmax d a b t w → gives (fun p q _ => if sg p ≤ sg q then q else p)) ∧
    (e.instr = .vminu d a b t w → gives (fun p q _ => min p q)) ∧
    (e.instr = .vmaxu d a b t w → gives (fun p q _ => max p q)) ∧
    (e.instr = .vadds d a b t w → gives (fun p q _ => wrapped (max (-(2 ^ (n - 1))) (min (2 ^ (n - 1) - 1) (sg p + sg q))))) ∧
    (e.instr = .vsubs d a b t w → gives (fun p q _ => wrapped (max (-(2 ^ (n - 1))) (min (2 ^ (n - 1) - 1) (sg p - sg q))))) ∧
    (e.instr = .vaddsn d a b t w → gives (fun p q _ => min (2 ^ n - 1) (p + q))) ∧
    (e.instr = .vabs d a t w → gives (fun p _ _ => wrapped (sg p).natAbs)) ∧
    (e.instr = .vneg d a t w → gives (fun p _ _ => wrapped (-(p : Int)))) ∧
    (e.instr = .vmac d a b t w → gives (fun p q z => (z + p * q) % 2 ^ n)) ∧
    (e.instr = .vand d a b t w → gives (fun p q _ => p &&& q)) ∧
    (e.instr = .vor d a b t w → gives (fun p q _ => p ||| q)) ∧
    (e.instr = .vxor d a b t w → gives (fun p q _ => p ^^^ q)) ∧
    (e.instr = .vandn d a b t w → gives (fun p q _ => (BitVec.ofNat n p &&& ~~~BitVec.ofNat n q).toNat)) ∧
    (e.instr = .vshl d a b t w → gives (fun p q _ => if n ≤ q then 0 else p * 2 ^ q % 2 ^ n)) ∧
    (e.instr = .vshr d a b t w → gives (fun p q _ => if n ≤ q then 0 else p / 2 ^ q)) ∧
    (e.instr = .vsar d a b t w → gives (fun p q _ => wrapped (sg p / 2 ^ min q n))) ∧
    (e.instr = .vfadd d a b t w → gives (fun p q _ => (el2 (f32.add e.rm) t p q 0).1 % 2 ^ n)) ∧
    (e.instr = .vfsub d a b t w → gives (fun p q _ => (el2 (f32.sub e.rm) t p q 0).1 % 2 ^ n)) ∧
    (e.instr = .vfmul d a b t w → gives (fun p q _ => (el2 (f32.mul e.rm) t p q 0).1 % 2 ^ n)) ∧
    (e.instr = .vfma d a b t w → gives (fun p q z => (el3 (f32.fma e.rm false) t t p q z).1 % 2 ^ n)) ∧
    (e.instr = .vfnma d a b t w → gives (fun p q z => (el3 (f32.fma e.rm true) t t p q z).1 % 2 ^ n)) ∧
    (e.instr = .vfmin d a b t w → gives (fun p q _ => (el2 (f32.minMax false) t p q 0).1 % 2 ^ n)) ∧
    (e.instr = .vfmax d a b t w → gives (fun p q _ => (el2 (f32.minMax true) t p q 0).1 % 2 ^ n)) ∧
    (e.instr = .vfabs d a t w → gives (fun p _ _ => p % 2 ^ (n - 1))) ∧
    (e.instr = .vfneg d a t w → gives (fun p _ _ => if p < 2 ^ (n - 1) then p + 2 ^ (n - 1) else p - 2 ^ (n - 1))) ∧
    (e.instr = .vmov d a t w → gives (fun p _ _ => p)) ∧
    (e.instr = .vbcast d a t w → gives (fun _ _ _ => e.ga.toNat % 2 ^ n)) ∧
    (e.instr = .vcmpeq d a b t w → compares (fun p q => decide (p = q))) ∧
    (e.instr = .vcmplt d a b t w → compares (fun p q => decide (sg p < sg q))) ∧
    (e.instr = .vcmple d a b t w → compares (fun p q => decide (sg p ≤ sg q))) ∧
    (e.instr = .vcmpltn d a b t w → compares (fun p q => decide (p < q))) ∧
    (e.instr = .vfcmpeq d a b t w → compares (fun p q => ((tyFmt t).feq p q).1)) ∧
    (e.instr = .vfcmplt d a b t w → compares (fun p q => ((tyFmt t).flt p q).1)) ∧
    (e.instr = .vfcmple d a b t w → compares (fun p q => ((tyFmt t).fle p q).1)) ∧
    (e.instr = .vsel d a b t w → line (fun i => if act i then A i else B i)) ∧
    (e.instr = .vwmul d a b t w → n ≤ 16 → widens (fun p q _ => (sg p * sg q % 2 ^ (2 * n)).toNat)) ∧
    (e.instr = .vwmac d a b t w → n ≤ 16 → widens (fun p q z => (((z : Int) + sg p * sg q) % 2 ^ (2 * n)).toNat)) ∧
    (e.instr = .vfwmul d a b t w → n ≤ 16 → widens (fun p q _ => (elFwmul e.rm t p q 0).1 % 2 ^ (2 * n))) ∧
    (e.instr = .vfwma d a b t w → n ≤ 16 → widens (fun p q z => (el3 (f32.fma e.rm false) t (wideTy t) p q z).1 % 2 ^ (2 * n))) ∧
    (e.instr = .vmand d a b t w → mask (x.mask a.toNat &&& x.mask b.toNat)) ∧ (e.instr = .vmor d a b t w → mask (x.mask a.toNat ||| x.mask b.toNat)) ∧
    (e.instr = .vmxor d a b t w → mask (x.mask a.toNat ^^^ x.mask b.toNat)) ∧ (e.instr = .vmnot d a t w → mask (~~~(x.mask a.toNat))) ∧
    (e.instr = .vmset d a t w → ∃ m, mask m ∧ ∀ j < 1024, m.getLsbD j = decide (j < min e.ga.toNat count * (n / 4))) ∧
    (e.instr = .vperm d a b t w → line (fun i => if act i then A (B i % count) else D i)) ∧
    (e.instr = .vslide d a b t w → line (fun i => if act i then
        (if 0 ≤ (i : Int) + e.gb.toInt ∧ (i : Int) + e.gb.toInt < count then A ((i : Int) + e.gb.toInt).toNat else 0) else D i)) ∧
    (e.instr = .vzip d a b t w → line (fun i => if act i then (if i % 2 = 0 then A (i / 2) else B (i / 2)) else D i)) ∧
    (e.instr = .vunzip d a b t w → line (fun i => if act i then (if i < count / 2 then A (2 * i) else B (2 * (i - count / 2))) else D i)) ∧
    (e.instr = .vins d a b t w → line (fun i => if i = e.gb.toNat then e.ga.toNat % 2 ^ n else D i)) ∧
    (e.instr = .viota d t w → tyFloat t = false → line (fun i => if act i then i % 2 ^ n else D i))

/-- When it runs, VCVT gives each active element of its destination type the converted element of its source, rounded and saturating as its mode says,
in r lines for a destination r times as wide, and at the front of the line for a narrower one; VQO4 gives each block of 32 elements its scale byte and its
quads, VDQO4 the element of each quad under its block's scale; VDOT4 adds four products to each active I32 element; VHAD transforms each block; VIOTA of a
float type gives the index, and VFEXP2, VFLOG2, VFRCP and VFRSQ their function (rounded correctly as the model computes it, log entry 10) with the values
of R184's table and those of the powers of two. The
flags that an instruction raises are those of its active elements together: those of the operation for a float one, SAT where a saturating one leaves its
bounds, and none for the others. (That VQO4 raises NV for a block without a scale and neither NX nor UF is the model's choice, log entry 93.)
(R71, R77, R92, R172, R180, R181, R182, R184, R189, R190, R191, R194) -/
def Obligations.VectorConversionsAndFlags : Prop :=
  ∀ (x : Ctx) (k : Core) (e : VEntry) (d a b : Reg) (t w : BitVec 3),
    let n := Machine.tyWidth t
    let count := 4096 / n
    let act := fun (i : Nat) => (x.mask 0).getLsbD (i * (n / 4))
    let A := fun (i : Nat) => elemAt n (k.spadLine e.a) i
    let B := fun (i : Nat) => elemAt n (k.spadLine e.b) i
    let D := fun (i : Nat) => elemAt n (k.spadLine e.d) i
    let sg := fun (v : Nat) => (BitVec.ofNat n v).toInt
    let raised := fun (g : BitVec 8) (f : Nat → BitVec 8) => ∀ j < 8, g.getLsbD j = true ↔ ∃ i < count, act i = true ∧ (f i).getLsbD j = true
    let gives := fun (f : Nat → Nat → Nat → Nat × BitVec 8) => ∃ v g, vecRes x k e = some ⟨[(e.d, v)], [], g⟩ ∧
      (∀ i < count, elemAt n v i = if act i then (f (A i) (B i) (D i)).1 % 2 ^ n else D i) ∧ raised g (fun i => (f (A i) (B i) (D i)).2)
    let widens := fun (f : Nat → Nat → Nat → Nat × BitVec 8) => ∀ l₀ l₁, e.wr = [l₀, l₁] → ∃ v₀ v₁ g, vecRes x k e = some ⟨[(l₀, v₀), (l₁, v₁)], [], g⟩ ∧
      let old := fun (i : Nat) => elemAt (2 * n) (k.spadLine (if i % 2 = 0 then l₀ else l₁)) (i / 2)
      (∀ i < count, elemAt (2 * n) (if i % 2 = 0 then v₀ else v₁) (i / 2) = if act i then (f (A i) (B i) (old i)).1 % 2 ^ (2 * n) else old i) ∧
      raised g (fun i => (f (A i) (B i) (old i)).2)
    let clamp := fun (lo hi v : Int) => (((max lo (min hi v)) % 2 ^ n).toNat, if v < lo ∨ hi < v then fSAT else (0 : BitVec 8))
    let least : Int := -(2 ^ (n - 1))
    let most : Int := 2 ^ (n - 1) - 1
    let silent := [Instr.vadd d a b t w, .vsub d a b t w, .vmul d a b t w, .vmulh d a b t w, .vmin d a b t w, .vmax d a b t w, .vminu d a b t w,
      .vmaxu d a b t w, .vabs d a t w, .vneg d a t w, .vmac d a b t w, .vwmul d a b t w, .vwmac d a b t w, .vdot4 d a b t w, .vand d a b t w,
      .vor d a b t w, .vxor d a b t w, .vandn d a b t w, .vshl d a b t w, .vshr d a b t w, .vsar d a b t w, .vfabs d a t w, .vfneg d a t w,
      .vcmpeq d a b t w, .vcmplt d a b t w, .vcmple d a b t w, .vcmpltn d a b t w, .vsel d a b t w, .vmand d a b t w, .vmor d a b t w,
      .vmxor d a b t w, .vmnot d a t w, .vmset d a t w, .vbcast d a t w, .vmov d a t w, .vperm d a b t w, .vslide d a b t w, .vzip d a b t w,
      .vunzip d a b t w, .vins d a b t w]
    (e.instr ∈ silent → ∀ r, vecRes x k e = some r → r.flags = 0) ∧
    (e.instr = .vadds d a b t w → gives (fun p q _ => clamp least most (sg p + sg q))) ∧
    (e.instr = .vsubs d a b t w → gives (fun p q _ => clamp least most (sg p - sg q))) ∧
    (e.instr = .vaddsn d a b t w → gives (fun p q _ => clamp 0 (2 ^ n - 1) ((p : Int) + q))) ∧
    (e.instr = .vfadd d a b t w → gives (fun p q _ => el2 (f32.add e.rm) t p q 0)) ∧
    (e.instr = .vfsub d a b t w → gives (fun p q _ => el2 (f32.sub e.rm) t p q 0)) ∧
    (e.instr = .vfmul d a b t w → gives (fun p q _ => el2 (f32.mul e.rm) t p q 0)) ∧
    (e.instr = .vfma d a b t w → gives (el3 (f32.fma e.rm false) t t)) ∧
    (e.instr = .vfnma d a b t w → gives (el3 (f32.fma e.rm true) t t)) ∧
    (e.instr = .vfmin d a b t w → gives (fun p q _ => el2 (f32.minMax false) t p q 0)) ∧
    (e.instr = .vfmax d a b t w → gives (fun p q _ => el2 (f32.minMax true) t p q 0)) ∧
    (e.instr = .vfwmul d a b t w → n ≤ 16 → widens (fun p q _ => elFwmul e.rm t p q 0)) ∧
    (e.instr = .vfwma d a b t w → n ≤ 16 → widens (el3 (f32.fma e.rm false) t (wideTy t))) ∧
    (∀ q ∈ [(Instr.vfcmpeq d a b t w, (tyFmt t).feq), (.vfcmplt d a b t w, (tyFmt t).flt), (.vfcmple d a b t w, (tyFmt t).fle)],
      e.instr = q.1 → ∀ r, vecRes x k e = some r → raised r.flags (fun i => (q.2 (A i) (B i)).2)) ∧
    (e.instr = .vfexp2 d a t w → gives (fun p _ _ => el1 (fexp2 e.rm) t p)) ∧
    (e.instr = .vflog2 d a t w → gives (fun p _ _ => el1 (flog2 e.rm) t p)) ∧
    (e.instr = .vfrcp d a t w → gives (fun p _ _ => el1 (f32.div e.rm 0x3F800000) t p)) ∧
    (e.instr = .vfrsq d a t w → gives (fun p _ _ => el1 (frsqrt e.rm) t p)) ∧
    (∀ rm : BitVec 2,
      fexp2 rm 0 = (0x3F800000, 0) ∧ fexp2 rm 0x80000000 = (0x3F800000, 0) ∧ fexp2 rm 0x7F800000 = (0x7F800000, 0) ∧ fexp2 rm 0xFF800000 = (0, 0) ∧
      flog2 rm 0 = (0xFF800000, fDZ) ∧ flog2 rm 0x80000000 = (0xFF800000, fDZ) ∧ flog2 rm 0x7F800000 = (0x7F800000, 0) ∧
      (∀ v, 0x80000000 < v → v ≤ 0xFF800000 → flog2 rm v = (f32.nan, fNV) ∧ frsqrt rm v = (f32.nan, fNV)) ∧
      f32.div rm 0x3F800000 0 = (0x7F800000, fDZ) ∧ f32.div rm 0x3F800000 0x80000000 = (0xFF800000, fDZ) ∧
      f32.div rm 0x3F800000 0x7F800000 = (0, 0) ∧ f32.div rm 0x3F800000 0xFF800000 = (0x80000000, 0) ∧
      frsqrt rm 0 = (0x7F800000, fDZ) ∧ frsqrt rm 0x80000000 = (0xFF800000, fDZ) ∧ frsqrt rm 0x7F800000 = (0, 0) ∧
      (∀ v sig, f32.decode v = .nan sig → ∀ f ∈ [fexp2 rm, flog2 rm, frsqrt rm, f32.div rm 0x3F800000], f v = (f32.nan, if sig then fNV else 0)) ∧
      (∀ i : Int, -126 ≤ i → i ≤ 127 → let p := (i + 127).toNat * 2 ^ 23
        fexp2 rm (f32.ofInt 0 false i).1 = (p, 0) ∧ flog2 rm p = ((f32.ofInt 0 false i).1, 0))) ∧
    (e.instr = .viota d t w → tyFloat t = true → ∃ v g, vecRes x k e = some ⟨[(e.d, v)], [], g⟩ ∧
      (∀ i < count, elemAt n v i = if act i then ((tyFmt t).ofInt 0 false i).1 % 2 ^ n else D i) ∧ raised g (fun i => ((tyFmt t).ofInt 0 false i).2)) ∧
    (let z₀ := fun (l j : Nat) => elemAt 32 (k.spadLine l) j
      let new := fun (old j : Nat) => if act (4 * j) then (((old : Int) + sg (A (4 * j)) * sg (B (4 * j)) + sg (A (4 * j + 1)) * sg (B (4 * j + 1)) +
        sg (A (4 * j + 2)) * sg (B (4 * j + 2)) + sg (A (4 * j + 3)) * sg (B (4 * j + 3))) % 2 ^ 32).toNat else old
      (e.instr = .vdot4 d a b 1 w → t = 1 → ∃ v, vecRes x k e = some ⟨[(e.d, v)], [], 0⟩ ∧ ∀ j < 128, elemAt 32 v j = new (z₀ e.d j) j) ∧
      (e.instr = .vdot4 d a b 0 w → t = 0 → ∀ l₀ l₁, e.wr = [l₀, l₁] → ∃ v₀ v₁, vecRes x k e = some ⟨[(l₀, v₀), (l₁, v₁)], [], 0⟩ ∧
        ∀ j < 256, elemAt 32 (if j % 2 = 0 then v₀ else v₁) (j / 2) = new (z₀ (if j % 2 = 0 then l₀ else l₁) (j / 2)) j)) ∧
    (e.instr = .vcvt d a b t w →
      let u := b.extractLsb' 0 3
      let m := Machine.tyWidth u
      let rm : BitVec 2 := if b.extractLsb' 3 2 = 2 then 1 else 0
      let sat := b.extractLsb' 3 2 == 1
      let lo : Int := -(2 ^ (m - 1))
      let hi : Int := 2 ^ (m - 1) - 1
      let conv := fun (v : Nat) =>
        if tyFloat t then
          (if tyFloat u then (tyFmt t).convert (tyFmt u) rm sat v
           else ((((tyFmt t).toInt rm lo hi v).1 % 2 ^ m).toNat, ((tyFmt t).toInt rm lo hi v).2))
        else if tyFloat u then (tyFmt u).ofInt rm sat (sg v)
        else if sat then (((max lo (min hi (sg v))) % 2 ^ m).toNat, if sg v < lo ∨ hi < sg v then fSAT else 0)
        else ((sg v % 2 ^ m).toNat, 0)
      (m < 2 * n → ∃ v g, vecRes x k e = some ⟨[(e.d, v)], [], g⟩ ∧ raised g (fun i => (conv (A i)).2) ∧
        ∀ i < 4096 / m, elemAt m v i = if i < count ∧ act i = true then (conv (A i)).1 % 2 ^ m else elemAt m (k.spadLine e.d) i) ∧
      (2 * n ≤ m → e.wr.length = m / n → ∃ (v : Nat → Nat) (g : BitVec 8),
        vecRes x k e = some ⟨(List.range (m / n)).map (fun i => (e.wr[i]?.getD 0, v i)), [], g⟩ ∧ raised g (fun i => (conv (A i)).2) ∧
        ∀ i < count, elemAt m (v (i % (m / n))) (i / (m / n)) =
          if act i then (conv (A i)).1 % 2 ^ m else elemAt m (k.spadLine (e.wr[i % (m / n)]?.getD 0)) (i / (m / n)))) ∧
    (e.instr = .vqo4 d a b t w →
      let value := fun (i : Nat) => if tyFloat t then (tyFmt t).decode (A i) else Val.ofInt (sg (A i)) 0
      let scale := fun (j : Nat) => scaleByte 7 true ((List.range 32).map (fun i => value (32 * j + i)))
      ∃ v u g, vecRes x k e = some ⟨[(e.d, v), (e.b, u)], [], g⟩ ∧
        v / 2 ^ (4 * count) = k.spadLine e.d / 2 ^ (4 * count) ∧ u / 2 ^ (count / 4) = k.spadLine e.b / 2 ^ (count / 4) ∧
        (∀ j < count / 32, elemAt 8 u j = scale j) ∧
        (∀ q < count / 4, elemAt 16 v q = if scale (q / 8) = 0xFF then 0
          else (quantQuad (e8m0Exp (scale (q / 8))) ((List.range 4).map (fun i => value (4 * q + i)))).1 % 2 ^ 16) ∧
        g = (if ∃ j < count / 32, scale j = 0xFF then fNV else 0)) ∧
    (e.instr = .vdqo4 d a b t w →
      let quad := fun (i : Nat) => decodeQuad (elemAt 16 (k.spadLine e.a) (i / 4))
      let sc := fun (i : Nat) => elemAt 8 (k.spadLine e.b) (i / 32)
      let value := fun (i : Nat) => if sc i = 0xFF then ((tyFmt t).nan, fNV)
        else (tyFmt t).encode 0 false (((quad i).elim (Val.fin false 0 0) (fun l => l[i % 4]?.getD (Val.fin false 0 0))).scale (e8m0Exp (sc i)))
      ∃ v g, vecRes x k e = some ⟨[(e.d, v)], [], g⟩ ∧ (∀ i < count, elemAt n v i = (value i).1 % 2 ^ n) ∧
        ∀ j < 8, g.getLsbD j = true ↔ ∃ i < count, ((value i).2 ||| (if quad i = none then fOQ else 0)).getLsbD j = true) ∧
    (e.instr = .vhad d a b t w → tyFloat t = true → b.toNat ≤ 2 →
      let wide := fun (i : Nat) => if t = 7 then A i else ((tyFmt t).convert f32 0 false (A i)).1
      let stage := fun (f : Nat → Nat) (s : Nat) (i : Nat) =>
        if i / 2 ^ s % 2 = 0 then (f32.add 0 (f i) (f (i + 2 ^ s))).1 else (f32.sub 0 (f (i - 2 ^ s)) (f i)).1
      let y := (List.range (4 + b.toNat)).foldl stage wide
      ∃ v g, vecRes x k e = some ⟨[(e.d, v)], [], g⟩ ∧
        ∀ i < count, elemAt n v i = (if t = 7 then y i else (f32.convert (tyFmt t) 0 false (y i)).1) % 2 ^ n)

/-- At the start of a frame with lane group 0 free alone, the arbiter takes the contexts in the order that starts after the one it served last: a
ready head whose context, with its share, has not the credit for its passes leaves its context the share, and the first ready one with the credit
runs. It leaves the queue, its lane group is taken for five cycles per pass, or ten where it slips the bank rule, and its context's deficit falls by
its passes and is 0 with an empty queue. Its result lines and masks are written, one line or several, and its flags shall accrue when the lane group
is free again; every other line and mask, and without appended outliers memory, stays as it was. A vector load writes to its line the bytes of its
parts, from the scratchpad or from memory, and for a part that comes back poisoned zeros, with a deferred POISON; a vector store writes its parts in
ascending order, so that the last one prevails, and notes one that fails. (That lines are read and written, and memory accessed, in the one step of
the binding, and that the flags accrue at the end of the passes, is the model's choice: log entry 9.) (R75, R161, R163, R164, R165, R167, R175, R176,
R177, R178, R180, R185) -/
def Obligations.VectorPassBind : Prop :=
  ∀ (core i : Nat) (e : VEntry) (tail : List VEntry) (s : State), i < 11 →
    let c : CtxId := ⟨core, i⟩
    let k := s.core core
    let place := fun (j : Nat) => (j + 10 * (k.vserved + 1)) % 11
    let credit := fun (x : Ctx) (f : VEntry) => if x.deficit < f.passes then x.deficit + x.vshare.toNat else x.deficit
    let rests := fun (j : Nat) => (k.ctx j).vq = [] ∨ ∃ f, (k.ctx j).vq.head? = some f ∧ lineWaits k f = true
    let poor := fun (j : Nat) => ∃ f, (k.ctx j).vq.head? = some f ∧ (headRuns s ⟨core, j⟩).isSome = true ∧ credit (k.ctx j) f < f.passes
    s.cycle % 5 = 0 → vecMoves s core = true → (∀ j < 4, (k.lanes[j]?.getD 0 ≤ s.cycle ↔ j = 0)) →
    (s.ctx c).vq = e :: tail → (headRuns s c).isSome = true → e.passes ≤ credit (s.ctx c) e →
    let ends := s.cycle + 5 * (if e.slip = true then 2 * e.passes else e.passes)
    ((∀ j < 11, place j < place i → rests j ∨ poor j) → ∃ t, exec (.vectorPassBind core) s = .next t ∧
      (t.ctx c).vq = tail ∧ (t.ctx c).deficit = (if tail = [] then 0 else credit (s.ctx c) e - e.passes) ∧ (t.core core).vserved = i ∧
      (t.core core).lanes[0]? = some ends ∧
      (∀ j < 11, j ≠ i → let x := (t.core core).ctx j
        x.vq = (k.ctx j).vq ∧ (place i < place j → x.deficit = (k.ctx j).deficit) ∧ (place j < place i → rests j → x.deficit = (k.ctx j).deficit) ∧
        (place j < place i → poor j → x.deficit = (k.ctx j).deficit + (k.ctx j).vshare.toNat))) ∧
    ((∀ j < 11, place j < place i → rests j) → ∃ t, exec (.vectorPassBind core) s = .next t ∧ (t.ctx c).g = (s.ctx c).g ∧
      (let x := { s.ctx c with vq := tail }
       let m := k.setCtx i x
       let spadKept := fun (l : List Nat) => ∀ a, (∀ n ∈ l, a < 512 * n ∨ 512 * n + 512 ≤ a) → getByte (t.core core).spad a = getByte k.spad a
       let lineByte := fun (line b : Nat) => line / 256 ^ b % 256
       let n := e.psize
       let covers := fun (at_ b : Nat) => at_ ≤ b ∧ b < at_ + n
       let quiet := fun (l : Nat) => isFar s (64 * l) = false ∧ farCopy s l (dieOfCore core) = none ∧ (∀ c ∈ s.cores, c.2.l1Find l = none) ∧
         (∀ p ∈ s.pushes, p.line ≠ l) ∧ isBad s l = false ∧ heldTenures s = []
       (∀ r, vecRes x m e = some r →
         ((r.lines.map (fun p => p.1)).Nodup → ∀ p ∈ r.lines, p.1 < spLines k.spsize → p.2 < 2 ^ 4096 → (t.core core).spadLine p.1 = p.2) ∧
         ((r.masks.map (fun p => p.1)).Nodup → ∀ p ∈ r.masks, p.1 < 4 → (t.ctx c).m[p.1]? = some p.2) ∧
         (∀ j < 4, j ∉ r.masks.map (fun p => p.1) → (t.ctx c).m[j]? = (s.ctx c).m[j]?) ∧
         (vecOutliers m e = [] → spadKept (r.lines.map (fun p => p.1)) ∧ t.mem = s.mem ∧ (t.ctx c).fflags = (s.ctx c).fflags ∧
           (t.ctx c).vflags = (s.ctx c).vflags ++ (if r.flags = 0 then [] else [(ends, r.flags)]))) ∧
       (vecRes x m e = none → isVStore e = false → e.d < spLines k.spsize → (∀ p ∈ e.elems, p.1 + n ≤ 512) →
         spadKept [e.d] ∧
         (let byte := fun (b : Nat) => lineByte ((t.core core).spadLine e.d) b
          ((∀ p ∈ e.elems, ∃ y, p.2.2 = .spad y) → t.mem = s.mem ∧
            (∀ b < 512, (∀ p ∈ e.elems, ¬ covers p.1 b) → byte b = lineByte (k.spadLine e.d) b) ∧
            (∀ pre p post y, e.elems = pre ++ p :: post → p.2.2 = .spad y → ∀ b, covers p.1 b → (∀ q ∈ post, ¬ covers q.1 b) →
              byte b = (getByte k.spad (y + (b - p.1))).toNat)) ∧
          (∀ o va pa, e.elems = [(o, va, .mem pa [])] → pa % 64 + n ≤ 64 → quiet (pa / 64) → isFar s pa = false → ∀ b < 512,
            byte b = if o ≤ b ∧ b < o + n then (getByte s.mem (pa + (b - o))).toNat else lineByte (k.spadLine e.d) b) ∧
          (∀ o va, e.elems = [(o, va, .nowhere)] → (∀ b < 512, byte b = if o ≤ b ∧ b < o + n then 0 else lineByte (k.spadLine e.d) b) ∧
            (t.ctx c).deferred = (s.ctx c).deferred ++ [⟨cPOISON, va, e.pc, e.order⟩] ∧ t.mem = s.mem))) ∧
       (vecRes x m e = none → isVStore e = true → (∀ p ∈ e.elems, p.1 + n ≤ 512) →
         let byte := fun (b : Nat) => lineByte (k.spadLine e.d) b
         ((∀ p ∈ e.elems, ∃ y, p.2.2 = .spad y) → t.mem = s.mem ∧
           (∀ a, (∀ p ∈ e.elems, ∀ y, p.2.2 = .spad y → ¬ covers y a) → getByte (t.core core).spad a = getByte k.spad a) ∧
           (∀ pre p post y, e.elems = pre ++ p :: post → p.2.2 = .spad y → ∀ a, covers y a → (∀ q ∈ post, ∀ z, q.2.2 = .spad z → ¬ covers z a) →
             (getByte (t.core core).spad a).toNat = byte (p.1 + (a - y)))) ∧
         (∀ o va pa, e.elems = [(o, va, .mem pa [])] → pa % 64 + n ≤ 64 → quiet (pa / 64) → isFar s pa = false →
           (t.core core).spad = k.spad ∧ ∀ a, (getByte t.mem a).toNat = if covers pa a then byte (o + (a - pa)) else (getByte s.mem a).toNat) ∧
         (∀ o va, e.elems = [(o, va, .nowhere)] → (t.ctx c).failed = (s.ctx c).failed ++ [⟨e.pc, va, e.order⟩] ∧ t.mem = s.mem ∧
           (t.core core).spad = k.spad)))) ∧
    (∀ x : Ctx, ∀ at_ f, x.vflags = [(at_, f)] → (at_ ≤ s.cycle → (x.accrued s.cycle).fflags = x.fflags ||| f ∧ (x.accrued s.cycle).vflags = []) ∧
      (s.cycle < at_ → x.accrued s.cycle = x))

/-- VLD and VST on 512 bytes, and VLDS, VSTS, VGATH and VSCAT on the active elements at a stride or by an index line, are checked in the order of
R227, translate their parts and join the queue with the parts they will access, in a peer window two of 256 bytes; the first failing check traps at
the instruction. A full queue, and a change of the scratchpad's size, hold one before its checks. A line in a peer window that this package may cache
is accessed in eight parts of 64 bytes. (That each class of check is made over the parts in ascending order, and that the strided and indexed forms
wait until their context's queue is empty and their index line is written, are the model's choices: log entries 14 and 65.) (R163, R175, R176, R177,
R178, R179, R227, R431, R434) -/
def Obligations.VectorMemoryIssue : Prop :=
  ∀ (d a b : Reg) (t w : BitVec 3) (s : State),
    let lines := fun (store : Bool) => (⟨[d], none, none, !store, false⟩ : VLines)
    let queued := fun (i : Instr) (v : VLines) (store : Bool) (rs : List Reg) (ga gb : Word) (size passes : Nat)
        (parts : List (Nat × Word × Loc)) (u : State) =>
      (vmemWaits u size parts = false →
        exec i s = .next (finish w rs (pushVec i v ga gb passes parts size (if store then [] else localLines size parts)
          (if store then localLines size parts else []) u))) ∧
      (vmemWaits u size parts = true → exec i s = .next (held u))
    (∀ p ∈ [(Instr.vld d a w, false), (.vst d a w, true)], (4 ≤ s.me.vq.length ∨ vecWaits (lines p.2) s = true) → exec p.1 s = .next (held s)) ∧
    (Ready [a] s → s.me.vq.length < 4 → ∀ p ∈ [(Instr.vld d a w, false), (.vst d a w, true)], vecWaits (lines p.2) s = false →
      (∀ e, vecCheck (lines p.2) s = some e → exec p.1 s = trap e s) ∧ (vecCheck (lines p.2) s = none →
      let addr := s.rdA a
      (∀ e, lineAddr s a addr = some e → exec p.1 s = trap e s) ∧
      let need := if p.2 then needW else needR
      (lineAddr s a addr = none → isPeer addr = false → ∀ u,
        (∀ e, placeAll 64 need (lineParts addr) s = (.inl e, u) → exec p.1 s = trap e u) ∧
        (∀ l, placeAll 64 need (lineParts addr) s = (.inr l, u) →
          queued p.1 (lines p.2) p.2 [a] addr 0 8 (if isLocal addr then 2 else 1) (l.flatMap eightOf) u)) ∧
      (lineAddr s a addr = none → isPeer addr = true → ∀ u,
        (∀ e, placeAll 512 need [(0, addr)] s = (.inl e, u) → exec p.1 s = trap e u) ∧
        (∀ q, placeAll 512 need [(0, addr)] s = (.inr [q], u) →
          (cachedLine u q.2.2 = none → queued p.1 (lines p.2) p.2 [a] addr 0 256 1 (twoOf q) u) ∧
          (cachedLine u q.2.2 ≠ none → queued p.1 (lines p.2) p.2 [a] addr 0 64 1
            ((List.range 8).map (fun j => (q.1 + 64 * j, q.2.1 + BitVec.ofNat 64 (64 * j), locPlus q.2.2 (64 * j)))) u))))) ∧
    (let elements := fun (i : Instr) (v : VLines) (store : Bool) (rs : List Reg) (gb : State → Word) (at_ : Nat → Word) =>
        let size := Machine.tyWidth t / 8
        let l := ((List.range (4096 / Machine.tyWidth t)).filter (fun i => (s.me.mask 0).getLsbD (i * (Machine.tyWidth t / 4)))).map (fun i => (i * size, at_ i))
        ((elemsWait s (v.bLine s.me) = true ∨ vecWaits v s = true) → exec i s = .next (held s)) ∧
        (Ready rs s → elemsWait s (v.bLine s.me) = false → vecWaits v s = false → (∀ e, vecCheck v s = some e → exec i s = trap e s) ∧
          (vecCheck v s = none → (∀ e, vecAddr s a size size (l.map (fun e => e.2)) = some e → exec i s = trap e s) ∧
          (vecAddr s a size size (l.map (fun e => e.2)) = none → ∀ u,
            (∀ e, placeAll size (if store then needW else needR) l s = (.inl e, u) → exec i s = trap e u) ∧
            (∀ parts, placeAll size (if store then needW else needR) l s = (.inr parts, u) →
              queued i v store rs (u.rdA a) (gb u) size 1 parts u))))
     let stride := fun (i : Nat) => s.rdA a + BitVec.ofNat 64 i * s.rdB a b
     let index := fun (i : Nat) => s.rdA a + BitVec.ofNat 64 (elemAt (Machine.tyWidth t) (s.mine.spadLine (s.me.lineNo b)) i * (Machine.tyWidth t / 8))
     elements (.vlds d a b t w) (lines false) false [a, b] (fun u => u.rdB a b) stride ∧
     elements (.vsts d a b t w) (lines true) true [a, b] (fun u => u.rdB a b) stride ∧
     elements (.vgath d a b t w) ⟨[d], none, some b, true, false⟩ false [a] (fun _ => 0) index ∧
     elements (.vscat d a b t w) ⟨[d], none, some b, false, false⟩ true [a] (fun _ => 0) index)

/-- PSET, PADD and PADDI write a line pointer at once, modulo 2^16, PGET gives one to a g register with latency 1. VAMO takes 128
bytes of the line its pointer names, at the offset its aligned address says, as a request to translated space or a peer window.
(R41, R169, R436) -/
def Obligations.LinePointersAndVamo : Prop :=
  ∀ (d a b : Reg) (i : BitVec 13) (w : BitVec 3) (s : State),
    let put := fun (v : Nat) => s.setMe { s.me with p := s.me.p.setIfInBounds d.toNat (BitVec.ofNat 16 v) }
    let p := (s.me.p[a.toNat]?.getD 0).toNat
    (Ready [a] s → exec (.pset d a w) s = .next (finish w [a] (put ((s.rdA a).toNat % 2 ^ 16)))) ∧
    (Ready [b] s → exec (.padd d a b w) s = .next (finish w [b] (put ((p + (s.rdA b).toNat) % 2 ^ 16)))) ∧
    exec (.paddi d a i w) s = .next (finish w [] (put (((p : Int) + i.toInt) % 2 ^ 16).toNat)) ∧
    (ReadyTo [] d s → exec (.pget d a w) s = resultOf w [] 1 d (BitVec.ofNat 64 p) s) ∧
    (Ready [a] s →
      let addr := s.rdA a
      let l := s.me.lineNo b
      let off := 512 * l + 128 * (addr.toNat / 128 % 4)
      (formCheck s.ptlen addr = none → addr.toNat % 128 ≠ 0 → ∀ j ∈ [Instr.vamoF32 a b w, .vamoBf16 a b w, .vamoI32 a b w],
        exec j s = trap (.mk' cMISALIGN addr) s) ∧
      (formCheck s.ptlen addr = none → addr.toNat % 128 = 0 → isLocal addr = false → l < spLines s.mine.spsize →
        spadBusy s.mine off 128 false = false → orderHolds s (BitVec.ofNat 64 off) 128 false = false → ∀ u loc, reaches 3 addr 128 needRW s u loc →
        ∀ j ∈ [(Instr.vamoF32 a b w, (0 : BitVec 2)), (.vamoBf16 a b w, 1), (.vamoI32 a b w, 2)],
          exec j.1 s = .next (finish w [a] (addReq (mkReq u addr loc 128 (.vamo j.2 (BitVec.ofNat 1024 (readLe u.mine.spad off 128)) (if j.2 = 1 then 2 ^ 64 - 1 else 2 ^ 32 - 1))) u))))

/-- Issuing a vector instruction changes no byte of memory, scratchpad or instruction memory, no mask, no accumulator and no
general register: an instruction on lines or on memory changes only its context's queue, one for a g register puts a result in flight, and a
line-pointer instruction changes only its pointer. (R149, R163, R166, R169) -/
def Obligations.VectorFrame : Prop :=
  ∀ (d a b : Reg) (i : BitVec 13) (t w : BitVec 3) (s u : State), s.cur.ctx < 11 →
    let keeps := (∀ x, getByte u.mem x = getByte s.mem x) ∧ (∀ x, getByte u.mine.spad x = getByte s.mine.spad x) ∧ u.mine.imem = s.mine.imem ∧
      u.mine.accs = s.mine.accs ∧ u.me.g = s.me.g ∧ u.me.poison = s.me.poison ∧ u.me.m = s.me.m ∧ u.me.fflags = s.me.fflags ∧
      u.me.frm = s.me.frm ∧ u.me.tpc = s.me.tpc ∧ u.me.priv = s.me.priv ∧ u.parts = s.parts ∧ u.reqs = s.reqs ∧
      (∀ k, k ≠ s.cur.core → u.core k = s.core k)
    (∀ j ∈ [Instr.vld d a w, .vst d a w, .vlds d a b t w, .vsts d a b t w, .vgath d a b t w, .vscat d a b t w, .vadd d a b t w, .vsub d a b t w,
        .vmul d a b t w, .vmulh d a b t w, .vmin d a b t w, .vmax d a b t w, .vminu d a b t w, .vmaxu d a b t w, .vadds d a b t w,
        .vsubs d a b t w, .vaddsn d a b t w, .vabs d a t w, .vneg d a t w, .vmac d a b t w, .vwmul d a b t w, .vwmac d a b t w, .vdot4 d a b t w,
        .vfadd d a b t w, .vfsub d a b t w, .vfmul d a b t w, .vfma d a b t w, .vfnma d a b t w, .vfmin d a b t w, .vfmax d a b t w,
        .vfabs d a t w, .vfneg d a t w, .vfwmul d a b t w, .vfwma d a b t w, .vfexp2 d a t w, .vflog2 d a t w, .vfrcp d a t w, .vfrsq d a t w,
        .vand d a b t w, .vor d a b t w, .vxor d a b t w, .vandn d a b t w, .vshl d a b t w, .vshr d a b t w, .vsar d a b t w, .vcmpeq d a b t w,
        .vcmplt d a b t w, .vcmple d a b t w, .vcmpltn d a b t w, .vfcmpeq d a b t w, .vfcmplt d a b t w, .vfcmple d a b t w, .vsel d a b t w,
        .vmand d a b t w, .vmor d a b t w, .vmxor d a b t w, .vmnot d a t w, .vmpop d a t w, .vmfirst d a t w, .vmset d a t w, .vcvt d a b t w,
        .vqo4 d a b t w, .vdqo4 d a b t w, .vrsum d a t w, .vrmax d a t w, .vrmin d a t w, .vramax d a t w, .vdot d a b t w, .vbcast d a t w,
        .vmov d a t w, .vperm d a b t w, .vslide d a b t w, .vext d a b t w, .vins d a b t w, .vhad d a b t w, .viota d t w, .vzip d a b t w,
        .vunzip d a b t w],
      exec j s = .next u → u.note ≠ .trapped → keeps ∧ u.me.p = s.me.p) ∧
    (∀ j ∈ [Instr.pset d a w, .padd d a b w, .paddi d a i w], exec j s = .next u → u.note ≠ .trapped →
      keeps ∧ ∀ r : Reg, r ≠ d → u.me.p[r.toNat]? = s.me.p[r.toNat]?) ∧
    (exec (.pget d a w) s = .next u → u.note ≠ .trapped → keeps ∧ u.me.p = s.me.p)

/-- An ACC instruction on an accumulator that a queued command owns traps ACCBUSY with the accumulator and the command's number,
and a pending matrix fault is raised first; else ACC.RD writes the accumulator's eight matrix lines, ACC.WR reads them, ACC.CLR
clears it; ACC.RD and ACC.WR of a line outside bank groups 0 and 1 trap LOCALRANGE with its address, of lines past matrix space with the address of the
first of their lines past it (where the line named is past it already, that line: the model's reading, log entry 74). MWAIT raises a pending fault of its
context, else completes once cr.mdone has reached its operand, and MSTAT gives the number of the context's last commit. (R195,
R219, R220, R221, R222, R223) -/
def Obligations.AccumulatorInstructions : Prop :=
  ∀ (d a : Reg) (w : BitVec 3) (s : State),
    let k := s.mine
    (∀ p ∈ [(Instr.accRd d a w, a), (.accWr d a w, d), (.accClr d w, d)],
      (∀ t, pendingFault s.me (some p.2.toNat) = some t → exec p.1 s =
        trap t (s.setMe { s.me with mfault := none })) ∧
      (pendingFault s.me (some p.2.toNat) = none → ∀ c, accOwner k p.2.toNat = some c →
        exec p.1 s = trap (.mk' cACCBUSY (BitVec.ofNat 64 (p.2.toNat + 2 ^ 32 * (c.seq.toNat % 2 ^ 32)))) s)) ∧
    (∀ p ∈ [(Instr.accRd d a w, a, d), (.accWr d a w, d, a)], pendingFault s.me (some p.2.1.toNat) = none → accOwner k p.2.1.toNat = none →
      let l := s.me.lineNo p.2.2
      let size := spLines k.spsize / 2
      (2 ≤ l % 4 → exec p.1 s = trap (.mk' cLOCALRANGE (BitVec.ofNat 64 (512 * l))) s) ∧
      (l % 4 < 2 → size < lineMat l + 8 → exec p.1 s = trap (.mk' cLOCALRANGE (BitVec.ofNat 64 (512 * matLine (max (lineMat l) size)))) s) ∧
      (l % 4 < 2 → lineMat l + 8 ≤ size → accRange k l = none)) ∧
    (∀ t, Ready [a] s → pendingFault s.me none = some t → exec (.mwait a w) s = trap t (s.setMe { s.me with mfault := none })) ∧
    (pendingFault s.me (some a.toNat) = none → accOwner k a.toNat = none → accRange k (s.me.lineNo d) = none →
      accHolds s (lineMat (s.me.lineNo d)) true = false →
      exec (.accRd d a w) s = .next (finish w [] (s.setMine (accToLines (lineMat (s.me.lineNo d)) (k.acc a.toNat) k)))) ∧
    (pendingFault s.me (some d.toNat) = none → accOwner k d.toNat = none →
      (accRange k (s.me.lineNo a) = none → accHolds s (lineMat (s.me.lineNo a)) false = false →
        exec (.accWr d a w) s = .next (finish w [] (s.setMine (k.setAcc d.toNat (linesToAcc (lineMat (s.me.lineNo a)) k))))) ∧
      exec (.accClr d w) s = .next (finish w [] (s.setMine { k with accs := k.accs.setIfInBounds d.toNat 0 }))) ∧
    (Ready [a] s → pendingFault s.me none = none →
      ((s.rdA a).toNat ≤ k.mdone.toNat → exec (.mwait a w) s = .next (finish w [a] s)) ∧
      (k.mdone.toNat < (s.rdA a).toNat → exec (.mwait a w) s = .next (held s))) ∧
    (ReadyTo [] d s → exec (.mstat d w) s = writes w [] d s.me.mlast s) ∧
    (∀ (m : Nat) (v : Acc) (q : Core), m % 2 = 0 → linesToAcc m (accToLines m v q) = v)

/-- The started head of a core's queue goes on by K-blocks (PLANE, MMA, HAD) or records (MMA.R) until it has done its last one, drains its
accumulator, zeroes the accumulators its mask names, or is a MARK, which with SIG waits for its context's earlier accesses; a head that breaks a rule
of its command is bad at once, whatever its gate, with the KIND of the first rule it breaks, and does nothing. MATRIX_COMMAND_DONE takes a performed
head out of the queue, sets cr.mdone to its number, gives its context its flags OF, NV, OQ, OL and SAT and no others, and leaves the fault of a bad
one pending in its context, its time in the unit being none. (That the KIND is of the first rule broken, that a bad head ends whatever its gate, that
MMA.R is checked once its records are written, and the steps of a command by one K-block an event are the model's reading, log entry 13; that the
fault of a bad command without a single accumulator names byte 2 modulo 8, and that DRAIN makes its outlier and absmax accesses after its rows, are the
model's choices, log entries 79 and 92.) (R75, R198,
R199, R200, R206, R208, R209, R214, R215, R216, R218, R222) -/
def Obligations.MatrixCommands : Prop :=
  ∀ (core : Nat) (c : MCmd) (rest : List MCmd) (s : State), (s.core core).mq = c :: rest → matMoves s core = true →
    let k := s.core core
    let head := fun (t : State) => (t.core core).mq.head?
    (c.started = true → c.performed = false →
      (c.code = 1 → exec (.plane core 1) s = .next (setHead core
        { c with kb := c.kb + 1, fflags := c.fflags ||| (planeStep k.active c c.kb k).2, performed := decide (c.k32 ≤ c.kb + 1) }
        (s.setCore core (planeStep k.active c c.kb k).1))) ∧
      (c.code = 2 →
        let r := mmaBlock 0 32 (matTile k k.active.fmta (c.num 8 4) (c.num 12 4) c.kb) (matTile k k.active.fmtb (c.num 16 4) (c.num 20 4) c.kb)
          (k.acc c.acc)
        exec (.mma core 1) s = .next (setHead core
          { c with kb := c.kb + 1, fflags := c.fflags ||| r.2, performed := decide (c.k32 ≤ c.kb + 1) } (s.setCore core (k.setAcc c.acc r.1)))) ∧
      (c.code = 4 → exec (.had core 1) s = .next (setHead core
        { c with kb := c.kb + hadSpan c c.kb, fflags := c.fflags ||| (hadStep c c.kb k).2, performed := decide (c.k32 ≤ c.kb + hadSpan c c.kb) }
        (s.setCore core (hadStep c c.kb k).1))) ∧
      (c.code = 3 → ∀ d u, recordStep core c s = some (d, u) → exec (.mmaR core 1) s = .next (setHead core d u)) ∧
      (c.code = 5 →
        let r := drainOut k.active c k
        ∀ failed dropped u, drainAccesses core c r.2.1 r.2.2.1 (s.setCore core r.1) = some (failed, dropped, u) →
          ∃ t d, exec (.drain core) s = .next t ∧ head t = some d ∧ d.performed = true ∧ d.memFail = failed ∧
            (t.core core).accs = (if c.flag 2 then ((u.core core).setAcc c.acc 0).accs else (u.core core).accs)) ∧
      (c.code = 6 → ∃ t, exec (.zero core) s = .next t ∧ head t = some { c with performed := true } ∧
        (∀ n < 8, (t.core core).acc n = if (c.num 2 1).testBit n then 0 else k.acc n) ∧ t.mem = s.mem ∧ (t.core core).spad = k.spad) ∧
      (c.code = 7 → ((c.flag 2 = false ∨ markReleased core c s = true) → exec (.mark core) s = .next (setHead core { c with performed := true } s)) ∧
        (c.flag 2 = true → markReleased core c s = false → exec (.mark core) s = .next s))) ∧
    (c.started = false → c.performed = false → (c.code = 3 → writesDone k c = true) → ∀ kind, checkCmd k (c.shadow.getD k.active) c = some kind →
      ∃ t, exec (.matrixCommandDone core) s = .next t ∧ (t.core core).mq = rest ∧ (t.core core).mdone = c.seq ∧ (t.core core).accs = k.accs ∧
        (t.core core).spad = k.spad ∧ t.mem = s.mem ∧ (t.core core).cntMatrix = k.cntMatrix ∧
        (c.ctx < 11 → c.orphan = false → (k.ctx c.ctx).live = true →
          (t.ctx ⟨core, c.ctx⟩).fflags = (k.ctx c.ctx).fflags ∧
          ((k.ctx c.ctx).mfault = none → (t.ctx ⟨core, c.ctx⟩).mfault = some ⟨c.seq.setWidth 32, kind, BitVec.ofNat 3 c.acc, false, 0⟩))) ∧
    (c.performed = true → ∃ t, exec (.matrixCommandDone core) s = .next t ∧ (t.core core).mq = rest ∧ (t.core core).mdone = c.seq ∧
      (t.core core).accs = k.accs ∧ (t.core core).spad = k.spad ∧ t.mem = s.mem ∧
      (c.ctx < 11 → c.orphan = false → (k.ctx c.ctx).live = true → c.bad = none →
        (t.ctx ⟨core, c.ctx⟩).fflags = (k.ctx c.ctx).fflags ||| (c.fflags &&& 0xF4)))

/-- The numbers of the matrix unit. One K-block of PLANE writes, for each of the 32 vectors, the bits of its elements to the planes and the total
exponent, 0x8000 for a block that is not finite, and no other byte; the elements are, for an integer type, as they are, for O4 the slots with invalid
quads zero and OQ, and for a float type the elements scaled to the largest exponent and cut toward zero. A tile is read back as the two's complement
numbers of its planes, in O4 with the outlier byte of a marked quad. One K-block of an MMA, or of a record of MMA.R, adds to each accumulator element
of its rows, and to no other, the exact integer sum of the products, rounded and scaled by the exponents and rounded again, or the NaN of a block that
is not finite, with NV. DRAIN writes each row of the accumulator times the tensor scale in the drain format, with its scale byte before it, and no
other byte. (R65, R83, R87, R90, R91, R208, R209, R214, R216) -/
def Obligations.MatrixNumbers : Prop :=
  (∀ (m : MSet) (c : MCmd) (kb : Nat) (k : Core),
    let f := planeFmt m c
    let t := fmtType f.1
    let n := typeBits t
    let p := planesOf t (fmtWidth f.1)
    let pl := c.num 16 4
    let ex := c.num 20 4
    let u := (planeStep m c kb k).1
    t ≤ 6 → kb < c.k32 → (pl + 128 * p * c.k32 ≤ ex ∨ ex + 64 * c.k32 ≤ pl) →
      (∀ v < 32,
        let xs := (List.range 32).map (fun i => elemAt n (matRead k (c.num 8 4 + v * c.num 12 4 + kb * 4 * n) (4 * n)) i)
        let b := planeBlock t (fmtWidth f.1) xs (if fmtScaled f.1 = true then matRead k (scaleAddr f.2 + 32 * kb + v) 1 else 127)
        (∀ j < p, ∀ i < 32, (matRead u (pl + (kb * p + j) * 128 + 4 * v) 4).testBit i =
          (if t = 2 ∧ j = 4 then b.2.1[i]?.getD false else (b.1[i]?.getD 0).testBit j)) ∧
        matRead u (ex + (kb * 32 + v) * 2) 2 = b.2.2.1.elim 0x8000 (fun e => (e % 2 ^ 16).toNat)) ∧
      (∀ y, ¬ (pl + kb * p * 128 ≤ y ∧ y < pl + (kb + 1) * p * 128) → ¬ (ex + kb * 64 ≤ y ∧ y < ex + (kb + 1) * 64) →
        getByte u.spad (matByte y) = getByte k.spad (matByte y)) ∧
      { u with spad := k.spad } = k) ∧
  (∀ (w sc : Nat) (xs : List Nat), xs.length = 32 → sc < 256 →
    let scale : Option Int := if sc = 255 then none else some ((sc : Int) - 127)
    (∀ t, t ≤ 1 → planeBlock t w xs sc = (xs, List.replicate 32 false, scale, 0)) ∧
    (let b := planeBlock 2 w xs sc
     let quad := fun (i : Nat) => ofElems 4 ((List.range 4).map (fun j => xs[i / 4 * 4 + j]?.getD 0))
     (∀ i < 32, b.1[i]? = (if decodeQuad (quad i) = none then some 0 else xs[i]?) ∧ b.2.1[i]? = some (decide (b.1[i]? = some 8))) ∧
     b.2.2.1 = scale ∧ ((∃ i < 32, decodeQuad (quad i) = none) → b.2.2.2 = fOQ) ∧
     ((∀ i < 32, decodeQuad (quad i) ≠ none) → b.2.2.2 = 0)) ∧
    (∀ t, 3 ≤ t → t ≤ 6 →
      let f := matFmt t
      let b := planeBlock t w xs sc
      let exp := fun (m : Nat) (e : Int) => max ((Nat.log2 m : Int) + e) f.emin
      ((sc = 255 ∨ ∃ x ∈ xs, ∀ neg m e, f.decode x ≠ .fin neg m e) → b.1 = List.replicate 32 0 ∧ b.2.2.1 = none) ∧
      (sc ≠ 255 → (∀ x ∈ xs, ∃ neg m e, f.decode x = .fin neg m e) → ∃ top : Int, b.2.2.1 = some (top - w + 2 + (sc - 127)) ∧
        (∀ x ∈ xs, ∀ neg m e, f.decode x = .fin neg m e → m ≠ 0 → exp m e ≤ top) ∧
        ((∃ x ∈ xs, ∃ neg m e, f.decode x = .fin neg m e ∧ m ≠ 0 ∧ exp m e = top) ∨
          ((∀ x ∈ xs, ∃ neg e, f.decode x = .fin neg 0 e) ∧ top = 0)) ∧
        (∀ (i x : Nat) (neg : Bool) (m : Nat) (e : Int), xs[i]? = some x → f.decode x = .fin neg m e → ∃ q : Int, b.1[i]? = some (q % 2 ^ w).toNat ∧
          ((q.natAbs : ℚ) ≤ (m : ℚ) * (2 : ℚ) ^ (e + w - 2 - top) ∧ (m : ℚ) * (2 : ℚ) ^ (e + w - 2 - top) < (q.natAbs : ℚ) + 1) ∧
          (0 < q → neg = false) ∧ (q < 0 → neg = true))))) ∧
  (∀ (k : Core) (f : Word) (pl ex kb v i : Nat), v < 32 → i < 32 →
    let w := fmtWidth f
    let p := planesOf (fmtType f) w
    let bit := fun (j i : Nat) => (matRead k (pl + (kb * p + j) * 128 + 4 * v) 4).testBit i
    let code := fun (n i : Nat) => ((List.range n).map (fun j => if bit j i = true then 2 ^ j else 0)).sum
    let e := matRead k (ex + (kb * 32 + v) * 2) 2
    ∃ l, (matTile k f pl ex kb)[v]? = some (l, if e = 0x8000 then none else some (toSigned 16 e)) ∧ l.length = 32 ∧
      (fmtType f ≠ 2 → l[i]? = some (Val.ofInt (toSigned w (code w i)) 0)) ∧
      (fmtType f = 2 → let q := i / 4 * 4
        ((∀ j < 4, bit 4 (q + j) = false) → l[i]? = some (Val.ofInt (toSigned 4 (code 4 i)) 0)) ∧
        ((∃ j < 4, bit 4 (q + j) = true) → (2 ≤ i % 4 → l[i]? = some (.fin false 0 0)) ∧
          (i % 4 < 2 → bit 4 i = true → l[i]? = some (e4m3.decode (16 * code 4 (q + 3) + code 4 (q + 2)))) ∧
          (i % 4 < 2 → bit 4 i = false → l[i]? = some (Val.ofInt (toSigned 4 (code 4 i)) 0))))) ∧
  (∀ (first rows : Nat) (a b : Tile32) (acc : Acc) (i j : Nat), a.length = 32 → b.length = 32 → i < 32 → j < 32 →
    let r := mmaBlock first rows a b acc
    let old := elemAt 32 acc.toNat (32 * i + j)
    let new := elemAt 32 r.1.toNat (32 * i + j)
    (¬ (first ≤ i ∧ i < first + rows) → new = old) ∧
    (first ≤ i → i < first + rows →
      (∀ (xs ys : List Int) (x y : Int), xs.length = ys.length → a[i]? = some (xs.map (fun q => Val.ofInt q 0), some x) →
        b[j]? = some (ys.map (fun q => Val.ofInt q 0), some y) →
        let s := f32.encode 0 false (Val.ofInt ((xs.zip ys).map (fun q => q.1 * q.2)).sum 0)
        let t := f32.encode 0 false ((f32.decode s.1).scale (x + y))
        new = (f32.add 0 old t.1).1) ∧
      (((∃ l, a[i]? = some (l, none)) ∨ ∃ l, b[j]? = some (l, none)) → new = f32.nan ∧ r.2 &&& fNV ≠ 0))) ∧
  (∀ (m : MSet) (c : MCmd) (k : Core),
    let f := m.fmtd
    let t := fmtType f
    let n := typeBits t
    let at_ := c.num 8 4
    let pitch := c.num 12 4
    let scl := scaleAddr m.scld
    let u := (drainOut m c k).1
    t ≤ 6 → 4 * n ≤ pitch → (fmtScaled f = true → scl + 32 ≤ at_ ∨ at_ + 31 * pitch + 4 * n ≤ scl) →
      (∀ i < 32,
        let vs := (List.range 32).map (fun j => (f32.mul 0 (elemAt 32 (k.acc c.acc).toNat (32 * i + j)) (c.num 4 4)).1)
        matRead u (at_ + i * pitch) (4 * n) = (drainRow f vs).1 ∧ (fmtScaled f = true → matRead u (scl + i) 1 = (drainRow f vs).2.1)) ∧
      (∀ y, (∀ i < 32, ¬ (at_ + i * pitch ≤ y ∧ y < at_ + i * pitch + 4 * n)) → ¬ (fmtScaled f = true ∧ scl ≤ y ∧ y < scl + 32) →
        getByte u.spad (matByte y) = getByte k.spad (matByte y)) ∧
      { u with spad := k.spad } = k) ∧
  (∀ (f : Word) (vs : List Nat), vs.length = 32 → (∀ x ∈ vs, x < 2 ^ 32) → fmtType f ≤ 6 → fmtType f ≠ 2 →
    let t := fmtType f
    let n := typeBits t
    let sat := fmtScaled f || f.getLsbD 10
    let sc := if fmtScaled f = true then scaleByte (if t = 1 then 127 else if t = 3 then 448 else if t = 4 then 57344 else 7) false (vs.map f32.decode) else 127
    let e : Int := (sc : Int) - 127
    (drainRow f vs).2.1 = sc ∧
    (fmtScaled f = true → sc = 255 → (drainRow f vs).1 = 0 ∧ (drainRow f vs).2.2.2 &&& fNV ≠ 0) ∧
    ((fmtScaled f = true → sc ≠ 255) → ∀ (j x : Nat), vs[j]? = some x →
      let got := elemAt n (drainRow f vs).1 j
      (t = 6 → got = x) ∧ (t = 5 → got = (bf16.encode 0 false (f32.decode x)).1) ∧
      (t = 3 ∨ t = 4 → got = ((if t = 3 then e4m3 else e5m2).encode 0 sat ((f32.decode x).scale (-e))).1) ∧
      (t ≤ 1 → let hi : Int := 2 ^ (n - 1) - 1
        (∀ s, f32.decode x = .nan s → got = 0 ∧ (drainRow f vs).2.2.2 &&& fNV ≠ 0) ∧
        (∀ neg, f32.decode x = .inf neg → got = ((if neg = true then -hi - 1 else hi) % 2 ^ n).toNat ∧ (drainRow f vs).2.2.2 &&& fSAT ≠ 0) ∧
        (∀ neg q z, f32.decode x = .fin neg q z → ∃ i : Int,
          let v : ℚ := (if neg = true then -1 else 1) * (q : ℚ) * (2 : ℚ) ^ (z - e)
          2 * |(i : ℚ) - v| ≤ 1 ∧ (2 * |(i : ℚ) - v| = 1 → i % 2 = 0) ∧ got = (max (-hi - 1) (min hi i) % 2 ^ n).toNat))))

/-- XSEND sends the 64 bytes its aligned operand names as the core's next ticket, past its waits and its release, where those bytes and the
ranges of the command lie in the scratchpad, and traps LOCALRANGE where they do not; it reads them once every earlier scratchpad write has
been performed, and waits until then; XWAIT waits until the ticket's command has ended and traps ENGFAULT for a failure that nothing has
reported; XSTAT gives a word of the ticket's record. A COPY or FILL with which others may still merge waits; else one that names no engine
fails with status 1 and one whose fields are bad with 2; a running one moves one element at a time, from its source or its pattern to its
destination. That XSEND waits again while the engine has no room, and when a send to another package is over, are the model's reading (log
28, which goes by R440). A collective whose members are all there goes through its phases, one an event (the model's reading, log 29, as is that an ABORT is an
event of its own): gathered, reduced, distributed, published; a collective with members in other packages may be aborted at each (a free
value). ABORT ends a member of a broken one with status 6, and ENGINE_COMMAND_DONE ends a command that is over and whose replica writes have
landed, and those merged with it, with state 3, 4 or 5 by its status. (That status 1 comes before status 2 where both apply is the model's choice, log
entry 87, and so is what cr.tval is at XSEND's LOCALRANGE, log entry 51.) (R273, R274, R275, R277, R279, R280, R281, R282, R283, R284, R286, R315) -/
def Obligations.EngineCommands : Prop :=
  ∀ (d a b : Reg) (w : BitVec 3) (s : State),
    (hazard [a, b] [d] s = .clear →
      let v := s.rdB a b
      let c := mkCmd s (s.rdA a) v.toNat
      (v.toNat % 64 ≠ 0 → exec (.xsend d a b w) s = trap (.mk' cMISALIGN v) s) ∧
      (v.toNat % 64 = 0 → spBytes s.mine.spsize < v.toNat + 64 → exec (.xsend d a b w) s = trap (.mk' cLOCALRANGE v) s) ∧
      (v.toNat % 64 = 0 → v.toNat + 64 ≤ spBytes s.mine.spsize →
        (writesQueued s.mine = true ∨ spadBusy s.mine v.toNat 64 false = true ∨ spadBusy s.mine (c.len % 2 ^ 18) c.desc.length false = true →
          exec (.xsend d a b w) s = .next (held s))) ∧
      (v.toNat % 64 = 0 → v.toNat + 64 ≤ spBytes s.mine.spsize → cmdBusy s c v.toNat = false → ∀ t, sendRange s c = some t →
        exec (.xsend d a b w) s = trap t s) ∧
      (v.toNat % 64 = 0 → v.toNat + 64 ≤ spBytes s.mine.spsize → cmdBusy s c v.toNat = false → sendRange s c = none → portFault s d = none →
        releaseHolds s.me = false → gateOpen s.mine 1 = true → sendFull s = false →
        (c.localDst = false ∨ s.me.ranges.length < 8) → released s s.cur (sendScope s c) = true → s.me.failed = [] →
        exec (.xsend d a b w) s = writes w [a, b] d (BitVec.setWidth 64 (s.mine.ticket + 1)) (addCmd c s) ∧
        c.bytes.toNat = readLe s.mine.spad v.toNat 64 ∧ c.engine = s.rdA a ∧ c.ctx = s.cur ∧ c ∈ (addCmd c s).engine) ∧
      (portFault s d = none → v.toNat < 8 →
        (ticketCmd s (s.rdA a) = none → exec (.xstat d a b w) s = writes w [a, b] d (if v = 0 then 15 else 0) s) ∧
        (∀ e, ticketCmd s (s.rdA a) = some e →
          exec (.xstat d a b w) s = writes w [a, b] d (recordWord e v.toNat)
            (if v = 0 ∧ e.unreported = true then markReported e.core e.ticket s else s)))) ∧
    (Ready [a] s →
      (ticketCmd s (s.rdA a) = none → exec (.xwait a w) s = .next (finish w [a] s)) ∧
      (∀ e, ticketCmd s (s.rdA a) = some e →
        (e.ended = false → exec (.xwait a w) s = .next (held s)) ∧
        (e.ended = true → e.unreported = false → exec (.xwait a w) s = .next (finish w [a] s)) ∧
        (e.ended = true → e.unreported = true →
          let u := markReported e.core e.ticket s
          exec (.xwait a w) s = trap (.mk' cENGFAULT (BitVec.ofNat 64 (e.ticket + 2 ^ 32 * e.status.toNat))) u))) ∧
    (∀ (core ticket : Nat) (c : XCmd), findCmd s core ticket = some c → c.core = core → c.ticket = ticket → engineRuns s c = true →
      let failed := fun (status : BitVec 8) => mapCmds [(core, ticket)] (failCmd status 0) s
      let own := c.group = [(core, ticket)] ∧ c.state = 1 ∧ c.status = 0 ∧ c.index < c.total
      (c.isColl = false → c.state = 0 → (s.part c.xctx.part).state = 1 → ∀ i ∈ [if c.op = 2 then Instr.fill core ticket 1 else .copy core ticket 1],
        (mergeOpen s c = true → exec i s = .next s) ∧
        (mergeOpen s c = false → engineOk s c = false → exec i s = .next (failed 1)) ∧
        (mergeOpen s c = false → engineOk s c = true → c.bad = true → exec i s = .next (failed 2)) ∧
        (mergeOpen s c = false → engineOk s c = true → c.bad = false → exec i s = .next (startCopy c s))) ∧
      (c.op = 2 → own → ∀ u, writeElem s c (c.src.toNat % 256 ^ c.elem) = .ok u →
        exec (.fill core ticket 1) s = .next (nextElem c u)) ∧
      (c.op = 1 → own → ∀ v t u, engineRead s c.ctx (engCtx s c) (c.srcAt c.index) c.elem = .ok v t → writeElem t c v = .ok u →
        exec (.copy core ticket 1) s = .next (nextElem c u)) ∧
      (∀ p ∈ [(0x10, Instr.allreduce core ticket), (0x11, .reducescatter core ticket), (0x12, .allgather core ticket)], c.op = p.1 → c.status = 0 →
        (c.state = 0 → (s.part c.xctx.part).state = 1 → exec p.2 s = .next (startColl c s)) ∧
        (∀ m, membersOf s c = some m → m.peers = true → fabricHeld s c.xctx.part = true →
          (c.state = 0 → engineOk s c = true → c.bad = false → startColl c s = s) ∧ (c.state = 1 → exec p.2 s = .next s)) ∧
        (∀ m, c.state = 1 → isBroken s c = false → (∀ e ∈ groupOf s c, engineRuns s e = true) → membersOf s c = some m →
          (m.peers = true → fabricHeld s c.xctx.part = false) →
          let goes := fun (n : BitVec 4) (i : Nat) (u : State) =>
            if m.peers = true ∧ (draw u).1.getLsbD 0 = true then mapCmds c.group (failCmd 6 0) (draw u).2
            else mapCmds c.group (fun e => { e with phase := n, index := i }) (if m.peers then (draw u).2 else u)
          (c.phase = 0 → exec p.2 s = .next (goes 1 0 s)) ∧
          (c.phase = 1 → exec p.2 s = .next (goes 2 0 s)) ∧
          (c.phase = 2 → ∀ vals t u, readMembers (groupOf s c) s = .ok vals t →
            putMembers ((groupOf s c).zip (collResult c m vals t).1) (collResult c m vals t).2 = .ok () u →
            exec p.2 s = .next (goes 3 (destElems c m) u)) ∧
          (c.phase = 3 → ∀ ps, publishable (groupOf s c) s = .ok ps →
            (∀ p ∈ ps, usesEntry (p.2.2.1.inval p.2.1) (s.part p.2.1.part).ranks s.nextId s = false) →
            ∀ u, askFirst (ps.flatMap (fun p => publishLines p.1 p.2.2.1 p.2.2.2.1 p.2.2.2.2)) s = (none, u) →
            exec p.2 s = .next (mapCmds c.group (fun e => { e with phase := 4, index := destElems c m })
              (ps.foldl (fun s p => publishPages p.2.1 p.2.2.1 p.2.2.2.1 p.2.2.2.2 s) u))))) ∧
      (c.isColl = true → c.state = 1 → c.status = 0 → c.phase ≠ 4 → isBroken s c = true → ∀ m, membersOf s c = some m →
        exec (.abort core ticket) s = .next (failed 6)) ∧
      (∀ e, endStatus s c = some e → replicasDone s c = true →
        ∃ t, exec (.engineCommandDone core ticket) s = .next t ∧
          t.engine = s.engine.map (fun x => if (x.core, x.ticket) ∈ endsWith c then
            { x with status := e, state := if e = 0 then 3 else if e = 6 then 5 else 4 } else x) ∧
          (∀ id ∈ endsWith c, ∀ x, findCmd s id.1 id.2 = some x → x.ctx.ctx < 11 → ∀ r ∈ (t.ctx x.ctx).ranges, r.ticket ≠ id.2) ∧
          (∀ x : CtxId, x.ctx < 11 → ∀ r ∈ (s.ctx x).ranges, (∀ id ∈ endsWith c, r.ticket ≠ id.2) → r ∈ (t.ctx x).ranges) ∧ t.mem = s.mem) ∧
      (c.isColl = true ∨ c.group = [] → endsWith c = [(core, ticket)]) ∧ (c.isColl = false → c.group ≠ [] → endsWith c = c.group))

/-- HSTART and HSTART.NB in ctx0 start the lowest free helper at a word-aligned address and return its index; with none free
HSTART waits and HSTART.NB returns all ones, as both do in a group without helpers. The helper starts live at that address with
the argument in g3, sp and cr.sbase at the top of its own stack and cr.slim at its bottom, the vector and the line pointers of
ctx0. HEXIT ends the helper with g3 as its exit value once its accesses are performed; HJOIN waits for the named helper and
returns its exit value, or 0 for an index out of range; HSTAT returns the status word; HKILL asks for the end at the next issue
point; YIELD lets the contexts that are ready issue first. HELPER_START_TRIGGER starts a helper at the entry that its descriptor holds as the trigger
fires; with no helper free it notes that entry and HPEND, and starts it when one is free; with a start pending already, no descriptor in the
scratchpad or no helpers it sets HLOST. (R138, R139, R140, R141, R142, R259) -/
def Obligations.HelperInstructions : Prop :=
  ∀ (d a b : Reg) (w : BitVec 3) (s : State), s.cur.ctx < 11 →
    (s.cur.ctx = 0 → ReadyTo [a, b] d s → (s.rdA a).toNat % 4 = 0 →
      (∀ i, helperCount s.mine ≠ 0 → freeHelper s.mine = some i → ∀ x ∈ [Instr.hstart d a b w, .hstartNb d a b w],
        exec x s = writes w [a, b] d (BitVec.ofNat 64 i) (startHelper s.cur.core i (s.rdA a) (s.rdB a b) s)) ∧
      (helperCount s.mine ≠ 0 → freeHelper s.mine = none →
        exec (.hstart d a b w) s = .next (held s) ∧ exec (.hstartNb d a b w) s = writes w [a, b] d (BitVec.allOnes 64) s) ∧
      (helperCount s.mine = 0 → ∀ x ∈ [Instr.hstart d a b w, .hstartNb d a b w], exec x s = writes w [a, b] d (BitVec.allOnes 64) s)) ∧
    (∀ (i : Nat) (t arg : Word), 1 ≤ i → i < 11 →
      let h := (startHelper s.cur.core i t arg s).mine.ctx i
      let k := s.mine
      h.live = true ∧ h.pc = t ∧ h.enter = true ∧ h.reg 3 = arg ∧ h.reg 27 = k.hstk + BitVec.ofNat 64 i * k.hstksz ∧ h.sbase = h.reg 27 ∧
      h.slim = k.hstk + BitVec.ofNat 64 (i - 1) * k.hstksz ∧ h.tvec = (k.ctx 0).tvec ∧ h.p = (k.ctx 0).p ∧ h.priv = 0 ∧ h.icount = 0 ∧
      (∀ r : Reg, r ≠ 3 → r ≠ 27 → h.reg r = 0) ∧ h.m = Vector.replicate 4 (BitVec.allOnes 1024) ∧
      (∀ j < 11, j ≠ i → (startHelper s.cur.core i t arg s).mine.ctx j = k.ctx j)) ∧
    (s.cur.ctx ≠ 0 → Ready [3] s → (∀ q ∈ s.reqs, q.ctx = s.cur → q.isStore = true) → s.me.varRes = [] → s.me.vq = [] →
      (∀ e ∈ s.me.inflight, isPort e.reg = false) → releaseHolds s.me = false → released s s.cur (tenureScope s 1) = true →
      ∃ t, exec (.hexit w) s = .next t ∧ t.me.live = false ∧ t.me.exitVal = s.me.reg 3 ∧ t.me.killed = false) ∧
    (hazard [a] [d] s = .clear → portFault s d = none →
      let v := s.rdA a
      let known := 1 ≤ v.toNat ∧ v.toNat ≤ 10
      (known → (s.mine.ctx v.toNat).live = false → exec (.hjoin d a w) s = writes w [a] d (s.mine.ctx v.toNat).exitVal s) ∧
      (known → (s.mine.ctx v.toNat).live = true → exec (.hjoin d a w) s = .next (held s)) ∧
      (¬ known → exec (.hjoin d a w) s = writes w [a] d 0 s ∧ exec (.hstat d a w) s = writes w [a] d 0 s) ∧
      (known → exec (.hstat d a w) s = writes w [a] d (hstatWord (s.mine.ctx v.toNat)) s)) ∧
    (s.cur.ctx = 0 → Ready [a] s →
      let i := (s.rdA a).toNat
      ∃ t, exec (.hkill a w) s = .next t ∧ t.note = .retired ∧
        ((1 ≤ i ∧ i ≤ 10 ∧ (s.mine.ctx i).live = true ∧ (s.mine.ctx i).service = false) → (t.mine.ctx i).killReq = true) ∧
        (∀ j, j < 11 → j ≠ i → (t.mine.ctx j).killReq = (s.mine.ctx j).killReq)) ∧
    (let others := (List.range 11).filter (fun i => i != s.cur.ctx && (s.mine.ctx i).isReady s.cycle)
     let u := finish w [] s
     exec (.yield w) s = .next (u.setMe (if others = [] then { u.me with nextIssue := max u.me.nextIssue (s.cycle + 2) }
       else { u.me with yieldTo := others }))) ∧
    (∀ (core i : Nat), core < 25600 → (s.core core).strDue.getLsbD 1 = false → (s.core core).strtgt.getLsbD 62 = true →
      freeHelper (s.core core) = some i →
      let h := (s.core core).hpending.getD (readHdesc (s.core core))
      exec (.helperStartTrigger core) s = .next (startHelper core i h.1 h.2 (s.setCore core { setHpend false (s.core core) with hpending := none }))) ∧
    (∀ core, core < 25600 → (s.core core).strDue.getLsbD 1 = true →
      let k := { strConsume s.cycle 3 (s.core core) with strDue := (s.core core).strDue &&& 1 }
      let u := s.setCore core k
      let lost := k.strtgt.getLsbD 62 = true ∨ spBytes k.spsize < hdescAt k + 16 ∨ helperCount k = 0
      (lost → exec (.helperStartTrigger core) s = .next (u.setCore core (setHlost k))) ∧
      (¬ lost → ∀ i, freeHelper k = some i → exec (.helperStartTrigger core) s = .next (startHelper core i (readHdesc k).1 (readHdesc k).2 u)) ∧
      (¬ lost → freeHelper k = none →
        exec (.helperStartTrigger core) s = .next (u.setCore core { setHpend true k with hpending := some (readHdesc k) })))

/-- At S, RPOP returns 0 for an empty ring and else takes the entry at cr.rrhead, whose number with bit 63 set it returns, and advances cr.rrhead;
RFIX gives a popped entry's load or atomic its value and completes the entry; RREPLAY performs the access again as it was issued at U, at its
context's translation, and completes when its answer has come; RKILL poisons the destination, raises the deferred XLATE and completes the entry. A
completed entry is no longer outstanding and keeps its context back no longer, and RFIX clears the destination's poison. RFIX and RKILL wait while a
peer holds a line that they write. An operand that names no popped entry changes nothing. RPOP's acquire under the ceiling of cr.scopecap (log entry
32), the replay's level and its new entry when it faults again (log entry 26), and how H reaches an entry of a SAVED partition, RREPLAY waiting until
that runs again, whose core then performs it (log entry 68), are the model's reading. (R379, R382, R383) -/
def Obligations.RetryRing : Prop :=
  ∀ (d a b : Reg) (w : BitVec 3) (s : State), s.me.priv ≠ 0 →
    let free := fun (p : Nat) (e : RingEntry) => ∀ l ∈ entryLines s p e.n, ∀ d ∈ s.peerDir, d.line ≠ l
    let asks := fun (i : Instr) (p : Nat) (e : RingEntry) => ∃ t, exec i s = .next t ∧ t.note = .held ∧ t.mem = s.mem ∧ t.me.pc = s.me.pc ∧
      (t.part p).ringEnts = (s.part p).ringEnts ∧ (∀ d ∈ t.peerDir, d.line ∈ entryLines s p e.n → d.till.isSome = true)
    (ReadyTo [] d s →
      let q := s.myPart
      (q.rrhead = q.rrtail → exec (.rpop d w) s = writes w [] d 0 s) ∧
      (q.rrhead ≠ q.rrtail →
        let u := s.setPart s.myPartNo { q with
          rrhead := q.rrhead + 1
          ringEnts := q.ringEnts.map (fun e => if e.n = q.rrhead.toNat then { e with popped := true } else e) }
        exec (.rpop d w) s = writes w [] d (BitVec.ofNat 64 (2 ^ 63 + q.rrhead.toNat)) (acquireAt s.cur (capped q 5) u))) ∧
    (Ready [a, b] s →
      (namedEntry s (s.rdA a) = none → exec (.rfix a b w) s = .next (finish w [a, b] s)) ∧
      (∀ p e, namedEntry s (s.rdA a) = some (p, e) →
        (fixWaits s e = false → free p e → exec (.rfix a b w) s = .next (finish w [a, b] (savedRecord p e.ctx (fixEntry p e (s.rdB a b) s)))) ∧
        (fixWaits s e = false → ¬ free p e → asks (.rfix a b w) p e) ∧
        (fixWaits s e = true → exec (.rfix a b w) s = .next (held s)))) ∧
    (Ready [a] s →
      (namedEntry s (s.rdA a) = none → exec (.rkill a w) s = .next (finish w [a] s)) ∧
      (∀ p e, namedEntry s (s.rdA a) = some (p, e) →
        (free p e → exec (.rkill a w) s = .next (finish w [a] (savedRecord p e.ctx (killEntry p e s)))) ∧ (¬ free p e → asks (.rkill a w) p e)) ∧
      (∀ n, s.me.wait = .replay n → exec (.rreplay a w) s = (if (s.req n).isSome then .next (held s) else .next (finish w [a] s))) ∧
      (∀ p n, s.me.wait = .replayOf p n →
        ((s.part p).popped n = none → exec (.rreplay a w) s = .next (finish w [a] s)) ∧
        (∀ e, (s.part p).popped n = some e → (s.part p).state ≠ 1 → exec (.rreplay a w) s = .next (held s)) ∧
        (∀ e, (s.part p).popped n = some e → (s.part p).state = 1 → exec (.rreplay a w) s = replay w a p e s)) ∧
      ((∀ n, s.me.wait ≠ .replay n) → (∀ p n, s.me.wait ≠ .replayOf p n) →
        (namedEntry s (s.rdA a) = none → exec (.rreplay a w) s = .next (finish w [a] s)) ∧
        (∀ p e, namedEntry s (s.rdA a) = some (p, e) → p ≠ s.myPartNo → (s.part p).popped e.n = some e → (s.part p).state ≠ 1 →
          exec (.rreplay a w) s = .next (held (s.setMe { s.me with wait := .replayOf p e.n }))) ∧
        (∀ e, namedEntry s (s.rdA a) = some (s.myPartNo, e) → exec (.rreplay a w) s = replay w a s.myPartNo e s))) ∧
    (∀ (p : Nat) (e : RingEntry), ∃ t, replay w a p e s = .next t ∧
      (∀ l u, resolve s { s.xctx e.ctx with priv := 0 } e.va (replayOf p s e).1 (replayOf p s e).2.1 = (u, .ok l) → s.cur.ctx < 11 →
        t.me.wait = .replay u.nextId ∧ (∃ q ∈ t.reqs, q.id = u.nextId ∧ q.replay = some e.n ∧ q.loc = l))) ∧
    (∀ (p : Nat) (e : RingEntry) (h : RingHold), entryHold s e = some h → e.load = true → e.ctx.ctx < 11 → h.reg ≠ 0 → h.reg.toNat < 28 →
      ((killEntry p e s).ctx e.ctx).isPoisoned h.reg = true ∧
      (∀ v, ((fixEntry p e v s).ctx e.ctx).reg h.reg = v ∧ ((fixEntry p e v s).ctx e.ctx).isPoisoned h.reg = false)) ∧
    (∀ (p : Nat) (e : RingEntry), p < 64 → (s.part p).ringEnts.find? (fun r => r.n == e.n) = some e →
      (∀ v, e.load = false → ∀ r, ((fixEntry p e v s).ctx e.ctx).reg r = (s.ctx e.ctx).reg r) ∧
      (∀ v, ∀ t ∈ [fixEntry p e v s, killEntry p e s], (t.part p).ringEnts = (s.part p).ringEnts.filter (fun r => r.n != e.n) ∧
        (e.ctx.ctx < 11 → (t.ctx e.ctx).ring = (s.ctx e.ctx).ring.filter (fun r => r.entry != e.n))))

/-- TR.STAT returns the member mask, the detached mask, the leader and the role of the issuing core. In ctx0, TR.FORM returns 1
for an operand that names no troupe of this group, 2 in a core that is a member already, and otherwise waits until every core of
the mask stands in the same TR.FORM: then the troupe forms with the lowest core as its leader and every member returns 0; past
cr.trwait the core returns 3, as TR_FORM_TIMEOUT does for one that does not issue. TR.BREAK at the leader dissolves the troupe and
ends the stream at the next instruction, at a detached follower removes it; TR.DETACH detaches a follower that executes it and is
a no-op otherwise; TR.REJOIN at the leader waits for the detached members and takes them back, and past cr.trwait traps
TROUPEHANG, as the event does; a detached follower waits in it, an attached one and a forwarded one pass it. FORWARDED_INSTRUCTION gives a follower
the next instruction of the stream, not before 3 cycles after its issue by the leader, or sets it free at the stream's end. (That TR.BREAK by a
non-member or an attached follower, TR.DETACH outside a follower and TR.REJOIN by a non-member do nothing is the model's choice, log entry 30.) (R265,
R266, R267, R268, R269, R270, R271) -/
def Obligations.TroupesAndForwarding : Prop :=
  ∀ (d a : Reg) (w : BitVec 3) (s : State),
    let c := s.cur.core
    (ReadyTo [] d s → exec (.trStat d w) s = writes w [] d (troupeWord s c) s) ∧
    (troupeOf s c = none → troupeWord s c = 0) ∧
    (∀ t, troupeOf s c = some t → t.leader < 16 → (troupeWord s c).extractLsb' 0 16 = t.members ∧
      (troupeWord s c).extractLsb' 16 16 = t.detached ∧ ((troupeWord s c).extractLsb' 32 4).toNat = t.leader ∧
      ((troupeWord s c).extractLsb' 36 28).toNat = (if t.leader = c % 16 then 1 else if t.detached.getLsbD (c % 16) then 3 else 2)) ∧
    (s.cur.ctx = 0 → hazard [a] [d] s = .clear →
      (∀ m since e f v, s.me.wait = .trForm m since e f v →
        (overLimit s c since = true → exec (.trForm d a w) s = .next (endForm 3 s c)) ∧
        (overLimit s c since = false → (∀ n ∈ maskCores c m, hasFormed s m n = true) →
          exec (.trForm d a w) s = .next (formTroupe (rankOf c) m ((maskCores c m).foldl (endForm 0) s))) ∧
        (overLimit s c since = false → (∃ n ∈ maskCores c m, hasFormed s m n = false) → exec (.trForm d a w) s = .next (held s))) ∧
      ((∀ m since e f v, s.me.wait ≠ .trForm m since e f v) → portFault s d = none →
        let v := s.rdA a
        let m := v.extractLsb' 0 16
        let u := s.setMe { s.me with wait := .trForm m s.cycle d a w }
        let good := v.toNat < 2 ^ 16 ∧ 2 ≤ (maskCores c m).length ∧ m.getLsbD (c % 16) = true ∧ ∀ n ∈ maskCores c m, sameGroup s c n = true
        (¬ good → exec (.trForm d a w) s = writes w [a] d 1 s) ∧
        (good → troupeOf s c ≠ none → exec (.trForm d a w) s = writes w [a] d 2 s) ∧
        (good → troupeOf s c = none → (∀ n ∈ maskCores c m, hasFormed u m n = true) →
          exec (.trForm d a w) s = .next (formTroupe (rankOf c) m ((maskCores c m).foldl (endForm 0) u))) ∧
        (good → troupeOf s c = none → (∃ n ∈ maskCores c m, hasFormed u m n = false) → exec (.trForm d a w) s = .next (held u)))) ∧
    (∀ (rank : Nat) (m : BitVec 16), m ≠ 0 → ∃ lead, m.getLsbD lead = true ∧ (∀ j < lead, m.getLsbD j = false) ∧
      ((formTroupe rank m s).cluster rank).troupes = (s.cluster rank).troupes ++ [⟨m, lead, 0⟩]) ∧
    (s.cur.ctx = 0 → Ready [] s →
      (isLeader s c = true →
        exec (.trBreak w) s = .next (finish w [] (mapTroupe c (fun _ => none) (endStream (s.me.pc + 4) none false s)))) ∧
      (isLeader s c = false → amDetached s = true → exec (.trBreak w) s = .next (finish w [] (leaveTroupe c s))) ∧
      (isLeader s c = false → amDetached s = false → exec (.trBreak w) s = .next (finish w [] s)) ∧
      (s.me.fwd ≠ none → exec (.trDetach w) s = .next (detach c (finish w [] s))) ∧
      (s.me.fwd = none → exec (.trDetach w) s = .next (finish w [] s)) ∧
      (isLeader s c = true → (∀ n ∈ detachedCores s c, hasRejoined s n = true) → exec (.trRejoin w) s = .next (finish w [] (reattachAll s))) ∧
      (isLeader s c = true → (∃ n ∈ detachedCores s c, hasRejoined s n = false) →
        exec (.trRejoin w) s = .next (if overLimit s c (rejoinSince s) then hang s
          else held (s.setMe { s.me with wait := .trRejoin (rejoinSince s) w }))) ∧
      (isLeader s c = false → amDetached s = true → s.me.fwd = none →
        exec (.trRejoin w) s = .next (held (s.setMe { s.me with wait := .trRejoin (rejoinSince s) w }))) ∧
      (isLeader s c = false → (amDetached s = false ∨ s.me.fwd ≠ none) → exec (.trRejoin w) s = .next (finish w [] s))) ∧
    (∀ (core : Nat) (m : BitVec 16) (since : Nat) (e f : Reg) (v : BitVec 3), ((s.core core).ctx 0).wait = .trForm m since e f v →
      coreMoves s core = true → overLimit s core since = true → exec (.trFormTimeout core) s = .next (endForm 3 s core)) ∧
    (∀ (core since : Nat) (v : BitVec 3), ((s.core core).ctx 0).wait = .trRejoin since v → coreMoves s core = true → isLeader s core = true →
      overLimit s core since = true → (∃ n ∈ detachedCores s core, hasRejoined s n = false) →
      exec (.troupehang core) s = .next (asCtx ⟨core, 0⟩ hang s)) ∧
    (∀ (core : Nat) (e : FwdEntry) (rest : List FwdEntry), (s.core core).fwdBuf = e :: rest → ((s.core core).ctx 0).fwd = none →
      ((s.core core).ctx 0).live = true → coreMoves s core = true →
      (e.last = true → ∃ t, exec (.forwardedInstruction core) s = .next t ∧ (t.core core).fwdBuf = rest ∧ t.agenda = s.agenda ∧
        (t.core core).ctx 0 = { (s.core core).ctx 0 with pc := e.pc, frame := e.frame, enter := true }) ∧
      (e.last = false → e.at_ + 3 ≤ s.cycle → ∃ t, exec (.forwardedInstruction core) s = .next t ∧ (t.core core).fwdBuf = rest ∧
        t.agenda = .issue ⟨core, 0⟩ :: s.agenda ∧
        (t.core core).ctx 0 = { (s.core core).ctx 0 with pc := e.pc, frame := e.frame, fwd := some e }) ∧
      (e.last = false → s.cycle < e.at_ + 3 → exec (.forwardedInstruction core) s = .next s))

/-- SYNC and BAR in a helper, at a level that is not valid or that has no slot trap ILLEGAL with their word; otherwise they wait, once what a release
at the domain's scope waits for is performed, and SYNC_DONE completes them for every member when all members have arrived and, at a SYNC, as many
words have been received as sent: each member's counts of the level become 0 and its phase counts one; the counts that ended members leave take part
in a SYNC and are then 0, and a BAR leaves them. (Where some wait at a BAR and some at a SYNC, the BARs go on first: log entry 31; that these ILLEGALs, and DJOIN's and DLEAVE's in a helper or at level 1, come
before what a source's hazard does is the model's choice: log entry 84.) DJOIN sets its
level to the interval with VALID where the interval may be joined and to 0 otherwise, and clears the deeper levels; DLEAVE clears from its level on;
DQRY returns phase, arrival, validity and balance. QPEEK returns the head of a port without removing it and waits while there is none, QCLR removes
every word, QSTAT returns their number. ROUTER_ACCEPT takes a context's oldest word into its cluster's router while that has room for 64, and
PORT_WORD_ARRIVAL moves a word on to the next router of its path, X first, while that has room, and from the last one to the tail of its port, while
that has room for 16, the core runs a group of the word's launch, and no earlier word of its sender and route is on its way. (R262, R263, R264, R287,
R288, R289, R290, R291, R292, R294) -/
def Obligations.SyncAndPorts : Prop :=
  ∀ (d a : Reg) (l q : BitVec 2) (w : BitVec 3) (s : State),
    let level := l.toNat + 1
    let illegal := fun (i : Instr) => trap (.mk' cILLEGAL (BitVec.setWidth 64 (encode i))) s
    let scope := (domainOf s s.cur.core level).elim 5 (fun m => m.scope s)
    ((s.cur.ctx ≠ 0 ∨ s.mine.levelValid level = false ∨ s.mine.groupSlots < level) → ∀ i ∈ [Instr.sync l w, .bar l w], exec i s = illegal i) ∧
    (s.cur.ctx = 0 → s.mine.levelValid level = true → level ≤ s.mine.groupSlots → Ready [] s →
      (∀ n b v r, s.me.wait = .sync n b v r → ∀ i ∈ [Instr.sync l w, .bar l w], exec i s = .next (held s)) ∧
      ((∀ n b v r, s.me.wait ≠ .sync n b v r) → releaseHolds s.me = false → released s s.cur scope = true → fabStore s scope = none →
        ∀ p ∈ [(Instr.sync l w, false), (.bar l w, true)],
          exec p.1 s = .next (held (forwardSync (encode p.1) (s.setMe { s.me with wait := .sync level p.2 w none }))))) ∧
    (∀ (core n : Nat) (b : Bool) (v : BitVec 3) (m : Domain), domainOf s core n = some m →
      (((s.core core).ctx 0).wait = .sync n b v none →
        ((s.part m.part).state = 1 → m.allHere s = true → exec (.syncDone core) s = .next (syncStep m s)) ∧
        (m.allHere s = false → exec (.syncDone core) s = .next s)) ∧
      (∀ r, ((s.core core).ctx 0).wait = .sync n b v (some r) → (s.part m.part).state = 1 →
        exec (.syncDone core) s = .next (leftStep m r s))) ∧
    (∀ m : Domain, (m.allHere s = true → (∀ c ∈ m.running s, m.arrived s c = true) ∧
        (m.running s).length + (m.ended s).length = m.hi + 1 - m.lo) ∧
      (let each := (m.running s).foldl (memberDone (m.scope s) m.level) s
       let done := clearGone m each
       let sums := wordSums s m.level (m.running s) (m.ended s)
       ((∀ c ∈ m.running s, atBar s c = false) →
         (sums.1 = sums.2 → syncStep m s = yieldAt m done) ∧ (sums.1 ≠ sums.2 → syncStep m s = s)) ∧
       (m.running s ≠ [] → (∀ c ∈ m.running s, atBar s c = true) → syncStep m s = each))) ∧
    (∀ (core n : Nat) (b : Bool) (v sc : BitVec 3) (r : Option (Nat × Nat)), ((s.core core).ctx 0).wait = .sync n b v r → 1 ≤ n → n ≤ 4 →
      let k := (memberDone sc n s core).core core
      k.phase[n - 1]?.getD 0 = (s.core core).phase[n - 1]?.getD 0 + 1 ∧ k.sent[n - 1]?.getD 0 = 0 ∧ k.recv[n - 1]?.getD 0 = 0) ∧
    ((s.cur.ctx ≠ 0 ∨ l = 0) → ∀ i ∈ [Instr.djoin a l w, .dleave l w], exec i s = illegal i) ∧
    (s.cur.ctx = 0 → l ≠ 0 →
      (Ready [a] s → exec (.djoin a l w) s = .next (finish w [a] (s.setMine (setLevel level
        (if joinOk s level (s.rdA a) then s.rdA a ||| 0x8000000000000000 else 0) s.mine)))) ∧
      (Ready [] s → exec (.dleave l w) s = .next (finish w [] (s.setMine (setLevel level 0 s.mine))))) ∧
    (∀ (n i : Nat) (v : Word) (k : Core), 1 ≤ n → n ≤ 4 → i < 4 →
      (setLevel n v k).dm[i]?.getD 0 = (if i + 1 = n then v else if n < i + 1 then 0 else k.dm[i]?.getD 0)) ∧
    (ReadyTo [] d s →
      exec (.dqry d l w) s = writes w [] d (levelWord s.mine level) s ∧
      (∀ x t, s.mine.port q.toNat = x :: t → exec (.qpeek d q w) s = writes w [] d x.value s) ∧
      (s.mine.port q.toNat = [] → exec (.qpeek d q w) s = .next (held s)) ∧
      exec (.qstat d q w) s = writes w [] d (BitVec.ofNat 64 (s.mine.port q.toNat).length) s) ∧
    (Ready [] s → exec (.qclr q w) s = .next (finish w [] (s.setMine (clearPort s.mine q.toNat (s.mine.port q.toNat).length)))) ∧
    (∀ k : Core, (clearPort k q.toNat (k.port q.toNat).length).port q.toNat = [] ∧
      (∀ j < 4, j ≠ q.toNat → (clearPort k q.toNat (k.port q.toNat).length).port j = k.port j)) ∧
    (∀ (core ctx : Nat) (x : PortWord) (t : List PortWord), ctx < 11 → core < 25600 → (s.ctx ⟨core, ctx⟩).sends = x :: t →
      let cell := rankCell (rankOf core)
      (routerTakes s cell = false → exec (.routerAccept core ctx) s = .next s) ∧
      (routerTakes s cell = true → ∃ u, exec (.routerAccept core ctx) s = .next u ∧ u.net = s.net ++ [{ x with cell := cell }] ∧ (u.ctx ⟨core, ctx⟩).sends = t ∧
        (u.core core).msgsent = (s.core core).msgsent + 1)) ∧
    (∀ cell, routerTakes s cell = true → (s.net.filter (fun y => y.cell == cell)).length < 64) ∧
    (∀ (word : Nat) (x : PortWord), s.net.find? (fun y => y.id == word) = some x → x.port < 4 → x.dest < 25600 →
      let last := rankCell (rankOf x.dest)
      let free := wordBehind s x = false ∧ takesWord s x = true ∧ ((s.core x.dest).port x.port).length < 16
      (routerStopped s x.cell = true → exec (.portWordArrival word) s = .next s) ∧
      (routerStopped s x.cell = false → x.cell ≠ last →
        (routerTakes s (stepTo x.cell last) = true → (∀ y ∈ wordsBefore s x, y.src = x.src → y.route = x.route → y.cell ≠ x.cell) →
          ∃ u, exec (.portWordArrival word) s = .next u ∧
            u.net = s.net.map (fun y => if y.id = word then { y with cell := stepTo x.cell last } else y) ∧ u.cores = s.cores) ∧
        (routerTakes s (stepTo x.cell last) = false → exec (.portWordArrival word) s = .next s)) ∧
      (routerStopped s x.cell = false → x.cell = last → free → ∃ u, exec (.portWordArrival word) s = .next u ∧ u.net = s.net.filter (fun y => y.id != word) ∧
        (u.core x.dest).port x.port = (s.core x.dest).port x.port ++ [x]) ∧
      (x.cell = last → ¬ free → exec (.portWordArrival word) s = .next s))

/-- EVWAIT waits while its counter is 0 and then takes one from it; EVSIG, a release at .core, adds one and pulses the counter's strings source; EVRD
returns it and EVCLR clears it. WFE returns where the context has been woken and waits otherwise; WAKE wakes every context of a core, and
STRINGS_TIMER pulses source 6. A pulse adds one to every enabled counter of its source, at most once in a cycle, at the end of the cycle after it, on
top of what was written there (the model's reading, log entry 34). CRR, CRW, CRSET and CRCLR trap ILLEGAL for an index of no register and PRIV where
the privilege does not admit the access, with their word; they return the old value, and write the operand, its union with the old value or the old
value less its bits; a read-only register stays as it is. One on cr.fflags is held, before its checks on operands, until the flags of the earlier
scalar FPU instructions have accrued (R111), and cr.ptbase and cr.ptlen are for H alone (log entry 63). A write that changes cr.spsize waits for
SCRATCHPAD_RESIZE, which empties the L1, sets the size and keeps the bytes below both sizes. REGISTER_WRITE writes the register of the page at its
address. (R62, R119, R120, R121, R144, R145, R157, R254, R258, R390) -/
def Obligations.EventsStringsAndRegisters : Prop :=
  ∀ (d a : Reg) (c : BitVec 11) (w : BitVec 3) (s : State), s.cur.ctx < 11 →
    let x := s.rdA a
    let ev := (x.extractLsb' 0 3).toNat
    let k := s.mine
    let n := c.toNat
    let old := csrRead s s.cur n
    let all := [Instr.crr d c w, .crw d a c w, .crset d a c w, .crclr d a c w]
    let news := [(Instr.crw d a c w, x), (.crset d a c w, old ||| x), (.crclr d a c w, old &&& ~~~x)]
    (Ready [a] s →
      (k.evcnt[ev]?.getD 0 = 0 → exec (.evwait a w) s = .next (held s)) ∧
      (k.evcnt[ev]?.getD 0 ≠ 0 → exec (.evwait a w) s = .next (finish w [a] (s.setMine (setEv k ev (k.evcnt[ev]?.getD 0 - 1))))) ∧
      (releaseHolds s.me = false → released s s.cur 1 = true → fabStore s 1 = none →
        exec (.evsig a w) s = .next (finish w [a] (signalEvent s.cur.core ev s))) ∧
      exec (.evclr a w) s = .next (finish w [a] (s.setMine (setEv k ev 0)))) ∧
    (∀ core i, i < 8 → let t := (signalEvent core i s).core core
      t.evcnt[i]?.getD 0 = (s.core core).evcnt[i]?.getD 0 + 1 ∧ (∀ j < 8, j ≠ i → t.evcnt[j]?.getD 0 = (s.core core).evcnt[j]?.getD 0)) ∧
    (hazard [a] [d] s = .clear → portFault s d = none → exec (.evrd d a w) s = writes w [a] d (k.evcnt[ev]?.getD 0) s) ∧
    (Ready [] s → (s.me.wake = true → exec (.wfe w) s = .next (finish w [] (s.setMe { s.me with wake := false }))) ∧
      (s.me.wake = false → exec (.wfe w) s = .next (held s))) ∧
    (∀ core < 25600, (s.core core).strDue.getLsbD 0 = true →
      ∃ t, exec (.wake core) s = .next t ∧ (∀ i < 11, ((t.core core).ctx i).wake = true) ∧ (t.core core).strDue.getLsbD 0 = false) ∧
    (∀ core < 25600, let m := s.core core
      let p := m.strtgt.extractLsb' 20 4
      p ≠ 0 → m.timerAt + 2 ^ (p.toNat + 5) ≤ s.cycle →
      exec (.stringsTimer core) s = .next (pulse core 6 (s.setCore core { m with timerAt := m.timerAt + 2 ^ (p.toNat + 5) }))) ∧
    (∀ (src : Nat) (m : Core), strFire src m = { m with strPulse := m.strPulse ||| (1#16 <<< src) }) ∧
    (∀ (m : Core) (i : Nat), i < 8 → let v := m.strcnt[i]?.getD 0
      (strEndCycle m).strcnt[i]?.getD 0 = (if v.getLsbD 4 = true ∧ m.strNext.getLsbD (v.extractLsb' 0 4).toNat = true then v + 0x100000000#64 else v) ∧
      (strEndCycle m).strNext = m.strPulse ∧ (strEndCycle m).strPulse = 0) ∧
    (csrDefined n = false → ∀ i ∈ all, exec i s = trap (.mk' cILLEGAL (BitVec.setWidth 64 (encode i))) s) ∧
    (csrDefined n = true → csrDenied s.me.priv n false = true →
      exec (.crr d c w) s = trap (.mk' cPRIV (BitVec.setWidth 64 (encode (.crr d c w)))) s) ∧
    (csrDefined n = true → csrDenied s.me.priv n true = true → ∀ p ∈ news,
      exec p.1 s = trap (.mk' cPRIV (BitVec.setWidth 64 (encode p.1))) s) ∧
    (csrDefined n = true → n = 2 → flagsPending s.me = true → (csrDenied s.me.priv n false = false → exec (.crr d c w) s = .next (held s)) ∧
      (csrDenied s.me.priv n true = false → ∀ p ∈ news, exec p.1 s = .next (held s))) ∧
    (∀ (k : BitVec 2) (at_ : Nat), (at_ = 0x300 ∨ at_ = 0x301) → (∀ u, csrDenied k at_ u = true ↔ k.toNat < 2)) ∧
    (csrDefined n = true → (n = 2 → flagsPending s.me = false) →
      (csrDenied s.me.priv n false = false → ReadyTo [] d s → exec (.crr d c w) s = resultOf w [] 1 d old s) ∧
      (csrDenied s.me.priv n true = false → ReadyTo [a] d s → ∀ p ∈ news,
        (n ≠ 0x045 → exec p.1 s = .next (finish w [a] (csrWrite n p.2 (produce 1 d old 0 s)))) ∧
        (n = 0x045 → s.me.wait = .none →
          (p.2.extractLsb' 0 2 = k.spsize → exec p.1 s = resultOf w [a] 1 d old s) ∧
          (p.2.extractLsb' 0 2 ≠ k.spsize →
            exec p.1 s = .next (held (s.setMe { s.me with wait := .resize (p.2.extractLsb' 0 2) })))) ∧
        (∀ z, n = 0x045 → s.me.wait = .resized z → exec p.1 s = resultOf w [a] 1 d (z.setWidth 64) s))) ∧
    (∀ v, csrReadOnly n = true → csrWrite n v s = s) ∧
    (∀ (v : Word) (i : Nat), i ∈ [4, 5, 0xA, 0xB, 0x52, 0x53, 0x86, 0x88, 0x8A, 0xD0, 0xD7, 0x200, 0x27F] → csrRead (csrWrite i v s) s.cur i = v) ∧
    (∀ v : Word, csrRead (csrWrite 1 v s) s.cur 1 = v &&& 0x1F7 ∧ csrRead (csrWrite 9 v s) s.cur 9 = v &&& ~~~3#64 ∧
      csrRead (csrWrite 0xC v s) s.cur 0xC = v &&& ~~~0xFFF#64 ∧ csrRead (csrWrite 2 v s) s.cur 2 = v &&& 0xFF ∧
      csrRead (csrWrite 3 v s) s.cur 3 = v &&& 1 ∧ csrRead (csrWrite 0x101 v s) s.cur 0x101 = v &&& 0x000FFFFFFFFF8000) ∧
    (∀ (core i : Nat) (z : BitVec 2), core < 25600 → resizer (s.core core) = some (i, z) → resizeReady (s.core core) = true →
      ∃ t, exec (.scratchpadResize core) s = .next t ∧ (t.core core).spsize = z ∧ (t.core core).l1 = [] ∧
        ((t.core core).ctx i).wait = .resized (s.core core).spsize ∧
        (∀ e, getByte (t.core core).spad e =
          if e < spBytes (s.core core).spsize ∧ e < spBytes z then getByte (s.core core).spad e else 0)) ∧
    (∀ (pa : Nat) (v : Word), let off := pa % 0x1000 / 8 * 8
      (∀ p, pageAt pa = .pcb p → exec (.registerWrite pa v) s = .next (writePcb p off v s)) ∧
      (∀ r, pageAt pa = .debug r → exec (.registerWrite pa v) s = .next (writeDebug r off v s)) ∧
      (pageAt pa = .fabric → exec (.registerWrite pa v) s = .next { s with fabric := writeFabric off v s.fabric }) ∧
      (∀ p, pageAt pa = .network p → ∃ t, exec (.registerWrite pa v) s = .next t ∧
        (p < 64 → t.netPages[p]? = some (writeNetwork off v (s.netPages[p]?.getD ⟨0, 0, 0, 0, 0⟩)))) ∧
      (pageAt pa = .none → exec (.registerWrite pa v) s = .next s))

/-- GANG has the word 0x9C000048 plus its wait count. At U it traps PRIV with its word; above U, where nothing keeps it back, it is complete, its
partition goes from RUNNING to HALTED with reason 2, and the context that issued it may issue no more. (R385) -/
def Obligations.GangStopsThePartition : Prop :=
  ∀ (w : BitVec 3) (s : State),
    encode (.gang w) = 0x9C000048 + w.setWidth 32 ∧
    (s.me.priv = 0 → exec (.gang w) s = trap (.mk' cPRIV (BitVec.setWidth 64 (encode (.gang w)))) s) ∧
    (s.me.priv ≠ 0 → Ready [] s → partRuns s s.cur.core = true → ∃ t, exec (.gang w) s = .next t ∧ t.note = .retired ∧ t.cur = s.cur ∧
      (t.part s.myPartNo).state = 5 ∧ (t.part s.myPartNo).reason = 2 ∧ t.myPartNo = s.myPartNo ∧ canIssue t s.cur = false)

/-- At S, HALT completes and then stops every context of its core, with CAUSE 3 in the debug module, and GANG completes and stops the partition
through the curtain tree with reason 2. TSREAD waits until every earlier instruction of the context has completed and returns guest time; CNTRD
returns the counter its operand names and 0 for an index of 8 or more. GEXIT in ctx0 waits while a helper lives (the fault-service context, outside
the group, does not count: the model's reading, log entry 32), while vector or engine work is left or what the context has issued is not performed,
and then ends the context's part in the group, and a detached follower's part in its troupe; its results in flight, those for ports too, are discarded
(the model's choice, log entry 75). The curtain stop makes a running partition HALTED with
its reason and signals the physical function. (R61, R143, R146, R168, R385, R386, R397, R407) -/
def Obligations.SystemInstructions : Prop :=
  ∀ (d a : Reg) (w : BitVec 3) (s : State), s.cur.ctx < 11 →
    let c := s.cur.core
    let u := finish w [] s
    (s.me.priv ≠ 0 → Ready [] s →
      exec (.halt w) s = .next (noteHalt c 3 false (u.setMine { u.mine with halted := true })) ∧
      exec (.gang w) s = .next (curtainStop s.myPartNo 2 u)) ∧
    (∀ (core : Nat) (cause : BitVec 3) (whole : Bool), let k := s.cluster (rankOf core)
      (noteHalt core cause whole s).cluster (rankOf core) =
        { k with halted := k.halted || whole, cause := cause, dcore := BitVec.ofNat 4 (core % 16) }) ∧
    (∀ (p : Nat) (r : BitVec 2), p < 64 →
      ((s.part p).state = 1 → ((curtainStop p r s).part p).state = 5 ∧ ((curtainStop p r s).part p).reason = r ∧
        (curtainStop p r s).msi = s.msi ++ [(0, p)]) ∧
      ((s.part p).state ≠ 1 → curtainStop p r s = s)) ∧
    (ReadyTo [] d s →
      (allDone s = true → exec (.tsread d w) s = writes w [] d (guestTime s c) s) ∧
      (allDone s = false → exec (.tsread d w) s = .next (held s))) ∧
    (let q := s.part (s.partOfRank (rankOf c));
      (guestTime s c).toNat = (s.counter c + 2 ^ 64 - q.tsoff.toNat) % 2 ^ 64 * q.tsscale.toNat / 2 ^ 16 % 2 ^ 64) ∧
    (hazard [a] [d] s = .clear → portFault s d = none →
      exec (.cntrd d a w) s = writes w [a] d (counterOf s (s.rdA a).toNat) s ∧
      (8 ≤ (s.rdA a).toNat → exec (.cntrd d a w) s = writes w [a] d 0 s)) ∧
    (s.cur.ctx = 0 → Ready [] s →
      let helpers := (∃ i, 1 ≤ i ∧ i ≤ 10 ∧ (s.mine.ctx i).live = true ∧ (s.mine.ctx i).service = false)
      ((helpers ∨ s.me.vq ≠ []) → exec (.gexit w) s = .next (held s)) ∧
      (¬ helpers → s.me.vq = [] → enginePending s = true → exec (.gexit w) s = .next (held s)) ∧
      (¬ helpers → s.me.vq = [] → enginePending s = false → (∀ x ∈ s.engine, x.ctx = s.cur → x.unreported = false) →
        releaseHolds s.me = false → released s s.cur (capped s.myPart 7) = true → fabStore s (capped s.myPart 7) = none →
        let t := dropResults s.cur (dropTenures s.cur (finish w [] (if amDetached s then leaveTroupe c s else s)))
        exec (.gexit w) s = .next (coreEnds c (t.setMe { t.me with live := false, inflight := [], varRes := [], frame := none }))))

/-- LNCH traps MISALIGN for a descriptor that is not 64-byte aligned and LAUNCHBAD with its code for one that fails a check, waits
while the queue holds 64 launches and until its release is over, and otherwise appends the launch, with the id that follows and what it records of its context,
and returns the id. LWAIT completes for an id that is not known and for a launch that is complete, and waits otherwise; LQRY
returns the launch's word, 0 for an id that is not known; LCANCEL cancels the groups not dispatched yet and returns 0 or, where
some have been dispatched, 1, and 2 where there is nothing to cancel. GROUP_PLACEMENT places the group the dispatcher picks: of
the first priority that offers one, in arrival order, with its dependencies met, on a block that fits. GROUP_START starts ctx0 of
a core with its group's registers, once, its stack below the lines that were reserved at its placement; that it does nothing while work of a group before is still under way in the core is the model's reading (log
entry 32). (R361, R363, R364, R365, R366, R367, R368, R369, R370, R372, R373) -/
def Obligations.LaunchesAndGroups : Prop :=
  ∀ (d a : Reg) (w : BitVec 3) (s : State),
    let x := s.rdA a
    let traps := fun (c : BitVec 6) (v : Word) (t : State) => trap (.mk' c v) t
    (hazard [a] [d] s = .clear →
      (x.toNat % 64 ≠ 0 → exec (.lnch d a w) s = traps cMISALIGN x s) ∧
      (x.toNat % 64 = 0 → ∀ desc u, ctxRead s x 64 = .ok desc u →
        let l := launchFrom desc [] (nextLaunchId u.myPart.issued) (u.myPart.issued + 1) u.mine.asid u.mine.ttab u.me.tvec
        let go := fun (l : Launch) (t : State) =>
          (∀ code, placeBad u.myPart l = some code → exec (.lnch d a w) s = traps cLAUNCHBAD (BitVec.ofNat 64 code) t) ∧
          (placeBad u.myPart l = none → portFault t d = none →
            (queueFull t.myPart = true ∨ releaseHolds t.me = true ∨ released t t.cur (capped t.myPart 7) = false → exec (.lnch d a w) s = .next (held s)) ∧
            (queueFull t.myPart = false → releaseHolds t.me = false → released t t.cur (capped t.myPart 7) = true →
              fabStore t (capped t.myPart 7) = none →
              exec (.lnch d a w) s = .next (finish w [a] (deliver d (l.id.setWidth 64) (appendLaunch t.myPartNo l t)))))
        (∀ code, launchBad u.myPart desc l = some code → exec (.lnch d a w) s = traps cLAUNCHBAD (BitVec.ofNat 64 code) u) ∧
        (launchBad u.myPart desc l = none →
          (l.pinned = false → go l u) ∧
          (l.pinned = true → ∀ v t, readRun (4 * l.groups / 64 + 2) (placeVa desc) (4 * l.groups) u = .ok v t →
            go { l with place := placeList v l.groups } t)))) ∧
    (∀ (p : Nat) (l : Launch), p < 64 → ((appendLaunch p l s).part p).launches = (s.part p).launches ++
        [{ l with on0 := predOf (s.part p) l.dep0 l.pred0, on1 := predOf (s.part p) l.dep1 l.pred1 }] ∧
      ((appendLaunch p l s).part p).issued = (s.part p).issued + 1) ∧
    (Ready [a] s →
      (knownLaunch s.myPart x = none → exec (.lwait a w) s = .next (finish w [a] s)) ∧
      (∀ l, knownLaunch s.myPart x = some l →
        (l.complete = true → exec (.lwait a w) s = .next (finish w [a] (acquireAt s.cur (capped s.myPart 7) s))) ∧
        (l.complete = false → exec (.lwait a w) s = .next (held s)))) ∧
    (hazard [a] [d] s = .clear → portFault s d = none →
      (knownLaunch s.myPart x = none → exec (.lqry d a w) s = writes w [a] d 0 s ∧ exec (.lcancel d a w) s = writes w [a] d 2 s) ∧
      (∀ l, knownLaunch s.myPart x = some l →
        exec (.lqry d a w) s = writes w [a] d (BitVec.ofNat 64 (l.stateCode + 2 ^ 8 * l.disp + 2 ^ 32 * l.ended)) s ∧
        (l.dispatched = true → exec (.lcancel d a w) s = writes w [a] d 2 s) ∧
        (l.dispatched = false → portFault (cancelLaunch s.myPartNo l s) d = none →
          exec (.lcancel d a w) s = writes w [a] d (if l.disp = 0 then 0 else 1) (cancelLaunch s.myPartNo l s)))) ∧
    (∀ (p : Nat), (s.part p).state = 1 → ∀ l first, pickGroup s (s.part p) = some (l, first) →
      exec (.groupPlacement p) s = .next (placeGroup p l first s) ∧ l ∈ (s.part p).launches ∧ l.dispatched = false ∧
      depMet (s.part p) l.dep0 l.on0 = true ∧ depMet (s.part p) l.dep1 l.on1 = true ∧ chooseBlock s (s.part p) l = some first ∧
      (queued (s.part p) l.prio).head? = some l ∧ (∀ prio < l.prio, pickFrom s (s.part p) (queued (s.part p) prio) = .next)) ∧
    (∀ (p : Nat), pickGroup s (s.part p) = none → exec (.groupPlacement p) s = .next s) ∧
    (∀ (p : Nat) (l : Launch) (first core : Nat), ∃ g, ((placeOn p l first core s).core core).group = some g ∧ g.part = p ∧ g.launch = l.id ∧
      g.index = l.disp ∧ g.started = false ∧ g.kept = reservedLines (s.part p) core) ∧
    (∀ (core : Nat) (g : GroupRef) (l : Launch), (s.core core).group = some g → launchOf (s.part g.part) g.launch = some l →
      ((g.started = true ∨ (s.part g.part).state ≠ 1 ∨ coreQuiet s core = false) → exec (.groupStart core) s = .next s) ∧
      (g.started = false → (s.part g.part).state = 1 → coreQuiet s core = true →
        ∃ t, exec (.groupStart core) s = .next t ∧
          let k := t.core core
          let c := k.ctx 0
          let sp := BitVec.ofNat 64 (512 * (spLines (s.core core).spsize - g.kept))
          k.group = some { g with started := true } ∧ k.startAt = s.cycle ∧ k.asid = l.asid ∧ k.ttab = l.ttab ∧
          k.grp = BitVec.ofNat 64 g.index ∧ k.ngrp = BitVec.ofNat 64 l.groups ∧ k.launch = l.id.setWidth 64 ∧
          k.dm = #v[l.id.setWidth 64, 0, 0, 0] ∧ k.qroute = Vector.replicate 4 0 ∧
          c.live = true ∧ c.pc = l.entry ∧ c.enter = true ∧ c.priv = 0 ∧ c.tvec = l.tvec ∧ c.sbase = sp ∧
          c.slim = BitVec.ofNat 64 (512 * l.lines) ∧ c.reg 3 = l.args ∧ c.reg 4 = BitVec.ofNat 64 g.index ∧
          c.reg 5 = BitVec.ofNat 64 l.groups ∧ c.reg 6 = BitVec.ofNat 64 (core - g.first) ∧ c.reg 27 = sp ∧ c.poison = 0 ∧
          (∀ r : Reg, r ≠ 3 → r ≠ 4 → r ≠ 5 → r ≠ 6 → r ≠ 27 → r.toNat < 28 → c.reg r = 0)))

/-- CREATE of a FREE partition with a legal range, free clusters and a save area clears its clusters and makes it RUNNING with its registers at their
reset values and nothing launched; SWITCH sets the stop time of a running partition and stops a halted one; RESUME of a saved one makes it RESTORING;
CONT of a halted one makes it RUNNING, with GANGSTOP where GS asks for it; KILL ends its groups, launches and tenures; DESTROY frees its clusters;
SVCSTART starts the service context; LAUNCH queues a launch or is refused with ERR 5 and the reason in LRES, and keeps commands out while a tenure or
a peer's copy holds a line that it reads. Every other command is refused with its code and changes nothing else. (That an accepted command leaves ERR,
that ERR is 1 while a SWITCH is pending or SVCSTART names a core outside the partition and 2 for a RESUME out of range is the model's choice: log
entry 38.) TSLICE_EXPIRY requests a yield, FORCED_SWITCH_STOP stops the partition at its time, SAVE_DONE makes it SAVED and signals, RESTORE_DONE
makes it RUNNING again, both once no peer holds a copy of a line of the save area against them (the model's reading, log entry 36), SOFT_ERROR stops
it with reason 0; CROSS_TRIGGER_HALT halts a cluster, or with its second operand, the model's form of the external debugger's request for the curtain
tree (log entry 39), stops the partition where a token has opened it, and DEBUG_RESUME lets a cluster go on. (R375, R376, R377, R378, R386, R389,
R392, R393, R396, R397) -/
def Obligations.PartitionCommandsAndSwitching : Prop :=
  ∀ (p : Nat) (s : State), p < 64 →
    let q := s.part p
    let no := fun (code : BitVec 4) => Host.Outcome.next (refuse p code s)
    let busy := commandBusy q
    (∀ code, ((refuse p code s).part p) = { q with err := code }) ∧
    (exec (.create p) s = if q.state ≠ 0 then no 1 else if rangeOk q = false then no 2 else if clustersFree s p = false then no 3
      else if q.save = 0 then no 4 else .next ((clearClusters q s).setPart p (createdPart q s.ticks))) ∧
    (let n := createdPart q s.ticks;
      n.state = 1 ∧ n.base = q.base ∧ n.len = q.len ∧ n.save = q.save ∧ n.launches = [] ∧ n.issued = 0 ∧ n.pointer = 0 ∧ n.tenures = [] ∧
      n.scopecap = Part.reset.scopecap ∧ n.tsoff = 0) ∧
    (busy = true → exec (.switch p) s = no 1) ∧
    (busy = false → q.state = 1 →
      exec (.switch p) s = .next (s.setPart p { q with switchAt := some (max q.swt.toNat (s.ticks + 200)) })) ∧
    (busy = false → q.state = 5 → ∃ t, exec (.switch p) s = .next t ∧ (t.part p).state = 2) ∧
    (busy = false → q.state ≠ 1 → q.state ≠ 5 → exec (.switch p) s = no 1) ∧
    (exec (.resume p) s = if q.state ≠ 3 then no 1 else if q.len ≠ q.savedLen ∨ rangeOk q = false then no 2
      else if clustersFree s p = false then no 3 else .next ((clearClusters q s).setPart p { q with state := 4 })) ∧
    (clustersFree s p = true → ∀ i < 64, i ≠ p → (s.part i).state ≠ 0 →
      q.base.toNat + q.len.toNat ≤ (s.part i).base.toNat ∨ (s.part i).base.toNat + (s.part i).len.toNat ≤ q.base.toNat) ∧
    (∀ gs : Bool, ((q.state ≠ 5 ∨ busy = true ∨ (q.reason = 0 ∧ groupsRun q = true)) → exec (.cont p gs) s = no 1) ∧
      (q.state = 5 → busy = false → (q.reason ≠ 0 ∨ groupsRun q = false) →
        let t := s.setPart p { q with state := 1 }
        exec (.cont p gs) s = .next (if gs then (partCores t p).foldl (raiseGangstop q.reason) t else t))) ∧
    ((busy = true ∨ (q.state ≠ 1 ∧ q.state ≠ 3 ∧ q.state ≠ 5)) → exec (.kill p) s = no 1) ∧
    (busy = false → (q.state = 1 ∨ q.state = 5) → exec (.kill p) s = .next (killPart p s)) ∧
    (busy = false → q.state = 3 → exec (.kill p) s = .next ((coresOf (killPart p s) p).foldl (savedRegs p) (killPart p s))) ∧
    (let k := (killPart p s).part p;
      k.tenures = [] ∧ k.tenReqs = [] ∧ ∀ l ∈ k.launches, l.running = 0 ∧ l.dispatched = true) ∧
    ((busy = true ∨ groupsRun q = true) → exec (.destroy p) s = no 1) ∧
    (busy = false → q.state = 0 → groupsRun q = false → exec (.destroy p) s = .next s) ∧
    (busy = false → q.state ≠ 0 → groupsRun q = false → ∃ t, exec (.destroy p) s = .next t ∧ (t.part p).state = 0 ∧
      (t.part p).launches = [] ∧ (t.part p).tiles = [] ∧ (∀ c ∈ t.cores, c.1 ∉ coresOf s p)) ∧
    (let i := (q.svccore.extractLsb' 16 4).toNat
      let rel := (q.svccore.extractLsb' 0 15).toNat
      let core := q.coreNo rel;
      ((q.state ≠ 1 ∨ busy = true ∨ i = 0 ∨ 16 * q.len.toNat ≤ rel ∨ ((s.core core).ctx i).live = true) → exec (.svcstart p) s = no 1) ∧
      (q.state = 1 → busy = false → i ≠ 0 → rel < 16 * q.len.toNat → ((s.core core).ctx i).live = false →
        let x := serviceCtx q (s.core core) i s.cycle
        let sp := BitVec.ofNat 64 (512 * spLines (s.core core).spsize)
        exec (.svcstart p) s = .next (s.setCtx ⟨core, i⟩ x) ∧ x.live = true ∧ x.service = true ∧ x.priv = 1 ∧ x.pc = q.svcpc ∧ x.reg 3 = 0 ∧
        x.reg 27 = sp ∧ x.sbase = sp ∧ x.slim = sp - BitVec.ofNat 64 (512 * (q.svccore.extractLsb' 20 9).toNat) ∧ x.tvec = 0)) ∧
    (exec (.launch p) s = exec (.launch p) (s.setPart p { q with launching := false })) ∧
    (q.launching = false → (q.state ≠ 1 ∨ busy = true) → exec (.launch p) s = no 1) ∧
    (let waits := ∃ t, exec (.launch p) s = .next t ∧ (t.part p).launching = true ∧ (t.part p).launches = q.launches ∧ (t.part p).err = q.err ∧
        (t.part p).issued = q.issued ∧ t.mem = s.mem
     q.state = 1 → busy = false →
      (q.ldesc.toNat % 64 ≠ 0 → exec (.launch p) s = .next (launchRefused p 0 0x09 s)) ∧
      (q.ldesc.toNat % 64 = 0 →
        (∀ f, launchRead p s q.ldesc 64 = .fault f → exec (.launch p) s = .next (launchRefused p 0 f s)) ∧
        (∀ a, launchRead p s q.ldesc 64 = .wait a → waits) ∧
        (∀ desc u, launchRead p s q.ldesc 64 = .ok desc u →
          let r := u.part p
          let l := launchFrom desc [] (nextLaunchId r.issued) (r.issued + 1) r.lasid r.lttab r.ltvec
          (∀ code, launchBad r desc l = some code → exec (.launch p) s = .next (launchRefused p code 0 u)) ∧
          (launchBad r desc l = none →
            (l.pinned = false → exec (.launch p) s = .next (launchQueue p l u)) ∧
            (l.pinned = true → (∀ v t, launchRun p (4 * l.groups / 64 + 2) (placeVa desc) (4 * l.groups) u = .ok v t →
                exec (.launch p) s = .next (launchQueue p { l with place := placeList v l.groups } t)) ∧
              (∀ a, launchRun p (4 * l.groups / 64 + 2) (placeVa desc) (4 * l.groups) u = .wait a → waits)))))) ∧
    (∀ l, (∀ code, placeBad q l = some code → launchQueue p l s = launchRefused p code 0 s) ∧
      (placeBad q l = none → queueFull q = true → launchQueue p l s = refuse p 1 s) ∧
      (placeBad q l = none → queueFull q = false → let t := (launchQueue p l s).part p
        t.launches = q.launches ++ [{ l with on0 := predOf q l.dep0 l.pred0, on1 := predOf q l.dep1 l.pred1 }] ∧ t.issued = q.issued + 1 ∧ t.lres = l.id.setWidth 64)) ∧
    (∀ code f, code < 256 → f < 256 → let t := (launchRefused p code f s).part p
      t.err = 5 ∧ t.lres.extractLsb' 0 32 = q.lres.extractLsb' 0 32 ∧ (t.lres.extractLsb' 32 8).toNat = code ∧
      (t.lres.extractLsb' 40 8).toNat = f ∧ t.launches = q.launches ∧ t.issued = q.issued) ∧
    (q.state = 1 → q.tslice ≠ 0 → q.sliced = false → q.sliceAt + q.tslice.toNat ≤ s.ticks →
      exec (.tsliceExpiry p) s = .next (s.setPart p { q with yieldreq := true, sliced := true })) ∧
    (∀ t, q.switchAt = some t → t ≤ s.ticks → (q.state = 1 ∨ q.state = 2 ∨ q.state = 5) →
      ∃ u, exec (.forcedSwitchStop p) s = .next u ∧ (u.part p).state = 2 ∧ (u.part p).switchAt = none ∧ (u.part p).tenReqs = [] ∧
        (q.state ≠ 2 → (u.part p).stopAt = t)) ∧
    (let inArea := fun (d : PeerCopy) => q.save.toNat < 64 * d.line + 64 ∧ 64 * d.line < saveEnd q
     let asks := fun (i : Instr) (alone : Bool) => (∃ d ∈ s.peerDir, inArea d ∧ (alone = true ∨ d.owned = true)) →
       ∃ t, exec i s = .next t ∧ (t.part p).state = q.state ∧ t.mem = s.mem ∧ t.cores = s.cores ∧
         (∀ d ∈ t.peerDir, inArea d → (alone = true ∨ d.owned = true) → d.till.isSome = true)
     (q.state = 2 → q.switchAt = none → settled s p = true → asks (.saveDone p) true) ∧ (q.state = 4 → asks (.restoreDone p) false)) ∧
    (q.state = 2 → q.switchAt = none → settled s p = true → (∀ d ∈ s.peerDir, ¬ (q.save.toNat < 64 * d.line + 64 ∧ 64 * d.line < saveEnd q)) →
      ∃ t, exec (.saveDone p) s = .next t ∧ (t.part p).state = 3 ∧ (t.part p).savedLen = q.len ∧ t.msi = s.msi ++ [(0, p)]) ∧
    (q.state = 4 → (∀ d ∈ s.peerDir, d.owned = true → ¬ (q.save.toNat < 64 * d.line + 64 ∧ 64 * d.line < saveEnd q)) →
      ∃ t, exec (.restoreDone p) s = .next t ∧ (t.part p).state = 1 ∧ (t.part p).sliceAt = s.ticks ∧ (t.part p).sliced = false) ∧
    (∀ core < 25600, partRuns s core = true → let r := rankOf core
      exec (.softError core) s =
        .next (curtainStop (s.partOfRank r) 0 (s.setCluster r { s.cluster r with dcore := BitVec.ofNat 4 (core % 16) }))) ∧
    (∀ rank, ∃ t, exec (.crossTriggerHalt ⟨rank, false⟩) s = .next t ∧ (t.cluster rank).halted = true ∧ (t.cluster rank).cause = 1) ∧
    (∀ rank, exec (.crossTriggerHalt ⟨rank, true⟩) s = .next (if debugOpen s rank = true ∧ (s.part (s.partOfRank rank)).owns rank = true then
      curtainStop (s.partOfRank rank) 1 s else s)) ∧
    (∀ rank, ∃ t, exec (.debugResume rank) s = .next t ∧ (t.cluster rank).halted = false ∧
      (∀ n < 25600, rankOf n = rank → (t.core n).halted = false))

/-- GO starts a turn or is refused with its code in RESULT; TURN_DRAIN, TURN_RETRAIN, TURN_MAP and TURN_ACTIVE take it through its
phases: the departing links go down once what was under way over them is done (the model's reading, log entry 44), the arriving ones come up but for
those that failed, and at the end each group that trained
has its new personality and RESULT tells 0, 3 or 4. FABRIC_TIMEOUT answers a request that has waited for cr.fabto with poison,
here, so that no delay counts for it.
PEER_REQUEST is served through its export, where no copy of another peer stands against it, and waits for those that do; a peer that gives up its copy
leaves the directory. FANOUT_TIMEOUT severs a peer whose time to answer is over, takes it out of the directory, sends SEVERED and serves what waited;
SEVERED discards the lines homed at a peer, counts the dirty ones and answers with FLUSHED, and FLUSHED
clears the peer's bit (that the notice is sent in the step that severs is the model's reading, log entry 45); LINK_DOWN and LINK_UP set a group's link,
and FABID.NORFEL follows as a link comes up (the model's choice, log entry 70). A message lands in its ring; one for no ring is dropped (the model's reading, log entry
43). A function-level reset kills a running partition and awaits its responses; TAG_REVIVE, when they are in or cr.fabto is over, answers what is left
with poison and makes the function's tag dead for 2 × cr.fabto, and then revives it (the model's reading of the two times, log entry 42). (R422, R424,
R425, R428, R433, R438, R439, R444, R445) -/
def Obligations.FabricTurnsAndPeers : Prop :=
  ∀ s : State,
    let f := s.fabric
    (f.state ≠ 0 → exec .kaleidoscopeTurn s = .next { s with fabric := { f with result := 1 } }) ∧
    (f.state = 0 → ∀ code, turnRefusal f = some code → exec .kaleidoscopeTurn s = .next { s with fabric := { f with result := code } }) ∧
    (f.state = 0 → turnRefusal f = none → ∃ t, exec .kaleidoscopeTurn s = .next t ∧ t.fabric = { f with state := 1, goAt := s.cycle }) ∧
    (f.state = 1 → exec .turnDrain s = .next { s with fabric := { f with state := 2 } }) ∧
    (f.state = 2 → (farUnderWay s = true ∨ linkUnderWay s = true) → exec .turnRetrain s = .next s) ∧
    (f.state = 2 → farUnderWay s = false → linkUnderWay s = false →
      ∃ t, exec .turnRetrain s = .next t ∧ t.fabric.state = 3 ∧ (∀ n < 48, (t.fabric.edge n).up = (!f.turns n && (f.edge n).up))) ∧
    (f.state = 3 → ∀ failed : BitVec 48, ∃ t, exec (.turnMap failed) s = .next t ∧ t.fabric.state = 4 ∧
      (∀ n < 48, let arrives := f.turns n && (f.edge n).next != 0
        t.fabric.failed.getLsbD n = (arrives && failed.getLsbD n) ∧
        (t.fabric.edge n).up = if arrives then !failed.getLsbD n else (f.edge n).up)) ∧
    (f.state = 4 → ∃ t, exec .turnActive s = .next t ∧ t.fabric.state = 0 ∧
      t.fabric.result = (if f.failed ≠ 0 then 3 else if (installed f).2 then 4 else 0) ∧ t.fabric.ranges = (installed f).1 ∧
      (∀ n < 48, (t.fabric.edge n).pers = if f.turns n = false then (f.edge n).pers else if leftOff f n then 0 else (f.edge n).next)) ∧
    (∀ (n : Nat) (q : Req), s.req n = some q → leftPackage s q = true → q.issuedAt + fabricCycles (s.part q.part) ≤ s.cycle →
      (∀ pa l, q.loc = .mem pa l → exec (.fabricTimeout n) s = .next (performedReq q 0 true false s)) ∧
      (∀ k e r a v c, q.loc = .peer k e r a v c → exec (.fabricTimeout n) s = .next (answeredHere q s))) ∧
    (∀ (src exp ra : Nat) (op : PeerOp) (value expected : Word), (∀ data, op ≠ .gone data) →
      let lines := (exportAddr s src exp ra op).elim [] (fun pa => linesOf (.mem pa []) (peerSize op))
      let stands := ∃ l ∈ lines, ∃ d ∈ s.peerDir, d.against l (peerAlone op) = true ∧ ¬ (d.peer = src ∧ (op = .own ∨ op = .cached))
      (¬ stands → exec (.peerRequest src exp ra op value expected) s = .next (servePeer s src exp ra op value expected none).1) ∧
      (stands → ∃ t, exec (.peerRequest src exp ra op value expected) s = .next t ∧
        t.peerWaits = s.peerWaits ++ [⟨src, exp, ra, op, value, expected⟩] ∧ t.mem = s.mem ∧
        (∀ d ∈ t.peerDir, ∃ e ∈ s.peerDir, d.peer = e.peer ∧ d.line = e.line) ∧
        (∀ d ∈ t.peerDir, d.line ∈ lines → d.against d.line (peerAlone op) = true → d.till.isSome = true))) ∧
    (∀ (src exp ra : Nat) (value expected : Word), s.peerWaits = [] →
      (s.devWaits = [] → exec (.peerRequest src exp ra (.gone none) value expected) s =
        .next { s with peerDir := s.peerDir.filter (fun d => !(d.peer == src && d.line == (exportBase s exp + ra) / 64)) }) ∧
      (∀ o, s.devWaits = [o] → s.peerDir ≠ [] → (∀ d ∈ s.peerDir, d.peer = src ∧ d.line = (exportBase s exp + ra) / 64) →
        exec (.peerRequest src exp ra (.gone none) value expected) s = .next (o.run { s with peerDir := [], devWaits := [] }))) ∧
    (∀ peer < 1024, ((∃ d ∈ s.peerDir, d.peer = peer ∧ ∃ t, d.till = some t ∧ t ≤ s.cycle) → s.peerWaits = [] → s.devWaits = [] →
        exec (.fanoutTimeout peer) s = .next { s with
          fabric := { f with sevmask := f.sevmask ||| (1#1024 <<< peer) }
          peerDir := s.peerDir.filter (fun d => d.peer != peer)
          notices := s.notices ++ [.severed peer] }) ∧
      ((∀ d ∈ s.peerDir, d.peer = peer → ∀ t, d.till = some t → s.cycle < t) → exec (.fanoutTimeout peer) s = .next s)) ∧
    (∀ (waits : List PeerWait) (u : State), servePeerWaits { u with peerWaits := waits } = waits.foldl arrivePeer { u with peerWaits := [] }) ∧
    (∀ peer, ∃ t, exec (.severed peer) s = .next t ∧ t.notices = s.notices ++ [.flushed peer] ∧ (∀ c ∈ t.cores, ∀ e ∈ c.2.l1, homedAt peer e.line = false) ∧
      (∀ c ∈ t.far, homedAt peer c.line = false) ∧ (t.fabric.sevlost - f.sevlost).toNat % 2 ^ 64 =
        ((s.cores.flatMap (fun c => (c.2.l1.filter (fun e => homedAt peer e.line && e.dirty)).map (fun e => e.line)) ++
          (s.far.filter (fun c => homedAt peer c.line && c.owned)).map (fun c => c.line)).eraseDups).length % 2 ^ 64) ∧
    (∀ peer, exec (.flushed peer) s = .next { s with fabric := { f with sevmask := f.sevmask &&& ~~~(1#1024 <<< peer) } }) ∧
    (∀ n < 48, (f.state = 0 ∨ f.turns n = false) → (n < 2 ∨ (f.edge n).pers ≠ 0) →
      let linked := fun (up : Bool) => { f with edges := f.edges.setIfInBounds n { f.edge n with up := up } }
      exec (.linkDown n) s = .next { s with fabric := linked false } ∧ exec (.linkUp n) s = .next { s with fabric := seeSwitches (linked true) }) ∧
    (∀ (p job ring : Nat) (source : BitVec 128) (data : List Byte), p < 64 → 0 < data.length → data.length ≤ 1048576 →
      let lands := homeAnswers (.landing p job ring source data) (.messageLanding p job ring source data)
      (ringOf s p ring = none → lands s s) ∧
      (∀ r, ringOf s p ring = some r → lands (if r.job = job % 2 ^ 24 then putWrites (landWrites r source data s) s else s) s)) ∧
    (∀ vf p, boundPart s vf = some p → let u := if (s.part p).state = 1 then killPart p s else s
      exec (.vfFlr vf) s = .next { u with
        deadTags := u.deadTags.filter (fun d => d.vf != vf) ++ [⟨vf, p, true, u.cycle + fabricCycles (u.part p)⟩] }) ∧
    (∀ vf, boundPart s vf = none → exec (.vfFlr vf) s = .next s) ∧
    (∀ vf d, s.deadTags.find? (fun d => d.vf == vf) = some d →
      (d.awaits = true → (outstanding d.part s = [] ∨ d.till ≤ s.cycle) → let u := dropPeerReqs d.part s
        exec (.tagRevive vf) s = .next { u with
          deadTags := u.deadTags.filter (fun e => e.vf != vf) ++ [⟨d.vf, d.part, false, s.cycle + 2 * fabricCycles (s.part d.part)⟩] }) ∧
      (d.awaits = true → outstanding d.part s ≠ [] → s.cycle < d.till → exec (.tagRevive vf) s = .next s) ∧
      (d.awaits = false → d.till ≤ s.cycle → exec (.tagRevive vf) s = .next { s with deadTags := s.deadTags.filter (fun e => e.vf != vf) }) ∧
      (d.awaits = false → s.cycle < d.till → exec (.tagRevive vf) s = .next s)) ∧
    (∀ p : Nat, dropPeerReqs p s = (outstanding p s).foldl (fun s q => answeredHere q s) s)

/-- The host reads and writes through BAR4, BAR0 and the mailbox while the boot has not stopped (that BAR0 takes
the addresses of the register region is the model's reading: log entry 48). POWER_GRANT_EPOCH, once a microsecond, throttles in the next one a cluster
that is
hot or used more than its grant and all that was left over, and not one that kept within its grant (who takes what of the left over is the model's
choice: log entry 46). A stage of the boot whose signature verifies is
measured, any other stops the boot; a report carries nonce, measurements, serial and signature; a token opens its scope where it
is valid, and a new nonce is drawn. (The numbers of the keys, the byte order of a digest, SHA-256 and RSA, which the spec names and does not define, and
the places of the parts of a token are the model's: log entry 47.) (R398, R399, R411, R412, R413, R414, R415, R423) -/
def Obligations.HostSecurityAndPower : Prop :=
  ∀ s : State,
    let f := s.fabric
    let x := s.security
    (∀ (vf off size : Nat) (v : Word),
      let shown := fun (r : Nat × State) => ({ r.2 with hostRead := BitVec.ofNat 64 r.1 } : State)
      let shows := fun (r : Nat × State) => (Host.Outcome.next (shown r) : Out)
      ((x.stopped = true ∨ 2 ^ 36 < off + size) → exec (.hostBar4Write ⟨4, vf, off⟩ size v) s = .next s ∧
        exec (.hostBar4Write ⟨0, vf, off⟩ size v) s = .next s ∧ exec (.hostBar4Read ⟨4, vf, off⟩ size) s = shows (0, s)) ∧
      (x.stopped = true → exec (.hostBar4Read ⟨2, vf, off⟩ size) s = shows (0, s)) ∧
      (x.stopped = false → off + size ≤ 2 ^ 36 →
        homeAnswers (.write (f.hwin.toNat + off) size v) (.hostBar4Write ⟨4, vf, off⟩ size v) (hostWrite (f.hwin.toNat + off) size v s) s ∧
        exec (.hostBar4Write ⟨0, vf, off⟩ size v) s = .next (bar0Write (0xF0000000000 + off) size v s) ∧
        homeAnswers (.read (f.hwin.toNat + off) size) (.hostBar4Read ⟨4, vf, off⟩ size) (shown (hostReadAt (f.hwin.toNat + off) size s)) s ∧
        exec (.hostBar4Read ⟨0, vf, off⟩ size) s = shows (bar0Read (min size 8) (0xF0000000000 + off) s)) ∧
      (x.stopped = false → (boundPart s vf = none → exec (.hostBar4Read ⟨2, vf, off⟩ size) s = shows (0, s)) ∧
        (∀ p, boundPart s vf = some p → (4096 ≤ off → exec (.hostBar4Read ⟨2, vf, off⟩ size) s = shows (0, s)) ∧
          (off < 4096 → homeAnswers (.read ((s.part p).mbox.toNat + off) (min size (4096 - off))) (.hostBar4Read ⟨2, vf, off⟩ size)
            (shown (hostReadAt ((s.part p).mbox.toNat + off) (min size (4096 - off)) s)) s)))) ∧
    (∀ (vf p off size : Nat) (v : Word), boundPart s vf = some p →
      let at_ := (s.part p).mbox.toNat + off
      let n := min size (4096 - off)
      let t := hostWrite at_ n v s
      let q := t.part p
      let core := q.coreNo (q.svccore.extractLsb' 0 15).toNat
      ((4096 ≤ off ∨ x.stopped = true) → exec (.mailboxHostWrite vf off size v) s = .next s) ∧
      (off < 4096 → x.stopped = false →
        homeAnswers (.mailbox p at_ n v) (.mailboxHostWrite vf off size v) (if q.owns (rankOf core) then pulse core 15 t else t) s)) ∧
    (∀ (used : List (Nat × List Nat)) (hot : List Nat),
      (s.ticks < 1000 * (s.epochs + 1) → exec (.powerGrantEpoch used hot) s = .next s) ∧
      (1000 * (s.epochs + 1) ≤ s.ticks → ∀ p rank, p < 64 → (s.part p).owns rank = true → (∀ r < 64, (s.part r).owns rank = true → r = p) →
        let grant := fun (i : Nat) => 1000 * (modeBudget (s.part p).pwmode)[i]?.getD 0
        let use := fun (i : Nat) => 1600 * (tget used rank [])[i]?.getD 0
        ∃ t, exec (.powerGrantEpoch used hot) s = .next t ∧ t.epochs = s.epochs + 1 ∧ (t.cluster rank).thr = (s.cluster rank).slowed ∧
          (∀ i < 5, (t.cluster rank).spare[i]?.getD 0 = grant i - use i) ∧
          ((∀ i < 5, use i ≤ grant i) → rank ∉ hot → (t.cluster rank).slowed = false) ∧
          (rank ∈ hot → (t.cluster rank).slowed = true) ∧
          (∀ i < 5, grant i + sparePool s (s.part p) i < use i → (t.cluster rank).slowed = true))) ∧
    (∀ (image : List Byte) (sig : BitVec 3072),
      let stage := fun (i : Instr) (key : Nat) =>
        (Config.rsaVerify key (digest image) sig = false → exec i s = .next { s with security := { x with stopped := true } }) ∧
        (Config.rsaVerify key (digest image) sig = true → exec i s = .next { s with security := { x with
          stages := x.stages + 1
          meas := x.meas.setIfInBounds x.stages (digest (bytes256 (x.meas[x.stages]?.getD 0) ++ bytes256 (digest image))) } })
      (x.stopped = false → x.stages = 0 → stage (.boot image sig) 0) ∧
      (x.stopped = false → 1 ≤ x.stages → x.stages < 8 → stage (.stageVerify image sig) x.stages) ∧
      (x.stopped = true → exec (.boot image sig) s = .next s ∧ exec (.stageVerify image sig) s = .next s)) ∧
    (exec .attestationRequest s = .next { s with security := { x with busy := true } }) ∧
    (x.busy = true → exec .attestationReportReady s = .next { s with security := { x with
      busy := false
      report := reportBody x ++ (List.range 384).map (fun i => (Config.rsaSign (digest (reportBody x))).extractLsb' (8 * i) 8) } }) ∧
    (∀ token : List Byte, ∃ t, exec (.debugUnlockToken token) s = .next t ∧ t.security.draws = x.draws + 1 ∧
      t.security.opened = (if tokenValid x token then x.opened ||| tokenScope token else x.opened))
end

