-- ==== Sys2Proof/Laws/Dispatch.lean ====
section
/-!
SUPPORT. What `exec` calls for each row, one equation for each.
-/

set_option Elab.async false

namespace Sys2Proof.Machine

open Sys2Proof

theorem exec_add (d : Reg) (a : Reg) (b : Reg) (w : BitVec 3) (s : State) : exec (.add d a b w) s = execAdd d a b w s := rfl
theorem exec_sub (d : Reg) (a : Reg) (b : Reg) (w : BitVec 3) (s : State) : exec (.sub d a b w) s = execSub d a b w s := rfl
theorem exec_and (d : Reg) (a : Reg) (b : Reg) (w : BitVec 3) (s : State) : exec (.and d a b w) s = execAnd d a b w s := rfl
theorem exec_or (d : Reg) (a : Reg) (b : Reg) (w : BitVec 3) (s : State) : exec (.or d a b w) s = execOr d a b w s := rfl
theorem exec_xor (d : Reg) (a : Reg) (b : Reg) (w : BitVec 3) (s : State) : exec (.xor d a b w) s = execXor d a b w s := rfl
theorem exec_andn (d : Reg) (a : Reg) (b : Reg) (w : BitVec 3) (s : State) : exec (.andn d a b w) s = execAndn d a b w s := rfl
theorem exec_shl (d : Reg) (a : Reg) (b : Reg) (w : BitVec 3) (s : State) : exec (.shl d a b w) s = execShl d a b w s := rfl
theorem exec_shr (d : Reg) (a : Reg) (b : Reg) (w : BitVec 3) (s : State) : exec (.shr d a b w) s = execShr d a b w s := rfl
theorem exec_sar (d : Reg) (a : Reg) (b : Reg) (w : BitVec 3) (s : State) : exec (.sar d a b w) s = execSar d a b w s := rfl
theorem exec_rol (d : Reg) (a : Reg) (b : Reg) (w : BitVec 3) (s : State) : exec (.rol d a b w) s = execRol d a b w s := rfl
theorem exec_ror (d : Reg) (a : Reg) (b : Reg) (w : BitVec 3) (s : State) : exec (.ror d a b w) s = execRor d a b w s := rfl
theorem exec_slt (d : Reg) (a : Reg) (b : Reg) (w : BitVec 3) (s : State) : exec (.slt d a b w) s = execSlt d a b w s := rfl
theorem exec_sltu (d : Reg) (a : Reg) (b : Reg) (w : BitVec 3) (s : State) : exec (.sltu d a b w) s = execSltu d a b w s := rfl
theorem exec_seq (d : Reg) (a : Reg) (b : Reg) (w : BitVec 3) (s : State) : exec (.seq d a b w) s = execSeq d a b w s := rfl
theorem exec_min (d : Reg) (a : Reg) (b : Reg) (w : BitVec 3) (s : State) : exec (.min d a b w) s = execMin d a b w s := rfl
theorem exec_max (d : Reg) (a : Reg) (b : Reg) (w : BitVec 3) (s : State) : exec (.max d a b w) s = execMax d a b w s := rfl
theorem exec_minu (d : Reg) (a : Reg) (b : Reg) (w : BitVec 3) (s : State) : exec (.minu d a b w) s = execMinu d a b w s := rfl
theorem exec_maxu (d : Reg) (a : Reg) (b : Reg) (w : BitVec 3) (s : State) : exec (.maxu d a b w) s = execMaxu d a b w s := rfl
theorem exec_mul (d : Reg) (a : Reg) (b : Reg) (w : BitVec 3) (s : State) : exec (.mul d a b w) s = execMul d a b w s := rfl
theorem exec_mulh (d : Reg) (a : Reg) (b : Reg) (w : BitVec 3) (s : State) : exec (.mulh d a b w) s = execMulh d a b w s := rfl
theorem exec_mulhu (d : Reg) (a : Reg) (b : Reg) (w : BitVec 3) (s : State) : exec (.mulhu d a b w) s = execMulhu d a b w s := rfl
theorem exec_div (d : Reg) (a : Reg) (b : Reg) (w : BitVec 3) (s : State) : exec (.div d a b w) s = execDiv d a b w s := rfl
theorem exec_divu (d : Reg) (a : Reg) (b : Reg) (w : BitVec 3) (s : State) : exec (.divu d a b w) s = execDivu d a b w s := rfl
theorem exec_rem (d : Reg) (a : Reg) (b : Reg) (w : BitVec 3) (s : State) : exec (.rem d a b w) s = execRem d a b w s := rfl
theorem exec_remu (d : Reg) (a : Reg) (b : Reg) (w : BitVec 3) (s : State) : exec (.remu d a b w) s = execRemu d a b w s := rfl
theorem exec_clz (d : Reg) (a : Reg) (w : BitVec 3) (s : State) : exec (.clz d a w) s = execClz d a w s := rfl
theorem exec_ctz (d : Reg) (a : Reg) (w : BitVec 3) (s : State) : exec (.ctz d a w) s = execCtz d a w s := rfl
theorem exec_popc (d : Reg) (a : Reg) (w : BitVec 3) (s : State) : exec (.popc d a w) s = execPopc d a w s := rfl
theorem exec_brev (d : Reg) (a : Reg) (w : BitVec 3) (s : State) : exec (.brev d a w) s = execBrev d a w s := rfl
theorem exec_sextB (d : Reg) (a : Reg) (w : BitVec 3) (s : State) : exec (.sextB d a w) s = execSextB d a w s := rfl
theorem exec_sextH (d : Reg) (a : Reg) (w : BitVec 3) (s : State) : exec (.sextH d a w) s = execSextH d a w s := rfl
theorem exec_sextW (d : Reg) (a : Reg) (w : BitVec 3) (s : State) : exec (.sextW d a w) s = execSextW d a w s := rfl
theorem exec_zextW (d : Reg) (a : Reg) (w : BitVec 3) (s : State) : exec (.zextW d a w) s = execZextW d a w s := rfl
theorem exec_sel (d : Reg) (a : Reg) (b : Reg) (w : BitVec 3) (s : State) : exec (.sel d a b w) s = execSel d a b w s := rfl
theorem exec_addw (d : Reg) (a : Reg) (b : Reg) (w : BitVec 3) (s : State) : exec (.addw d a b w) s = execAddw d a b w s := rfl
theorem exec_subw (d : Reg) (a : Reg) (b : Reg) (w : BitVec 3) (s : State) : exec (.subw d a b w) s = execSubw d a b w s := rfl
theorem exec_mulw (d : Reg) (a : Reg) (b : Reg) (w : BitVec 3) (s : State) : exec (.mulw d a b w) s = execMulw d a b w s := rfl
theorem exec_addi (d : Reg) (a : Reg) (i_ : BitVec 13) (w : BitVec 3) (s : State) : exec (.addi d a i_ w) s = execAddi d a i_ w s := rfl
theorem exec_andi (d : Reg) (a : Reg) (i_ : BitVec 13) (w : BitVec 3) (s : State) : exec (.andi d a i_ w) s = execAndi d a i_ w s := rfl
theorem exec_ori (d : Reg) (a : Reg) (i_ : BitVec 13) (w : BitVec 3) (s : State) : exec (.ori d a i_ w) s = execOri d a i_ w s := rfl
theorem exec_xori (d : Reg) (a : Reg) (i_ : BitVec 13) (w : BitVec 3) (s : State) : exec (.xori d a i_ w) s = execXori d a i_ w s := rfl
theorem exec_slti (d : Reg) (a : Reg) (i_ : BitVec 13) (w : BitVec 3) (s : State) : exec (.slti d a i_ w) s = execSlti d a i_ w s := rfl
theorem exec_sltiu (d : Reg) (a : Reg) (i_ : BitVec 13) (w : BitVec 3) (s : State) : exec (.sltiu d a i_ w) s = execSltiu d a i_ w s := rfl
theorem exec_shli (d : Reg) (a : Reg) (n : BitVec 6) (w : BitVec 3) (s : State) : exec (.shli d a n w) s = execShli d a n w s := rfl
theorem exec_shri (d : Reg) (a : Reg) (n : BitVec 6) (w : BitVec 3) (s : State) : exec (.shri d a n w) s = execShri d a n w s := rfl
theorem exec_sari (d : Reg) (a : Reg) (n : BitVec 6) (w : BitVec 3) (s : State) : exec (.sari d a n w) s = execSari d a n w s := rfl
theorem exec_roli (d : Reg) (a : Reg) (n : BitVec 6) (w : BitVec 3) (s : State) : exec (.roli d a n w) s = execRoli d a n w s := rfl
theorem exec_lui (d : Reg) (i_ : BitVec 18) (w : BitVec 3) (s : State) : exec (.lui d i_ w) s = execLui d i_ w s := rfl
theorem exec_adr (d : Reg) (i_ : BitVec 18) (w : BitVec 3) (s : State) : exec (.adr d i_ w) s = execAdr d i_ w s := rfl
theorem exec_extu (d : Reg) (a : Reg) (p : BitVec 6) (l : BitVec 5) (w : BitVec 3) (s : State) : exec (.extu d a p l w) s = execExtu d a p l w s := rfl
theorem exec_exts (d : Reg) (a : Reg) (p : BitVec 6) (l : BitVec 5) (w : BitVec 3) (s : State) : exec (.exts d a p l w) s = execExts d a p l w s := rfl
theorem exec_ins (d : Reg) (a : Reg) (p : BitVec 6) (l : BitVec 5) (w : BitVec 3) (s : State) : exec (.ins d a p l w) s = execIns d a p l w s := rfl
theorem exec_fadd (d : Reg) (a : Reg) (b : Reg) (w : BitVec 3) (s : State) : exec (.fadd d a b w) s = execFadd d a b w s := rfl
theorem exec_fsub (d : Reg) (a : Reg) (b : Reg) (w : BitVec 3) (s : State) : exec (.fsub d a b w) s = execFsub d a b w s := rfl
theorem exec_fmul (d : Reg) (a : Reg) (b : Reg) (w : BitVec 3) (s : State) : exec (.fmul d a b w) s = execFmul d a b w s := rfl
theorem exec_fma (d : Reg) (a : Reg) (b : Reg) (w : BitVec 3) (s : State) : exec (.fma d a b w) s = execFma d a b w s := rfl
theorem exec_fnma (d : Reg) (a : Reg) (b : Reg) (w : BitVec 3) (s : State) : exec (.fnma d a b w) s = execFnma d a b w s := rfl
theorem exec_fdiv (d : Reg) (a : Reg) (b : Reg) (w : BitVec 3) (s : State) : exec (.fdiv d a b w) s = execFdiv d a b w s := rfl
theorem exec_fsqrt (d : Reg) (a : Reg) (w : BitVec 3) (s : State) : exec (.fsqrt d a w) s = execFsqrt d a w s := rfl
theorem exec_fmin (d : Reg) (a : Reg) (b : Reg) (w : BitVec 3) (s : State) : exec (.fmin d a b w) s = execFmin d a b w s := rfl
theorem exec_fmax (d : Reg) (a : Reg) (b : Reg) (w : BitVec 3) (s : State) : exec (.fmax d a b w) s = execFmax d a b w s := rfl
theorem exec_feq (d : Reg) (a : Reg) (b : Reg) (w : BitVec 3) (s : State) : exec (.feq d a b w) s = execFeq d a b w s := rfl
theorem exec_flt (d : Reg) (a : Reg) (b : Reg) (w : BitVec 3) (s : State) : exec (.flt d a b w) s = execFlt d a b w s := rfl
theorem exec_fle (d : Reg) (a : Reg) (b : Reg) (w : BitVec 3) (s : State) : exec (.fle d a b w) s = execFle d a b w s := rfl
theorem exec_fclass (d : Reg) (a : Reg) (w : BitVec 3) (s : State) : exec (.fclass d a w) s = execFclass d a w s := rfl
theorem exec_fabs (d : Reg) (a : Reg) (w : BitVec 3) (s : State) : exec (.fabs d a w) s = execFabs d a w s := rfl
theorem exec_fneg (d : Reg) (a : Reg) (w : BitVec 3) (s : State) : exec (.fneg d a w) s = execFneg d a w s := rfl
theorem exec_cvtF32I64 (d : Reg) (a : Reg) (w : BitVec 3) (s : State) : exec (.cvtF32I64 d a w) s = execCvtF32I64 d a w s := rfl
theorem exec_cvtI64F32 (d : Reg) (a : Reg) (w : BitVec 3) (s : State) : exec (.cvtI64F32 d a w) s = execCvtI64F32 d a w s := rfl
theorem exec_cvtF32N64 (d : Reg) (a : Reg) (w : BitVec 3) (s : State) : exec (.cvtF32N64 d a w) s = execCvtF32N64 d a w s := rfl
theorem exec_cvtN64F32 (d : Reg) (a : Reg) (w : BitVec 3) (s : State) : exec (.cvtN64F32 d a w) s = execCvtN64F32 d a w s := rfl
theorem exec_cvtBf16F32 (d : Reg) (a : Reg) (w : BitVec 3) (s : State) : exec (.cvtBf16F32 d a w) s = execCvtBf16F32 d a w s := rfl
theorem exec_cvtF32Bf16 (d : Reg) (a : Reg) (w : BitVec 3) (s : State) : exec (.cvtF32Bf16 d a w) s = execCvtF32Bf16 d a w s := rfl
theorem exec_cvtE4m3F32 (d : Reg) (a : Reg) (w : BitVec 3) (s : State) : exec (.cvtE4m3F32 d a w) s = execCvtE4m3F32 d a w s := rfl
theorem exec_cvtF32E4m3 (d : Reg) (a : Reg) (w : BitVec 3) (s : State) : exec (.cvtF32E4m3 d a w) s = execCvtF32E4m3 d a w s := rfl
theorem exec_cvtE5m2F32 (d : Reg) (a : Reg) (w : BitVec 3) (s : State) : exec (.cvtE5m2F32 d a w) s = execCvtE5m2F32 d a w s := rfl
theorem exec_cvtF32E5m2 (d : Reg) (a : Reg) (w : BitVec 3) (s : State) : exec (.cvtF32E5m2 d a w) s = execCvtF32E5m2 d a w s := rfl
theorem exec_frnd (d : Reg) (a : Reg) (w : BitVec 3) (s : State) : exec (.frnd d a w) s = execFrnd d a w s := rfl
theorem exec_beq (a : Reg) (b : Reg) (o : BitVec 10) (w : BitVec 3) (s : State) : exec (.beq a b o w) s = execBeq a b o w s := rfl
theorem exec_bne (a : Reg) (b : Reg) (o : BitVec 10) (w : BitVec 3) (s : State) : exec (.bne a b o w) s = execBne a b o w s := rfl
theorem exec_blt (a : Reg) (b : Reg) (o : BitVec 10) (w : BitVec 3) (s : State) : exec (.blt a b o w) s = execBlt a b o w s := rfl
theorem exec_bge (a : Reg) (b : Reg) (o : BitVec 10) (w : BitVec 3) (s : State) : exec (.bge a b o w) s = execBge a b o w s := rfl
theorem exec_bltu (a : Reg) (b : Reg) (o : BitVec 10) (w : BitVec 3) (s : State) : exec (.bltu a b o w) s = execBltu a b o w s := rfl
theorem exec_bgeu (a : Reg) (b : Reg) (o : BitVec 10) (w : BitVec 3) (s : State) : exec (.bgeu a b o w) s = execBgeu a b o w s := rfl
theorem exec_j (o : BitVec 23) (w : BitVec 3) (s : State) : exec (.j o w) s = execJ o w s := rfl
theorem exec_call (o : BitVec 23) (w : BitVec 3) (s : State) : exec (.call o w) s = execCall o w s := rfl
theorem exec_jr (a : Reg) (w : BitVec 3) (s : State) : exec (.jr a w) s = execJr a w s := rfl
theorem exec_jalr (d : Reg) (a : Reg) (w : BitVec 3) (s : State) : exec (.jalr d a w) s = execJalr d a w s := rfl
theorem exec_callr (a : Reg) (w : BitVec 3) (s : State) : exec (.callr a w) s = execCallr a w s := rfl
theorem exec_ret (w : BitVec 3) (s : State) : exec (.ret w) s = execRet w s := rfl
theorem exec_fjmp (a : Reg) (w : BitVec 3) (s : State) : exec (.fjmp a w) s = execFjmp a w s := rfl
theorem exec_ld (d : Reg) (a : Reg) (o : BitVec 9) (s_ : BitVec 2) (t : BitVec 2) (w : BitVec 3) (s : State) : exec (.ld d a o s_ t w) s = execLd d a o s_ t w s := rfl
theorem exec_ldu (d : Reg) (a : Reg) (o : BitVec 9) (s_ : BitVec 2) (t : BitVec 2) (w : BitVec 3) (s : State) : exec (.ldu d a o s_ t w) s = execLdu d a o s_ t w s := rfl
theorem exec_st (d : Reg) (a : Reg) (o : BitVec 9) (s_ : BitVec 2) (t : BitVec 2) (w : BitVec 3) (s : State) : exec (.st d a o s_ t w) s = execSt d a o s_ t w s := rfl
theorem exec_lda (d : Reg) (a : Reg) (s_ : BitVec 3) (z : BitVec 1) (w : BitVec 3) (s : State) : exec (.lda d a s_ z w) s = execLda d a s_ z w s := rfl
theorem exec_strl (a : Reg) (b : Reg) (s_ : BitVec 3) (z : BitVec 1) (w : BitVec 3) (s : State) : exec (.strl a b s_ z w) s = execStrl a b s_ z w s := rfl
theorem exec_swap (d : Reg) (a : Reg) (b : Reg) (s_ : BitVec 3) (z : BitVec 1) (w : BitVec 3) (s : State) : exec (.swap d a b s_ z w) s = execSwap d a b s_ z w s := rfl
theorem exec_cas (d : Reg) (a : Reg) (b : Reg) (s_ : BitVec 3) (z : BitVec 1) (w : BitVec 3) (s : State) : exec (.cas d a b s_ z w) s = execCas d a b s_ z w s := rfl
theorem exec_atadd (d : Reg) (a : Reg) (b : Reg) (s_ : BitVec 3) (z : BitVec 1) (w : BitVec 3) (s : State) : exec (.atadd d a b s_ z w) s = execAtadd d a b s_ z w s := rfl
theorem exec_atand (d : Reg) (a : Reg) (b : Reg) (s_ : BitVec 3) (z : BitVec 1) (w : BitVec 3) (s : State) : exec (.atand d a b s_ z w) s = execAtand d a b s_ z w s := rfl
theorem exec_ator (d : Reg) (a : Reg) (b : Reg) (s_ : BitVec 3) (z : BitVec 1) (w : BitVec 3) (s : State) : exec (.ator d a b s_ z w) s = execAtor d a b s_ z w s := rfl
theorem exec_atxor (d : Reg) (a : Reg) (b : Reg) (s_ : BitVec 3) (z : BitVec 1) (w : BitVec 3) (s : State) : exec (.atxor d a b s_ z w) s = execAtxor d a b s_ z w s := rfl
theorem exec_atmin (d : Reg) (a : Reg) (b : Reg) (s_ : BitVec 3) (z : BitVec 1) (w : BitVec 3) (s : State) : exec (.atmin d a b s_ z w) s = execAtmin d a b s_ z w s := rfl
theorem exec_atmax (d : Reg) (a : Reg) (b : Reg) (s_ : BitVec 3) (z : BitVec 1) (w : BitVec 3) (s : State) : exec (.atmax d a b s_ z w) s = execAtmax d a b s_ z w s := rfl
theorem exec_atminn (d : Reg) (a : Reg) (b : Reg) (s_ : BitVec 3) (z : BitVec 1) (w : BitVec 3) (s : State) : exec (.atminn d a b s_ z w) s = execAtminn d a b s_ z w s := rfl
theorem exec_atmaxn (d : Reg) (a : Reg) (b : Reg) (s_ : BitVec 3) (z : BitVec 1) (w : BitVec 3) (s : State) : exec (.atmaxn d a b s_ z w) s = execAtmaxn d a b s_ z w s := rfl
theorem exec_atfadd (d : Reg) (a : Reg) (b : Reg) (s_ : BitVec 3) (w : BitVec 3) (s : State) : exec (.atfadd d a b s_ w) s = execAtfadd d a b s_ w s := rfl
theorem exec_atfmax (d : Reg) (a : Reg) (b : Reg) (s_ : BitVec 3) (w : BitVec 3) (s : State) : exec (.atfmax d a b s_ w) s = execAtfmax d a b s_ w s := rfl
theorem exec_ataddnr (a : Reg) (b : Reg) (s_ : BitVec 3) (z : BitVec 1) (w : BitVec 3) (s : State) : exec (.ataddnr a b s_ z w) s = execAtaddnr a b s_ z w s := rfl
theorem exec_sti (d : Reg) (a : Reg) (b : Reg) (z : BitVec 2) (s_ : BitVec 1) (r : BitVec 1) (w : BitVec 3) (s : State) : exec (.sti d a b z s_ r w) s = execSti d a b z s_ r w s := rfl
theorem exec_fenceFull (a : Reg) (b : Reg) (s_ : BitVec 3) (g : BitVec 1) (w : BitVec 3) (s : State) : exec (.fenceFull a b s_ g w) s = execFenceFull a b s_ g w s := rfl
theorem exec_fenceAcq (a : Reg) (b : Reg) (s_ : BitVec 3) (g : BitVec 1) (w : BitVec 3) (s : State) : exec (.fenceAcq a b s_ g w) s = execFenceAcq a b s_ g w s := rfl
theorem exec_fenceRel (a : Reg) (b : Reg) (s_ : BitVec 3) (g : BitVec 1) (w : BitVec 3) (s : State) : exec (.fenceRel a b s_ g w) s = execFenceRel a b s_ g w s := rfl
theorem exec_fenceEng (w : BitVec 3) (s : State) : exec (.fenceEng w) s = execFenceEng w s := rfl
theorem exec_vwpin (d : Reg) (a : Reg) (w : BitVec 3) (s : State) : exec (.vwpin d a w) s = execVwpin d a w s := rfl
theorem exec_vwset (d : Reg) (a : Reg) (b : Reg) (w : BitVec 3) (s : State) : exec (.vwset d a b w) s = execVwset d a b w s := rfl
theorem exec_vwclr (d : Reg) (a : Reg) (w : BitVec 3) (s : State) : exec (.vwclr d a w) s = execVwclr d a w s := rfl
theorem exec_vwget (d : Reg) (a : Reg) (w : BitVec 3) (s : State) : exec (.vwget d a w) s = execVwget d a w s := rfl
theorem exec_tlbiL (a : Reg) (w : BitVec 3) (s : State) : exec (.tlbiL a w) s = execTlbiL a w s := rfl
theorem exec_tlbiB (a : Reg) (b : Reg) (w : BitVec 3) (s : State) : exec (.tlbiB a b w) s = execTlbiB a b w s := rfl
theorem exec_publish (a : Reg) (w : BitVec 3) (s : State) : exec (.publish a w) s = execPublish a w s := rfl
theorem exec_probe (d : Reg) (a : Reg) (w : BitVec 3) (s : State) : exec (.probe d a w) s = execProbe d a w s := rfl
theorem exec_tileOpen (d : Reg) (a : Reg) (w : BitVec 3) (s : State) : exec (.tileOpen d a w) s = execTileOpen d a w s := rfl
theorem exec_tileClose (d : Reg) (a : Reg) (w : BitVec 3) (s : State) : exec (.tileClose d a w) s = execTileClose d a w s := rfl
theorem exec_tenR (a : Reg) (w : BitVec 3) (s : State) : exec (.tenR a w) s = execTenR a w s := rfl
theorem exec_tenW (a : Reg) (w : BitVec 3) (s : State) : exec (.tenW a w) s = execTenW a w s := rfl
theorem exec_tenTryr (d : Reg) (a : Reg) (w : BitVec 3) (s : State) : exec (.tenTryr d a w) s = execTenTryr d a w s := rfl
theorem exec_tenTryw (d : Reg) (a : Reg) (w : BitVec 3) (s : State) : exec (.tenTryw d a w) s = execTenTryw d a w s := rfl
theorem exec_tenRel (d : Reg) (a : Reg) (w : BitVec 3) (s : State) : exec (.tenRel d a w) s = execTenRel d a w s := rfl
theorem exec_tenDown (a : Reg) (w : BitVec 3) (s : State) : exec (.tenDown a w) s = execTenDown a w s := rfl
theorem exec_tileSplit (d : Reg) (a : Reg) (b : Reg) (w : BitVec 3) (s : State) : exec (.tileSplit d a b w) s = execTileSplit d a b w s := rfl
theorem exec_tileQry (d : Reg) (a : Reg) (w : BitVec 3) (s : State) : exec (.tileQry d a w) s = execTileQry d a w s := rfl
theorem exec_vld (d : Reg) (a : Reg) (w : BitVec 3) (s : State) : exec (.vld d a w) s = execVld d a w s := rfl
theorem exec_vst (d : Reg) (a : Reg) (w : BitVec 3) (s : State) : exec (.vst d a w) s = execVst d a w s := rfl
theorem exec_vlds (d : Reg) (a : Reg) (b : Reg) (t : BitVec 3) (w : BitVec 3) (s : State) : exec (.vlds d a b t w) s = execVlds d a b t w s := rfl
theorem exec_vsts (d : Reg) (a : Reg) (b : Reg) (t : BitVec 3) (w : BitVec 3) (s : State) : exec (.vsts d a b t w) s = execVsts d a b t w s := rfl
theorem exec_vgath (d : Reg) (a : Reg) (b : Reg) (t : BitVec 3) (w : BitVec 3) (s : State) : exec (.vgath d a b t w) s = execVgath d a b t w s := rfl
theorem exec_vscat (d : Reg) (a : Reg) (b : Reg) (t : BitVec 3) (w : BitVec 3) (s : State) : exec (.vscat d a b t w) s = execVscat d a b t w s := rfl
theorem exec_vadd (d : Reg) (a : Reg) (b : Reg) (t : BitVec 3) (w : BitVec 3) (s : State) : exec (.vadd d a b t w) s = execVadd d a b t w s := rfl
theorem exec_vsub (d : Reg) (a : Reg) (b : Reg) (t : BitVec 3) (w : BitVec 3) (s : State) : exec (.vsub d a b t w) s = execVsub d a b t w s := rfl
theorem exec_vmul (d : Reg) (a : Reg) (b : Reg) (t : BitVec 3) (w : BitVec 3) (s : State) : exec (.vmul d a b t w) s = execVmul d a b t w s := rfl
theorem exec_vmulh (d : Reg) (a : Reg) (b : Reg) (t : BitVec 3) (w : BitVec 3) (s : State) : exec (.vmulh d a b t w) s = execVmulh d a b t w s := rfl
theorem exec_vmin (d : Reg) (a : Reg) (b : Reg) (t : BitVec 3) (w : BitVec 3) (s : State) : exec (.vmin d a b t w) s = execVmin d a b t w s := rfl
theorem exec_vmax (d : Reg) (a : Reg) (b : Reg) (t : BitVec 3) (w : BitVec 3) (s : State) : exec (.vmax d a b t w) s = execVmax d a b t w s := rfl
theorem exec_vminu (d : Reg) (a : Reg) (b : Reg) (t : BitVec 3) (w : BitVec 3) (s : State) : exec (.vminu d a b t w) s = execVminu d a b t w s := rfl
theorem exec_vmaxu (d : Reg) (a : Reg) (b : Reg) (t : BitVec 3) (w : BitVec 3) (s : State) : exec (.vmaxu d a b t w) s = execVmaxu d a b t w s := rfl
theorem exec_vadds (d : Reg) (a : Reg) (b : Reg) (t : BitVec 3) (w : BitVec 3) (s : State) : exec (.vadds d a b t w) s = execVadds d a b t w s := rfl
theorem exec_vsubs (d : Reg) (a : Reg) (b : Reg) (t : BitVec 3) (w : BitVec 3) (s : State) : exec (.vsubs d a b t w) s = execVsubs d a b t w s := rfl
theorem exec_vaddsn (d : Reg) (a : Reg) (b : Reg) (t : BitVec 3) (w : BitVec 3) (s : State) : exec (.vaddsn d a b t w) s = execVaddsn d a b t w s := rfl
theorem exec_vabs (d : Reg) (a : Reg) (t : BitVec 3) (w : BitVec 3) (s : State) : exec (.vabs d a t w) s = execVabs d a t w s := rfl
theorem exec_vneg (d : Reg) (a : Reg) (t : BitVec 3) (w : BitVec 3) (s : State) : exec (.vneg d a t w) s = execVneg d a t w s := rfl
theorem exec_vmac (d : Reg) (a : Reg) (b : Reg) (t : BitVec 3) (w : BitVec 3) (s : State) : exec (.vmac d a b t w) s = execVmac d a b t w s := rfl
theorem exec_vwmul (d : Reg) (a : Reg) (b : Reg) (t : BitVec 3) (w : BitVec 3) (s : State) : exec (.vwmul d a b t w) s = execVwmul d a b t w s := rfl
theorem exec_vwmac (d : Reg) (a : Reg) (b : Reg) (t : BitVec 3) (w : BitVec 3) (s : State) : exec (.vwmac d a b t w) s = execVwmac d a b t w s := rfl
theorem exec_vdot4 (d : Reg) (a : Reg) (b : Reg) (t : BitVec 3) (w : BitVec 3) (s : State) : exec (.vdot4 d a b t w) s = execVdot4 d a b t w s := rfl
theorem exec_vfadd (d : Reg) (a : Reg) (b : Reg) (t : BitVec 3) (w : BitVec 3) (s : State) : exec (.vfadd d a b t w) s = execVfadd d a b t w s := rfl
theorem exec_vfsub (d : Reg) (a : Reg) (b : Reg) (t : BitVec 3) (w : BitVec 3) (s : State) : exec (.vfsub d a b t w) s = execVfsub d a b t w s := rfl
theorem exec_vfmul (d : Reg) (a : Reg) (b : Reg) (t : BitVec 3) (w : BitVec 3) (s : State) : exec (.vfmul d a b t w) s = execVfmul d a b t w s := rfl
theorem exec_vfma (d : Reg) (a : Reg) (b : Reg) (t : BitVec 3) (w : BitVec 3) (s : State) : exec (.vfma d a b t w) s = execVfma d a b t w s := rfl
theorem exec_vfnma (d : Reg) (a : Reg) (b : Reg) (t : BitVec 3) (w : BitVec 3) (s : State) : exec (.vfnma d a b t w) s = execVfnma d a b t w s := rfl
theorem exec_vfmin (d : Reg) (a : Reg) (b : Reg) (t : BitVec 3) (w : BitVec 3) (s : State) : exec (.vfmin d a b t w) s = execVfmin d a b t w s := rfl
theorem exec_vfmax (d : Reg) (a : Reg) (b : Reg) (t : BitVec 3) (w : BitVec 3) (s : State) : exec (.vfmax d a b t w) s = execVfmax d a b t w s := rfl
theorem exec_vfabs (d : Reg) (a : Reg) (t : BitVec 3) (w : BitVec 3) (s : State) : exec (.vfabs d a t w) s = execVfabs d a t w s := rfl
theorem exec_vfneg (d : Reg) (a : Reg) (t : BitVec 3) (w : BitVec 3) (s : State) : exec (.vfneg d a t w) s = execVfneg d a t w s := rfl
theorem exec_vfwmul (d : Reg) (a : Reg) (b : Reg) (t : BitVec 3) (w : BitVec 3) (s : State) : exec (.vfwmul d a b t w) s = execVfwmul d a b t w s := rfl
theorem exec_vfwma (d : Reg) (a : Reg) (b : Reg) (t : BitVec 3) (w : BitVec 3) (s : State) : exec (.vfwma d a b t w) s = execVfwma d a b t w s := rfl
theorem exec_vfexp2 (d : Reg) (a : Reg) (t : BitVec 3) (w : BitVec 3) (s : State) : exec (.vfexp2 d a t w) s = execVfexp2 d a t w s := rfl
theorem exec_vflog2 (d : Reg) (a : Reg) (t : BitVec 3) (w : BitVec 3) (s : State) : exec (.vflog2 d a t w) s = execVflog2 d a t w s := rfl
theorem exec_vfrcp (d : Reg) (a : Reg) (t : BitVec 3) (w : BitVec 3) (s : State) : exec (.vfrcp d a t w) s = execVfrcp d a t w s := rfl
theorem exec_vfrsq (d : Reg) (a : Reg) (t : BitVec 3) (w : BitVec 3) (s : State) : exec (.vfrsq d a t w) s = execVfrsq d a t w s := rfl
theorem exec_vand (d : Reg) (a : Reg) (b : Reg) (t : BitVec 3) (w : BitVec 3) (s : State) : exec (.vand d a b t w) s = execVand d a b t w s := rfl
theorem exec_vor (d : Reg) (a : Reg) (b : Reg) (t : BitVec 3) (w : BitVec 3) (s : State) : exec (.vor d a b t w) s = execVor d a b t w s := rfl
theorem exec_vxor (d : Reg) (a : Reg) (b : Reg) (t : BitVec 3) (w : BitVec 3) (s : State) : exec (.vxor d a b t w) s = execVxor d a b t w s := rfl
theorem exec_vandn (d : Reg) (a : Reg) (b : Reg) (t : BitVec 3) (w : BitVec 3) (s : State) : exec (.vandn d a b t w) s = execVandn d a b t w s := rfl
theorem exec_vshl (d : Reg) (a : Reg) (b : Reg) (t : BitVec 3) (w : BitVec 3) (s : State) : exec (.vshl d a b t w) s = execVshl d a b t w s := rfl
theorem exec_vshr (d : Reg) (a : Reg) (b : Reg) (t : BitVec 3) (w : BitVec 3) (s : State) : exec (.vshr d a b t w) s = execVshr d a b t w s := rfl
theorem exec_vsar (d : Reg) (a : Reg) (b : Reg) (t : BitVec 3) (w : BitVec 3) (s : State) : exec (.vsar d a b t w) s = execVsar d a b t w s := rfl
theorem exec_vcmpeq (d : Reg) (a : Reg) (b : Reg) (t : BitVec 3) (w : BitVec 3) (s : State) : exec (.vcmpeq d a b t w) s = execVcmpeq d a b t w s := rfl
theorem exec_vcmplt (d : Reg) (a : Reg) (b : Reg) (t : BitVec 3) (w : BitVec 3) (s : State) : exec (.vcmplt d a b t w) s = execVcmplt d a b t w s := rfl
theorem exec_vcmple (d : Reg) (a : Reg) (b : Reg) (t : BitVec 3) (w : BitVec 3) (s : State) : exec (.vcmple d a b t w) s = execVcmple d a b t w s := rfl
theorem exec_vcmpltn (d : Reg) (a : Reg) (b : Reg) (t : BitVec 3) (w : BitVec 3) (s : State) : exec (.vcmpltn d a b t w) s = execVcmpltn d a b t w s := rfl
theorem exec_vfcmpeq (d : Reg) (a : Reg) (b : Reg) (t : BitVec 3) (w : BitVec 3) (s : State) : exec (.vfcmpeq d a b t w) s = execVfcmpeq d a b t w s := rfl
theorem exec_vfcmplt (d : Reg) (a : Reg) (b : Reg) (t : BitVec 3) (w : BitVec 3) (s : State) : exec (.vfcmplt d a b t w) s = execVfcmplt d a b t w s := rfl
theorem exec_vfcmple (d : Reg) (a : Reg) (b : Reg) (t : BitVec 3) (w : BitVec 3) (s : State) : exec (.vfcmple d a b t w) s = execVfcmple d a b t w s := rfl
theorem exec_vsel (d : Reg) (a : Reg) (b : Reg) (t : BitVec 3) (w : BitVec 3) (s : State) : exec (.vsel d a b t w) s = execVsel d a b t w s := rfl
theorem exec_vmand (d : Reg) (a : Reg) (b : Reg) (t : BitVec 3) (w : BitVec 3) (s : State) : exec (.vmand d a b t w) s = execVmand d a b t w s := rfl
theorem exec_vmor (d : Reg) (a : Reg) (b : Reg) (t : BitVec 3) (w : BitVec 3) (s : State) : exec (.vmor d a b t w) s = execVmor d a b t w s := rfl
theorem exec_vmxor (d : Reg) (a : Reg) (b : Reg) (t : BitVec 3) (w : BitVec 3) (s : State) : exec (.vmxor d a b t w) s = execVmxor d a b t w s := rfl
theorem exec_vmnot (d : Reg) (a : Reg) (t : BitVec 3) (w : BitVec 3) (s : State) : exec (.vmnot d a t w) s = execVmnot d a t w s := rfl
theorem exec_vmpop (d : Reg) (a : Reg) (t : BitVec 3) (w : BitVec 3) (s : State) : exec (.vmpop d a t w) s = execVmpop d a t w s := rfl
theorem exec_vmfirst (d : Reg) (a : Reg) (t : BitVec 3) (w : BitVec 3) (s : State) : exec (.vmfirst d a t w) s = execVmfirst d a t w s := rfl
theorem exec_vmset (d : Reg) (a : Reg) (t : BitVec 3) (w : BitVec 3) (s : State) : exec (.vmset d a t w) s = execVmset d a t w s := rfl
theorem exec_vcvt (d : Reg) (a : Reg) (b : Reg) (t : BitVec 3) (w : BitVec 3) (s : State) : exec (.vcvt d a b t w) s = execVcvt d a b t w s := rfl
theorem exec_vqo4 (d : Reg) (a : Reg) (b : Reg) (t : BitVec 3) (w : BitVec 3) (s : State) : exec (.vqo4 d a b t w) s = execVqo4 d a b t w s := rfl
theorem exec_vdqo4 (d : Reg) (a : Reg) (b : Reg) (t : BitVec 3) (w : BitVec 3) (s : State) : exec (.vdqo4 d a b t w) s = execVdqo4 d a b t w s := rfl
theorem exec_vrsum (d : Reg) (a : Reg) (t : BitVec 3) (w : BitVec 3) (s : State) : exec (.vrsum d a t w) s = execVrsum d a t w s := rfl
theorem exec_vrmax (d : Reg) (a : Reg) (t : BitVec 3) (w : BitVec 3) (s : State) : exec (.vrmax d a t w) s = execVrmax d a t w s := rfl
theorem exec_vrmin (d : Reg) (a : Reg) (t : BitVec 3) (w : BitVec 3) (s : State) : exec (.vrmin d a t w) s = execVrmin d a t w s := rfl
theorem exec_vramax (d : Reg) (a : Reg) (t : BitVec 3) (w : BitVec 3) (s : State) : exec (.vramax d a t w) s = execVramax d a t w s := rfl
theorem exec_vdot (d : Reg) (a : Reg) (b : Reg) (t : BitVec 3) (w : BitVec 3) (s : State) : exec (.vdot d a b t w) s = execVdot d a b t w s := rfl
theorem exec_vbcast (d : Reg) (a : Reg) (t : BitVec 3) (w : BitVec 3) (s : State) : exec (.vbcast d a t w) s = execVbcast d a t w s := rfl
theorem exec_vmov (d : Reg) (a : Reg) (t : BitVec 3) (w : BitVec 3) (s : State) : exec (.vmov d a t w) s = execVmov d a t w s := rfl
theorem exec_vperm (d : Reg) (a : Reg) (b : Reg) (t : BitVec 3) (w : BitVec 3) (s : State) : exec (.vperm d a b t w) s = execVperm d a b t w s := rfl
theorem exec_vslide (d : Reg) (a : Reg) (b : Reg) (t : BitVec 3) (w : BitVec 3) (s : State) : exec (.vslide d a b t w) s = execVslide d a b t w s := rfl
theorem exec_vext (d : Reg) (a : Reg) (b : Reg) (t : BitVec 3) (w : BitVec 3) (s : State) : exec (.vext d a b t w) s = execVext d a b t w s := rfl
theorem exec_vins (d : Reg) (a : Reg) (b : Reg) (t : BitVec 3) (w : BitVec 3) (s : State) : exec (.vins d a b t w) s = execVins d a b t w s := rfl
theorem exec_vhad (d : Reg) (a : Reg) (b : Reg) (t : BitVec 3) (w : BitVec 3) (s : State) : exec (.vhad d a b t w) s = execVhad d a b t w s := rfl
theorem exec_viota (d : Reg) (t : BitVec 3) (w : BitVec 3) (s : State) : exec (.viota d t w) s = execViota d t w s := rfl
theorem exec_vzip (d : Reg) (a : Reg) (b : Reg) (t : BitVec 3) (w : BitVec 3) (s : State) : exec (.vzip d a b t w) s = execVzip d a b t w s := rfl
theorem exec_vunzip (d : Reg) (a : Reg) (b : Reg) (t : BitVec 3) (w : BitVec 3) (s : State) : exec (.vunzip d a b t w) s = execVunzip d a b t w s := rfl
theorem exec_accRd (d : Reg) (a : Reg) (w : BitVec 3) (s : State) : exec (.accRd d a w) s = execAccRd d a w s := rfl
theorem exec_accWr (d : Reg) (a : Reg) (w : BitVec 3) (s : State) : exec (.accWr d a w) s = execAccWr d a w s := rfl
theorem exec_accClr (d : Reg) (w : BitVec 3) (s : State) : exec (.accClr d w) s = execAccClr d w s := rfl
theorem exec_mwait (a : Reg) (w : BitVec 3) (s : State) : exec (.mwait a w) s = execMwait a w s := rfl
theorem exec_mstat (d : Reg) (w : BitVec 3) (s : State) : exec (.mstat d w) s = execMstat d w s := rfl
theorem exec_rpt (c : Reg) (i_ : BitVec 6) (l : BitVec 4) (x : BitVec 1) (y : BitVec 1) (z : BitVec 1) (s_ : BitVec 2) (w : BitVec 3) (s : State) : exec (.rpt c i_ l x y z s_ w) s = execRpt c i_ l x y z s_ w s := rfl
theorem exec_xsend (d : Reg) (a : Reg) (b : Reg) (w : BitVec 3) (s : State) : exec (.xsend d a b w) s = execXsend d a b w s := rfl
theorem exec_xwait (a : Reg) (w : BitVec 3) (s : State) : exec (.xwait a w) s = execXwait a w s := rfl
theorem exec_xstat (d : Reg) (a : Reg) (b : Reg) (w : BitVec 3) (s : State) : exec (.xstat d a b w) s = execXstat d a b w s := rfl
theorem exec_hstart (d : Reg) (a : Reg) (b : Reg) (w : BitVec 3) (s : State) : exec (.hstart d a b w) s = execHstart d a b w s := rfl
theorem exec_hstartNb (d : Reg) (a : Reg) (b : Reg) (w : BitVec 3) (s : State) : exec (.hstartNb d a b w) s = execHstartNb d a b w s := rfl
theorem exec_hexit (w : BitVec 3) (s : State) : exec (.hexit w) s = execHexit w s := rfl
theorem exec_hjoin (d : Reg) (a : Reg) (w : BitVec 3) (s : State) : exec (.hjoin d a w) s = execHjoin d a w s := rfl
theorem exec_hstat (d : Reg) (a : Reg) (w : BitVec 3) (s : State) : exec (.hstat d a w) s = execHstat d a w s := rfl
theorem exec_yield (w : BitVec 3) (s : State) : exec (.yield w) s = execYield w s := rfl
theorem exec_hkill (a : Reg) (w : BitVec 3) (s : State) : exec (.hkill a w) s = execHkill a w s := rfl
theorem exec_trForm (d : Reg) (a : Reg) (w : BitVec 3) (s : State) : exec (.trForm d a w) s = execTrForm d a w s := rfl
theorem exec_trBreak (w : BitVec 3) (s : State) : exec (.trBreak w) s = execTrBreak w s := rfl
theorem exec_trDetach (w : BitVec 3) (s : State) : exec (.trDetach w) s = execTrDetach w s := rfl
theorem exec_trRejoin (w : BitVec 3) (s : State) : exec (.trRejoin w) s = execTrRejoin w s := rfl
theorem exec_trStat (d : Reg) (w : BitVec 3) (s : State) : exec (.trStat d w) s = execTrStat d w s := rfl
theorem exec_sync (l : BitVec 2) (w : BitVec 3) (s : State) : exec (.sync l w) s = execSync l w s := rfl
theorem exec_djoin (a : Reg) (l : BitVec 2) (w : BitVec 3) (s : State) : exec (.djoin a l w) s = execDjoin a l w s := rfl
theorem exec_dleave (l : BitVec 2) (w : BitVec 3) (s : State) : exec (.dleave l w) s = execDleave l w s := rfl
theorem exec_dqry (d : Reg) (l : BitVec 2) (w : BitVec 3) (s : State) : exec (.dqry d l w) s = execDqry d l w s := rfl
theorem exec_bar (l : BitVec 2) (w : BitVec 3) (s : State) : exec (.bar l w) s = execBar l w s := rfl
theorem exec_cfetch (d : Reg) (a : Reg) (w : BitVec 3) (s : State) : exec (.cfetch d a w) s = execCfetch d a w s := rfl
theorem exec_cwait (a : Reg) (w : BitVec 3) (s : State) : exec (.cwait a w) s = execCwait a w s := rfl
theorem exec_cstat (d : Reg) (a : Reg) (w : BitVec 3) (s : State) : exec (.cstat d a w) s = execCstat d a w s := rfl
theorem exec_cevict (a : Reg) (w : BitVec 3) (s : State) : exec (.cevict a w) s = execCevict a w s := rfl
theorem exec_evwait (a : Reg) (w : BitVec 3) (s : State) : exec (.evwait a w) s = execEvwait a w s := rfl
theorem exec_evsig (a : Reg) (w : BitVec 3) (s : State) : exec (.evsig a w) s = execEvsig a w s := rfl
theorem exec_evrd (d : Reg) (a : Reg) (w : BitVec 3) (s : State) : exec (.evrd d a w) s = execEvrd d a w s := rfl
theorem exec_evclr (a : Reg) (w : BitVec 3) (s : State) : exec (.evclr a w) s = execEvclr a w s := rfl
theorem exec_wfe (w : BitVec 3) (s : State) : exec (.wfe w) s = execWfe w s := rfl
theorem exec_crr (d : Reg) (c : BitVec 11) (w : BitVec 3) (s : State) : exec (.crr d c w) s = execCrr d c w s := rfl
theorem exec_crw (d : Reg) (a : Reg) (c : BitVec 11) (w : BitVec 3) (s : State) : exec (.crw d a c w) s = execCrw d a c w s := rfl
theorem exec_crset (d : Reg) (a : Reg) (c : BitVec 11) (w : BitVec 3) (s : State) : exec (.crset d a c w) s = execCrset d a c w s := rfl
theorem exec_crclr (d : Reg) (a : Reg) (c : BitVec 11) (w : BitVec 3) (s : State) : exec (.crclr d a c w) s = execCrclr d a c w s := rfl
theorem exec_trap (k : BitVec 10) (w : BitVec 3) (s : State) : exec (.trap k w) s = execTrap k w s := rfl
theorem exec_sysc (w : BitVec 3) (s : State) : exec (.sysc w) s = execSysc w s := rfl
theorem exec_hcall (w : BitVec 3) (s : State) : exec (.hcall w) s = execHcall w s := rfl
theorem exec_eret (w : BitVec 3) (s : State) : exec (.eret w) s = execEret w s := rfl
theorem exec_bkpt (w : BitVec 3) (s : State) : exec (.bkpt w) s = execBkpt w s := rfl
theorem exec_halt (w : BitVec 3) (s : State) : exec (.halt w) s = execHalt w s := rfl
theorem exec_tsread (d : Reg) (w : BitVec 3) (s : State) : exec (.tsread d w) s = execTsread d w s := rfl
theorem exec_gexit (w : BitVec 3) (s : State) : exec (.gexit w) s = execGexit w s := rfl
theorem exec_cntrd (d : Reg) (a : Reg) (w : BitVec 3) (s : State) : exec (.cntrd d a w) s = execCntrd d a w s := rfl
theorem exec_gang (w : BitVec 3) (s : State) : exec (.gang w) s = execGang w s := rfl
theorem exec_rpop (d : Reg) (w : BitVec 3) (s : State) : exec (.rpop d w) s = execRpop d w s := rfl
theorem exec_rfix (a : Reg) (b : Reg) (w : BitVec 3) (s : State) : exec (.rfix a b w) s = execRfix a b w s := rfl
theorem exec_rreplay (a : Reg) (w : BitVec 3) (s : State) : exec (.rreplay a w) s = execRreplay a w s := rfl
theorem exec_rkill (a : Reg) (w : BitVec 3) (s : State) : exec (.rkill a w) s = execRkill a w s := rfl
theorem exec_vamoF32 (a : Reg) (b : Reg) (w : BitVec 3) (s : State) : exec (.vamoF32 a b w) s = execVamoF32 a b w s := rfl
theorem exec_vamoBf16 (a : Reg) (b : Reg) (w : BitVec 3) (s : State) : exec (.vamoBf16 a b w) s = execVamoBf16 a b w s := rfl
theorem exec_vamoI32 (a : Reg) (b : Reg) (w : BitVec 3) (s : State) : exec (.vamoI32 a b w) s = execVamoI32 a b w s := rfl
theorem exec_lnch (d : Reg) (a : Reg) (w : BitVec 3) (s : State) : exec (.lnch d a w) s = execLnch d a w s := rfl
theorem exec_lwait (a : Reg) (w : BitVec 3) (s : State) : exec (.lwait a w) s = execLwait a w s := rfl
theorem exec_lqry (d : Reg) (a : Reg) (w : BitVec 3) (s : State) : exec (.lqry d a w) s = execLqry d a w s := rfl
theorem exec_lcancel (d : Reg) (a : Reg) (w : BitVec 3) (s : State) : exec (.lcancel d a w) s = execLcancel d a w s := rfl
theorem exec_qpeek (d : Reg) (q : BitVec 2) (w : BitVec 3) (s : State) : exec (.qpeek d q w) s = execQpeek d q w s := rfl
theorem exec_qclr (q : BitVec 2) (w : BitVec 3) (s : State) : exec (.qclr q w) s = execQclr q w s := rfl
theorem exec_qstat (d : Reg) (q : BitVec 2) (w : BitVec 3) (s : State) : exec (.qstat d q w) s = execQstat d q w s := rfl
theorem exec_pset (d : Reg) (a : Reg) (w : BitVec 3) (s : State) : exec (.pset d a w) s = execPset d a w s := rfl
theorem exec_pget (d : Reg) (a : Reg) (w : BitVec 3) (s : State) : exec (.pget d a w) s = execPget d a w s := rfl
theorem exec_padd (d : Reg) (a : Reg) (b : Reg) (w : BitVec 3) (s : State) : exec (.padd d a b w) s = execPadd d a b w s := rfl
theorem exec_paddi (d : Reg) (a : Reg) (i_ : BitVec 13) (w : BitVec 3) (s : State) : exec (.paddi d a i_ w) s = execPaddi d a i_ w s := rfl
theorem exec_fixedResultVisible (core : Nat) (ctx : Nat) (s : State) : exec (.fixedResultVisible core ctx) s = execFixedResultVisible core ctx s := rfl
theorem exec_variableResultWrite (core : Nat) (ctx : Nat) (s : State) : exec (.variableResultWrite core ctx) s = execVariableResultWrite core ctx s := rfl
theorem exec_fpexcTrap (core : Nat) (ctx : Nat) (s : State) : exec (.fpexcTrap core ctx) s = execFpexcTrap core ctx s := rfl
theorem exec_deferredTrap (core : Nat) (ctx : Nat) (s : State) : exec (.deferredTrap core ctx) s = execDeferredTrap core ctx s := rfl
theorem exec_segmentFetchDone (core : Nat) (slot : Nat) (s : State) : exec (.segmentFetchDone core slot) s = execSegmentFetchDone core slot s := rfl
theorem exec_vectorPassBind (core : Nat) (s : State) : exec (.vectorPassBind core) s = execVectorPassBind core s := rfl
theorem exec_scratchpadResize (core : Nat) (s : State) : exec (.scratchpadResize core) s = execScratchpadResize core s := rfl
theorem exec_plane (core : Nat) (blocks : Nat) (s : State) : exec (.plane core blocks) s = execPlane core blocks s := rfl
theorem exec_mma (core : Nat) (blocks : Nat) (s : State) : exec (.mma core blocks) s = execMma core blocks s := rfl
theorem exec_mmaR (core : Nat) (blocks : Nat) (s : State) : exec (.mmaR core blocks) s = execMmaR core blocks s := rfl
theorem exec_had (core : Nat) (blocks : Nat) (s : State) : exec (.had core blocks) s = execHad core blocks s := rfl
theorem exec_drain (core : Nat) (s : State) : exec (.drain core) s = execDrain core s := rfl
theorem exec_zero (core : Nat) (s : State) : exec (.zero core) s = execZero core s := rfl
theorem exec_mark (core : Nat) (s : State) : exec (.mark core) s = execMark core s := rfl
theorem exec_matrixCommandDone (core : Nat) (s : State) : exec (.matrixCommandDone core) s = execMatrixCommandDone core s := rfl
theorem exec_copy (core : Nat) (ticket : Nat) (elems : Nat) (s : State) : exec (.copy core ticket elems) s = execCopy core ticket elems s := rfl
theorem exec_fill (core : Nat) (ticket : Nat) (elems : Nat) (s : State) : exec (.fill core ticket elems) s = execFill core ticket elems s := rfl
theorem exec_allreduce (core : Nat) (ticket : Nat) (s : State) : exec (.allreduce core ticket) s = execAllreduce core ticket s := rfl
theorem exec_reducescatter (core : Nat) (ticket : Nat) (s : State) : exec (.reducescatter core ticket) s = execReducescatter core ticket s := rfl
theorem exec_allgather (core : Nat) (ticket : Nat) (s : State) : exec (.allgather core ticket) s = execAllgather core ticket s := rfl
theorem exec_abort (core : Nat) (ticket : Nat) (s : State) : exec (.abort core ticket) s = execAbort core ticket s := rfl
theorem exec_engineCommandDone (core : Nat) (ticket : Nat) (s : State) : exec (.engineCommandDone core ticket) s = execEngineCommandDone core ticket s := rfl
theorem exec_portWordArrival (word : Nat) (s : State) : exec (.portWordArrival word) s = execPortWordArrival word s := rfl
theorem exec_forwardedInstruction (core : Nat) (s : State) : exec (.forwardedInstruction core) s = execForwardedInstruction core s := rfl
theorem exec_trFormTimeout (core : Nat) (s : State) : exec (.trFormTimeout core) s = execTrFormTimeout core s := rfl
theorem exec_troupehang (core : Nat) (s : State) : exec (.troupehang core) s = execTroupehang core s := rfl
theorem exec_syncDone (core : Nat) (s : State) : exec (.syncDone core) s = execSyncDone core s := rfl
theorem exec_homeRequest (req : Nat) (s : State) : exec (.homeRequest req) s = execHomeRequest req s := rfl
theorem exec_pushArrival (push : Nat) (s : State) : exec (.pushArrival push) s = execPushArrival push s := rfl
theorem exec_tLineExpiry (core : Nat) (line : Nat) (s : State) : exec (.tLineExpiry core line) s = execTLineExpiry core line s := rfl
theorem exec_memoryResponse (req : Nat) (value : BitVec 64) (poisoned : Bool) (s : State) : exec (.memoryResponse req value poisoned) s = execMemoryResponse req value poisoned s := rfl
theorem exec_farHomeRequest (req : Nat) (s : State) : exec (.farHomeRequest req) s = execFarHomeRequest req s := rfl
theorem exec_farInvalidationAck (line : Nat) (die : Nat) (s : State) : exec (.farInvalidationAck line die) s = execFarInvalidationAck line die s := rfl
theorem exec_replicaUpdate (update : Nat) (s : State) : exec (.replicaUpdate update) s = execReplicaUpdate update s := rfl
theorem exec_tenureGrant (request : Nat) (s : State) : exec (.tenureGrant request) s = execTenureGrant request s := rfl
theorem exec_leaseRevoke (tenure : Nat) (s : State) : exec (.leaseRevoke tenure) s = execLeaseRevoke tenure s := rfl
theorem exec_stringsTimer (core : Nat) (s : State) : exec (.stringsTimer core) s = execStringsTimer core s := rfl
theorem exec_wake (core : Nat) (s : State) : exec (.wake core) s = execWake core s := rfl
theorem exec_helperStartTrigger (core : Nat) (s : State) : exec (.helperStartTrigger core) s = execHelperStartTrigger core s := rfl
theorem exec_groupPlacement (part : Nat) (s : State) : exec (.groupPlacement part) s = execGroupPlacement part s := rfl
theorem exec_groupStart (core : Nat) (s : State) : exec (.groupStart core) s = execGroupStart core s := rfl
theorem exec_tsliceExpiry (part : Nat) (s : State) : exec (.tsliceExpiry part) s = execTsliceExpiry part s := rfl
theorem exec_forcedSwitchStop (part : Nat) (s : State) : exec (.forcedSwitchStop part) s = execForcedSwitchStop part s := rfl
theorem exec_saveDone (part : Nat) (s : State) : exec (.saveDone part) s = execSaveDone part s := rfl
theorem exec_restoreDone (part : Nat) (s : State) : exec (.restoreDone part) s = execRestoreDone part s := rfl
theorem exec_softError (core : Nat) (s : State) : exec (.softError core) s = execSoftError core s := rfl
theorem exec_create (part : Nat) (s : State) : exec (.create part) s = execCreate part s := rfl
theorem exec_switch (part : Nat) (s : State) : exec (.switch part) s = execSwitch part s := rfl
theorem exec_resume (part : Nat) (s : State) : exec (.resume part) s = execResume part s := rfl
theorem exec_cont (part : Nat) (gs : Bool) (s : State) : exec (.cont part gs) s = execCont part gs s := rfl
theorem exec_kill (part : Nat) (s : State) : exec (.kill part) s = execKill part s := rfl
theorem exec_destroy (part : Nat) (s : State) : exec (.destroy part) s = execDestroy part s := rfl
theorem exec_svcstart (part : Nat) (s : State) : exec (.svcstart part) s = execSvcstart part s := rfl
theorem exec_launch (part : Nat) (s : State) : exec (.launch part) s = execLaunch part s := rfl
theorem exec_registerWrite (pa : Nat) (value : BitVec 64) (s : State) : exec (.registerWrite pa value) s = execRegisterWrite pa value s := rfl
theorem exec_crossTriggerHalt (request : HaltRequest) (s : State) : exec (.crossTriggerHalt request) s = execCrossTriggerHalt request s := rfl
theorem exec_debugResume (rank : Nat) (s : State) : exec (.debugResume rank) s = execDebugResume rank s := rfl
theorem exec_kaleidoscopeTurn (s : State) : exec (.kaleidoscopeTurn) s = execKaleidoscopeTurn s := rfl
theorem exec_turnDrain (s : State) : exec (.turnDrain) s = execTurnDrain s := rfl
theorem exec_turnRetrain (s : State) : exec (.turnRetrain) s = execTurnRetrain s := rfl
theorem exec_turnMap (failed : BitVec 48) (s : State) : exec (.turnMap failed) s = execTurnMap failed s := rfl
theorem exec_turnActive (s : State) : exec (.turnActive) s = execTurnActive s := rfl
theorem exec_fabricTimeout (req : Nat) (s : State) : exec (.fabricTimeout req) s = execFabricTimeout req s := rfl
theorem exec_peerRequest (src : Nat) (exp : Nat) (ra : Nat) (op : PeerOp) (value : BitVec 64) (expected : BitVec 64) (s : State) : exec (.peerRequest src exp ra op value expected) s = execPeerRequest src exp ra op value expected s := rfl
theorem exec_fanoutTimeout (peer : Nat) (s : State) : exec (.fanoutTimeout peer) s = execFanoutTimeout peer s := rfl
theorem exec_severed (peer : Nat) (s : State) : exec (.severed peer) s = execSevered peer s := rfl
theorem exec_flushed (peer : Nat) (s : State) : exec (.flushed peer) s = execFlushed peer s := rfl
theorem exec_messageLanding (part : Nat) (job : Nat) (ring : Nat) (source : BitVec 128) (data : List (BitVec 8)) (s : State) : exec (.messageLanding part job ring source data) s = execMessageLanding part job ring source data s := rfl
theorem exec_hostBar4Write (addr : HostAddress) (size : Nat) (value : BitVec 64) (s : State) :
    exec (.hostBar4Write addr size value) s = execHostBar4Write addr size value s := rfl
theorem exec_hostBar4Read (addr : HostAddress) (size : Nat) (s : State) : exec (.hostBar4Read addr size) s = execHostBar4Read addr size s := rfl
theorem exec_mailboxHostWrite (vf : Nat) (offset : Nat) (size : Nat) (value : BitVec 64) (s : State) : exec (.mailboxHostWrite vf offset size value) s = execMailboxHostWrite vf offset size value s := rfl
theorem exec_vfFlr (vf : Nat) (s : State) : exec (.vfFlr vf) s = execVfFlr vf s := rfl
theorem exec_tagRevive (vf : Nat) (s : State) : exec (.tagRevive vf) s = execTagRevive vf s := rfl
theorem exec_powerGrantEpoch (used : List (Nat × List Nat)) (hot : List Nat) (s : State) :
    exec (.powerGrantEpoch used hot) s = execPowerGrantEpoch used hot s := rfl
theorem exec_boot (image : List (BitVec 8)) (signature : BitVec 3072) (s : State) : exec (.boot image signature) s = execBoot image signature s := rfl
theorem exec_stageVerify (image : List (BitVec 8)) (signature : BitVec 3072) (s : State) : exec (.stageVerify image signature) s = execStageVerify image signature s := rfl
theorem exec_attestationRequest (s : State) : exec (.attestationRequest) s = execAttestationRequest s := rfl
theorem exec_attestationReportReady (s : State) : exec (.attestationReportReady) s = execAttestationReportReady s := rfl
theorem exec_debugUnlockToken (token : List (BitVec 8)) (s : State) : exec (.debugUnlockToken token) s = execDebugUnlockToken token s := rfl
theorem exec_routerAccept (core : Nat) (ctx : Nat) (s : State) : exec (.routerAccept core ctx) s = execRouterAccept core ctx s := rfl
theorem exec_linkDown (group : Nat) (s : State) : exec (.linkDown group) s = execLinkDown group s := rfl
theorem exec_linkUp (group : Nat) (s : State) : exec (.linkUp group) s = execLinkUp group s := rfl
theorem exec_llcDramSoftError (line : Nat) (s : State) : exec (.llcDramSoftError line) s = execLlcDramSoftError line s := rfl

end Sys2Proof.Machine
end

