-- ==== Sys2Proof/Laws/State.lean ====
section
/-!
SUPPORT. What the updates of the state leave as it was, field by field, and what reading the tables, cores, contexts and registers gives after
one of them was set.
-/

set_option Elab.async false

namespace Sys2Proof.Machine

open Sys2Proof

/-! ### State.setCore -/

@[simp] theorem State.setCore_cycle (s : State) (n : Nat) (k : Core) : (s.setCore n k).cycle = s.cycle := rfl
@[simp] theorem State.setCore_agenda (s : State) (n : Nat) (k : Core) : (s.setCore n k).agenda = s.agenda := rfl
@[simp] theorem State.setCore_cur (s : State) (n : Nat) (k : Core) : (s.setCore n k).cur = s.cur := rfl
@[simp] theorem State.setCore_note (s : State) (n : Nat) (k : Core) : (s.setCore n k).note = s.note := rfl
@[simp] theorem State.setCore_freeCtr (s : State) (n : Nat) (k : Core) : (s.setCore n k).freeCtr = s.freeCtr := rfl
@[simp] theorem State.setCore_mem (s : State) (n : Nat) (k : Core) : (s.setCore n k).mem = s.mem := rfl
@[simp] theorem State.setCore_bad (s : State) (n : Nat) (k : Core) : (s.setCore n k).bad = s.bad := rfl
@[simp] theorem State.setCore_clusters (s : State) (n : Nat) (k : Core) : (s.setCore n k).clusters = s.clusters := rfl
@[simp] theorem State.setCore_parts (s : State) (n : Nat) (k : Core) : (s.setCore n k).parts = s.parts := rfl
@[simp] theorem State.setCore_reqs (s : State) (n : Nat) (k : Core) : (s.setCore n k).reqs = s.reqs := rfl
@[simp] theorem State.setCore_nextId (s : State) (n : Nat) (k : Core) : (s.setCore n k).nextId = s.nextId := rfl
@[simp] theorem State.setCore_pushes (s : State) (n : Nat) (k : Core) : (s.setCore n k).pushes = s.pushes := rfl
@[simp] theorem State.setCore_updates (s : State) (n : Nat) (k : Core) : (s.setCore n k).updates = s.updates := rfl
@[simp] theorem State.setCore_net (s : State) (n : Nat) (k : Core) : (s.setCore n k).net = s.net := rfl
@[simp] theorem State.setCore_far (s : State) (n : Nat) (k : Core) : (s.setCore n k).far = s.far := rfl
@[simp] theorem State.setCore_farStamp (s : State) (n : Nat) (k : Core) : (s.setCore n k).farStamp = s.farStamp := rfl
@[simp] theorem State.setCore_farWrites (s : State) (n : Nat) (k : Core) : (s.setCore n k).farWrites = s.farWrites := rfl
@[simp] theorem State.setCore_peerDir (s : State) (n : Nat) (k : Core) : (s.setCore n k).peerDir = s.peerDir := rfl
@[simp] theorem State.setCore_peerWaits (s : State) (n : Nat) (k : Core) : (s.setCore n k).peerWaits = s.peerWaits := rfl
@[simp] theorem State.setCore_notices (s : State) (n : Nat) (k : Core) : (s.setCore n k).notices = s.notices := rfl
@[simp] theorem State.setCore_engine (s : State) (n : Nat) (k : Core) : (s.setCore n k).engine = s.engine := rfl
@[simp] theorem State.setCore_fabric (s : State) (n : Nat) (k : Core) : (s.setCore n k).fabric = s.fabric := rfl
@[simp] theorem State.setCore_netPages (s : State) (n : Nat) (k : Core) : (s.setCore n k).netPages = s.netPages := rfl
@[simp] theorem State.setCore_security (s : State) (n : Nat) (k : Core) : (s.setCore n k).security = s.security := rfl
@[simp] theorem State.setCore_deadTags (s : State) (n : Nat) (k : Core) : (s.setCore n k).deadTags = s.deadTags := rfl
@[simp] theorem State.setCore_msi (s : State) (n : Nat) (k : Core) : (s.setCore n k).msi = s.msi := rfl
@[simp] theorem State.setCore_hostRead (s : State) (n : Nat) (k : Core) : (s.setCore n k).hostRead = s.hostRead := rfl
@[simp] theorem State.setCore_devWaits (s : State) (n : Nat) (k : Core) : (s.setCore n k).devWaits = s.devWaits := rfl
@[simp] theorem State.setCore_late (s : State) (n : Nat) (k : Core) : (s.setCore n k).late = s.late := rfl
@[simp] theorem State.setCore_epochs (s : State) (n : Nat) (k : Core) : (s.setCore n k).epochs = s.epochs := rfl
@[simp] theorem State.setCore_kw8 (s : State) (n : Nat) (k : Core) : (s.setCore n k).kw8 = s.kw8 := rfl

/-! ### State.setCluster -/

@[simp] theorem State.setCluster_cycle (s : State) (n : Nat) (k : Cluster) : (s.setCluster n k).cycle = s.cycle := rfl
@[simp] theorem State.setCluster_agenda (s : State) (n : Nat) (k : Cluster) : (s.setCluster n k).agenda = s.agenda := rfl
@[simp] theorem State.setCluster_cur (s : State) (n : Nat) (k : Cluster) : (s.setCluster n k).cur = s.cur := rfl
@[simp] theorem State.setCluster_note (s : State) (n : Nat) (k : Cluster) : (s.setCluster n k).note = s.note := rfl
@[simp] theorem State.setCluster_freeCtr (s : State) (n : Nat) (k : Cluster) : (s.setCluster n k).freeCtr = s.freeCtr := rfl
@[simp] theorem State.setCluster_mem (s : State) (n : Nat) (k : Cluster) : (s.setCluster n k).mem = s.mem := rfl
@[simp] theorem State.setCluster_bad (s : State) (n : Nat) (k : Cluster) : (s.setCluster n k).bad = s.bad := rfl
@[simp] theorem State.setCluster_cores (s : State) (n : Nat) (k : Cluster) : (s.setCluster n k).cores = s.cores := rfl
@[simp] theorem State.setCluster_parts (s : State) (n : Nat) (k : Cluster) : (s.setCluster n k).parts = s.parts := rfl
@[simp] theorem State.setCluster_reqs (s : State) (n : Nat) (k : Cluster) : (s.setCluster n k).reqs = s.reqs := rfl
@[simp] theorem State.setCluster_nextId (s : State) (n : Nat) (k : Cluster) : (s.setCluster n k).nextId = s.nextId := rfl
@[simp] theorem State.setCluster_pushes (s : State) (n : Nat) (k : Cluster) : (s.setCluster n k).pushes = s.pushes := rfl
@[simp] theorem State.setCluster_updates (s : State) (n : Nat) (k : Cluster) : (s.setCluster n k).updates = s.updates := rfl
@[simp] theorem State.setCluster_net (s : State) (n : Nat) (k : Cluster) : (s.setCluster n k).net = s.net := rfl
@[simp] theorem State.setCluster_far (s : State) (n : Nat) (k : Cluster) : (s.setCluster n k).far = s.far := rfl
@[simp] theorem State.setCluster_farStamp (s : State) (n : Nat) (k : Cluster) : (s.setCluster n k).farStamp = s.farStamp := rfl
@[simp] theorem State.setCluster_farWrites (s : State) (n : Nat) (k : Cluster) : (s.setCluster n k).farWrites = s.farWrites := rfl
@[simp] theorem State.setCluster_peerDir (s : State) (n : Nat) (k : Cluster) : (s.setCluster n k).peerDir = s.peerDir := rfl
@[simp] theorem State.setCluster_peerWaits (s : State) (n : Nat) (k : Cluster) : (s.setCluster n k).peerWaits = s.peerWaits := rfl
@[simp] theorem State.setCluster_notices (s : State) (n : Nat) (k : Cluster) : (s.setCluster n k).notices = s.notices := rfl
@[simp] theorem State.setCluster_engine (s : State) (n : Nat) (k : Cluster) : (s.setCluster n k).engine = s.engine := rfl
@[simp] theorem State.setCluster_fabric (s : State) (n : Nat) (k : Cluster) : (s.setCluster n k).fabric = s.fabric := rfl
@[simp] theorem State.setCluster_netPages (s : State) (n : Nat) (k : Cluster) : (s.setCluster n k).netPages = s.netPages := rfl
@[simp] theorem State.setCluster_security (s : State) (n : Nat) (k : Cluster) : (s.setCluster n k).security = s.security := rfl
@[simp] theorem State.setCluster_deadTags (s : State) (n : Nat) (k : Cluster) : (s.setCluster n k).deadTags = s.deadTags := rfl
@[simp] theorem State.setCluster_msi (s : State) (n : Nat) (k : Cluster) : (s.setCluster n k).msi = s.msi := rfl
@[simp] theorem State.setCluster_hostRead (s : State) (n : Nat) (k : Cluster) : (s.setCluster n k).hostRead = s.hostRead := rfl
@[simp] theorem State.setCluster_devWaits (s : State) (n : Nat) (k : Cluster) : (s.setCluster n k).devWaits = s.devWaits := rfl
@[simp] theorem State.setCluster_late (s : State) (n : Nat) (k : Cluster) : (s.setCluster n k).late = s.late := rfl
@[simp] theorem State.setCluster_epochs (s : State) (n : Nat) (k : Cluster) : (s.setCluster n k).epochs = s.epochs := rfl
@[simp] theorem State.setCluster_kw8 (s : State) (n : Nat) (k : Cluster) : (s.setCluster n k).kw8 = s.kw8 := rfl

/-! ### State.setPart -/

@[simp] theorem State.setPart_cycle (s : State) (p : Nat) (q : Part) : (s.setPart p q).cycle = s.cycle := rfl
@[simp] theorem State.setPart_agenda (s : State) (p : Nat) (q : Part) : (s.setPart p q).agenda = s.agenda := rfl
@[simp] theorem State.setPart_cur (s : State) (p : Nat) (q : Part) : (s.setPart p q).cur = s.cur := rfl
@[simp] theorem State.setPart_note (s : State) (p : Nat) (q : Part) : (s.setPart p q).note = s.note := rfl
@[simp] theorem State.setPart_freeCtr (s : State) (p : Nat) (q : Part) : (s.setPart p q).freeCtr = s.freeCtr := rfl
@[simp] theorem State.setPart_mem (s : State) (p : Nat) (q : Part) : (s.setPart p q).mem = s.mem := rfl
@[simp] theorem State.setPart_bad (s : State) (p : Nat) (q : Part) : (s.setPart p q).bad = s.bad := rfl
@[simp] theorem State.setPart_cores (s : State) (p : Nat) (q : Part) : (s.setPart p q).cores = s.cores := rfl
@[simp] theorem State.setPart_clusters (s : State) (p : Nat) (q : Part) : (s.setPart p q).clusters = s.clusters := rfl
@[simp] theorem State.setPart_reqs (s : State) (p : Nat) (q : Part) : (s.setPart p q).reqs = s.reqs := rfl
@[simp] theorem State.setPart_nextId (s : State) (p : Nat) (q : Part) : (s.setPart p q).nextId = s.nextId := rfl
@[simp] theorem State.setPart_pushes (s : State) (p : Nat) (q : Part) : (s.setPart p q).pushes = s.pushes := rfl
@[simp] theorem State.setPart_updates (s : State) (p : Nat) (q : Part) : (s.setPart p q).updates = s.updates := rfl
@[simp] theorem State.setPart_net (s : State) (p : Nat) (q : Part) : (s.setPart p q).net = s.net := rfl
@[simp] theorem State.setPart_far (s : State) (p : Nat) (q : Part) : (s.setPart p q).far = s.far := rfl
@[simp] theorem State.setPart_farStamp (s : State) (p : Nat) (q : Part) : (s.setPart p q).farStamp = s.farStamp := rfl
@[simp] theorem State.setPart_farWrites (s : State) (p : Nat) (q : Part) : (s.setPart p q).farWrites = s.farWrites := rfl
@[simp] theorem State.setPart_peerDir (s : State) (p : Nat) (q : Part) : (s.setPart p q).peerDir = s.peerDir := rfl
@[simp] theorem State.setPart_peerWaits (s : State) (p : Nat) (q : Part) : (s.setPart p q).peerWaits = s.peerWaits := rfl
@[simp] theorem State.setPart_notices (s : State) (p : Nat) (q : Part) : (s.setPart p q).notices = s.notices := rfl
@[simp] theorem State.setPart_engine (s : State) (p : Nat) (q : Part) : (s.setPart p q).engine = s.engine := rfl
@[simp] theorem State.setPart_fabric (s : State) (p : Nat) (q : Part) : (s.setPart p q).fabric = s.fabric := rfl
@[simp] theorem State.setPart_netPages (s : State) (p : Nat) (q : Part) : (s.setPart p q).netPages = s.netPages := rfl
@[simp] theorem State.setPart_security (s : State) (p : Nat) (q : Part) : (s.setPart p q).security = s.security := rfl
@[simp] theorem State.setPart_deadTags (s : State) (p : Nat) (q : Part) : (s.setPart p q).deadTags = s.deadTags := rfl
@[simp] theorem State.setPart_msi (s : State) (p : Nat) (q : Part) : (s.setPart p q).msi = s.msi := rfl
@[simp] theorem State.setPart_hostRead (s : State) (p : Nat) (q : Part) : (s.setPart p q).hostRead = s.hostRead := rfl
@[simp] theorem State.setPart_devWaits (s : State) (p : Nat) (q : Part) : (s.setPart p q).devWaits = s.devWaits := rfl
@[simp] theorem State.setPart_late (s : State) (p : Nat) (q : Part) : (s.setPart p q).late = s.late := rfl
@[simp] theorem State.setPart_epochs (s : State) (p : Nat) (q : Part) : (s.setPart p q).epochs = s.epochs := rfl
@[simp] theorem State.setPart_kw8 (s : State) (p : Nat) (q : Part) : (s.setPart p q).kw8 = s.kw8 := rfl

/-! ### State.setCtx -/

@[simp] theorem State.setCtx_cycle (s : State) (c : CtxId) (x : Ctx) : (s.setCtx c x).cycle = s.cycle := rfl
@[simp] theorem State.setCtx_agenda (s : State) (c : CtxId) (x : Ctx) : (s.setCtx c x).agenda = s.agenda := rfl
@[simp] theorem State.setCtx_cur (s : State) (c : CtxId) (x : Ctx) : (s.setCtx c x).cur = s.cur := rfl
@[simp] theorem State.setCtx_note (s : State) (c : CtxId) (x : Ctx) : (s.setCtx c x).note = s.note := rfl
@[simp] theorem State.setCtx_freeCtr (s : State) (c : CtxId) (x : Ctx) : (s.setCtx c x).freeCtr = s.freeCtr := rfl
@[simp] theorem State.setCtx_mem (s : State) (c : CtxId) (x : Ctx) : (s.setCtx c x).mem = s.mem := rfl
@[simp] theorem State.setCtx_bad (s : State) (c : CtxId) (x : Ctx) : (s.setCtx c x).bad = s.bad := rfl
@[simp] theorem State.setCtx_clusters (s : State) (c : CtxId) (x : Ctx) : (s.setCtx c x).clusters = s.clusters := rfl
@[simp] theorem State.setCtx_parts (s : State) (c : CtxId) (x : Ctx) : (s.setCtx c x).parts = s.parts := rfl
@[simp] theorem State.setCtx_reqs (s : State) (c : CtxId) (x : Ctx) : (s.setCtx c x).reqs = s.reqs := rfl
@[simp] theorem State.setCtx_nextId (s : State) (c : CtxId) (x : Ctx) : (s.setCtx c x).nextId = s.nextId := rfl
@[simp] theorem State.setCtx_pushes (s : State) (c : CtxId) (x : Ctx) : (s.setCtx c x).pushes = s.pushes := rfl
@[simp] theorem State.setCtx_updates (s : State) (c : CtxId) (x : Ctx) : (s.setCtx c x).updates = s.updates := rfl
@[simp] theorem State.setCtx_net (s : State) (c : CtxId) (x : Ctx) : (s.setCtx c x).net = s.net := rfl
@[simp] theorem State.setCtx_far (s : State) (c : CtxId) (x : Ctx) : (s.setCtx c x).far = s.far := rfl
@[simp] theorem State.setCtx_farStamp (s : State) (c : CtxId) (x : Ctx) : (s.setCtx c x).farStamp = s.farStamp := rfl
@[simp] theorem State.setCtx_farWrites (s : State) (c : CtxId) (x : Ctx) : (s.setCtx c x).farWrites = s.farWrites := rfl
@[simp] theorem State.setCtx_peerDir (s : State) (c : CtxId) (x : Ctx) : (s.setCtx c x).peerDir = s.peerDir := rfl
@[simp] theorem State.setCtx_peerWaits (s : State) (c : CtxId) (x : Ctx) : (s.setCtx c x).peerWaits = s.peerWaits := rfl
@[simp] theorem State.setCtx_notices (s : State) (c : CtxId) (x : Ctx) : (s.setCtx c x).notices = s.notices := rfl
@[simp] theorem State.setCtx_engine (s : State) (c : CtxId) (x : Ctx) : (s.setCtx c x).engine = s.engine := rfl
@[simp] theorem State.setCtx_fabric (s : State) (c : CtxId) (x : Ctx) : (s.setCtx c x).fabric = s.fabric := rfl
@[simp] theorem State.setCtx_netPages (s : State) (c : CtxId) (x : Ctx) : (s.setCtx c x).netPages = s.netPages := rfl
@[simp] theorem State.setCtx_security (s : State) (c : CtxId) (x : Ctx) : (s.setCtx c x).security = s.security := rfl
@[simp] theorem State.setCtx_deadTags (s : State) (c : CtxId) (x : Ctx) : (s.setCtx c x).deadTags = s.deadTags := rfl
@[simp] theorem State.setCtx_msi (s : State) (c : CtxId) (x : Ctx) : (s.setCtx c x).msi = s.msi := rfl
@[simp] theorem State.setCtx_hostRead (s : State) (c : CtxId) (x : Ctx) : (s.setCtx c x).hostRead = s.hostRead := rfl
@[simp] theorem State.setCtx_devWaits (s : State) (c : CtxId) (x : Ctx) : (s.setCtx c x).devWaits = s.devWaits := rfl
@[simp] theorem State.setCtx_late (s : State) (c : CtxId) (x : Ctx) : (s.setCtx c x).late = s.late := rfl
@[simp] theorem State.setCtx_epochs (s : State) (c : CtxId) (x : Ctx) : (s.setCtx c x).epochs = s.epochs := rfl
@[simp] theorem State.setCtx_kw8 (s : State) (c : CtxId) (x : Ctx) : (s.setCtx c x).kw8 = s.kw8 := rfl

/-! ### State.setMe -/

@[simp] theorem State.setMe_cycle (s : State) (x : Ctx) : (s.setMe x).cycle = s.cycle := rfl
@[simp] theorem State.setMe_agenda (s : State) (x : Ctx) : (s.setMe x).agenda = s.agenda := rfl
@[simp] theorem State.setMe_cur (s : State) (x : Ctx) : (s.setMe x).cur = s.cur := rfl
@[simp] theorem State.setMe_note (s : State) (x : Ctx) : (s.setMe x).note = s.note := rfl
@[simp] theorem State.setMe_freeCtr (s : State) (x : Ctx) : (s.setMe x).freeCtr = s.freeCtr := rfl
@[simp] theorem State.setMe_mem (s : State) (x : Ctx) : (s.setMe x).mem = s.mem := rfl
@[simp] theorem State.setMe_bad (s : State) (x : Ctx) : (s.setMe x).bad = s.bad := rfl
@[simp] theorem State.setMe_clusters (s : State) (x : Ctx) : (s.setMe x).clusters = s.clusters := rfl
@[simp] theorem State.setMe_parts (s : State) (x : Ctx) : (s.setMe x).parts = s.parts := rfl
@[simp] theorem State.setMe_reqs (s : State) (x : Ctx) : (s.setMe x).reqs = s.reqs := rfl
@[simp] theorem State.setMe_nextId (s : State) (x : Ctx) : (s.setMe x).nextId = s.nextId := rfl
@[simp] theorem State.setMe_pushes (s : State) (x : Ctx) : (s.setMe x).pushes = s.pushes := rfl
@[simp] theorem State.setMe_updates (s : State) (x : Ctx) : (s.setMe x).updates = s.updates := rfl
@[simp] theorem State.setMe_net (s : State) (x : Ctx) : (s.setMe x).net = s.net := rfl
@[simp] theorem State.setMe_far (s : State) (x : Ctx) : (s.setMe x).far = s.far := rfl
@[simp] theorem State.setMe_farStamp (s : State) (x : Ctx) : (s.setMe x).farStamp = s.farStamp := rfl
@[simp] theorem State.setMe_farWrites (s : State) (x : Ctx) : (s.setMe x).farWrites = s.farWrites := rfl
@[simp] theorem State.setMe_peerDir (s : State) (x : Ctx) : (s.setMe x).peerDir = s.peerDir := rfl
@[simp] theorem State.setMe_peerWaits (s : State) (x : Ctx) : (s.setMe x).peerWaits = s.peerWaits := rfl
@[simp] theorem State.setMe_notices (s : State) (x : Ctx) : (s.setMe x).notices = s.notices := rfl
@[simp] theorem State.setMe_engine (s : State) (x : Ctx) : (s.setMe x).engine = s.engine := rfl
@[simp] theorem State.setMe_fabric (s : State) (x : Ctx) : (s.setMe x).fabric = s.fabric := rfl
@[simp] theorem State.setMe_netPages (s : State) (x : Ctx) : (s.setMe x).netPages = s.netPages := rfl
@[simp] theorem State.setMe_security (s : State) (x : Ctx) : (s.setMe x).security = s.security := rfl
@[simp] theorem State.setMe_deadTags (s : State) (x : Ctx) : (s.setMe x).deadTags = s.deadTags := rfl
@[simp] theorem State.setMe_msi (s : State) (x : Ctx) : (s.setMe x).msi = s.msi := rfl
@[simp] theorem State.setMe_hostRead (s : State) (x : Ctx) : (s.setMe x).hostRead = s.hostRead := rfl
@[simp] theorem State.setMe_devWaits (s : State) (x : Ctx) : (s.setMe x).devWaits = s.devWaits := rfl
@[simp] theorem State.setMe_late (s : State) (x : Ctx) : (s.setMe x).late = s.late := rfl
@[simp] theorem State.setMe_epochs (s : State) (x : Ctx) : (s.setMe x).epochs = s.epochs := rfl
@[simp] theorem State.setMe_kw8 (s : State) (x : Ctx) : (s.setMe x).kw8 = s.kw8 := rfl

/-! ### State.setMine -/

@[simp] theorem State.setMine_cycle (s : State) (k : Core) : (s.setMine k).cycle = s.cycle := rfl
@[simp] theorem State.setMine_agenda (s : State) (k : Core) : (s.setMine k).agenda = s.agenda := rfl
@[simp] theorem State.setMine_cur (s : State) (k : Core) : (s.setMine k).cur = s.cur := rfl
@[simp] theorem State.setMine_note (s : State) (k : Core) : (s.setMine k).note = s.note := rfl
@[simp] theorem State.setMine_freeCtr (s : State) (k : Core) : (s.setMine k).freeCtr = s.freeCtr := rfl
@[simp] theorem State.setMine_mem (s : State) (k : Core) : (s.setMine k).mem = s.mem := rfl
@[simp] theorem State.setMine_bad (s : State) (k : Core) : (s.setMine k).bad = s.bad := rfl
@[simp] theorem State.setMine_clusters (s : State) (k : Core) : (s.setMine k).clusters = s.clusters := rfl
@[simp] theorem State.setMine_parts (s : State) (k : Core) : (s.setMine k).parts = s.parts := rfl
@[simp] theorem State.setMine_reqs (s : State) (k : Core) : (s.setMine k).reqs = s.reqs := rfl
@[simp] theorem State.setMine_nextId (s : State) (k : Core) : (s.setMine k).nextId = s.nextId := rfl
@[simp] theorem State.setMine_pushes (s : State) (k : Core) : (s.setMine k).pushes = s.pushes := rfl
@[simp] theorem State.setMine_updates (s : State) (k : Core) : (s.setMine k).updates = s.updates := rfl
@[simp] theorem State.setMine_net (s : State) (k : Core) : (s.setMine k).net = s.net := rfl
@[simp] theorem State.setMine_far (s : State) (k : Core) : (s.setMine k).far = s.far := rfl
@[simp] theorem State.setMine_farStamp (s : State) (k : Core) : (s.setMine k).farStamp = s.farStamp := rfl
@[simp] theorem State.setMine_farWrites (s : State) (k : Core) : (s.setMine k).farWrites = s.farWrites := rfl
@[simp] theorem State.setMine_peerDir (s : State) (k : Core) : (s.setMine k).peerDir = s.peerDir := rfl
@[simp] theorem State.setMine_peerWaits (s : State) (k : Core) : (s.setMine k).peerWaits = s.peerWaits := rfl
@[simp] theorem State.setMine_notices (s : State) (k : Core) : (s.setMine k).notices = s.notices := rfl
@[simp] theorem State.setMine_engine (s : State) (k : Core) : (s.setMine k).engine = s.engine := rfl
@[simp] theorem State.setMine_fabric (s : State) (k : Core) : (s.setMine k).fabric = s.fabric := rfl
@[simp] theorem State.setMine_netPages (s : State) (k : Core) : (s.setMine k).netPages = s.netPages := rfl
@[simp] theorem State.setMine_security (s : State) (k : Core) : (s.setMine k).security = s.security := rfl
@[simp] theorem State.setMine_deadTags (s : State) (k : Core) : (s.setMine k).deadTags = s.deadTags := rfl
@[simp] theorem State.setMine_msi (s : State) (k : Core) : (s.setMine k).msi = s.msi := rfl
@[simp] theorem State.setMine_hostRead (s : State) (k : Core) : (s.setMine k).hostRead = s.hostRead := rfl
@[simp] theorem State.setMine_devWaits (s : State) (k : Core) : (s.setMine k).devWaits = s.devWaits := rfl
@[simp] theorem State.setMine_late (s : State) (k : Core) : (s.setMine k).late = s.late := rfl
@[simp] theorem State.setMine_epochs (s : State) (k : Core) : (s.setMine k).epochs = s.epochs := rfl
@[simp] theorem State.setMine_kw8 (s : State) (k : Core) : (s.setMine k).kw8 = s.kw8 := rfl

/-! ### Core.setCtx, and a register or a poison bit of a context -/

@[simp] theorem Core.setCtx_group (k : Core) (i : Nat) (x : Ctx) : (k.setCtx i x).group = k.group := rfl
@[simp] theorem Core.setCtx_rr (k : Core) (i : Nat) (x : Ctx) : (k.setCtx i x).rr = k.rr := rfl
@[simp] theorem Core.setCtx_nextIssue (k : Core) (i : Nat) (x : Ctx) : (k.setCtx i x).nextIssue = k.nextIssue := rfl
@[simp] theorem Core.setCtx_issueSeq (k : Core) (i : Nat) (x : Ctx) : (k.setCtx i x).issueSeq = k.issueSeq := rfl
@[simp] theorem Core.setCtx_halted (k : Core) (i : Nat) (x : Ctx) : (k.setCtx i x).halted = k.halted := rfl
@[simp] theorem Core.setCtx_spsize (k : Core) (i : Nat) (x : Ctx) : (k.setCtx i x).spsize = k.spsize := rfl
@[simp] theorem Core.setCtx_pquota (k : Core) (i : Nat) (x : Ctx) : (k.setCtx i x).pquota = k.pquota := rfl
@[simp] theorem Core.setCtx_prefused (k : Core) (i : Nat) (x : Ctx) : (k.setCtx i x).prefused = k.prefused := rfl
@[simp] theorem Core.setCtx_pdenied (k : Core) (i : Nat) (x : Ctx) : (k.setCtx i x).pdenied = k.pdenied := rfl
@[simp] theorem Core.setCtx_qroute (k : Core) (i : Nat) (x : Ctx) : (k.setCtx i x).qroute = k.qroute := rfl
@[simp] theorem Core.setCtx_msgsent (k : Core) (i : Nat) (x : Ctx) : (k.setCtx i x).msgsent = k.msgsent := rfl
@[simp] theorem Core.setCtx_msgrecv (k : Core) (i : Nat) (x : Ctx) : (k.setCtx i x).msgrecv = k.msgrecv := rfl
@[simp] theorem Core.setCtx_hstk (k : Core) (i : Nat) (x : Ctx) : (k.setCtx i x).hstk = k.hstk := rfl
@[simp] theorem Core.setCtx_hstksz (k : Core) (i : Nat) (x : Ctx) : (k.setCtx i x).hstksz = k.hstksz := rfl
@[simp] theorem Core.setCtx_grp (k : Core) (i : Nat) (x : Ctx) : (k.setCtx i x).grp = k.grp := rfl
@[simp] theorem Core.setCtx_ngrp (k : Core) (i : Nat) (x : Ctx) : (k.setCtx i x).ngrp = k.ngrp := rfl
@[simp] theorem Core.setCtx_launch (k : Core) (i : Nat) (x : Ctx) : (k.setCtx i x).launch = k.launch := rfl
@[simp] theorem Core.setCtx_dm (k : Core) (i : Nat) (x : Ctx) : (k.setCtx i x).dm = k.dm := rfl
@[simp] theorem Core.setCtx_trwait (k : Core) (i : Nat) (x : Ctx) : (k.setCtx i x).trwait = k.trwait := rfl
@[simp] theorem Core.setCtx_bankslip (k : Core) (i : Nat) (x : Ctx) : (k.setCtx i x).bankslip = k.bankslip := rfl
@[simp] theorem Core.setCtx_shadow (k : Core) (i : Nat) (x : Ctx) : (k.setCtx i x).shadow = k.shadow := rfl
@[simp] theorem Core.setCtx_active (k : Core) (i : Nat) (x : Ctx) : (k.setCtx i x).active = k.active := rfl
@[simp] theorem Core.setCtx_amaxp (k : Core) (i : Nat) (x : Ctx) : (k.setCtx i x).amaxp = k.amaxp := rfl
@[simp] theorem Core.setCtx_amaxsc (k : Core) (i : Nat) (x : Ctx) : (k.setCtx i x).amaxsc = k.amaxsc := rfl
@[simp] theorem Core.setCtx_olist (k : Core) (i : Nat) (x : Ctx) : (k.setCtx i x).olist = k.olist := rfl
@[simp] theorem Core.setCtx_olim (k : Core) (i : Nat) (x : Ctx) : (k.setCtx i x).olim = k.olim := rfl
@[simp] theorem Core.setCtx_ocnt (k : Core) (i : Nat) (x : Ctx) : (k.setCtx i x).ocnt = k.ocnt := rfl
@[simp] theorem Core.setCtx_adtab (k : Core) (i : Nat) (x : Ctx) : (k.setCtx i x).adtab = k.adtab := rfl
@[simp] theorem Core.setCtx_rqtab (k : Core) (i : Nat) (x : Ctx) : (k.setCtx i x).rqtab = k.rqtab := rfl
@[simp] theorem Core.setCtx_mflog (k : Core) (i : Nat) (x : Ctx) : (k.setCtx i x).mflog = k.mflog := rfl
@[simp] theorem Core.setCtx_mdone (k : Core) (i : Nat) (x : Ctx) : (k.setCtx i x).mdone = k.mdone := rfl
@[simp] theorem Core.setCtx_strcnt (k : Core) (i : Nat) (x : Ctx) : (k.setCtx i x).strcnt = k.strcnt := rfl
@[simp] theorem Core.setCtx_strterm (k : Core) (i : Nat) (x : Ctx) : (k.setCtx i x).strterm = k.strterm := rfl
@[simp] theorem Core.setCtx_strtgt (k : Core) (i : Nat) (x : Ctx) : (k.setCtx i x).strtgt = k.strtgt := rfl
@[simp] theorem Core.setCtx_timerAt (k : Core) (i : Nat) (x : Ctx) : (k.setCtx i x).timerAt = k.timerAt := rfl
@[simp] theorem Core.setCtx_strDue (k : Core) (i : Nat) (x : Ctx) : (k.setCtx i x).strDue = k.strDue := rfl
@[simp] theorem Core.setCtx_strPulse (k : Core) (i : Nat) (x : Ctx) : (k.setCtx i x).strPulse = k.strPulse := rfl
@[simp] theorem Core.setCtx_strCons (k : Core) (i : Nat) (x : Ctx) : (k.setCtx i x).strCons = k.strCons := rfl
@[simp] theorem Core.setCtx_evcnt (k : Core) (i : Nat) (x : Ctx) : (k.setCtx i x).evcnt = k.evcnt := rfl
@[simp] theorem Core.setCtx_asid (k : Core) (i : Nat) (x : Ctx) : (k.setCtx i x).asid = k.asid := rfl
@[simp] theorem Core.setCtx_ttab (k : Core) (i : Nat) (x : Ctx) : (k.setCtx i x).ttab = k.ttab := rfl
@[simp] theorem Core.setCtx_tenlease (k : Core) (i : Nat) (x : Ctx) : (k.setCtx i x).tenlease = k.tenlease := rfl
@[simp] theorem Core.setCtx_peertab (k : Core) (i : Nat) (x : Ctx) : (k.setCtx i x).peertab = k.peertab := rfl
@[simp] theorem Core.setCtx_scopedemote (k : Core) (i : Nat) (x : Ctx) : (k.setCtx i x).scopedemote = k.scopedemote := rfl
@[simp] theorem Core.setCtx_dly (k : Core) (i : Nat) (x : Ctx) : (k.setCtx i x).dly = k.dly := rfl
@[simp] theorem Core.setCtx_dlyn (k : Core) (i : Nat) (x : Ctx) : (k.setCtx i x).dlyn = k.dlyn := rfl
@[simp] theorem Core.setCtx_imem (k : Core) (i : Nat) (x : Ctx) : (k.setCtx i x).imem = k.imem := rfl
@[simp] theorem Core.setCtx_slots (k : Core) (i : Nat) (x : Ctx) : (k.setCtx i x).slots = k.slots := rfl
@[simp] theorem Core.setCtx_fetchSeq (k : Core) (i : Nat) (x : Ctx) : (k.setCtx i x).fetchSeq = k.fetchSeq := rfl
@[simp] theorem Core.setCtx_spad (k : Core) (i : Nat) (x : Ctx) : (k.setCtx i x).spad = k.spad := rfl
@[simp] theorem Core.setCtx_accs (k : Core) (i : Nat) (x : Ctx) : (k.setCtx i x).accs = k.accs := rfl
@[simp] theorem Core.setCtx_mq (k : Core) (i : Nat) (x : Ctx) : (k.setCtx i x).mq = k.mq := rfl
@[simp] theorem Core.setCtx_mseq (k : Core) (i : Nat) (x : Ctx) : (k.setCtx i x).mseq = k.mseq := rfl
@[simp] theorem Core.setCtx_ports (k : Core) (i : Nat) (x : Ctx) : (k.setCtx i x).ports = k.ports := rfl
@[simp] theorem Core.setCtx_l1 (k : Core) (i : Nat) (x : Ctx) : (k.setCtx i x).l1 = k.l1 := rfl
@[simp] theorem Core.setCtx_ticket (k : Core) (i : Nat) (x : Ctx) : (k.setCtx i x).ticket = k.ticket := rfl
@[simp] theorem Core.setCtx_vserved (k : Core) (i : Nat) (x : Ctx) : (k.setCtx i x).vserved = k.vserved := rfl
@[simp] theorem Core.setCtx_lanes (k : Core) (i : Nat) (x : Ctx) : (k.setCtx i x).lanes = k.lanes := rfl
@[simp] theorem Core.setCtx_startAt (k : Core) (i : Nat) (x : Ctx) : (k.setCtx i x).startAt = k.startAt := rfl
@[simp] theorem Core.setCtx_cntMiss (k : Core) (i : Nat) (x : Ctx) : (k.setCtx i x).cntMiss = k.cntMiss := rfl
@[simp] theorem Core.setCtx_cntPush (k : Core) (i : Nat) (x : Ctx) : (k.setCtx i x).cntPush = k.cntPush := rfl
@[simp] theorem Core.setCtx_cntLane (k : Core) (i : Nat) (x : Ctx) : (k.setCtx i x).cntLane = k.cntLane := rfl
@[simp] theorem Core.setCtx_cntMatrix (k : Core) (i : Nat) (x : Ctx) : (k.setCtx i x).cntMatrix = k.cntMatrix := rfl
@[simp] theorem Core.setCtx_cntEngine (k : Core) (i : Nat) (x : Ctx) : (k.setCtx i x).cntEngine = k.cntEngine := rfl
@[simp] theorem Core.setCtx_sent (k : Core) (i : Nat) (x : Ctx) : (k.setCtx i x).sent = k.sent := rfl
@[simp] theorem Core.setCtx_recv (k : Core) (i : Nat) (x : Ctx) : (k.setCtx i x).recv = k.recv := rfl
@[simp] theorem Core.setCtx_phase (k : Core) (i : Nat) (x : Ctx) : (k.setCtx i x).phase = k.phase := rfl
@[simp] theorem Core.setCtx_fwdBuf (k : Core) (i : Nat) (x : Ctx) : (k.setCtx i x).fwdBuf = k.fwdBuf := rfl
@[simp] theorem Core.setCtx_dmpc (k : Core) (i : Nat) (x : Ctx) : (k.setCtx i x).dmpc = k.dmpc := rfl

@[simp] theorem Ctx.setReg_live (x : Ctx) (r : Reg) (v : Word) : (x.setReg r v).live = x.live := by unfold Ctx.setReg; split <;> rfl
@[simp] theorem Ctx.setReg_pc (x : Ctx) (r : Reg) (v : Word) : (x.setReg r v).pc = x.pc := by unfold Ctx.setReg; split <;> rfl
@[simp] theorem Ctx.setReg_prec (x : Ctx) (r : Reg) (v : Word) : (x.setReg r v).prec = x.prec := by unfold Ctx.setReg; split <;> rfl
@[simp] theorem Ctx.setReg_p (x : Ctx) (r : Reg) (v : Word) : (x.setReg r v).p = x.p := by unfold Ctx.setReg; split <;> rfl
@[simp] theorem Ctx.setReg_m (x : Ctx) (r : Reg) (v : Word) : (x.setReg r v).m = x.m := by unfold Ctx.setReg; split <;> rfl
@[simp] theorem Ctx.setReg_priv (x : Ctx) (r : Reg) (v : Word) : (x.setReg r v).priv = x.priv := by unfold Ctx.setReg; split <;> rfl
@[simp] theorem Ctx.setReg_frm (x : Ctx) (r : Reg) (v : Word) : (x.setReg r v).frm = x.frm := by unfold Ctx.setReg; split <;> rfl
@[simp] theorem Ctx.setReg_fflags (x : Ctx) (r : Reg) (v : Word) : (x.setReg r v).fflags = x.fflags := by unfold Ctx.setReg; split <;> rfl
@[simp] theorem Ctx.setReg_chk (x : Ctx) (r : Reg) (v : Word) : (x.setReg r v).chk = x.chk := by unfold Ctx.setReg; split <;> rfl
@[simp] theorem Ctx.setReg_sbase (x : Ctx) (r : Reg) (v : Word) : (x.setReg r v).sbase = x.sbase := by unfold Ctx.setReg; split <;> rfl
@[simp] theorem Ctx.setReg_slim (x : Ctx) (r : Reg) (v : Word) : (x.setReg r v).slim = x.slim := by unfold Ctx.setReg; split <;> rfl
@[simp] theorem Ctx.setReg_rptst (x : Ctx) (r : Reg) (v : Word) : (x.setReg r v).rptst = x.rptst := by unfold Ctx.setReg; split <;> rfl
@[simp] theorem Ctx.setReg_tcause (x : Ctx) (r : Reg) (v : Word) : (x.setReg r v).tcause = x.tcause := by unfold Ctx.setReg; split <;> rfl
@[simp] theorem Ctx.setReg_tpc (x : Ctx) (r : Reg) (v : Word) : (x.setReg r v).tpc = x.tpc := by unfold Ctx.setReg; split <;> rfl
@[simp] theorem Ctx.setReg_tval (x : Ctx) (r : Reg) (v : Word) : (x.setReg r v).tval = x.tval := by unfold Ctx.setReg; split <;> rfl
@[simp] theorem Ctx.setReg_fpc (x : Ctx) (r : Reg) (v : Word) : (x.setReg r v).fpc = x.fpc := by unfold Ctx.setReg; split <;> rfl
@[simp] theorem Ctx.setReg_tvec (x : Ctx) (r : Reg) (v : Word) : (x.setReg r v).tvec = x.tvec := by unfold Ctx.setReg; split <;> rfl
@[simp] theorem Ctx.setReg_sprv (x : Ctx) (r : Reg) (v : Word) : (x.setReg r v).sprv = x.sprv := by unfold Ctx.setReg; split <;> rfl
@[simp] theorem Ctx.setReg_deff (x : Ctx) (r : Reg) (v : Word) : (x.setReg r v).deff = x.deff := by unfold Ctx.setReg; split <;> rfl
@[simp] theorem Ctx.setReg_icount (x : Ctx) (r : Reg) (v : Word) : (x.setReg r v).icount = x.icount := by unfold Ctx.setReg; split <;> rfl
@[simp] theorem Ctx.setReg_vshare (x : Ctx) (r : Reg) (v : Word) : (x.setReg r v).vshare = x.vshare := by unfold Ctx.setReg; split <;> rfl
@[simp] theorem Ctx.setReg_fjwait (x : Ctx) (r : Reg) (v : Word) : (x.setReg r v).fjwait = x.fjwait := by unfold Ctx.setReg; split <;> rfl
@[simp] theorem Ctx.setReg_frame (x : Ctx) (r : Reg) (v : Word) : (x.setReg r v).frame = x.frame := by unfold Ctx.setReg; split <;> rfl
@[simp] theorem Ctx.setReg_nextIssue (x : Ctx) (r : Reg) (v : Word) : (x.setReg r v).nextIssue = x.nextIssue := by unfold Ctx.setReg; split <;> rfl
@[simp] theorem Ctx.setReg_inflight (x : Ctx) (r : Reg) (v : Word) : (x.setReg r v).inflight = x.inflight := by unfold Ctx.setReg; split <;> rfl
@[simp] theorem Ctx.setReg_varRes (x : Ctx) (r : Reg) (v : Word) : (x.setReg r v).varRes = x.varRes := by unfold Ctx.setReg; split <;> rfl
@[simp] theorem Ctx.setReg_fpHold (x : Ctx) (r : Reg) (v : Word) : (x.setReg r v).fpHold = x.fpHold := by unfold Ctx.setReg; split <;> rfl
@[simp] theorem Ctx.setReg_deferred (x : Ctx) (r : Reg) (v : Word) : (x.setReg r v).deferred = x.deferred := by unfold Ctx.setReg; split <;> rfl
@[simp] theorem Ctx.setReg_sends (x : Ctx) (r : Reg) (v : Word) : (x.setReg r v).sends = x.sends := by unfold Ctx.setReg; split <;> rfl
@[simp] theorem Ctx.setReg_stage (x : Ctx) (r : Reg) (v : Word) : (x.setReg r v).stage = x.stage := by unfold Ctx.setReg; split <;> rfl
@[simp] theorem Ctx.setReg_mfault (x : Ctx) (r : Reg) (v : Word) : (x.setReg r v).mfault = x.mfault := by unfold Ctx.setReg; split <;> rfl
@[simp] theorem Ctx.setReg_mlast (x : Ctx) (r : Reg) (v : Word) : (x.setReg r v).mlast = x.mlast := by unfold Ctx.setReg; split <;> rfl
@[simp] theorem Ctx.setReg_wake (x : Ctx) (r : Reg) (v : Word) : (x.setReg r v).wake = x.wake := by unfold Ctx.setReg; split <;> rfl
@[simp] theorem Ctx.setReg_exitVal (x : Ctx) (r : Reg) (v : Word) : (x.setReg r v).exitVal = x.exitVal := by unfold Ctx.setReg; split <;> rfl
@[simp] theorem Ctx.setReg_killed (x : Ctx) (r : Reg) (v : Word) : (x.setReg r v).killed = x.killed := by unfold Ctx.setReg; split <;> rfl
@[simp] theorem Ctx.setReg_killReq (x : Ctx) (r : Reg) (v : Word) : (x.setReg r v).killReq = x.killReq := by unfold Ctx.setReg; split <;> rfl
@[simp] theorem Ctx.setReg_vq (x : Ctx) (r : Reg) (v : Word) : (x.setReg r v).vq = x.vq := by unfold Ctx.setReg; split <;> rfl
@[simp] theorem Ctx.setReg_deficit (x : Ctx) (r : Reg) (v : Word) : (x.setReg r v).deficit = x.deficit := by unfold Ctx.setReg; split <;> rfl
@[simp] theorem Ctx.setReg_cntReady (x : Ctx) (r : Reg) (v : Word) : (x.setReg r v).cntReady = x.cntReady := by unfold Ctx.setReg; split <;> rfl
@[simp] theorem Ctx.setReg_cntHeld (x : Ctx) (r : Reg) (v : Word) : (x.setReg r v).cntHeld = x.cntHeld := by unfold Ctx.setReg; split <;> rfl
@[simp] theorem Ctx.setReg_failed (x : Ctx) (r : Reg) (v : Word) : (x.setReg r v).failed = x.failed := by unfold Ctx.setReg; split <;> rfl
@[simp] theorem Ctx.setReg_ring (x : Ctx) (r : Reg) (v : Word) : (x.setReg r v).ring = x.ring := by unfold Ctx.setReg; split <;> rfl
@[simp] theorem Ctx.setReg_ranges (x : Ctx) (r : Reg) (v : Word) : (x.setReg r v).ranges = x.ranges := by unfold Ctx.setReg; split <;> rfl
@[simp] theorem Ctx.setReg_yieldTo (x : Ctx) (r : Reg) (v : Word) : (x.setReg r v).yieldTo = x.yieldTo := by unfold Ctx.setReg; split <;> rfl
@[simp] theorem Ctx.setReg_enter (x : Ctx) (r : Reg) (v : Word) : (x.setReg r v).enter = x.enter := by unfold Ctx.setReg; split <;> rfl
@[simp] theorem Ctx.setReg_fwd (x : Ctx) (r : Reg) (v : Word) : (x.setReg r v).fwd = x.fwd := by unfold Ctx.setReg; split <;> rfl
@[simp] theorem Ctx.setReg_wait (x : Ctx) (r : Reg) (v : Word) : (x.setReg r v).wait = x.wait := by unfold Ctx.setReg; split <;> rfl
@[simp] theorem Ctx.setReg_service (x : Ctx) (r : Reg) (v : Word) : (x.setReg r v).service = x.service := by unfold Ctx.setReg; split <;> rfl
@[simp] theorem Ctx.setReg_missed (x : Ctx) (r : Reg) (v : Word) : (x.setReg r v).missed = x.missed := by unfold Ctx.setReg; split <;> rfl
@[simp] theorem Ctx.setReg_defDepth (x : Ctx) (r : Reg) (v : Word) : (x.setReg r v).defDepth = x.defDepth := by unfold Ctx.setReg; split <;> rfl

@[simp] theorem Ctx.setPoison_live (x : Ctx) (r : Reg) (pc va : Word) : (x.setPoison r pc va).live = x.live := by unfold Ctx.setPoison; split <;> rfl
@[simp] theorem Ctx.setPoison_pc (x : Ctx) (r : Reg) (pc va : Word) : (x.setPoison r pc va).pc = x.pc := by unfold Ctx.setPoison; split <;> rfl
@[simp] theorem Ctx.setPoison_g (x : Ctx) (r : Reg) (pc va : Word) : (x.setPoison r pc va).g = x.g := by unfold Ctx.setPoison; split <;> rfl
@[simp] theorem Ctx.setPoison_p (x : Ctx) (r : Reg) (pc va : Word) : (x.setPoison r pc va).p = x.p := by unfold Ctx.setPoison; split <;> rfl
@[simp] theorem Ctx.setPoison_m (x : Ctx) (r : Reg) (pc va : Word) : (x.setPoison r pc va).m = x.m := by unfold Ctx.setPoison; split <;> rfl
@[simp] theorem Ctx.setPoison_priv (x : Ctx) (r : Reg) (pc va : Word) : (x.setPoison r pc va).priv = x.priv := by unfold Ctx.setPoison; split <;> rfl
@[simp] theorem Ctx.setPoison_frm (x : Ctx) (r : Reg) (pc va : Word) : (x.setPoison r pc va).frm = x.frm := by unfold Ctx.setPoison; split <;> rfl
@[simp] theorem Ctx.setPoison_fflags (x : Ctx) (r : Reg) (pc va : Word) : (x.setPoison r pc va).fflags = x.fflags := by unfold Ctx.setPoison; split <;> rfl
@[simp] theorem Ctx.setPoison_chk (x : Ctx) (r : Reg) (pc va : Word) : (x.setPoison r pc va).chk = x.chk := by unfold Ctx.setPoison; split <;> rfl
@[simp] theorem Ctx.setPoison_sbase (x : Ctx) (r : Reg) (pc va : Word) : (x.setPoison r pc va).sbase = x.sbase := by unfold Ctx.setPoison; split <;> rfl
@[simp] theorem Ctx.setPoison_slim (x : Ctx) (r : Reg) (pc va : Word) : (x.setPoison r pc va).slim = x.slim := by unfold Ctx.setPoison; split <;> rfl
@[simp] theorem Ctx.setPoison_rptst (x : Ctx) (r : Reg) (pc va : Word) : (x.setPoison r pc va).rptst = x.rptst := by unfold Ctx.setPoison; split <;> rfl
@[simp] theorem Ctx.setPoison_tcause (x : Ctx) (r : Reg) (pc va : Word) : (x.setPoison r pc va).tcause = x.tcause := by unfold Ctx.setPoison; split <;> rfl
@[simp] theorem Ctx.setPoison_tpc (x : Ctx) (r : Reg) (pc va : Word) : (x.setPoison r pc va).tpc = x.tpc := by unfold Ctx.setPoison; split <;> rfl
@[simp] theorem Ctx.setPoison_tval (x : Ctx) (r : Reg) (pc va : Word) : (x.setPoison r pc va).tval = x.tval := by unfold Ctx.setPoison; split <;> rfl
@[simp] theorem Ctx.setPoison_fpc (x : Ctx) (r : Reg) (pc va : Word) : (x.setPoison r pc va).fpc = x.fpc := by unfold Ctx.setPoison; split <;> rfl
@[simp] theorem Ctx.setPoison_tvec (x : Ctx) (r : Reg) (pc va : Word) : (x.setPoison r pc va).tvec = x.tvec := by unfold Ctx.setPoison; split <;> rfl
@[simp] theorem Ctx.setPoison_sprv (x : Ctx) (r : Reg) (pc va : Word) : (x.setPoison r pc va).sprv = x.sprv := by unfold Ctx.setPoison; split <;> rfl
@[simp] theorem Ctx.setPoison_deff (x : Ctx) (r : Reg) (pc va : Word) : (x.setPoison r pc va).deff = x.deff := by unfold Ctx.setPoison; split <;> rfl
@[simp] theorem Ctx.setPoison_icount (x : Ctx) (r : Reg) (pc va : Word) : (x.setPoison r pc va).icount = x.icount := by unfold Ctx.setPoison; split <;> rfl
@[simp] theorem Ctx.setPoison_vshare (x : Ctx) (r : Reg) (pc va : Word) : (x.setPoison r pc va).vshare = x.vshare := by unfold Ctx.setPoison; split <;> rfl
@[simp] theorem Ctx.setPoison_fjwait (x : Ctx) (r : Reg) (pc va : Word) : (x.setPoison r pc va).fjwait = x.fjwait := by unfold Ctx.setPoison; split <;> rfl
@[simp] theorem Ctx.setPoison_frame (x : Ctx) (r : Reg) (pc va : Word) : (x.setPoison r pc va).frame = x.frame := by unfold Ctx.setPoison; split <;> rfl
@[simp] theorem Ctx.setPoison_nextIssue (x : Ctx) (r : Reg) (pc va : Word) : (x.setPoison r pc va).nextIssue = x.nextIssue := by unfold Ctx.setPoison; split <;> rfl
@[simp] theorem Ctx.setPoison_inflight (x : Ctx) (r : Reg) (pc va : Word) : (x.setPoison r pc va).inflight = x.inflight := by unfold Ctx.setPoison; split <;> rfl
@[simp] theorem Ctx.setPoison_varRes (x : Ctx) (r : Reg) (pc va : Word) : (x.setPoison r pc va).varRes = x.varRes := by unfold Ctx.setPoison; split <;> rfl
@[simp] theorem Ctx.setPoison_fpHold (x : Ctx) (r : Reg) (pc va : Word) : (x.setPoison r pc va).fpHold = x.fpHold := by unfold Ctx.setPoison; split <;> rfl
@[simp] theorem Ctx.setPoison_deferred (x : Ctx) (r : Reg) (pc va : Word) : (x.setPoison r pc va).deferred = x.deferred := by unfold Ctx.setPoison; split <;> rfl
@[simp] theorem Ctx.setPoison_sends (x : Ctx) (r : Reg) (pc va : Word) : (x.setPoison r pc va).sends = x.sends := by unfold Ctx.setPoison; split <;> rfl
@[simp] theorem Ctx.setPoison_stage (x : Ctx) (r : Reg) (pc va : Word) : (x.setPoison r pc va).stage = x.stage := by unfold Ctx.setPoison; split <;> rfl
@[simp] theorem Ctx.setPoison_mfault (x : Ctx) (r : Reg) (pc va : Word) : (x.setPoison r pc va).mfault = x.mfault := by unfold Ctx.setPoison; split <;> rfl
@[simp] theorem Ctx.setPoison_mlast (x : Ctx) (r : Reg) (pc va : Word) : (x.setPoison r pc va).mlast = x.mlast := by unfold Ctx.setPoison; split <;> rfl
@[simp] theorem Ctx.setPoison_wake (x : Ctx) (r : Reg) (pc va : Word) : (x.setPoison r pc va).wake = x.wake := by unfold Ctx.setPoison; split <;> rfl
@[simp] theorem Ctx.setPoison_exitVal (x : Ctx) (r : Reg) (pc va : Word) : (x.setPoison r pc va).exitVal = x.exitVal := by unfold Ctx.setPoison; split <;> rfl
@[simp] theorem Ctx.setPoison_killed (x : Ctx) (r : Reg) (pc va : Word) : (x.setPoison r pc va).killed = x.killed := by unfold Ctx.setPoison; split <;> rfl
@[simp] theorem Ctx.setPoison_killReq (x : Ctx) (r : Reg) (pc va : Word) : (x.setPoison r pc va).killReq = x.killReq := by unfold Ctx.setPoison; split <;> rfl
@[simp] theorem Ctx.setPoison_vq (x : Ctx) (r : Reg) (pc va : Word) : (x.setPoison r pc va).vq = x.vq := by unfold Ctx.setPoison; split <;> rfl
@[simp] theorem Ctx.setPoison_deficit (x : Ctx) (r : Reg) (pc va : Word) : (x.setPoison r pc va).deficit = x.deficit := by unfold Ctx.setPoison; split <;> rfl
@[simp] theorem Ctx.setPoison_cntReady (x : Ctx) (r : Reg) (pc va : Word) : (x.setPoison r pc va).cntReady = x.cntReady := by unfold Ctx.setPoison; split <;> rfl
@[simp] theorem Ctx.setPoison_cntHeld (x : Ctx) (r : Reg) (pc va : Word) : (x.setPoison r pc va).cntHeld = x.cntHeld := by unfold Ctx.setPoison; split <;> rfl
@[simp] theorem Ctx.setPoison_failed (x : Ctx) (r : Reg) (pc va : Word) : (x.setPoison r pc va).failed = x.failed := by unfold Ctx.setPoison; split <;> rfl
@[simp] theorem Ctx.setPoison_ring (x : Ctx) (r : Reg) (pc va : Word) : (x.setPoison r pc va).ring = x.ring := by unfold Ctx.setPoison; split <;> rfl
@[simp] theorem Ctx.setPoison_ranges (x : Ctx) (r : Reg) (pc va : Word) : (x.setPoison r pc va).ranges = x.ranges := by unfold Ctx.setPoison; split <;> rfl
@[simp] theorem Ctx.setPoison_yieldTo (x : Ctx) (r : Reg) (pc va : Word) : (x.setPoison r pc va).yieldTo = x.yieldTo := by unfold Ctx.setPoison; split <;> rfl
@[simp] theorem Ctx.setPoison_enter (x : Ctx) (r : Reg) (pc va : Word) : (x.setPoison r pc va).enter = x.enter := by unfold Ctx.setPoison; split <;> rfl
@[simp] theorem Ctx.setPoison_fwd (x : Ctx) (r : Reg) (pc va : Word) : (x.setPoison r pc va).fwd = x.fwd := by unfold Ctx.setPoison; split <;> rfl
@[simp] theorem Ctx.setPoison_wait (x : Ctx) (r : Reg) (pc va : Word) : (x.setPoison r pc va).wait = x.wait := by unfold Ctx.setPoison; split <;> rfl
@[simp] theorem Ctx.setPoison_service (x : Ctx) (r : Reg) (pc va : Word) : (x.setPoison r pc va).service = x.service := by unfold Ctx.setPoison; split <;> rfl
@[simp] theorem Ctx.setPoison_missed (x : Ctx) (r : Reg) (pc va : Word) : (x.setPoison r pc va).missed = x.missed := by unfold Ctx.setPoison; split <;> rfl
@[simp] theorem Ctx.setPoison_defDepth (x : Ctx) (r : Reg) (pc va : Word) : (x.setPoison r pc va).defDepth = x.defDepth := by unfold Ctx.setPoison; split <;> rfl

/-! ### Tables -/

@[simp] theorem tget_tset_same {α : Type} (l : List (Nat × α)) (k : Nat) (a d : α) : tget (tset l k a) k d = a := by
  induction l with
  | nil => simp [tset, tget]
  | cons x t ih =>
    obtain ⟨j, b⟩ := x
    by_cases h : j = k
    · simp [tset, tget, h]
    · by_cases h2 : k < j <;> simp [tset, tget, h, h2, ih]

theorem tget_tset_other {α : Type} (l : List (Nat × α)) (k j : Nat) (a d : α) (h : j ≠ k) :
    tget (tset l k a) j d = tget l j d := by
  have h' : k ≠ j := fun e => h e.symm
  induction l with
  | nil => simp [tset, tget, h']
  | cons x t ih =>
    obtain ⟨i, b⟩ := x
    by_cases h1 : i = k
    · subst h1; simp [tset, tget, h']
    · by_cases h2 : k < i
      · simp [tset, tget, h1, h2, h']
      · simp [tset, tget, h1, h2, ih]

/-- A key set leaves the entries of a table those of another key, and the one set. -/
theorem mem_tset {α : Type} (l : List (Nat × α)) (k : Nat) (a : α) (e : Nat × α) (h : e ∈ tset l k a) : e = (k, a) ∨ e ∈ l := by
  induction l with
  | nil => simpa [tset] using h
  | cons x t ih =>
    obtain ⟨j, b⟩ := x
    by_cases h1 : j = k
    · simp [tset, h1] at h; rcases h with h | h
      · exact .inl h
      · exact .inr (.tail _ h)
    · by_cases h2 : k < j
      · simp [tset, h1, h2] at h; rcases h with h | h | h
        · exact .inl h
        · exact .inr (h ▸ .head _)
        · exact .inr (.tail _ h)
      · simp [tset, h1, h2] at h; rcases h with h | h
        · exact .inr (h ▸ .head _)
        · rcases ih h with h | h
          · exact .inl h
          · exact .inr (.tail _ h)

/-- An entry of a table is the default or one that is listed. -/
theorem tget_mem {α : Type} (l : List (Nat × α)) (k : Nat) (d : α) : tget l k d = d ∨ (k, tget l k d) ∈ l := by
  induction l with
  | nil => exact .inl rfl
  | cons x t ih =>
    obtain ⟨j, b⟩ := x
    by_cases h : j = k
    · subst h; exact .inr (by simp [tget])
    · rcases ih with ih | ih
      · exact .inl (by simp [tget, h, ih])
      · exact .inr (by simp only [tget, h, if_false]; exact .tail _ ih)

/-! ### Cores, clusters, partitions and contexts that were set -/

@[simp] theorem State.core_setCore (s : State) (n : Nat) (k : Core) : (s.setCore n k).core n = k := by
  simp [State.core, State.setCore]

theorem State.core_setCore_ne (s : State) (n m : Nat) (k : Core) (h : m ≠ n) : (s.setCore n k).core m = s.core m := by
  simp [State.core, State.setCore, tget_tset_other _ _ _ _ _ h]

@[simp] theorem State.cluster_setCluster (s : State) (n : Nat) (k : Cluster) : (s.setCluster n k).cluster n = k := by
  simp [State.cluster, State.setCluster]

theorem State.cluster_setCluster_ne (s : State) (n m : Nat) (k : Cluster) (h : m ≠ n) :
    (s.setCluster n k).cluster m = s.cluster m := by
  simp [State.cluster, State.setCluster, tget_tset_other _ _ _ _ _ h]

@[simp] theorem State.core_setCluster (s : State) (n m : Nat) (k : Cluster) : (s.setCluster n k).core m = s.core m := rfl
@[simp] theorem State.core_setPart (s : State) (p m : Nat) (q : Part) : (s.setPart p q).core m = s.core m := rfl
@[simp] theorem State.ctx_setCluster (s : State) (n : Nat) (k : Cluster) (c : CtxId) : (s.setCluster n k).ctx c = s.ctx c := rfl
@[simp] theorem State.ctx_setPart (s : State) (p : Nat) (q : Part) (c : CtxId) : (s.setPart p q).ctx c = s.ctx c := rfl
@[simp] theorem State.cluster_setCore (s : State) (n m : Nat) (k : Core) : (s.setCore n k).cluster m = s.cluster m := rfl
@[simp] theorem State.cluster_setPart (s : State) (p m : Nat) (q : Part) : (s.setPart p q).cluster m = s.cluster m := rfl
@[simp] theorem State.cluster_setMe (s : State) (m : Nat) (x : Ctx) : (s.setMe x).cluster m = s.cluster m := rfl
@[simp] theorem State.cluster_setCtx (s : State) (m : Nat) (c : CtxId) (x : Ctx) : (s.setCtx c x).cluster m = s.cluster m := rfl
@[simp] theorem State.part_setCore (s : State) (n p : Nat) (k : Core) : (s.setCore n k).part p = s.part p := rfl
@[simp] theorem State.part_setCluster (s : State) (n p : Nat) (k : Cluster) : (s.setCluster n k).part p = s.part p := rfl
@[simp] theorem State.part_setMe (s : State) (p : Nat) (x : Ctx) : (s.setMe x).part p = s.part p := rfl
@[simp] theorem State.part_setCtx (s : State) (p : Nat) (c : CtxId) (x : Ctx) : (s.setCtx c x).part p = s.part p := rfl

theorem State.part_setPart (s : State) (p : Nat) (q : Part) (h : p < 64) : (s.setPart p q).part p = q := by
  simp [State.part, State.setPart, h]

theorem State.part_setPart_ne (s : State) (p r : Nat) (q : Part) (h : r ≠ p) : (s.setPart p q).part r = s.part r := by
  have h' : p ≠ r := fun e => h e.symm
  by_cases hr : r < 64
  · simp [State.part, State.setPart, hr, Vector.getElem_setIfInBounds_ne, h']
  · simp [State.part, State.setPart, hr]

theorem Core.ctx_setCtx (k : Core) (i : Nat) (x : Ctx) (h : i < 11) : (k.setCtx i x).ctx i = x := by
  simp [Core.ctx, Core.setCtx, h]

theorem Core.ctx_setCtx_ne (k : Core) (i j : Nat) (x : Ctx) (h : j ≠ i) : (k.setCtx i x).ctx j = k.ctx j := by
  have h' : i ≠ j := fun e => h e.symm
  by_cases hj : j < 11
  · simp [Core.ctx, Core.setCtx, hj, Vector.getElem_setIfInBounds_ne, h']
  · simp [Core.ctx, Core.setCtx, hj]

theorem State.ctx_setCtx (s : State) (c : CtxId) (x : Ctx) (h : c.ctx < 11) : (s.setCtx c x).ctx c = x := by
  simp [State.ctx, State.setCtx, Core.ctx_setCtx _ _ _ h]

theorem State.ctx_setCtx_ne (s : State) (c e : CtxId) (x : Ctx) (h : e ≠ c) : (s.setCtx c x).ctx e = s.ctx e := by
  by_cases hc : e.core = c.core
  · have : e.ctx ≠ c.ctx := fun g => h (by cases e; cases c; simp_all)
    simp [State.ctx, State.setCtx, hc, Core.ctx_setCtx_ne _ _ _ _ this]
  · simp [State.ctx, State.setCtx, State.core_setCore_ne _ _ _ _ hc]

theorem State.me_setMe (s : State) (x : Ctx) (h : s.cur.ctx < 11) : (s.setMe x).me = x := State.ctx_setCtx s s.cur x h

@[simp] theorem State.mine_setMine (s : State) (k : Core) : (s.setMine k).mine = k := State.core_setCore s s.cur.core k

/-- The core of the executing context after the context was set. -/
theorem State.mine_setMe (s : State) (x : Ctx) : (s.setMe x).mine = s.mine.setCtx s.cur.ctx x := State.core_setCore s s.cur.core _

theorem State.core_setMe_ne (s : State) (x : Ctx) (n : Nat) (h : n ≠ s.cur.core) : (s.setMe x).core n = s.core n :=
  State.core_setCore_ne s _ _ _ h

theorem State.core_setMine_ne (s : State) (k : Core) (n : Nat) (h : n ≠ s.cur.core) : (s.setMine k).core n = s.core n :=
  State.core_setCore_ne s _ _ _ h

/-- A live context is one of the eleven of its core. -/
theorem State.live_lt (s : State) (c : CtxId) (h : (s.ctx c).live = true) : c.ctx < 11 := by
  by_contra hc
  have : (s.core c.core).ctxs[c.ctx]? = none := by simp; omega
  simp [State.ctx, Core.ctx, this, Ctx.reset] at h

/-! ### Registers (R41, R94, R96) -/

theorem Ctx.reg_zero (x : Ctx) : x.reg 0 = 0 := rfl

theorem Ctx.reg_setReg (x : Ctx) (r : Reg) (v : Word) (h0 : r ≠ 0) (hp : isPort r = false) : (x.setReg r v).reg r = v := by
  have h : ¬ r = 0#5 := h0
  simp [Ctx.reg, Ctx.setReg, h, hp, r.isLt]

theorem Ctx.reg_setReg_ne (x : Ctx) (r u : Reg) (v : Word) (h : u ≠ r) : (x.setReg r v).reg u = x.reg u := by
  have : r.toNat ≠ u.toNat := fun e => h (BitVec.eq_of_toNat_eq e.symm)
  unfold Ctx.setReg
  split
  · rfl
  · simp [Ctx.reg, this]

theorem Ctx.reg_setPoison (x : Ctx) (r u : Reg) (pc va : Word) : (x.setPoison r pc va).reg u = x.reg u := by
  simp [Ctx.reg]

theorem Ctx.isPoisoned_setReg (x : Ctx) (r : Reg) (v : Word) (h0 : r ≠ 0) (hp : isPort r = false) :
    (x.setReg r v).isPoisoned r = false := by
  have h : ¬ r = 0#5 := h0
  simp [Ctx.isPoisoned, Ctx.setReg, h, hp]

theorem Ctx.isPoisoned_setPoison (x : Ctx) (r : Reg) (pc va : Word) (h0 : r ≠ 0) (hp : isPort r = false) :
    (x.setPoison r pc va).isPoisoned r = true := by
  have h : ¬ r = 0#5 := h0
  simp [Ctx.isPoisoned, Ctx.setPoison, h, hp, r.isLt]

@[simp] theorem Ctx.setReg_zero (x : Ctx) (v : Word) : x.setReg 0 v = x := rfl

theorem Ctx.setReg_port (x : Ctx) (r : Reg) (v : Word) (h : isPort r = true) : x.setReg r v = x := by
  simp [Ctx.setReg, h]

end Sys2Proof.Machine
end

