-- ==== Sys2Proof/Laws/Ops.lean ====
section
/-!
SUPPORT. What the shared operations do: what holds or traps an instruction before its own checks, how an instruction ends, and what its ending, its
result and its hold leave as they were.
-/

set_option Elab.async false

namespace Sys2Proof.Machine

open Sys2Proof

/-- Two changes in a row that leave all but the cores, and how the instruction ended, leave all but these. -/
theorem State.frame_trans {s t u : State} (h1 : t = { s with cores := t.cores }) (h2 : u = { t with cores := u.cores, note := u.note }) :
    u = { s with cores := u.cores, note := u.note } := by
  have h : ∀ (c : List (Nat × Core)) (n : Note), ({ t with cores := c, note := n } : State) = { s with cores := c, note := n } := by
    intro c n
    rw [h1]
  exact h2.trans (h _ _)

/-! ### popPorts: what it leaves of the state -/

theorem popPorts_frame (rs : List Reg) (s : State) :
    popPorts rs s = { s with cores := (popPorts rs s).cores } := by
  unfold popPorts
  induction rs generalizing s with
  | nil => rfl
  | cons r t ih => rw [List.foldl_cons, ih]; split <;> rfl

@[simp] theorem popPorts_nextId (rs : List Reg) (s : State) : (popPorts rs s).nextId = s.nextId := by rw [popPorts_frame]
@[simp] theorem popPorts_cycle (rs : List Reg) (s : State) : (popPorts rs s).cycle = s.cycle := by rw [popPorts_frame]
@[simp] theorem popPorts_late (rs : List Reg) (s : State) : (popPorts rs s).late = s.late := by rw [popPorts_frame]
@[simp] theorem popPorts_agenda (rs : List Reg) (s : State) : (popPorts rs s).agenda = s.agenda := by rw [popPorts_frame]
@[simp] theorem popPorts_cur (rs : List Reg) (s : State) : (popPorts rs s).cur = s.cur := by rw [popPorts_frame]
@[simp] theorem popPorts_note (rs : List Reg) (s : State) : (popPorts rs s).note = s.note := by rw [popPorts_frame]
@[simp] theorem popPorts_freeCtr (rs : List Reg) (s : State) : (popPorts rs s).freeCtr = s.freeCtr := by rw [popPorts_frame]
@[simp] theorem popPorts_mem (rs : List Reg) (s : State) : (popPorts rs s).mem = s.mem := by rw [popPorts_frame]
@[simp] theorem popPorts_bad (rs : List Reg) (s : State) : (popPorts rs s).bad = s.bad := by rw [popPorts_frame]
@[simp] theorem popPorts_clusters (rs : List Reg) (s : State) : (popPorts rs s).clusters = s.clusters := by rw [popPorts_frame]
@[simp] theorem popPorts_parts (rs : List Reg) (s : State) : (popPorts rs s).parts = s.parts := by rw [popPorts_frame]
@[simp] theorem popPorts_reqs (rs : List Reg) (s : State) : (popPorts rs s).reqs = s.reqs := by rw [popPorts_frame]
@[simp] theorem popPorts_pushes (rs : List Reg) (s : State) : (popPorts rs s).pushes = s.pushes := by rw [popPorts_frame]
@[simp] theorem popPorts_updates (rs : List Reg) (s : State) : (popPorts rs s).updates = s.updates := by rw [popPorts_frame]
@[simp] theorem popPorts_net (rs : List Reg) (s : State) : (popPorts rs s).net = s.net := by rw [popPorts_frame]
@[simp] theorem popPorts_far (rs : List Reg) (s : State) : (popPorts rs s).far = s.far := by rw [popPorts_frame]
@[simp] theorem popPorts_farStamp (rs : List Reg) (s : State) : (popPorts rs s).farStamp = s.farStamp := by rw [popPorts_frame]
@[simp] theorem popPorts_farWrites (rs : List Reg) (s : State) : (popPorts rs s).farWrites = s.farWrites := by rw [popPorts_frame]
@[simp] theorem popPorts_peerDir (rs : List Reg) (s : State) : (popPorts rs s).peerDir = s.peerDir := by rw [popPorts_frame]
@[simp] theorem popPorts_engine (rs : List Reg) (s : State) : (popPorts rs s).engine = s.engine := by rw [popPorts_frame]
@[simp] theorem popPorts_fabric (rs : List Reg) (s : State) : (popPorts rs s).fabric = s.fabric := by rw [popPorts_frame]
@[simp] theorem popPorts_netPages (rs : List Reg) (s : State) : (popPorts rs s).netPages = s.netPages := by rw [popPorts_frame]
@[simp] theorem popPorts_security (rs : List Reg) (s : State) : (popPorts rs s).security = s.security := by rw [popPorts_frame]
@[simp] theorem popPorts_epochs (rs : List Reg) (s : State) : (popPorts rs s).epochs = s.epochs := by rw [popPorts_frame]
@[simp] theorem popPorts_deadTags (rs : List Reg) (s : State) : (popPorts rs s).deadTags = s.deadTags := by rw [popPorts_frame]
@[simp] theorem popPorts_msi (rs : List Reg) (s : State) : (popPorts rs s).msi = s.msi := by rw [popPorts_frame]
@[simp] theorem popPorts_hostRead (rs : List Reg) (s : State) : (popPorts rs s).hostRead = s.hostRead := by rw [popPorts_frame]
@[simp] theorem popPorts_devWaits (rs : List Reg) (s : State) : (popPorts rs s).devWaits = s.devWaits := by rw [popPorts_frame]
@[simp] theorem popPorts_kw8 (rs : List Reg) (s : State) : (popPorts rs s).kw8 = s.kw8 := by rw [popPorts_frame]

/-! ### slotTaken: what it leaves of the state -/

theorem slotTaken_frame (s : State) :
    slotTaken s = { s with cores := (slotTaken s).cores } := rfl

@[simp] theorem slotTaken_nextId (s : State) : (slotTaken s).nextId = s.nextId := by rw [slotTaken_frame]
@[simp] theorem slotTaken_cycle (s : State) : (slotTaken s).cycle = s.cycle := by rw [slotTaken_frame]
@[simp] theorem slotTaken_late (s : State) : (slotTaken s).late = s.late := by rw [slotTaken_frame]
@[simp] theorem slotTaken_agenda (s : State) : (slotTaken s).agenda = s.agenda := by rw [slotTaken_frame]
@[simp] theorem slotTaken_cur (s : State) : (slotTaken s).cur = s.cur := by rw [slotTaken_frame]
@[simp] theorem slotTaken_note (s : State) : (slotTaken s).note = s.note := by rw [slotTaken_frame]
@[simp] theorem slotTaken_freeCtr (s : State) : (slotTaken s).freeCtr = s.freeCtr := by rw [slotTaken_frame]
@[simp] theorem slotTaken_mem (s : State) : (slotTaken s).mem = s.mem := by rw [slotTaken_frame]
@[simp] theorem slotTaken_bad (s : State) : (slotTaken s).bad = s.bad := by rw [slotTaken_frame]
@[simp] theorem slotTaken_clusters (s : State) : (slotTaken s).clusters = s.clusters := by rw [slotTaken_frame]
@[simp] theorem slotTaken_parts (s : State) : (slotTaken s).parts = s.parts := by rw [slotTaken_frame]
@[simp] theorem slotTaken_reqs (s : State) : (slotTaken s).reqs = s.reqs := by rw [slotTaken_frame]
@[simp] theorem slotTaken_pushes (s : State) : (slotTaken s).pushes = s.pushes := by rw [slotTaken_frame]
@[simp] theorem slotTaken_updates (s : State) : (slotTaken s).updates = s.updates := by rw [slotTaken_frame]
@[simp] theorem slotTaken_net (s : State) : (slotTaken s).net = s.net := by rw [slotTaken_frame]
@[simp] theorem slotTaken_far (s : State) : (slotTaken s).far = s.far := by rw [slotTaken_frame]
@[simp] theorem slotTaken_farStamp (s : State) : (slotTaken s).farStamp = s.farStamp := by rw [slotTaken_frame]
@[simp] theorem slotTaken_farWrites (s : State) : (slotTaken s).farWrites = s.farWrites := by rw [slotTaken_frame]
@[simp] theorem slotTaken_peerDir (s : State) : (slotTaken s).peerDir = s.peerDir := by rw [slotTaken_frame]
@[simp] theorem slotTaken_engine (s : State) : (slotTaken s).engine = s.engine := by rw [slotTaken_frame]
@[simp] theorem slotTaken_fabric (s : State) : (slotTaken s).fabric = s.fabric := by rw [slotTaken_frame]
@[simp] theorem slotTaken_netPages (s : State) : (slotTaken s).netPages = s.netPages := by rw [slotTaken_frame]
@[simp] theorem slotTaken_security (s : State) : (slotTaken s).security = s.security := by rw [slotTaken_frame]
@[simp] theorem slotTaken_epochs (s : State) : (slotTaken s).epochs = s.epochs := by rw [slotTaken_frame]
@[simp] theorem slotTaken_deadTags (s : State) : (slotTaken s).deadTags = s.deadTags := by rw [slotTaken_frame]
@[simp] theorem slotTaken_msi (s : State) : (slotTaken s).msi = s.msi := by rw [slotTaken_frame]
@[simp] theorem slotTaken_hostRead (s : State) : (slotTaken s).hostRead = s.hostRead := by rw [slotTaken_frame]
@[simp] theorem slotTaken_devWaits (s : State) : (slotTaken s).devWaits = s.devWaits := by rw [slotTaken_frame]
@[simp] theorem slotTaken_kw8 (s : State) : (slotTaken s).kw8 = s.kw8 := by rw [slotTaken_frame]

/-! ### issued: what it leaves of the state -/

theorem issued_frame (w : BitVec 3) (s : State) :
    issued w s = { s with cores := (issued w s).cores } := rfl

@[simp] theorem issued_nextId (w : BitVec 3) (s : State) : (issued w s).nextId = s.nextId := by rw [issued_frame]
@[simp] theorem issued_cycle (w : BitVec 3) (s : State) : (issued w s).cycle = s.cycle := by rw [issued_frame]
@[simp] theorem issued_late (w : BitVec 3) (s : State) : (issued w s).late = s.late := by rw [issued_frame]
@[simp] theorem issued_agenda (w : BitVec 3) (s : State) : (issued w s).agenda = s.agenda := by rw [issued_frame]
@[simp] theorem issued_cur (w : BitVec 3) (s : State) : (issued w s).cur = s.cur := by rw [issued_frame]
@[simp] theorem issued_note (w : BitVec 3) (s : State) : (issued w s).note = s.note := by rw [issued_frame]
@[simp] theorem issued_freeCtr (w : BitVec 3) (s : State) : (issued w s).freeCtr = s.freeCtr := by rw [issued_frame]
@[simp] theorem issued_mem (w : BitVec 3) (s : State) : (issued w s).mem = s.mem := by rw [issued_frame]
@[simp] theorem issued_bad (w : BitVec 3) (s : State) : (issued w s).bad = s.bad := by rw [issued_frame]
@[simp] theorem issued_clusters (w : BitVec 3) (s : State) : (issued w s).clusters = s.clusters := by rw [issued_frame]
@[simp] theorem issued_parts (w : BitVec 3) (s : State) : (issued w s).parts = s.parts := by rw [issued_frame]
@[simp] theorem issued_reqs (w : BitVec 3) (s : State) : (issued w s).reqs = s.reqs := by rw [issued_frame]
@[simp] theorem issued_pushes (w : BitVec 3) (s : State) : (issued w s).pushes = s.pushes := by rw [issued_frame]
@[simp] theorem issued_updates (w : BitVec 3) (s : State) : (issued w s).updates = s.updates := by rw [issued_frame]
@[simp] theorem issued_net (w : BitVec 3) (s : State) : (issued w s).net = s.net := by rw [issued_frame]
@[simp] theorem issued_far (w : BitVec 3) (s : State) : (issued w s).far = s.far := by rw [issued_frame]
@[simp] theorem issued_farStamp (w : BitVec 3) (s : State) : (issued w s).farStamp = s.farStamp := by rw [issued_frame]
@[simp] theorem issued_farWrites (w : BitVec 3) (s : State) : (issued w s).farWrites = s.farWrites := by rw [issued_frame]
@[simp] theorem issued_peerDir (w : BitVec 3) (s : State) : (issued w s).peerDir = s.peerDir := by rw [issued_frame]
@[simp] theorem issued_engine (w : BitVec 3) (s : State) : (issued w s).engine = s.engine := by rw [issued_frame]
@[simp] theorem issued_fabric (w : BitVec 3) (s : State) : (issued w s).fabric = s.fabric := by rw [issued_frame]
@[simp] theorem issued_netPages (w : BitVec 3) (s : State) : (issued w s).netPages = s.netPages := by rw [issued_frame]
@[simp] theorem issued_security (w : BitVec 3) (s : State) : (issued w s).security = s.security := by rw [issued_frame]
@[simp] theorem issued_epochs (w : BitVec 3) (s : State) : (issued w s).epochs = s.epochs := by rw [issued_frame]
@[simp] theorem issued_deadTags (w : BitVec 3) (s : State) : (issued w s).deadTags = s.deadTags := by rw [issued_frame]
@[simp] theorem issued_msi (w : BitVec 3) (s : State) : (issued w s).msi = s.msi := by rw [issued_frame]
@[simp] theorem issued_hostRead (w : BitVec 3) (s : State) : (issued w s).hostRead = s.hostRead := by rw [issued_frame]
@[simp] theorem issued_devWaits (w : BitVec 3) (s : State) : (issued w s).devWaits = s.devWaits := by rw [issued_frame]
@[simp] theorem issued_kw8 (w : BitVec 3) (s : State) : (issued w s).kw8 = s.kw8 := by rw [issued_frame]

/-! ### retireAt: what it leaves of the state -/

theorem retireAt_frame (w : BitVec 3) (f : Ctx → Ctx) (s : State) :
    retireAt w f s = { s with cores := (retireAt w f s).cores, note := (retireAt w f s).note } := by
  have h : ∀ t : State, ∀ x : Ctx, ({ t.setMe x with note := .retired } : State) = { t with cores := (t.setMe x).cores, note := .retired } :=
    fun _ _ => rfl
  unfold retireAt
  exact State.frame_trans (issued_frame w s) (h _ _)

@[simp] theorem retireAt_nextId (w : BitVec 3) (f : Ctx → Ctx) (s : State) : (retireAt w f s).nextId = s.nextId := by rw [retireAt_frame]
@[simp] theorem retireAt_cycle (w : BitVec 3) (f : Ctx → Ctx) (s : State) : (retireAt w f s).cycle = s.cycle := by rw [retireAt_frame]
@[simp] theorem retireAt_late (w : BitVec 3) (f : Ctx → Ctx) (s : State) : (retireAt w f s).late = s.late := by rw [retireAt_frame]
@[simp] theorem retireAt_agenda (w : BitVec 3) (f : Ctx → Ctx) (s : State) : (retireAt w f s).agenda = s.agenda := by rw [retireAt_frame]
@[simp] theorem retireAt_cur (w : BitVec 3) (f : Ctx → Ctx) (s : State) : (retireAt w f s).cur = s.cur := by rw [retireAt_frame]
@[simp] theorem retireAt_freeCtr (w : BitVec 3) (f : Ctx → Ctx) (s : State) : (retireAt w f s).freeCtr = s.freeCtr := by rw [retireAt_frame]
@[simp] theorem retireAt_mem (w : BitVec 3) (f : Ctx → Ctx) (s : State) : (retireAt w f s).mem = s.mem := by rw [retireAt_frame]
@[simp] theorem retireAt_bad (w : BitVec 3) (f : Ctx → Ctx) (s : State) : (retireAt w f s).bad = s.bad := by rw [retireAt_frame]
@[simp] theorem retireAt_clusters (w : BitVec 3) (f : Ctx → Ctx) (s : State) : (retireAt w f s).clusters = s.clusters := by rw [retireAt_frame]
@[simp] theorem retireAt_parts (w : BitVec 3) (f : Ctx → Ctx) (s : State) : (retireAt w f s).parts = s.parts := by rw [retireAt_frame]
@[simp] theorem retireAt_reqs (w : BitVec 3) (f : Ctx → Ctx) (s : State) : (retireAt w f s).reqs = s.reqs := by rw [retireAt_frame]
@[simp] theorem retireAt_pushes (w : BitVec 3) (f : Ctx → Ctx) (s : State) : (retireAt w f s).pushes = s.pushes := by rw [retireAt_frame]
@[simp] theorem retireAt_updates (w : BitVec 3) (f : Ctx → Ctx) (s : State) : (retireAt w f s).updates = s.updates := by rw [retireAt_frame]
@[simp] theorem retireAt_net (w : BitVec 3) (f : Ctx → Ctx) (s : State) : (retireAt w f s).net = s.net := by rw [retireAt_frame]
@[simp] theorem retireAt_far (w : BitVec 3) (f : Ctx → Ctx) (s : State) : (retireAt w f s).far = s.far := by rw [retireAt_frame]
@[simp] theorem retireAt_farStamp (w : BitVec 3) (f : Ctx → Ctx) (s : State) : (retireAt w f s).farStamp = s.farStamp := by rw [retireAt_frame]
@[simp] theorem retireAt_farWrites (w : BitVec 3) (f : Ctx → Ctx) (s : State) : (retireAt w f s).farWrites = s.farWrites := by rw [retireAt_frame]
@[simp] theorem retireAt_peerDir (w : BitVec 3) (f : Ctx → Ctx) (s : State) : (retireAt w f s).peerDir = s.peerDir := by rw [retireAt_frame]
@[simp] theorem retireAt_engine (w : BitVec 3) (f : Ctx → Ctx) (s : State) : (retireAt w f s).engine = s.engine := by rw [retireAt_frame]
@[simp] theorem retireAt_fabric (w : BitVec 3) (f : Ctx → Ctx) (s : State) : (retireAt w f s).fabric = s.fabric := by rw [retireAt_frame]
@[simp] theorem retireAt_netPages (w : BitVec 3) (f : Ctx → Ctx) (s : State) : (retireAt w f s).netPages = s.netPages := by rw [retireAt_frame]
@[simp] theorem retireAt_security (w : BitVec 3) (f : Ctx → Ctx) (s : State) : (retireAt w f s).security = s.security := by rw [retireAt_frame]
@[simp] theorem retireAt_epochs (w : BitVec 3) (f : Ctx → Ctx) (s : State) : (retireAt w f s).epochs = s.epochs := by rw [retireAt_frame]
@[simp] theorem retireAt_deadTags (w : BitVec 3) (f : Ctx → Ctx) (s : State) : (retireAt w f s).deadTags = s.deadTags := by rw [retireAt_frame]
@[simp] theorem retireAt_msi (w : BitVec 3) (f : Ctx → Ctx) (s : State) : (retireAt w f s).msi = s.msi := by rw [retireAt_frame]
@[simp] theorem retireAt_hostRead (w : BitVec 3) (f : Ctx → Ctx) (s : State) : (retireAt w f s).hostRead = s.hostRead := by rw [retireAt_frame]
@[simp] theorem retireAt_devWaits (w : BitVec 3) (f : Ctx → Ctx) (s : State) : (retireAt w f s).devWaits = s.devWaits := by rw [retireAt_frame]
@[simp] theorem retireAt_kw8 (w : BitVec 3) (f : Ctx → Ctx) (s : State) : (retireAt w f s).kw8 = s.kw8 := by rw [retireAt_frame]

/-! ### finish: what it leaves of the state -/

theorem finish_frame (w : BitVec 3) (rs : List Reg) (s : State) :
    finish w rs s = { s with cores := (finish w rs s).cores, note := (finish w rs s).note } :=
  State.frame_trans (popPorts_frame rs s) (retireAt_frame w Ctx.advance (popPorts rs s))

@[simp] theorem finish_nextId (w : BitVec 3) (rs : List Reg) (s : State) : (finish w rs s).nextId = s.nextId := by rw [finish_frame]
@[simp] theorem finish_cycle (w : BitVec 3) (rs : List Reg) (s : State) : (finish w rs s).cycle = s.cycle := by rw [finish_frame]
@[simp] theorem finish_late (w : BitVec 3) (rs : List Reg) (s : State) : (finish w rs s).late = s.late := by rw [finish_frame]
@[simp] theorem finish_agenda (w : BitVec 3) (rs : List Reg) (s : State) : (finish w rs s).agenda = s.agenda := by rw [finish_frame]
@[simp] theorem finish_cur (w : BitVec 3) (rs : List Reg) (s : State) : (finish w rs s).cur = s.cur := by rw [finish_frame]
@[simp] theorem finish_freeCtr (w : BitVec 3) (rs : List Reg) (s : State) : (finish w rs s).freeCtr = s.freeCtr := by rw [finish_frame]
@[simp] theorem finish_mem (w : BitVec 3) (rs : List Reg) (s : State) : (finish w rs s).mem = s.mem := by rw [finish_frame]
@[simp] theorem finish_bad (w : BitVec 3) (rs : List Reg) (s : State) : (finish w rs s).bad = s.bad := by rw [finish_frame]
@[simp] theorem finish_clusters (w : BitVec 3) (rs : List Reg) (s : State) : (finish w rs s).clusters = s.clusters := by rw [finish_frame]
@[simp] theorem finish_parts (w : BitVec 3) (rs : List Reg) (s : State) : (finish w rs s).parts = s.parts := by rw [finish_frame]
@[simp] theorem finish_reqs (w : BitVec 3) (rs : List Reg) (s : State) : (finish w rs s).reqs = s.reqs := by rw [finish_frame]
@[simp] theorem finish_pushes (w : BitVec 3) (rs : List Reg) (s : State) : (finish w rs s).pushes = s.pushes := by rw [finish_frame]
@[simp] theorem finish_updates (w : BitVec 3) (rs : List Reg) (s : State) : (finish w rs s).updates = s.updates := by rw [finish_frame]
@[simp] theorem finish_net (w : BitVec 3) (rs : List Reg) (s : State) : (finish w rs s).net = s.net := by rw [finish_frame]
@[simp] theorem finish_far (w : BitVec 3) (rs : List Reg) (s : State) : (finish w rs s).far = s.far := by rw [finish_frame]
@[simp] theorem finish_farStamp (w : BitVec 3) (rs : List Reg) (s : State) : (finish w rs s).farStamp = s.farStamp := by rw [finish_frame]
@[simp] theorem finish_farWrites (w : BitVec 3) (rs : List Reg) (s : State) : (finish w rs s).farWrites = s.farWrites := by rw [finish_frame]
@[simp] theorem finish_peerDir (w : BitVec 3) (rs : List Reg) (s : State) : (finish w rs s).peerDir = s.peerDir := by rw [finish_frame]
@[simp] theorem finish_engine (w : BitVec 3) (rs : List Reg) (s : State) : (finish w rs s).engine = s.engine := by rw [finish_frame]
@[simp] theorem finish_fabric (w : BitVec 3) (rs : List Reg) (s : State) : (finish w rs s).fabric = s.fabric := by rw [finish_frame]
@[simp] theorem finish_netPages (w : BitVec 3) (rs : List Reg) (s : State) : (finish w rs s).netPages = s.netPages := by rw [finish_frame]
@[simp] theorem finish_security (w : BitVec 3) (rs : List Reg) (s : State) : (finish w rs s).security = s.security := by rw [finish_frame]
@[simp] theorem finish_epochs (w : BitVec 3) (rs : List Reg) (s : State) : (finish w rs s).epochs = s.epochs := by rw [finish_frame]
@[simp] theorem finish_deadTags (w : BitVec 3) (rs : List Reg) (s : State) : (finish w rs s).deadTags = s.deadTags := by rw [finish_frame]
@[simp] theorem finish_msi (w : BitVec 3) (rs : List Reg) (s : State) : (finish w rs s).msi = s.msi := by rw [finish_frame]
@[simp] theorem finish_hostRead (w : BitVec 3) (rs : List Reg) (s : State) : (finish w rs s).hostRead = s.hostRead := by rw [finish_frame]
@[simp] theorem finish_devWaits (w : BitVec 3) (rs : List Reg) (s : State) : (finish w rs s).devWaits = s.devWaits := by rw [finish_frame]
@[simp] theorem finish_kw8 (w : BitVec 3) (rs : List Reg) (s : State) : (finish w rs s).kw8 = s.kw8 := by rw [finish_frame]

/-! ### finishAt: what it leaves of the state -/

theorem finishAt_frame (w : BitVec 3) (rs : List Reg) (a : Word) (s : State) :
    finishAt w rs a s = { s with cores := (finishAt w rs a s).cores, note := (finishAt w rs a s).note } :=
  State.frame_trans (popPorts_frame rs s) (retireAt_frame w (fun x => { x with pc := a, frame := none }) (popPorts rs s))

@[simp] theorem finishAt_nextId (w : BitVec 3) (rs : List Reg) (a : Word) (s : State) : (finishAt w rs a s).nextId = s.nextId := by rw [finishAt_frame]
@[simp] theorem finishAt_cycle (w : BitVec 3) (rs : List Reg) (a : Word) (s : State) : (finishAt w rs a s).cycle = s.cycle := by rw [finishAt_frame]
@[simp] theorem finishAt_late (w : BitVec 3) (rs : List Reg) (a : Word) (s : State) : (finishAt w rs a s).late = s.late := by rw [finishAt_frame]
@[simp] theorem finishAt_agenda (w : BitVec 3) (rs : List Reg) (a : Word) (s : State) : (finishAt w rs a s).agenda = s.agenda := by rw [finishAt_frame]
@[simp] theorem finishAt_cur (w : BitVec 3) (rs : List Reg) (a : Word) (s : State) : (finishAt w rs a s).cur = s.cur := by rw [finishAt_frame]
@[simp] theorem finishAt_freeCtr (w : BitVec 3) (rs : List Reg) (a : Word) (s : State) : (finishAt w rs a s).freeCtr = s.freeCtr := by rw [finishAt_frame]
@[simp] theorem finishAt_mem (w : BitVec 3) (rs : List Reg) (a : Word) (s : State) : (finishAt w rs a s).mem = s.mem := by rw [finishAt_frame]
@[simp] theorem finishAt_bad (w : BitVec 3) (rs : List Reg) (a : Word) (s : State) : (finishAt w rs a s).bad = s.bad := by rw [finishAt_frame]
@[simp] theorem finishAt_clusters (w : BitVec 3) (rs : List Reg) (a : Word) (s : State) : (finishAt w rs a s).clusters = s.clusters := by rw [finishAt_frame]
@[simp] theorem finishAt_parts (w : BitVec 3) (rs : List Reg) (a : Word) (s : State) : (finishAt w rs a s).parts = s.parts := by rw [finishAt_frame]
@[simp] theorem finishAt_reqs (w : BitVec 3) (rs : List Reg) (a : Word) (s : State) : (finishAt w rs a s).reqs = s.reqs := by rw [finishAt_frame]
@[simp] theorem finishAt_pushes (w : BitVec 3) (rs : List Reg) (a : Word) (s : State) : (finishAt w rs a s).pushes = s.pushes := by rw [finishAt_frame]
@[simp] theorem finishAt_updates (w : BitVec 3) (rs : List Reg) (a : Word) (s : State) : (finishAt w rs a s).updates = s.updates := by rw [finishAt_frame]
@[simp] theorem finishAt_net (w : BitVec 3) (rs : List Reg) (a : Word) (s : State) : (finishAt w rs a s).net = s.net := by rw [finishAt_frame]
@[simp] theorem finishAt_far (w : BitVec 3) (rs : List Reg) (a : Word) (s : State) : (finishAt w rs a s).far = s.far := by rw [finishAt_frame]
@[simp] theorem finishAt_farStamp (w : BitVec 3) (rs : List Reg) (a : Word) (s : State) : (finishAt w rs a s).farStamp = s.farStamp := by rw [finishAt_frame]
@[simp] theorem finishAt_farWrites (w : BitVec 3) (rs : List Reg) (a : Word) (s : State) : (finishAt w rs a s).farWrites = s.farWrites := by rw [finishAt_frame]
@[simp] theorem finishAt_peerDir (w : BitVec 3) (rs : List Reg) (a : Word) (s : State) : (finishAt w rs a s).peerDir = s.peerDir := by rw [finishAt_frame]
@[simp] theorem finishAt_engine (w : BitVec 3) (rs : List Reg) (a : Word) (s : State) : (finishAt w rs a s).engine = s.engine := by rw [finishAt_frame]
@[simp] theorem finishAt_fabric (w : BitVec 3) (rs : List Reg) (a : Word) (s : State) : (finishAt w rs a s).fabric = s.fabric := by rw [finishAt_frame]
@[simp] theorem finishAt_netPages (w : BitVec 3) (rs : List Reg) (a : Word) (s : State) : (finishAt w rs a s).netPages = s.netPages := by rw [finishAt_frame]
@[simp] theorem finishAt_security (w : BitVec 3) (rs : List Reg) (a : Word) (s : State) : (finishAt w rs a s).security = s.security := by rw [finishAt_frame]
@[simp] theorem finishAt_epochs (w : BitVec 3) (rs : List Reg) (a : Word) (s : State) : (finishAt w rs a s).epochs = s.epochs := by rw [finishAt_frame]
@[simp] theorem finishAt_deadTags (w : BitVec 3) (rs : List Reg) (a : Word) (s : State) : (finishAt w rs a s).deadTags = s.deadTags := by rw [finishAt_frame]
@[simp] theorem finishAt_msi (w : BitVec 3) (rs : List Reg) (a : Word) (s : State) : (finishAt w rs a s).msi = s.msi := by rw [finishAt_frame]
@[simp] theorem finishAt_hostRead (w : BitVec 3) (rs : List Reg) (a : Word) (s : State) : (finishAt w rs a s).hostRead = s.hostRead := by rw [finishAt_frame]
@[simp] theorem finishAt_devWaits (w : BitVec 3) (rs : List Reg) (a : Word) (s : State) : (finishAt w rs a s).devWaits = s.devWaits := by rw [finishAt_frame]
@[simp] theorem finishAt_kw8 (w : BitVec 3) (rs : List Reg) (a : Word) (s : State) : (finishAt w rs a s).kw8 = s.kw8 := by rw [finishAt_frame]

/-! ### held: what it leaves of the state -/

theorem held_frame (s : State) :
    held s = { s with cores := (held s).cores, note := (held s).note } := rfl

@[simp] theorem held_nextId (s : State) : (held s).nextId = s.nextId := by rw [held_frame]
@[simp] theorem held_cycle (s : State) : (held s).cycle = s.cycle := by rw [held_frame]
@[simp] theorem held_late (s : State) : (held s).late = s.late := by rw [held_frame]
@[simp] theorem held_agenda (s : State) : (held s).agenda = s.agenda := by rw [held_frame]
@[simp] theorem held_cur (s : State) : (held s).cur = s.cur := by rw [held_frame]
@[simp] theorem held_freeCtr (s : State) : (held s).freeCtr = s.freeCtr := by rw [held_frame]
@[simp] theorem held_mem (s : State) : (held s).mem = s.mem := by rw [held_frame]
@[simp] theorem held_bad (s : State) : (held s).bad = s.bad := by rw [held_frame]
@[simp] theorem held_clusters (s : State) : (held s).clusters = s.clusters := by rw [held_frame]
@[simp] theorem held_parts (s : State) : (held s).parts = s.parts := by rw [held_frame]
@[simp] theorem held_reqs (s : State) : (held s).reqs = s.reqs := by rw [held_frame]
@[simp] theorem held_pushes (s : State) : (held s).pushes = s.pushes := by rw [held_frame]
@[simp] theorem held_updates (s : State) : (held s).updates = s.updates := by rw [held_frame]
@[simp] theorem held_net (s : State) : (held s).net = s.net := by rw [held_frame]
@[simp] theorem held_far (s : State) : (held s).far = s.far := by rw [held_frame]
@[simp] theorem held_farStamp (s : State) : (held s).farStamp = s.farStamp := by rw [held_frame]
@[simp] theorem held_farWrites (s : State) : (held s).farWrites = s.farWrites := by rw [held_frame]
@[simp] theorem held_peerDir (s : State) : (held s).peerDir = s.peerDir := by rw [held_frame]
@[simp] theorem held_engine (s : State) : (held s).engine = s.engine := by rw [held_frame]
@[simp] theorem held_fabric (s : State) : (held s).fabric = s.fabric := by rw [held_frame]
@[simp] theorem held_netPages (s : State) : (held s).netPages = s.netPages := by rw [held_frame]
@[simp] theorem held_security (s : State) : (held s).security = s.security := by rw [held_frame]
@[simp] theorem held_epochs (s : State) : (held s).epochs = s.epochs := by rw [held_frame]
@[simp] theorem held_deadTags (s : State) : (held s).deadTags = s.deadTags := by rw [held_frame]
@[simp] theorem held_msi (s : State) : (held s).msi = s.msi := by rw [held_frame]
@[simp] theorem held_hostRead (s : State) : (held s).hostRead = s.hostRead := by rw [held_frame]
@[simp] theorem held_devWaits (s : State) : (held s).devWaits = s.devWaits := by rw [held_frame]
@[simp] theorem held_kw8 (s : State) : (held s).kw8 = s.kw8 := by rw [held_frame]

/-! ### produce: what it leaves of the state -/

theorem produce_frame (l : Nat) (d : Reg) (v : Word) (g : BitVec 8) (s : State) :
    produce l d v g s = { s with cores := (produce l d v g s).cores } := by unfold produce; split <;> rfl

@[simp] theorem produce_nextId (l : Nat) (d : Reg) (v : Word) (g : BitVec 8) (s : State) : (produce l d v g s).nextId = s.nextId := by rw [produce_frame]
@[simp] theorem produce_cycle (l : Nat) (d : Reg) (v : Word) (g : BitVec 8) (s : State) : (produce l d v g s).cycle = s.cycle := by rw [produce_frame]
@[simp] theorem produce_late (l : Nat) (d : Reg) (v : Word) (g : BitVec 8) (s : State) : (produce l d v g s).late = s.late := by rw [produce_frame]
@[simp] theorem produce_agenda (l : Nat) (d : Reg) (v : Word) (g : BitVec 8) (s : State) : (produce l d v g s).agenda = s.agenda := by rw [produce_frame]
@[simp] theorem produce_cur (l : Nat) (d : Reg) (v : Word) (g : BitVec 8) (s : State) : (produce l d v g s).cur = s.cur := by rw [produce_frame]
@[simp] theorem produce_note (l : Nat) (d : Reg) (v : Word) (g : BitVec 8) (s : State) : (produce l d v g s).note = s.note := by rw [produce_frame]
@[simp] theorem produce_freeCtr (l : Nat) (d : Reg) (v : Word) (g : BitVec 8) (s : State) : (produce l d v g s).freeCtr = s.freeCtr := by rw [produce_frame]
@[simp] theorem produce_mem (l : Nat) (d : Reg) (v : Word) (g : BitVec 8) (s : State) : (produce l d v g s).mem = s.mem := by rw [produce_frame]
@[simp] theorem produce_bad (l : Nat) (d : Reg) (v : Word) (g : BitVec 8) (s : State) : (produce l d v g s).bad = s.bad := by rw [produce_frame]
@[simp] theorem produce_clusters (l : Nat) (d : Reg) (v : Word) (g : BitVec 8) (s : State) : (produce l d v g s).clusters = s.clusters := by rw [produce_frame]
@[simp] theorem produce_parts (l : Nat) (d : Reg) (v : Word) (g : BitVec 8) (s : State) : (produce l d v g s).parts = s.parts := by rw [produce_frame]
@[simp] theorem produce_reqs (l : Nat) (d : Reg) (v : Word) (g : BitVec 8) (s : State) : (produce l d v g s).reqs = s.reqs := by rw [produce_frame]
@[simp] theorem produce_pushes (l : Nat) (d : Reg) (v : Word) (g : BitVec 8) (s : State) : (produce l d v g s).pushes = s.pushes := by rw [produce_frame]
@[simp] theorem produce_updates (l : Nat) (d : Reg) (v : Word) (g : BitVec 8) (s : State) : (produce l d v g s).updates = s.updates := by rw [produce_frame]
@[simp] theorem produce_net (l : Nat) (d : Reg) (v : Word) (g : BitVec 8) (s : State) : (produce l d v g s).net = s.net := by rw [produce_frame]
@[simp] theorem produce_far (l : Nat) (d : Reg) (v : Word) (g : BitVec 8) (s : State) : (produce l d v g s).far = s.far := by rw [produce_frame]
@[simp] theorem produce_farStamp (l : Nat) (d : Reg) (v : Word) (g : BitVec 8) (s : State) : (produce l d v g s).farStamp = s.farStamp := by rw [produce_frame]
@[simp] theorem produce_farWrites (l : Nat) (d : Reg) (v : Word) (g : BitVec 8) (s : State) : (produce l d v g s).farWrites = s.farWrites := by rw [produce_frame]
@[simp] theorem produce_peerDir (l : Nat) (d : Reg) (v : Word) (g : BitVec 8) (s : State) : (produce l d v g s).peerDir = s.peerDir := by rw [produce_frame]
@[simp] theorem produce_engine (l : Nat) (d : Reg) (v : Word) (g : BitVec 8) (s : State) : (produce l d v g s).engine = s.engine := by rw [produce_frame]
@[simp] theorem produce_fabric (l : Nat) (d : Reg) (v : Word) (g : BitVec 8) (s : State) : (produce l d v g s).fabric = s.fabric := by rw [produce_frame]
@[simp] theorem produce_netPages (l : Nat) (d : Reg) (v : Word) (g : BitVec 8) (s : State) : (produce l d v g s).netPages = s.netPages := by rw [produce_frame]
@[simp] theorem produce_security (l : Nat) (d : Reg) (v : Word) (g : BitVec 8) (s : State) : (produce l d v g s).security = s.security := by rw [produce_frame]
@[simp] theorem produce_epochs (l : Nat) (d : Reg) (v : Word) (g : BitVec 8) (s : State) : (produce l d v g s).epochs = s.epochs := by rw [produce_frame]
@[simp] theorem produce_deadTags (l : Nat) (d : Reg) (v : Word) (g : BitVec 8) (s : State) : (produce l d v g s).deadTags = s.deadTags := by rw [produce_frame]
@[simp] theorem produce_msi (l : Nat) (d : Reg) (v : Word) (g : BitVec 8) (s : State) : (produce l d v g s).msi = s.msi := by rw [produce_frame]
@[simp] theorem produce_hostRead (l : Nat) (d : Reg) (v : Word) (g : BitVec 8) (s : State) : (produce l d v g s).hostRead = s.hostRead := by rw [produce_frame]
@[simp] theorem produce_devWaits (l : Nat) (d : Reg) (v : Word) (g : BitVec 8) (s : State) : (produce l d v g s).devWaits = s.devWaits := by rw [produce_frame]
@[simp] theorem produce_kw8 (l : Nat) (d : Reg) (v : Word) (g : BitVec 8) (s : State) : (produce l d v g s).kw8 = s.kw8 := by rw [produce_frame]

/-! ### produceFpu: what it leaves of the state -/

theorem produceFpu_frame (l : Nat) (d : Reg) (v : Word) (g : BitVec 8) (s : State) :
    produceFpu l d v g s = { s with cores := (produceFpu l d v g s).cores } := rfl

@[simp] theorem produceFpu_nextId (l : Nat) (d : Reg) (v : Word) (g : BitVec 8) (s : State) : (produceFpu l d v g s).nextId = s.nextId := by rw [produceFpu_frame]
@[simp] theorem produceFpu_cycle (l : Nat) (d : Reg) (v : Word) (g : BitVec 8) (s : State) : (produceFpu l d v g s).cycle = s.cycle := by rw [produceFpu_frame]
@[simp] theorem produceFpu_late (l : Nat) (d : Reg) (v : Word) (g : BitVec 8) (s : State) : (produceFpu l d v g s).late = s.late := by rw [produceFpu_frame]
@[simp] theorem produceFpu_agenda (l : Nat) (d : Reg) (v : Word) (g : BitVec 8) (s : State) : (produceFpu l d v g s).agenda = s.agenda := by rw [produceFpu_frame]
@[simp] theorem produceFpu_cur (l : Nat) (d : Reg) (v : Word) (g : BitVec 8) (s : State) : (produceFpu l d v g s).cur = s.cur := by rw [produceFpu_frame]
@[simp] theorem produceFpu_note (l : Nat) (d : Reg) (v : Word) (g : BitVec 8) (s : State) : (produceFpu l d v g s).note = s.note := by rw [produceFpu_frame]
@[simp] theorem produceFpu_freeCtr (l : Nat) (d : Reg) (v : Word) (g : BitVec 8) (s : State) : (produceFpu l d v g s).freeCtr = s.freeCtr := by rw [produceFpu_frame]
@[simp] theorem produceFpu_mem (l : Nat) (d : Reg) (v : Word) (g : BitVec 8) (s : State) : (produceFpu l d v g s).mem = s.mem := by rw [produceFpu_frame]
@[simp] theorem produceFpu_bad (l : Nat) (d : Reg) (v : Word) (g : BitVec 8) (s : State) : (produceFpu l d v g s).bad = s.bad := by rw [produceFpu_frame]
@[simp] theorem produceFpu_clusters (l : Nat) (d : Reg) (v : Word) (g : BitVec 8) (s : State) : (produceFpu l d v g s).clusters = s.clusters := by rw [produceFpu_frame]
@[simp] theorem produceFpu_parts (l : Nat) (d : Reg) (v : Word) (g : BitVec 8) (s : State) : (produceFpu l d v g s).parts = s.parts := by rw [produceFpu_frame]
@[simp] theorem produceFpu_reqs (l : Nat) (d : Reg) (v : Word) (g : BitVec 8) (s : State) : (produceFpu l d v g s).reqs = s.reqs := by rw [produceFpu_frame]
@[simp] theorem produceFpu_pushes (l : Nat) (d : Reg) (v : Word) (g : BitVec 8) (s : State) : (produceFpu l d v g s).pushes = s.pushes := by rw [produceFpu_frame]
@[simp] theorem produceFpu_updates (l : Nat) (d : Reg) (v : Word) (g : BitVec 8) (s : State) : (produceFpu l d v g s).updates = s.updates := by rw [produceFpu_frame]
@[simp] theorem produceFpu_net (l : Nat) (d : Reg) (v : Word) (g : BitVec 8) (s : State) : (produceFpu l d v g s).net = s.net := by rw [produceFpu_frame]
@[simp] theorem produceFpu_far (l : Nat) (d : Reg) (v : Word) (g : BitVec 8) (s : State) : (produceFpu l d v g s).far = s.far := by rw [produceFpu_frame]
@[simp] theorem produceFpu_farStamp (l : Nat) (d : Reg) (v : Word) (g : BitVec 8) (s : State) : (produceFpu l d v g s).farStamp = s.farStamp := by rw [produceFpu_frame]
@[simp] theorem produceFpu_farWrites (l : Nat) (d : Reg) (v : Word) (g : BitVec 8) (s : State) : (produceFpu l d v g s).farWrites = s.farWrites := by rw [produceFpu_frame]
@[simp] theorem produceFpu_peerDir (l : Nat) (d : Reg) (v : Word) (g : BitVec 8) (s : State) : (produceFpu l d v g s).peerDir = s.peerDir := by rw [produceFpu_frame]
@[simp] theorem produceFpu_engine (l : Nat) (d : Reg) (v : Word) (g : BitVec 8) (s : State) : (produceFpu l d v g s).engine = s.engine := by rw [produceFpu_frame]
@[simp] theorem produceFpu_fabric (l : Nat) (d : Reg) (v : Word) (g : BitVec 8) (s : State) : (produceFpu l d v g s).fabric = s.fabric := by rw [produceFpu_frame]
@[simp] theorem produceFpu_netPages (l : Nat) (d : Reg) (v : Word) (g : BitVec 8) (s : State) : (produceFpu l d v g s).netPages = s.netPages := by rw [produceFpu_frame]
@[simp] theorem produceFpu_security (l : Nat) (d : Reg) (v : Word) (g : BitVec 8) (s : State) : (produceFpu l d v g s).security = s.security := by rw [produceFpu_frame]
@[simp] theorem produceFpu_epochs (l : Nat) (d : Reg) (v : Word) (g : BitVec 8) (s : State) : (produceFpu l d v g s).epochs = s.epochs := by rw [produceFpu_frame]
@[simp] theorem produceFpu_deadTags (l : Nat) (d : Reg) (v : Word) (g : BitVec 8) (s : State) : (produceFpu l d v g s).deadTags = s.deadTags := by rw [produceFpu_frame]
@[simp] theorem produceFpu_msi (l : Nat) (d : Reg) (v : Word) (g : BitVec 8) (s : State) : (produceFpu l d v g s).msi = s.msi := by rw [produceFpu_frame]
@[simp] theorem produceFpu_hostRead (l : Nat) (d : Reg) (v : Word) (g : BitVec 8) (s : State) : (produceFpu l d v g s).hostRead = s.hostRead := by rw [produceFpu_frame]
@[simp] theorem produceFpu_devWaits (l : Nat) (d : Reg) (v : Word) (g : BitVec 8) (s : State) : (produceFpu l d v g s).devWaits = s.devWaits := by rw [produceFpu_frame]
@[simp] theorem produceFpu_kw8 (l : Nat) (d : Reg) (v : Word) (g : BitVec 8) (s : State) : (produceFpu l d v g s).kw8 = s.kw8 := by rw [produceFpu_frame]

/-! ### produceLater: what it leaves of the state -/

theorem produceLater_frame (l : Nat) (d : Reg) (v : Word) (g : BitVec 8) (s : State) :
    produceLater l d v g s = { s with cores := (produceLater l d v g s).cores } := rfl

@[simp] theorem produceLater_nextId (l : Nat) (d : Reg) (v : Word) (g : BitVec 8) (s : State) : (produceLater l d v g s).nextId = s.nextId := by rw [produceLater_frame]
@[simp] theorem produceLater_cycle (l : Nat) (d : Reg) (v : Word) (g : BitVec 8) (s : State) : (produceLater l d v g s).cycle = s.cycle := by rw [produceLater_frame]
@[simp] theorem produceLater_late (l : Nat) (d : Reg) (v : Word) (g : BitVec 8) (s : State) : (produceLater l d v g s).late = s.late := by rw [produceLater_frame]
@[simp] theorem produceLater_agenda (l : Nat) (d : Reg) (v : Word) (g : BitVec 8) (s : State) : (produceLater l d v g s).agenda = s.agenda := by rw [produceLater_frame]
@[simp] theorem produceLater_cur (l : Nat) (d : Reg) (v : Word) (g : BitVec 8) (s : State) : (produceLater l d v g s).cur = s.cur := by rw [produceLater_frame]
@[simp] theorem produceLater_note (l : Nat) (d : Reg) (v : Word) (g : BitVec 8) (s : State) : (produceLater l d v g s).note = s.note := by rw [produceLater_frame]
@[simp] theorem produceLater_freeCtr (l : Nat) (d : Reg) (v : Word) (g : BitVec 8) (s : State) : (produceLater l d v g s).freeCtr = s.freeCtr := by rw [produceLater_frame]
@[simp] theorem produceLater_mem (l : Nat) (d : Reg) (v : Word) (g : BitVec 8) (s : State) : (produceLater l d v g s).mem = s.mem := by rw [produceLater_frame]
@[simp] theorem produceLater_bad (l : Nat) (d : Reg) (v : Word) (g : BitVec 8) (s : State) : (produceLater l d v g s).bad = s.bad := by rw [produceLater_frame]
@[simp] theorem produceLater_clusters (l : Nat) (d : Reg) (v : Word) (g : BitVec 8) (s : State) : (produceLater l d v g s).clusters = s.clusters := by rw [produceLater_frame]
@[simp] theorem produceLater_parts (l : Nat) (d : Reg) (v : Word) (g : BitVec 8) (s : State) : (produceLater l d v g s).parts = s.parts := by rw [produceLater_frame]
@[simp] theorem produceLater_reqs (l : Nat) (d : Reg) (v : Word) (g : BitVec 8) (s : State) : (produceLater l d v g s).reqs = s.reqs := by rw [produceLater_frame]
@[simp] theorem produceLater_pushes (l : Nat) (d : Reg) (v : Word) (g : BitVec 8) (s : State) : (produceLater l d v g s).pushes = s.pushes := by rw [produceLater_frame]
@[simp] theorem produceLater_updates (l : Nat) (d : Reg) (v : Word) (g : BitVec 8) (s : State) : (produceLater l d v g s).updates = s.updates := by rw [produceLater_frame]
@[simp] theorem produceLater_net (l : Nat) (d : Reg) (v : Word) (g : BitVec 8) (s : State) : (produceLater l d v g s).net = s.net := by rw [produceLater_frame]
@[simp] theorem produceLater_far (l : Nat) (d : Reg) (v : Word) (g : BitVec 8) (s : State) : (produceLater l d v g s).far = s.far := by rw [produceLater_frame]
@[simp] theorem produceLater_farStamp (l : Nat) (d : Reg) (v : Word) (g : BitVec 8) (s : State) : (produceLater l d v g s).farStamp = s.farStamp := by rw [produceLater_frame]
@[simp] theorem produceLater_farWrites (l : Nat) (d : Reg) (v : Word) (g : BitVec 8) (s : State) : (produceLater l d v g s).farWrites = s.farWrites := by rw [produceLater_frame]
@[simp] theorem produceLater_peerDir (l : Nat) (d : Reg) (v : Word) (g : BitVec 8) (s : State) : (produceLater l d v g s).peerDir = s.peerDir := by rw [produceLater_frame]
@[simp] theorem produceLater_engine (l : Nat) (d : Reg) (v : Word) (g : BitVec 8) (s : State) : (produceLater l d v g s).engine = s.engine := by rw [produceLater_frame]
@[simp] theorem produceLater_fabric (l : Nat) (d : Reg) (v : Word) (g : BitVec 8) (s : State) : (produceLater l d v g s).fabric = s.fabric := by rw [produceLater_frame]
@[simp] theorem produceLater_netPages (l : Nat) (d : Reg) (v : Word) (g : BitVec 8) (s : State) : (produceLater l d v g s).netPages = s.netPages := by rw [produceLater_frame]
@[simp] theorem produceLater_security (l : Nat) (d : Reg) (v : Word) (g : BitVec 8) (s : State) : (produceLater l d v g s).security = s.security := by rw [produceLater_frame]
@[simp] theorem produceLater_epochs (l : Nat) (d : Reg) (v : Word) (g : BitVec 8) (s : State) : (produceLater l d v g s).epochs = s.epochs := by rw [produceLater_frame]
@[simp] theorem produceLater_deadTags (l : Nat) (d : Reg) (v : Word) (g : BitVec 8) (s : State) : (produceLater l d v g s).deadTags = s.deadTags := by rw [produceLater_frame]
@[simp] theorem produceLater_msi (l : Nat) (d : Reg) (v : Word) (g : BitVec 8) (s : State) : (produceLater l d v g s).msi = s.msi := by rw [produceLater_frame]
@[simp] theorem produceLater_hostRead (l : Nat) (d : Reg) (v : Word) (g : BitVec 8) (s : State) : (produceLater l d v g s).hostRead = s.hostRead := by rw [produceLater_frame]
@[simp] theorem produceLater_devWaits (l : Nat) (d : Reg) (v : Word) (g : BitVec 8) (s : State) : (produceLater l d v g s).devWaits = s.devWaits := by rw [produceLater_frame]
@[simp] theorem produceLater_kw8 (l : Nat) (d : Reg) (v : Word) (g : BitVec 8) (s : State) : (produceLater l d v g s).kw8 = s.kw8 := by rw [produceLater_frame]

/-! ### produceFpuLater: what it leaves of the state -/

theorem produceFpuLater_frame (l : Nat) (d : Reg) (v : Word) (g : BitVec 8) (s : State) :
    produceFpuLater l d v g s = { s with cores := (produceFpuLater l d v g s).cores } := rfl

@[simp] theorem produceFpuLater_nextId (l : Nat) (d : Reg) (v : Word) (g : BitVec 8) (s : State) : (produceFpuLater l d v g s).nextId = s.nextId := by rw [produceFpuLater_frame]
@[simp] theorem produceFpuLater_cycle (l : Nat) (d : Reg) (v : Word) (g : BitVec 8) (s : State) : (produceFpuLater l d v g s).cycle = s.cycle := by rw [produceFpuLater_frame]
@[simp] theorem produceFpuLater_late (l : Nat) (d : Reg) (v : Word) (g : BitVec 8) (s : State) : (produceFpuLater l d v g s).late = s.late := by rw [produceFpuLater_frame]
@[simp] theorem produceFpuLater_agenda (l : Nat) (d : Reg) (v : Word) (g : BitVec 8) (s : State) : (produceFpuLater l d v g s).agenda = s.agenda := by rw [produceFpuLater_frame]
@[simp] theorem produceFpuLater_cur (l : Nat) (d : Reg) (v : Word) (g : BitVec 8) (s : State) : (produceFpuLater l d v g s).cur = s.cur := by rw [produceFpuLater_frame]
@[simp] theorem produceFpuLater_note (l : Nat) (d : Reg) (v : Word) (g : BitVec 8) (s : State) : (produceFpuLater l d v g s).note = s.note := by rw [produceFpuLater_frame]
@[simp] theorem produceFpuLater_freeCtr (l : Nat) (d : Reg) (v : Word) (g : BitVec 8) (s : State) : (produceFpuLater l d v g s).freeCtr = s.freeCtr := by rw [produceFpuLater_frame]
@[simp] theorem produceFpuLater_mem (l : Nat) (d : Reg) (v : Word) (g : BitVec 8) (s : State) : (produceFpuLater l d v g s).mem = s.mem := by rw [produceFpuLater_frame]
@[simp] theorem produceFpuLater_bad (l : Nat) (d : Reg) (v : Word) (g : BitVec 8) (s : State) : (produceFpuLater l d v g s).bad = s.bad := by rw [produceFpuLater_frame]
@[simp] theorem produceFpuLater_clusters (l : Nat) (d : Reg) (v : Word) (g : BitVec 8) (s : State) : (produceFpuLater l d v g s).clusters = s.clusters := by rw [produceFpuLater_frame]
@[simp] theorem produceFpuLater_parts (l : Nat) (d : Reg) (v : Word) (g : BitVec 8) (s : State) : (produceFpuLater l d v g s).parts = s.parts := by rw [produceFpuLater_frame]
@[simp] theorem produceFpuLater_reqs (l : Nat) (d : Reg) (v : Word) (g : BitVec 8) (s : State) : (produceFpuLater l d v g s).reqs = s.reqs := by rw [produceFpuLater_frame]
@[simp] theorem produceFpuLater_pushes (l : Nat) (d : Reg) (v : Word) (g : BitVec 8) (s : State) : (produceFpuLater l d v g s).pushes = s.pushes := by rw [produceFpuLater_frame]
@[simp] theorem produceFpuLater_updates (l : Nat) (d : Reg) (v : Word) (g : BitVec 8) (s : State) : (produceFpuLater l d v g s).updates = s.updates := by rw [produceFpuLater_frame]
@[simp] theorem produceFpuLater_net (l : Nat) (d : Reg) (v : Word) (g : BitVec 8) (s : State) : (produceFpuLater l d v g s).net = s.net := by rw [produceFpuLater_frame]
@[simp] theorem produceFpuLater_far (l : Nat) (d : Reg) (v : Word) (g : BitVec 8) (s : State) : (produceFpuLater l d v g s).far = s.far := by rw [produceFpuLater_frame]
@[simp] theorem produceFpuLater_farStamp (l : Nat) (d : Reg) (v : Word) (g : BitVec 8) (s : State) : (produceFpuLater l d v g s).farStamp = s.farStamp := by rw [produceFpuLater_frame]
@[simp] theorem produceFpuLater_farWrites (l : Nat) (d : Reg) (v : Word) (g : BitVec 8) (s : State) : (produceFpuLater l d v g s).farWrites = s.farWrites := by rw [produceFpuLater_frame]
@[simp] theorem produceFpuLater_peerDir (l : Nat) (d : Reg) (v : Word) (g : BitVec 8) (s : State) : (produceFpuLater l d v g s).peerDir = s.peerDir := by rw [produceFpuLater_frame]
@[simp] theorem produceFpuLater_engine (l : Nat) (d : Reg) (v : Word) (g : BitVec 8) (s : State) : (produceFpuLater l d v g s).engine = s.engine := by rw [produceFpuLater_frame]
@[simp] theorem produceFpuLater_fabric (l : Nat) (d : Reg) (v : Word) (g : BitVec 8) (s : State) : (produceFpuLater l d v g s).fabric = s.fabric := by rw [produceFpuLater_frame]
@[simp] theorem produceFpuLater_netPages (l : Nat) (d : Reg) (v : Word) (g : BitVec 8) (s : State) : (produceFpuLater l d v g s).netPages = s.netPages := by rw [produceFpuLater_frame]
@[simp] theorem produceFpuLater_security (l : Nat) (d : Reg) (v : Word) (g : BitVec 8) (s : State) : (produceFpuLater l d v g s).security = s.security := by rw [produceFpuLater_frame]
@[simp] theorem produceFpuLater_epochs (l : Nat) (d : Reg) (v : Word) (g : BitVec 8) (s : State) : (produceFpuLater l d v g s).epochs = s.epochs := by rw [produceFpuLater_frame]
@[simp] theorem produceFpuLater_deadTags (l : Nat) (d : Reg) (v : Word) (g : BitVec 8) (s : State) : (produceFpuLater l d v g s).deadTags = s.deadTags := by rw [produceFpuLater_frame]
@[simp] theorem produceFpuLater_msi (l : Nat) (d : Reg) (v : Word) (g : BitVec 8) (s : State) : (produceFpuLater l d v g s).msi = s.msi := by rw [produceFpuLater_frame]
@[simp] theorem produceFpuLater_hostRead (l : Nat) (d : Reg) (v : Word) (g : BitVec 8) (s : State) : (produceFpuLater l d v g s).hostRead = s.hostRead := by rw [produceFpuLater_frame]
@[simp] theorem produceFpuLater_devWaits (l : Nat) (d : Reg) (v : Word) (g : BitVec 8) (s : State) : (produceFpuLater l d v g s).devWaits = s.devWaits := by rw [produceFpuLater_frame]
@[simp] theorem produceFpuLater_kw8 (l : Nat) (d : Reg) (v : Word) (g : BitVec 8) (s : State) : (produceFpuLater l d v g s).kw8 = s.kw8 := by rw [produceFpuLater_frame]

/-! ### sendWord: what it leaves of the state -/

theorem sendWord_frame (s : State) (c : CtxId) (q : Nat) (v : Word) (k : Option Word) :
    sendWord s c q v k = { s with cores := (sendWord s c q v k).cores, nextId := (sendWord s c q v k).nextId } := rfl

@[simp] theorem sendWord_cycle (s : State) (c : CtxId) (q : Nat) (v : Word) (k : Option Word) : (sendWord s c q v k).cycle = s.cycle := by rw [sendWord_frame]
@[simp] theorem sendWord_late (s : State) (c : CtxId) (q : Nat) (v : Word) (k : Option Word) : (sendWord s c q v k).late = s.late := by rw [sendWord_frame]
@[simp] theorem sendWord_agenda (s : State) (c : CtxId) (q : Nat) (v : Word) (k : Option Word) : (sendWord s c q v k).agenda = s.agenda := by rw [sendWord_frame]
@[simp] theorem sendWord_cur (s : State) (c : CtxId) (q : Nat) (v : Word) (k : Option Word) : (sendWord s c q v k).cur = s.cur := by rw [sendWord_frame]
@[simp] theorem sendWord_note (s : State) (c : CtxId) (q : Nat) (v : Word) (k : Option Word) : (sendWord s c q v k).note = s.note := by rw [sendWord_frame]
@[simp] theorem sendWord_freeCtr (s : State) (c : CtxId) (q : Nat) (v : Word) (k : Option Word) : (sendWord s c q v k).freeCtr = s.freeCtr := by rw [sendWord_frame]
@[simp] theorem sendWord_mem (s : State) (c : CtxId) (q : Nat) (v : Word) (k : Option Word) : (sendWord s c q v k).mem = s.mem := by rw [sendWord_frame]
@[simp] theorem sendWord_bad (s : State) (c : CtxId) (q : Nat) (v : Word) (k : Option Word) : (sendWord s c q v k).bad = s.bad := by rw [sendWord_frame]
@[simp] theorem sendWord_clusters (s : State) (c : CtxId) (q : Nat) (v : Word) (k : Option Word) : (sendWord s c q v k).clusters = s.clusters := by rw [sendWord_frame]
@[simp] theorem sendWord_parts (s : State) (c : CtxId) (q : Nat) (v : Word) (k : Option Word) : (sendWord s c q v k).parts = s.parts := by rw [sendWord_frame]
@[simp] theorem sendWord_reqs (s : State) (c : CtxId) (q : Nat) (v : Word) (k : Option Word) : (sendWord s c q v k).reqs = s.reqs := by rw [sendWord_frame]
@[simp] theorem sendWord_pushes (s : State) (c : CtxId) (q : Nat) (v : Word) (k : Option Word) : (sendWord s c q v k).pushes = s.pushes := by rw [sendWord_frame]
@[simp] theorem sendWord_updates (s : State) (c : CtxId) (q : Nat) (v : Word) (k : Option Word) : (sendWord s c q v k).updates = s.updates := by rw [sendWord_frame]
@[simp] theorem sendWord_net (s : State) (c : CtxId) (q : Nat) (v : Word) (k : Option Word) : (sendWord s c q v k).net = s.net := by rw [sendWord_frame]
@[simp] theorem sendWord_far (s : State) (c : CtxId) (q : Nat) (v : Word) (k : Option Word) : (sendWord s c q v k).far = s.far := by rw [sendWord_frame]
@[simp] theorem sendWord_farStamp (s : State) (c : CtxId) (q : Nat) (v : Word) (k : Option Word) : (sendWord s c q v k).farStamp = s.farStamp := by rw [sendWord_frame]
@[simp] theorem sendWord_farWrites (s : State) (c : CtxId) (q : Nat) (v : Word) (k : Option Word) : (sendWord s c q v k).farWrites = s.farWrites := by rw [sendWord_frame]
@[simp] theorem sendWord_peerDir (s : State) (c : CtxId) (q : Nat) (v : Word) (k : Option Word) : (sendWord s c q v k).peerDir = s.peerDir := by rw [sendWord_frame]
@[simp] theorem sendWord_engine (s : State) (c : CtxId) (q : Nat) (v : Word) (k : Option Word) : (sendWord s c q v k).engine = s.engine := by rw [sendWord_frame]
@[simp] theorem sendWord_fabric (s : State) (c : CtxId) (q : Nat) (v : Word) (k : Option Word) : (sendWord s c q v k).fabric = s.fabric := by rw [sendWord_frame]
@[simp] theorem sendWord_netPages (s : State) (c : CtxId) (q : Nat) (v : Word) (k : Option Word) : (sendWord s c q v k).netPages = s.netPages := by rw [sendWord_frame]
@[simp] theorem sendWord_security (s : State) (c : CtxId) (q : Nat) (v : Word) (k : Option Word) : (sendWord s c q v k).security = s.security := by rw [sendWord_frame]
@[simp] theorem sendWord_epochs (s : State) (c : CtxId) (q : Nat) (v : Word) (k : Option Word) : (sendWord s c q v k).epochs = s.epochs := by rw [sendWord_frame]
@[simp] theorem sendWord_deadTags (s : State) (c : CtxId) (q : Nat) (v : Word) (k : Option Word) : (sendWord s c q v k).deadTags = s.deadTags := by rw [sendWord_frame]
@[simp] theorem sendWord_msi (s : State) (c : CtxId) (q : Nat) (v : Word) (k : Option Word) : (sendWord s c q v k).msi = s.msi := by rw [sendWord_frame]
@[simp] theorem sendWord_hostRead (s : State) (c : CtxId) (q : Nat) (v : Word) (k : Option Word) : (sendWord s c q v k).hostRead = s.hostRead := by rw [sendWord_frame]
@[simp] theorem sendWord_devWaits (s : State) (c : CtxId) (q : Nat) (v : Word) (k : Option Word) : (sendWord s c q v k).devWaits = s.devWaits := by rw [sendWord_frame]
@[simp] theorem sendWord_kw8 (s : State) (c : CtxId) (q : Nat) (v : Word) (k : Option Word) : (sendWord s c q v k).kw8 = s.kw8 := by rw [sendWord_frame]

/-! ### writeResult: what it leaves of the state -/

theorem writeResult_frame (s : State) (c : CtxId) (r : Reg) (v : Word) (g : BitVec 8) (k : Option Word) :
    writeResult s c r v g k = { s with cores := (writeResult s c r v g k).cores, nextId := (writeResult s c r v g k).nextId } := by unfold writeResult; split <;> rfl

@[simp] theorem writeResult_cycle (s : State) (c : CtxId) (r : Reg) (v : Word) (g : BitVec 8) (k : Option Word) : (writeResult s c r v g k).cycle = s.cycle := by rw [writeResult_frame]
@[simp] theorem writeResult_late (s : State) (c : CtxId) (r : Reg) (v : Word) (g : BitVec 8) (k : Option Word) : (writeResult s c r v g k).late = s.late := by rw [writeResult_frame]
@[simp] theorem writeResult_agenda (s : State) (c : CtxId) (r : Reg) (v : Word) (g : BitVec 8) (k : Option Word) : (writeResult s c r v g k).agenda = s.agenda := by rw [writeResult_frame]
@[simp] theorem writeResult_cur (s : State) (c : CtxId) (r : Reg) (v : Word) (g : BitVec 8) (k : Option Word) : (writeResult s c r v g k).cur = s.cur := by rw [writeResult_frame]
@[simp] theorem writeResult_note (s : State) (c : CtxId) (r : Reg) (v : Word) (g : BitVec 8) (k : Option Word) : (writeResult s c r v g k).note = s.note := by rw [writeResult_frame]
@[simp] theorem writeResult_freeCtr (s : State) (c : CtxId) (r : Reg) (v : Word) (g : BitVec 8) (k : Option Word) : (writeResult s c r v g k).freeCtr = s.freeCtr := by rw [writeResult_frame]
@[simp] theorem writeResult_mem (s : State) (c : CtxId) (r : Reg) (v : Word) (g : BitVec 8) (k : Option Word) : (writeResult s c r v g k).mem = s.mem := by rw [writeResult_frame]
@[simp] theorem writeResult_bad (s : State) (c : CtxId) (r : Reg) (v : Word) (g : BitVec 8) (k : Option Word) : (writeResult s c r v g k).bad = s.bad := by rw [writeResult_frame]
@[simp] theorem writeResult_clusters (s : State) (c : CtxId) (r : Reg) (v : Word) (g : BitVec 8) (k : Option Word) : (writeResult s c r v g k).clusters = s.clusters := by rw [writeResult_frame]
@[simp] theorem writeResult_parts (s : State) (c : CtxId) (r : Reg) (v : Word) (g : BitVec 8) (k : Option Word) : (writeResult s c r v g k).parts = s.parts := by rw [writeResult_frame]
@[simp] theorem writeResult_reqs (s : State) (c : CtxId) (r : Reg) (v : Word) (g : BitVec 8) (k : Option Word) : (writeResult s c r v g k).reqs = s.reqs := by rw [writeResult_frame]
@[simp] theorem writeResult_pushes (s : State) (c : CtxId) (r : Reg) (v : Word) (g : BitVec 8) (k : Option Word) : (writeResult s c r v g k).pushes = s.pushes := by rw [writeResult_frame]
@[simp] theorem writeResult_updates (s : State) (c : CtxId) (r : Reg) (v : Word) (g : BitVec 8) (k : Option Word) : (writeResult s c r v g k).updates = s.updates := by rw [writeResult_frame]
@[simp] theorem writeResult_net (s : State) (c : CtxId) (r : Reg) (v : Word) (g : BitVec 8) (k : Option Word) : (writeResult s c r v g k).net = s.net := by rw [writeResult_frame]
@[simp] theorem writeResult_far (s : State) (c : CtxId) (r : Reg) (v : Word) (g : BitVec 8) (k : Option Word) : (writeResult s c r v g k).far = s.far := by rw [writeResult_frame]
@[simp] theorem writeResult_farStamp (s : State) (c : CtxId) (r : Reg) (v : Word) (g : BitVec 8) (k : Option Word) : (writeResult s c r v g k).farStamp = s.farStamp := by rw [writeResult_frame]
@[simp] theorem writeResult_farWrites (s : State) (c : CtxId) (r : Reg) (v : Word) (g : BitVec 8) (k : Option Word) : (writeResult s c r v g k).farWrites = s.farWrites := by rw [writeResult_frame]
@[simp] theorem writeResult_peerDir (s : State) (c : CtxId) (r : Reg) (v : Word) (g : BitVec 8) (k : Option Word) : (writeResult s c r v g k).peerDir = s.peerDir := by rw [writeResult_frame]
@[simp] theorem writeResult_engine (s : State) (c : CtxId) (r : Reg) (v : Word) (g : BitVec 8) (k : Option Word) : (writeResult s c r v g k).engine = s.engine := by rw [writeResult_frame]
@[simp] theorem writeResult_fabric (s : State) (c : CtxId) (r : Reg) (v : Word) (g : BitVec 8) (k : Option Word) : (writeResult s c r v g k).fabric = s.fabric := by rw [writeResult_frame]
@[simp] theorem writeResult_netPages (s : State) (c : CtxId) (r : Reg) (v : Word) (g : BitVec 8) (k : Option Word) : (writeResult s c r v g k).netPages = s.netPages := by rw [writeResult_frame]
@[simp] theorem writeResult_security (s : State) (c : CtxId) (r : Reg) (v : Word) (g : BitVec 8) (k : Option Word) : (writeResult s c r v g k).security = s.security := by rw [writeResult_frame]
@[simp] theorem writeResult_epochs (s : State) (c : CtxId) (r : Reg) (v : Word) (g : BitVec 8) (k : Option Word) : (writeResult s c r v g k).epochs = s.epochs := by rw [writeResult_frame]
@[simp] theorem writeResult_deadTags (s : State) (c : CtxId) (r : Reg) (v : Word) (g : BitVec 8) (k : Option Word) : (writeResult s c r v g k).deadTags = s.deadTags := by rw [writeResult_frame]
@[simp] theorem writeResult_msi (s : State) (c : CtxId) (r : Reg) (v : Word) (g : BitVec 8) (k : Option Word) : (writeResult s c r v g k).msi = s.msi := by rw [writeResult_frame]
@[simp] theorem writeResult_hostRead (s : State) (c : CtxId) (r : Reg) (v : Word) (g : BitVec 8) (k : Option Word) : (writeResult s c r v g k).hostRead = s.hostRead := by rw [writeResult_frame]
@[simp] theorem writeResult_devWaits (s : State) (c : CtxId) (r : Reg) (v : Word) (g : BitVec 8) (k : Option Word) : (writeResult s c r v g k).devWaits = s.devWaits := by rw [writeResult_frame]
@[simp] theorem writeResult_kw8 (s : State) (c : CtxId) (r : Reg) (v : Word) (g : BitVec 8) (k : Option Word) : (writeResult s c r v g k).kw8 = s.kw8 := by rw [writeResult_frame]

/-! ### deliver: what it leaves of the state -/

theorem deliver_frame (d : Reg) (v : Word) (s : State) :
    deliver d v s = { s with cores := (deliver d v s).cores, nextId := (deliver d v s).nextId } := writeResult_frame s s.cur d v 0 none

@[simp] theorem deliver_cycle (d : Reg) (v : Word) (s : State) : (deliver d v s).cycle = s.cycle := by rw [deliver_frame]
@[simp] theorem deliver_late (d : Reg) (v : Word) (s : State) : (deliver d v s).late = s.late := by rw [deliver_frame]
@[simp] theorem deliver_agenda (d : Reg) (v : Word) (s : State) : (deliver d v s).agenda = s.agenda := by rw [deliver_frame]
@[simp] theorem deliver_cur (d : Reg) (v : Word) (s : State) : (deliver d v s).cur = s.cur := by rw [deliver_frame]
@[simp] theorem deliver_note (d : Reg) (v : Word) (s : State) : (deliver d v s).note = s.note := by rw [deliver_frame]
@[simp] theorem deliver_freeCtr (d : Reg) (v : Word) (s : State) : (deliver d v s).freeCtr = s.freeCtr := by rw [deliver_frame]
@[simp] theorem deliver_mem (d : Reg) (v : Word) (s : State) : (deliver d v s).mem = s.mem := by rw [deliver_frame]
@[simp] theorem deliver_bad (d : Reg) (v : Word) (s : State) : (deliver d v s).bad = s.bad := by rw [deliver_frame]
@[simp] theorem deliver_clusters (d : Reg) (v : Word) (s : State) : (deliver d v s).clusters = s.clusters := by rw [deliver_frame]
@[simp] theorem deliver_parts (d : Reg) (v : Word) (s : State) : (deliver d v s).parts = s.parts := by rw [deliver_frame]
@[simp] theorem deliver_reqs (d : Reg) (v : Word) (s : State) : (deliver d v s).reqs = s.reqs := by rw [deliver_frame]
@[simp] theorem deliver_pushes (d : Reg) (v : Word) (s : State) : (deliver d v s).pushes = s.pushes := by rw [deliver_frame]
@[simp] theorem deliver_updates (d : Reg) (v : Word) (s : State) : (deliver d v s).updates = s.updates := by rw [deliver_frame]
@[simp] theorem deliver_net (d : Reg) (v : Word) (s : State) : (deliver d v s).net = s.net := by rw [deliver_frame]
@[simp] theorem deliver_far (d : Reg) (v : Word) (s : State) : (deliver d v s).far = s.far := by rw [deliver_frame]
@[simp] theorem deliver_farStamp (d : Reg) (v : Word) (s : State) : (deliver d v s).farStamp = s.farStamp := by rw [deliver_frame]
@[simp] theorem deliver_farWrites (d : Reg) (v : Word) (s : State) : (deliver d v s).farWrites = s.farWrites := by rw [deliver_frame]
@[simp] theorem deliver_peerDir (d : Reg) (v : Word) (s : State) : (deliver d v s).peerDir = s.peerDir := by rw [deliver_frame]
@[simp] theorem deliver_engine (d : Reg) (v : Word) (s : State) : (deliver d v s).engine = s.engine := by rw [deliver_frame]
@[simp] theorem deliver_fabric (d : Reg) (v : Word) (s : State) : (deliver d v s).fabric = s.fabric := by rw [deliver_frame]
@[simp] theorem deliver_netPages (d : Reg) (v : Word) (s : State) : (deliver d v s).netPages = s.netPages := by rw [deliver_frame]
@[simp] theorem deliver_security (d : Reg) (v : Word) (s : State) : (deliver d v s).security = s.security := by rw [deliver_frame]
@[simp] theorem deliver_epochs (d : Reg) (v : Word) (s : State) : (deliver d v s).epochs = s.epochs := by rw [deliver_frame]
@[simp] theorem deliver_deadTags (d : Reg) (v : Word) (s : State) : (deliver d v s).deadTags = s.deadTags := by rw [deliver_frame]
@[simp] theorem deliver_msi (d : Reg) (v : Word) (s : State) : (deliver d v s).msi = s.msi := by rw [deliver_frame]
@[simp] theorem deliver_hostRead (d : Reg) (v : Word) (s : State) : (deliver d v s).hostRead = s.hostRead := by rw [deliver_frame]
@[simp] theorem deliver_devWaits (d : Reg) (v : Word) (s : State) : (deliver d v s).devWaits = s.devWaits := by rw [deliver_frame]
@[simp] theorem deliver_kw8 (d : Reg) (v : Word) (s : State) : (deliver d v s).kw8 = s.kw8 := by rw [deliver_frame]

/-! ### showFixed and showVar: what they leave of the state -/

theorem accrueAt_frame (c : CtxId) (due : Nat) (f : BitVec 8) (s : State) :
    accrueAt c due f s = { s with cores := (accrueAt c due f s).cores } := by
  unfold accrueAt; split <;> rfl

theorem showFixed_frame (c : CtxId) (e : Inflight) (s : State) :
    showFixed c e s = { s with cores := (showFixed c e s).cores, nextId := (showFixed c e s).nextId } := by
  unfold showFixed
  dsimp only
  split
  · rw [writeResult_frame]; rfl
  · rw [accrueAt_frame, writeResult_frame]; rfl

/-! ### settleFixed: what it leaves of the state -/

theorem settleFixed_frame (c : CtxId) (n : Nat) (s : State) :
    settleFixed c n s = { s with cores := (settleFixed c n s).cores, nextId := (settleFixed c n s).nextId } := by
  induction n generalizing s with
  | zero => rfl
  | succ n ih =>
    unfold settleFixed
    split
    · rfl
    · rw [ih, showFixed_frame]

@[simp] theorem settleFixed_cycle (c : CtxId) (n : Nat) (s : State) : (settleFixed c n s).cycle = s.cycle := by rw [settleFixed_frame]
@[simp] theorem settleFixed_late (c : CtxId) (n : Nat) (s : State) : (settleFixed c n s).late = s.late := by rw [settleFixed_frame]
@[simp] theorem settleFixed_agenda (c : CtxId) (n : Nat) (s : State) : (settleFixed c n s).agenda = s.agenda := by rw [settleFixed_frame]
@[simp] theorem settleFixed_cur (c : CtxId) (n : Nat) (s : State) : (settleFixed c n s).cur = s.cur := by rw [settleFixed_frame]
@[simp] theorem settleFixed_note (c : CtxId) (n : Nat) (s : State) : (settleFixed c n s).note = s.note := by rw [settleFixed_frame]
@[simp] theorem settleFixed_freeCtr (c : CtxId) (n : Nat) (s : State) : (settleFixed c n s).freeCtr = s.freeCtr := by rw [settleFixed_frame]
@[simp] theorem settleFixed_mem (c : CtxId) (n : Nat) (s : State) : (settleFixed c n s).mem = s.mem := by rw [settleFixed_frame]
@[simp] theorem settleFixed_bad (c : CtxId) (n : Nat) (s : State) : (settleFixed c n s).bad = s.bad := by rw [settleFixed_frame]
@[simp] theorem settleFixed_clusters (c : CtxId) (n : Nat) (s : State) : (settleFixed c n s).clusters = s.clusters := by rw [settleFixed_frame]
@[simp] theorem settleFixed_parts (c : CtxId) (n : Nat) (s : State) : (settleFixed c n s).parts = s.parts := by rw [settleFixed_frame]
@[simp] theorem settleFixed_reqs (c : CtxId) (n : Nat) (s : State) : (settleFixed c n s).reqs = s.reqs := by rw [settleFixed_frame]
@[simp] theorem settleFixed_pushes (c : CtxId) (n : Nat) (s : State) : (settleFixed c n s).pushes = s.pushes := by rw [settleFixed_frame]
@[simp] theorem settleFixed_updates (c : CtxId) (n : Nat) (s : State) : (settleFixed c n s).updates = s.updates := by rw [settleFixed_frame]
@[simp] theorem settleFixed_net (c : CtxId) (n : Nat) (s : State) : (settleFixed c n s).net = s.net := by rw [settleFixed_frame]
@[simp] theorem settleFixed_far (c : CtxId) (n : Nat) (s : State) : (settleFixed c n s).far = s.far := by rw [settleFixed_frame]
@[simp] theorem settleFixed_farStamp (c : CtxId) (n : Nat) (s : State) : (settleFixed c n s).farStamp = s.farStamp := by rw [settleFixed_frame]
@[simp] theorem settleFixed_farWrites (c : CtxId) (n : Nat) (s : State) : (settleFixed c n s).farWrites = s.farWrites := by rw [settleFixed_frame]
@[simp] theorem settleFixed_peerDir (c : CtxId) (n : Nat) (s : State) : (settleFixed c n s).peerDir = s.peerDir := by rw [settleFixed_frame]
@[simp] theorem settleFixed_engine (c : CtxId) (n : Nat) (s : State) : (settleFixed c n s).engine = s.engine := by rw [settleFixed_frame]
@[simp] theorem settleFixed_fabric (c : CtxId) (n : Nat) (s : State) : (settleFixed c n s).fabric = s.fabric := by rw [settleFixed_frame]
@[simp] theorem settleFixed_netPages (c : CtxId) (n : Nat) (s : State) : (settleFixed c n s).netPages = s.netPages := by rw [settleFixed_frame]
@[simp] theorem settleFixed_security (c : CtxId) (n : Nat) (s : State) : (settleFixed c n s).security = s.security := by rw [settleFixed_frame]
@[simp] theorem settleFixed_epochs (c : CtxId) (n : Nat) (s : State) : (settleFixed c n s).epochs = s.epochs := by rw [settleFixed_frame]
@[simp] theorem settleFixed_deadTags (c : CtxId) (n : Nat) (s : State) : (settleFixed c n s).deadTags = s.deadTags := by rw [settleFixed_frame]
@[simp] theorem settleFixed_msi (c : CtxId) (n : Nat) (s : State) : (settleFixed c n s).msi = s.msi := by rw [settleFixed_frame]
@[simp] theorem settleFixed_hostRead (c : CtxId) (n : Nat) (s : State) : (settleFixed c n s).hostRead = s.hostRead := by rw [settleFixed_frame]
@[simp] theorem settleFixed_devWaits (c : CtxId) (n : Nat) (s : State) : (settleFixed c n s).devWaits = s.devWaits := by rw [settleFixed_frame]
@[simp] theorem settleFixed_kw8 (c : CtxId) (n : Nat) (s : State) : (settleFixed c n s).kw8 = s.kw8 := by rw [settleFixed_frame]

/-! ### settleDue: what it leaves of the state -/

theorem settleDue_frame (c : CtxId) (n : Nat) (s : State) :
    settleDue c n s = { s with cores := (settleDue c n s).cores, nextId := (settleDue c n s).nextId } := by
  induction n generalizing s with
  | zero => rfl
  | succ n ih =>
    unfold settleDue
    split
    · rfl
    · rw [ih, showFixed_frame]
    · rw [ih]; unfold showVar; rw [writeResult_frame]; rfl

@[simp] theorem settleDue_cycle (c : CtxId) (n : Nat) (s : State) : (settleDue c n s).cycle = s.cycle := by rw [settleDue_frame]
@[simp] theorem settleDue_late (c : CtxId) (n : Nat) (s : State) : (settleDue c n s).late = s.late := by rw [settleDue_frame]
@[simp] theorem settleDue_agenda (c : CtxId) (n : Nat) (s : State) : (settleDue c n s).agenda = s.agenda := by rw [settleDue_frame]
@[simp] theorem settleDue_cur (c : CtxId) (n : Nat) (s : State) : (settleDue c n s).cur = s.cur := by rw [settleDue_frame]
@[simp] theorem settleDue_note (c : CtxId) (n : Nat) (s : State) : (settleDue c n s).note = s.note := by rw [settleDue_frame]
@[simp] theorem settleDue_freeCtr (c : CtxId) (n : Nat) (s : State) : (settleDue c n s).freeCtr = s.freeCtr := by rw [settleDue_frame]
@[simp] theorem settleDue_mem (c : CtxId) (n : Nat) (s : State) : (settleDue c n s).mem = s.mem := by rw [settleDue_frame]
@[simp] theorem settleDue_bad (c : CtxId) (n : Nat) (s : State) : (settleDue c n s).bad = s.bad := by rw [settleDue_frame]
@[simp] theorem settleDue_clusters (c : CtxId) (n : Nat) (s : State) : (settleDue c n s).clusters = s.clusters := by rw [settleDue_frame]
@[simp] theorem settleDue_parts (c : CtxId) (n : Nat) (s : State) : (settleDue c n s).parts = s.parts := by rw [settleDue_frame]
@[simp] theorem settleDue_reqs (c : CtxId) (n : Nat) (s : State) : (settleDue c n s).reqs = s.reqs := by rw [settleDue_frame]
@[simp] theorem settleDue_pushes (c : CtxId) (n : Nat) (s : State) : (settleDue c n s).pushes = s.pushes := by rw [settleDue_frame]
@[simp] theorem settleDue_updates (c : CtxId) (n : Nat) (s : State) : (settleDue c n s).updates = s.updates := by rw [settleDue_frame]
@[simp] theorem settleDue_net (c : CtxId) (n : Nat) (s : State) : (settleDue c n s).net = s.net := by rw [settleDue_frame]
@[simp] theorem settleDue_far (c : CtxId) (n : Nat) (s : State) : (settleDue c n s).far = s.far := by rw [settleDue_frame]
@[simp] theorem settleDue_farStamp (c : CtxId) (n : Nat) (s : State) : (settleDue c n s).farStamp = s.farStamp := by rw [settleDue_frame]
@[simp] theorem settleDue_farWrites (c : CtxId) (n : Nat) (s : State) : (settleDue c n s).farWrites = s.farWrites := by rw [settleDue_frame]
@[simp] theorem settleDue_peerDir (c : CtxId) (n : Nat) (s : State) : (settleDue c n s).peerDir = s.peerDir := by rw [settleDue_frame]
@[simp] theorem settleDue_engine (c : CtxId) (n : Nat) (s : State) : (settleDue c n s).engine = s.engine := by rw [settleDue_frame]
@[simp] theorem settleDue_fabric (c : CtxId) (n : Nat) (s : State) : (settleDue c n s).fabric = s.fabric := by rw [settleDue_frame]
@[simp] theorem settleDue_netPages (c : CtxId) (n : Nat) (s : State) : (settleDue c n s).netPages = s.netPages := by rw [settleDue_frame]
@[simp] theorem settleDue_security (c : CtxId) (n : Nat) (s : State) : (settleDue c n s).security = s.security := by rw [settleDue_frame]
@[simp] theorem settleDue_epochs (c : CtxId) (n : Nat) (s : State) : (settleDue c n s).epochs = s.epochs := by rw [settleDue_frame]
@[simp] theorem settleDue_deadTags (c : CtxId) (n : Nat) (s : State) : (settleDue c n s).deadTags = s.deadTags := by rw [settleDue_frame]
@[simp] theorem settleDue_msi (c : CtxId) (n : Nat) (s : State) : (settleDue c n s).msi = s.msi := by rw [settleDue_frame]
@[simp] theorem settleDue_hostRead (c : CtxId) (n : Nat) (s : State) : (settleDue c n s).hostRead = s.hostRead := by rw [settleDue_frame]
@[simp] theorem settleDue_devWaits (c : CtxId) (n : Nat) (s : State) : (settleDue c n s).devWaits = s.devWaits := by rw [settleDue_frame]
@[simp] theorem settleDue_kw8 (c : CtxId) (n : Nat) (s : State) : (settleDue c n s).kw8 = s.kw8 := by rw [settleDue_frame]

/-! ### settleAll: what it leaves of the state -/

theorem settleAll_frame (s : State) (c : CtxId) :
    settleAll s c = { s with cores := (settleAll s c).cores, nextId := (settleAll s c).nextId } := settleFixed_frame c _ _

@[simp] theorem settleAll_cycle (s : State) (c : CtxId) : (settleAll s c).cycle = s.cycle := by rw [settleAll_frame]
@[simp] theorem settleAll_late (s : State) (c : CtxId) : (settleAll s c).late = s.late := by rw [settleAll_frame]
@[simp] theorem settleAll_agenda (s : State) (c : CtxId) : (settleAll s c).agenda = s.agenda := by rw [settleAll_frame]
@[simp] theorem settleAll_cur (s : State) (c : CtxId) : (settleAll s c).cur = s.cur := by rw [settleAll_frame]
@[simp] theorem settleAll_note (s : State) (c : CtxId) : (settleAll s c).note = s.note := by rw [settleAll_frame]
@[simp] theorem settleAll_freeCtr (s : State) (c : CtxId) : (settleAll s c).freeCtr = s.freeCtr := by rw [settleAll_frame]
@[simp] theorem settleAll_mem (s : State) (c : CtxId) : (settleAll s c).mem = s.mem := by rw [settleAll_frame]
@[simp] theorem settleAll_bad (s : State) (c : CtxId) : (settleAll s c).bad = s.bad := by rw [settleAll_frame]
@[simp] theorem settleAll_clusters (s : State) (c : CtxId) : (settleAll s c).clusters = s.clusters := by rw [settleAll_frame]
@[simp] theorem settleAll_parts (s : State) (c : CtxId) : (settleAll s c).parts = s.parts := by rw [settleAll_frame]
@[simp] theorem settleAll_reqs (s : State) (c : CtxId) : (settleAll s c).reqs = s.reqs := by rw [settleAll_frame]
@[simp] theorem settleAll_pushes (s : State) (c : CtxId) : (settleAll s c).pushes = s.pushes := by rw [settleAll_frame]
@[simp] theorem settleAll_updates (s : State) (c : CtxId) : (settleAll s c).updates = s.updates := by rw [settleAll_frame]
@[simp] theorem settleAll_net (s : State) (c : CtxId) : (settleAll s c).net = s.net := by rw [settleAll_frame]
@[simp] theorem settleAll_far (s : State) (c : CtxId) : (settleAll s c).far = s.far := by rw [settleAll_frame]
@[simp] theorem settleAll_farStamp (s : State) (c : CtxId) : (settleAll s c).farStamp = s.farStamp := by rw [settleAll_frame]
@[simp] theorem settleAll_farWrites (s : State) (c : CtxId) : (settleAll s c).farWrites = s.farWrites := by rw [settleAll_frame]
@[simp] theorem settleAll_peerDir (s : State) (c : CtxId) : (settleAll s c).peerDir = s.peerDir := by rw [settleAll_frame]
@[simp] theorem settleAll_engine (s : State) (c : CtxId) : (settleAll s c).engine = s.engine := by rw [settleAll_frame]
@[simp] theorem settleAll_fabric (s : State) (c : CtxId) : (settleAll s c).fabric = s.fabric := by rw [settleAll_frame]
@[simp] theorem settleAll_netPages (s : State) (c : CtxId) : (settleAll s c).netPages = s.netPages := by rw [settleAll_frame]
@[simp] theorem settleAll_security (s : State) (c : CtxId) : (settleAll s c).security = s.security := by rw [settleAll_frame]
@[simp] theorem settleAll_epochs (s : State) (c : CtxId) : (settleAll s c).epochs = s.epochs := by rw [settleAll_frame]
@[simp] theorem settleAll_deadTags (s : State) (c : CtxId) : (settleAll s c).deadTags = s.deadTags := by rw [settleAll_frame]
@[simp] theorem settleAll_msi (s : State) (c : CtxId) : (settleAll s c).msi = s.msi := by rw [settleAll_frame]
@[simp] theorem settleAll_hostRead (s : State) (c : CtxId) : (settleAll s c).hostRead = s.hostRead := by rw [settleAll_frame]
@[simp] theorem settleAll_devWaits (s : State) (c : CtxId) : (settleAll s c).devWaits = s.devWaits := by rw [settleAll_frame]
@[simp] theorem settleAll_kw8 (s : State) (c : CtxId) : (settleAll s c).kw8 = s.kw8 := by rw [settleAll_frame]

/-! ### settle: what it leaves of the state -/

theorem settle_frame (s : State) (c : CtxId) :
    settle s c = { s with cores := (settle s c).cores, nextId := (settle s c).nextId } := settleDue_frame c _ s

@[simp] theorem settle_cycle (s : State) (c : CtxId) : (settle s c).cycle = s.cycle := by rw [settle_frame]
@[simp] theorem settle_late (s : State) (c : CtxId) : (settle s c).late = s.late := by rw [settle_frame]
@[simp] theorem settle_agenda (s : State) (c : CtxId) : (settle s c).agenda = s.agenda := by rw [settle_frame]
@[simp] theorem settle_cur (s : State) (c : CtxId) : (settle s c).cur = s.cur := by rw [settle_frame]
@[simp] theorem settle_note (s : State) (c : CtxId) : (settle s c).note = s.note := by rw [settle_frame]
@[simp] theorem settle_freeCtr (s : State) (c : CtxId) : (settle s c).freeCtr = s.freeCtr := by rw [settle_frame]
@[simp] theorem settle_mem (s : State) (c : CtxId) : (settle s c).mem = s.mem := by rw [settle_frame]
@[simp] theorem settle_bad (s : State) (c : CtxId) : (settle s c).bad = s.bad := by rw [settle_frame]
@[simp] theorem settle_clusters (s : State) (c : CtxId) : (settle s c).clusters = s.clusters := by rw [settle_frame]
@[simp] theorem settle_parts (s : State) (c : CtxId) : (settle s c).parts = s.parts := by rw [settle_frame]
@[simp] theorem settle_reqs (s : State) (c : CtxId) : (settle s c).reqs = s.reqs := by rw [settle_frame]
@[simp] theorem settle_pushes (s : State) (c : CtxId) : (settle s c).pushes = s.pushes := by rw [settle_frame]
@[simp] theorem settle_updates (s : State) (c : CtxId) : (settle s c).updates = s.updates := by rw [settle_frame]
@[simp] theorem settle_net (s : State) (c : CtxId) : (settle s c).net = s.net := by rw [settle_frame]
@[simp] theorem settle_far (s : State) (c : CtxId) : (settle s c).far = s.far := by rw [settle_frame]
@[simp] theorem settle_farStamp (s : State) (c : CtxId) : (settle s c).farStamp = s.farStamp := by rw [settle_frame]
@[simp] theorem settle_farWrites (s : State) (c : CtxId) : (settle s c).farWrites = s.farWrites := by rw [settle_frame]
@[simp] theorem settle_peerDir (s : State) (c : CtxId) : (settle s c).peerDir = s.peerDir := by rw [settle_frame]
@[simp] theorem settle_engine (s : State) (c : CtxId) : (settle s c).engine = s.engine := by rw [settle_frame]
@[simp] theorem settle_fabric (s : State) (c : CtxId) : (settle s c).fabric = s.fabric := by rw [settle_frame]
@[simp] theorem settle_netPages (s : State) (c : CtxId) : (settle s c).netPages = s.netPages := by rw [settle_frame]
@[simp] theorem settle_security (s : State) (c : CtxId) : (settle s c).security = s.security := by rw [settle_frame]
@[simp] theorem settle_epochs (s : State) (c : CtxId) : (settle s c).epochs = s.epochs := by rw [settle_frame]
@[simp] theorem settle_deadTags (s : State) (c : CtxId) : (settle s c).deadTags = s.deadTags := by rw [settle_frame]
@[simp] theorem settle_msi (s : State) (c : CtxId) : (settle s c).msi = s.msi := by rw [settle_frame]
@[simp] theorem settle_hostRead (s : State) (c : CtxId) : (settle s c).hostRead = s.hostRead := by rw [settle_frame]
@[simp] theorem settle_devWaits (s : State) (c : CtxId) : (settle s c).devWaits = s.devWaits := by rw [settle_frame]
@[simp] theorem settle_kw8 (s : State) (c : CtxId) : (settle s c).kw8 = s.kw8 := by rw [settle_frame]

/-! ### What comes before an instruction's own checks (R46, R61, R95, R96, R103) -/

/-- Nothing holds or traps an instruction before its own checks exactly where no register of it awaits an interlocked result, its ports
hold their words, under the checking scoreboard none of its registers has a result in flight, and no source is poisoned. -/
theorem hazard_clear_iff (rs ds : List Reg) (s : State) :
    hazard rs ds s = .clear ↔
      (rs ++ ds).any s.awaits = false ∧ s.portsReady rs = true ∧ (s.me.chk = true → (rs ++ ds).findSome? s.stalled = none) ∧
        rs.find? (fun r => s.me.isPoisoned r && r != 0 && !isPort r) = none := by
  unfold hazard
  by_cases h1 : (rs ++ ds).any s.awaits = true
  · rw [if_pos h1]
    constructor
    · intro h; cases h
    · rintro ⟨h, _⟩; rw [h1] at h; cases h
  · rw [if_neg h1]
    rw [Bool.not_eq_true] at h1
    cases h2 : s.portsReady rs with
    | false => simp
    | true =>
      simp only [Bool.not_true, Bool.false_eq_true, if_false, h1, true_and]
      cases hc : s.me.chk <;> cases h3 : (rs ++ ds).findSome? s.stalled <;>
        cases h4 : rs.find? (fun r => s.me.isPoisoned r && r != 0 && !isPort r) <;> simp

theorem issueThen_clear (rs ds : List Reg) (s : State) (k : State → Out) (h : hazard rs ds s = .clear) :
    issueThen rs ds s k = k s := by simp [issueThen, h]

theorem issueThen_hold (rs ds : List Reg) (s : State) (k : State → Out) (h : hazard rs ds s = .hold) :
    issueThen rs ds s k = hold s := by simp [issueThen, h]

theorem issueThen_trap (rs ds : List Reg) (s : State) (k : State → Out) (t : Trap) (h : hazard rs ds s = .trap t) :
    issueThen rs ds s k = trap t s := by simp [issueThen, h]

theorem destThen_ok (d : Reg) (s : State) (k : State → Out) (h : portFault s d = none) : destThen d s k = k s := by
  simp [destThen, h]

theorem destThen_bad (d : Reg) (s : State) (k : State → Out) (t : Trap) (h : portFault s d = some t) : destThen d s k = trap t s := by
  simp [destThen, h]

/-- A destination that is no port has no route to check. -/
theorem portFault_none (s : State) (d : Reg) (h : isPort d = false) : portFault s d = none := by simp [portFault, h]

@[simp] theorem failThen_none (s : State) (k : State → Out) : failThen none s k = k s := rfl

@[simp] theorem failThen_some (t : Trap) (s : State) (k : State → Out) : failThen (some t) s k = trap t s := rfl

theorem privThen_ok (l : BitVec 2) (v : IWord) (s : State) (k : State → Out) (h : l.toNat ≤ s.me.priv.toNat) :
    privThen l v s k = k s := by simp [privThen]; omega

theorem privThen_low (l : BitVec 2) (v : IWord) (s : State) (k : State → Out) (h : s.me.priv.toNat < l.toNat) :
    privThen l v s k = trapAt cPRIV (zext v) s := by simp [privThen, h]

theorem ctx0Then_ok (v : IWord) (s : State) (k : State → Out) (h : s.cur.ctx = 0) : ctx0Then v s k = k s := by simp [ctx0Then, h]

theorem ctx0Then_helper (v : IWord) (s : State) (k : State → Out) (h : s.cur.ctx ≠ 0) :
    ctx0Then v s k = trapAt cILLEGAL (zext v) s := by simp [ctx0Then, h]

theorem completeWith_ok (w : BitVec 3) (rs : List Reg) (d : Reg) (v : Word) (s : State) (h : portFault s d = none) :
    completeWith w rs d v s = .next (finish w rs (deliver d v s)) := by simp [completeWith, destThen, h]

theorem hold_eq (s : State) : hold s = .next (held s) := rfl

/-! ### Ports and other cores -/

/-- Popping ports changes the executing context's core only. -/
theorem popPorts_core_ne (rs : List Reg) (s : State) (n : Nat) (h : n ≠ s.cur.core) : (popPorts rs s).core n = s.core n := by
  unfold popPorts
  induction rs generalizing s with
  | nil => rfl
  | cons r t ih =>
    rw [List.foldl_cons]
    split
    · rw [ih _ (by simpa using h), State.core_setMine_ne _ _ _ h]
    · exact ih s h

/-- Sources without ports leave the state as it is. -/
theorem popPorts_none (rs : List Reg) (s : State) (h : ∀ r ∈ rs, isPort r = false) : popPorts rs s = s := by
  unfold popPorts
  induction rs with
  | nil => rfl
  | cons r t ih =>
    rw [List.foldl_cons, if_neg (by simp [h r (.head _)])]
    exact ih (fun r hr => h r (.tail _ hr))

@[simp] theorem Core.countRecv_ctxs (k : Core) (w : PortWord) : (k.countRecv w).ctxs = k.ctxs := rfl

@[simp] theorem Core.pop_ctxs (k : Core) (q : Nat) : (k.pop q).ctxs = k.ctxs := by unfold Core.pop; split <;> rfl

@[simp] theorem Core.pop_ctx (k : Core) (q i : Nat) : (k.pop q).ctx i = k.ctx i := by simp [Core.ctx]

/-- Popping ports leaves every context of every core as it was. -/
@[simp] theorem popPorts_ctx (rs : List Reg) (s : State) (c : CtxId) : (popPorts rs s).ctx c = s.ctx c := by
  unfold popPorts
  induction rs generalizing s with
  | nil => rfl
  | cons r t ih =>
    rw [List.foldl_cons, ih]
    split
    · by_cases h : c.core = s.cur.core
      · simp [State.ctx, State.setMine, State.mine, h]
      · simp [State.ctx, State.setMine, State.core_setCore_ne _ _ _ _ h]
    · rfl

@[simp] theorem popPorts_me (rs : List Reg) (s : State) : (popPorts rs s).me = s.me := by simp [State.me]

theorem slotTaken_core_ne (s : State) (n : Nat) (h : n ≠ s.cur.core) : (slotTaken s).core n = s.core n := State.core_setMine_ne _ _ _ h

theorem issued_core_ne (w : BitVec 3) (s : State) (n : Nat) (h : n ≠ s.cur.core) : (issued w s).core n = s.core n := by
  have h1 : n ≠ (slotTaken s).cur.core := by simpa using h
  unfold issued
  rw [State.core_setMe_ne _ _ _ (by simpa using h1), State.core_setMine_ne _ _ _ h1, slotTaken_core_ne _ _ h]

theorem finish_core_ne (w : BitVec 3) (rs : List Reg) (s : State) (n : Nat) (h : n ≠ s.cur.core) : (finish w rs s).core n = s.core n := by
  have h1 : n ≠ (popPorts rs s).cur.core := by simpa using h
  have h2 : n ≠ (issued w (popPorts rs s)).cur.core := by simpa using h
  unfold finish retireAt
  show ((issued w (popPorts rs s)).setMe _).core n = s.core n
  rw [State.core_setMe_ne _ _ _ h2]
  rw [issued_core_ne _ _ _ h1, popPorts_core_ne _ _ _ h]

theorem finishAt_core_ne (w : BitVec 3) (rs : List Reg) (a : Word) (s : State) (n : Nat) (h : n ≠ s.cur.core) :
    (finishAt w rs a s).core n = s.core n := by
  have h1 : n ≠ (popPorts rs s).cur.core := by simpa using h
  have h2 : n ≠ (issued w (popPorts rs s)).cur.core := by simpa using h
  unfold finishAt retireAt
  show ((issued w (popPorts rs s)).setMe _).core n = s.core n
  rw [State.core_setMe_ne _ _ _ h2]
  rw [issued_core_ne _ _ _ h1, popPorts_core_ne _ _ _ h]

theorem held_core_ne (s : State) (n : Nat) (h : n ≠ s.cur.core) : (held s).core n = s.core n := by
  show (State.setMe _ _).core n = s.core n
  rw [State.core_setMe_ne _ _ _ (by simpa using h), State.core_setMine_ne _ _ _ h]

theorem produce_core_ne (l : Nat) (d : Reg) (v : Word) (g : BitVec 8) (s : State) (n : Nat) (h : n ≠ s.cur.core) :
    (produce l d v g s).core n = s.core n := by
  unfold produce
  split
  · rfl
  · exact State.core_setMe_ne _ _ _ h

/-! ### The executing context after an issue -/

/-- A selected context itself is left as it was, but that it waits for itself no longer (R142). -/
theorem slotTaken_me (s : State) (h : s.cur.ctx < 11) :
    (slotTaken s).me = { s.me with yieldTo := s.me.yieldTo.filter (fun i => i != s.cur.ctx) } := by
  unfold slotTaken
  simp [State.me, State.ctx, State.setMine, State.mine, Core.ctx, h]

/-- The executing context after it has issued: its next issue, and what it waited for or was forwarded is done with. -/
theorem issued_me (w : BitVec 3) (s : State) (h : s.cur.ctx < 11) :
    (issued w s).me = { s.me with nextIssue := s.cycle + 1 + w.toNat, fwd := none, wait := .none
                                  yieldTo := s.me.yieldTo.filter (fun i => i != s.cur.ctx) } := by
  have e : ∀ t : State, ∀ n, (t.setMine { t.mine with issueSeq := n }).me = t.me := by
    intro t n
    simp [State.me, State.ctx, State.setMine, State.mine, Core.ctx]
  unfold issued
  rw [State.me_setMe _ _ (by simpa using h), e, slotTaken_me _ h]
  simp

theorem retireAt_me (w : BitVec 3) (f : Ctx → Ctx) (s : State) (h : s.cur.ctx < 11) :
    (retireAt w f s).me = f { (issued w s).me with icount := s.me.icount + 1, enter := false } := by
  have h' : (issued w s).cur.ctx < 11 := by simpa using h
  have e : (issued w s).me.icount = s.me.icount := by rw [issued_me _ _ h]
  show ((issued w s).setMe _).me = _
  rw [State.me_setMe _ _ h', e]

/-- What the end of an instruction does to its context (R44, R101, R134). -/
theorem finish_me (w : BitVec 3) (rs : List Reg) (s : State) (h : s.cur.ctx < 11) :
    (finish w rs s).me = ({ s.me with
      nextIssue := s.cycle + 1 + w.toNat, fwd := none, wait := .none, icount := s.me.icount + 1, enter := false
      yieldTo := s.me.yieldTo.filter (fun i => i != s.cur.ctx) } : Ctx).advance := by
  unfold finish
  rw [retireAt_me _ _ _ (by simpa using h), issued_me _ _ (by simpa using h)]
  simp

/-- What a transfer of control does to its context. -/
theorem finishAt_me (w : BitVec 3) (rs : List Reg) (a : Word) (s : State) (h : s.cur.ctx < 11) :
    (finishAt w rs a s).me = { s.me with
      nextIssue := s.cycle + 1 + w.toNat, fwd := none, wait := .none, icount := s.me.icount + 1, enter := false
      yieldTo := s.me.yieldTo.filter (fun i => i != s.cur.ctx), pc := a, frame := none } := by
  unfold finishAt
  rw [retireAt_me _ _ _ (by simpa using h), issued_me _ _ (by simpa using h)]
  simp

/-- A result in flight stands among the context's results. -/
theorem mem_insertInflight (l : List Inflight) (e x : Inflight) : x ∈ insertInflight l e ↔ x = e ∨ x ∈ l := by
  induction l with
  | nil => simp [insertInflight]
  | cons y t ih =>
    simp only [insertInflight]
    split
    · simp
    · simp [ih]; tauto

theorem produce_me (l : Nat) (d : Reg) (v : Word) (g : BitVec 8) (s : State) (h : s.cur.ctx < 11) (hd : ¬ (d = 0 ∧ g = 0)) :
    (produce l d v g s).me = { s.me with inflight := insertInflight s.me.inflight ⟨d, v, s.cycle + l, s.me.pc, g, s.mine.issueSeq, false, none⟩ } := by
  unfold produce
  rw [if_neg hd, State.me_setMe _ _ h]

/-- A result for g0 that raises no flag changes nothing. -/
@[simp] theorem produce_zero (l : Nat) (v : Word) (s : State) : produce l 0 v 0 s = s := rfl

/-! ### Memories under the shared operations -/

/-- The end of an instruction leaves every byte of memory as it was. -/
theorem finish_getByte (w : BitVec 3) (rs : List Reg) (s : State) (a : Nat) : getByte (finish w rs s).mem a = getByte s.mem a := by simp

end Sys2Proof.Machine
end

