-- ==== Sys2Proof/Laws/Alu.lean ====
section
/-!
SUPPORT. What the shared forms of the scalar instructions answer once nothing before their own checks holds or traps them, and what
their operations compute in terms of numbers.
-/

set_option Elab.async false

namespace Sys2Proof.Machine

open Sys2Proof

/-! ### The shared forms -/

theorem alu2_ready {lat : Nat} {f : Word → Word → Word} {d a b : Reg} {w : BitVec 3} {s : State} (h : ReadyTo [a, b] d s) :
    alu2 lat f d a b w s = resultOf w [a, b] lat d (f (s.rdA a) (s.rdB a b)) s := by
  simp [alu2, issueThen_clear _ _ _ _ h.1, destThen_ok _ _ _ h.2, resultOf]

theorem alu1_ready {lat : Nat} {f : Word → Word} {d a : Reg} {w : BitVec 3} {s : State} (h : ReadyTo [a] d s) :
    alu1 lat f d a w s = resultOf w [a] lat d (f (s.rdA a)) s := by
  simp [alu1, issueThen_clear _ _ _ _ h.1, destThen_ok _ _ _ h.2, resultOf]

theorem alu3_ready {lat : Nat} {f : Word → Word → Word → Word} {d a b : Reg} {w : BitVec 3} {s : State} (h : ReadyTo [a, b, d] d s) :
    alu3 lat f d a b w s = resultOf w [a, b, d] lat d (f (s.rdA a) (s.rdB a b) (s.rdD a b d)) s := by
  simp [alu3, issueThen_clear _ _ _ _ h.1, destThen_ok _ _ _ h.2, resultOf]

theorem alu0_ready {f : State → Word} {d : Reg} {w : BitVec 3} {s : State} (h : ReadyTo [] d s) :
    alu0 f d w s = resultOf w [] 1 d (f s) s := by
  simp [alu0, issueThen_clear _ _ _ _ h.1, destThen_ok _ _ _ h.2, resultOf]

theorem aluDiv_ready {lat : Word → Word → Nat} {f : Word → Word → Word} {d a b : Reg} {w : BitVec 3} {s : State}
    (h : ReadyTo [a, b] d s) : aluDiv lat f d a b w s =
      .next (finish w [a, b] (produceLater (lat (s.rdA a) (s.rdB a b)) d (f (s.rdA a) (s.rdB a b)) 0 s)) := by
  simp [aluDiv, issueThen_clear _ _ _ _ h.1, destThen_ok _ _ _ h.2]

/-! ### The operations -/

theorem shAmt_eq (y : Word) : shAmt y = y.toNat % 64 := by simp [shAmt, BitVec.extractLsb'_toNat]

theorem shl_eq (x : Word) (n : Nat) : x <<< n = BitVec.ofNat 64 (x.toNat * 2 ^ n) := by
  apply BitVec.eq_of_toNat_eq
  simp [Nat.shiftLeft_eq]

theorem shr_eq (x : Word) (n : Nat) : x >>> n = BitVec.ofNat 64 (x.toNat / 2 ^ n) := by
  apply BitVec.eq_of_toNat_eq
  have h := x.isLt
  have : x.toNat / 2 ^ n < 2 ^ 64 := Nat.lt_of_le_of_lt (Nat.div_le_self _ _) h
  rw [BitVec.toNat_ushiftRight, Nat.shiftRight_eq_div_pow, BitVec.toNat_ofNat, Nat.mod_eq_of_lt this]

theorem sar_eq (x : Word) (n : Nat) : x.sshiftRight n = BitVec.ofInt 64 (x.toInt / 2 ^ n) := by
  rw [← BitVec.ofInt_toInt (x := x.sshiftRight n), BitVec.toInt_sshiftRight, Int.shiftRight_eq_div_pow]
  norm_cast

theorem rol_eq (x : Word) (n : Nat) (h : n < 64) : x.rotateLeft n = if n = 0 then x else (x <<< n) ||| (x >>> (64 - n)) := by
  rw [BitVec.rotateLeft_def, Nat.mod_eq_of_lt h]
  split
  · rename_i e; subst e; simp [BitVec.ushiftRight_eq_zero]
  · rfl

theorem ror_eq (x : Word) (n : Nat) (h : n < 64) : x.rotateRight n = if n = 0 then x else (x >>> n) ||| (x <<< (64 - n)) := by
  rw [BitVec.rotateRight_def, Nat.mod_eq_of_lt h]
  split
  · rename_i e; subst e; simp
  · rfl

theorem slt_eq (x y : Word) : ofBool (x.slt y) = if x.toInt < y.toInt then 1 else 0 := by
  by_cases h : x.toInt < y.toInt <;> simp [ofBool, BitVec.slt, h]

theorem ult_eq (x y : Word) : ofBool (x.ult y) = if x.toNat < y.toNat then 1 else 0 := by
  by_cases h : x.toNat < y.toNat <;> simp [ofBool, BitVec.ult, h]

theorem min_eq (x y : Word) : (if x.slt y then x else y) = BitVec.ofInt 64 (min x.toInt y.toInt) := by
  by_cases h : x.toInt < y.toInt
  · rw [if_pos (by simpa [BitVec.slt] using h), min_eq_left (by omega), BitVec.ofInt_toInt]
  · rw [if_neg (by simpa [BitVec.slt] using h), min_eq_right (by omega), BitVec.ofInt_toInt]

theorem max_eq (x y : Word) : (if x.slt y then y else x) = BitVec.ofInt 64 (max x.toInt y.toInt) := by
  by_cases h : x.toInt < y.toInt
  · rw [if_pos (by simpa [BitVec.slt] using h), max_eq_right (by omega), BitVec.ofInt_toInt]
  · rw [if_neg (by simpa [BitVec.slt] using h), max_eq_left (by omega), BitVec.ofInt_toInt]

theorem minu_eq (x y : Word) : (if x.ult y then x else y) = BitVec.ofNat 64 (min x.toNat y.toNat) := by
  by_cases h : x.toNat < y.toNat
  · rw [if_pos (by simpa [BitVec.ult] using h), min_eq_left (by omega)]; simp
  · rw [if_neg (by simpa [BitVec.ult] using h), min_eq_right (by omega)]; simp

theorem maxu_eq (x y : Word) : (if x.ult y then y else x) = BitVec.ofNat 64 (max x.toNat y.toNat) := by
  by_cases h : x.toNat < y.toNat
  · rw [if_pos (by simpa [BitVec.ult] using h), max_eq_right (by omega)]; simp
  · rw [if_neg (by simpa [BitVec.ult] using h), max_eq_left (by omega)]; simp

theorem mul_eq (x y : Word) : x * y = BitVec.ofInt 64 (x.toInt * y.toInt) := by
  rw [BitVec.ofInt_mul, BitVec.ofInt_toInt, BitVec.ofInt_toInt]

/-- The bound of a product of two 64-bit integers. -/
theorem toInt_mul_bound (x y : Word) : -(2 ^ 126) ≤ x.toInt * y.toInt ∧ x.toInt * y.toInt ≤ 2 ^ 126 := by
  have h1 := BitVec.le_toInt x; have h2 := BitVec.toInt_lt (x := x)
  have h3 := BitVec.le_toInt y; have h4 := BitVec.toInt_lt (x := y)
  norm_num at h1 h2 h3 h4
  constructor <;> nlinarith

theorem mulhS_eq (x y : Word) : mulhS x y = BitVec.ofInt 64 (x.toInt * y.toInt / 2 ^ 64) := by
  unfold mulhS
  have hb := toInt_mul_bound x y
  have e : x.signExtend 128 * y.signExtend 128 = BitVec.ofInt 128 (x.toInt * y.toInt) := by
    rw [BitVec.ofInt_mul]
    congr 1
  rw [e]
  apply BitVec.eq_of_toNat_eq
  rw [BitVec.extractLsb'_toNat, BitVec.toNat_ofInt, BitVec.toNat_ofInt, Nat.shiftRight_eq_div_pow]
  omega

theorem mulhU_eq (x y : Word) : mulhU x y = BitVec.ofNat 64 (x.toNat * y.toNat / 2 ^ 64) := by
  unfold mulhU
  have h1 := x.isLt; have h2 := y.isLt
  have hb : x.toNat * y.toNat < 2 ^ 128 := by
    calc x.toNat * y.toNat < 2 ^ 64 * 2 ^ 64 := Nat.mul_lt_mul'' h1 h2
      _ = 2 ^ 128 := by norm_num
  apply BitVec.eq_of_toNat_eq
  rw [BitVec.extractLsb'_toNat, BitVec.toNat_mul, BitVec.toNat_setWidth, BitVec.toNat_setWidth, Nat.shiftRight_eq_div_pow,
    Nat.mod_eq_of_lt (a := x.toNat) (by omega), Nat.mod_eq_of_lt (a := y.toNat) (by omega), Nat.mod_eq_of_lt hb]
  rfl

theorem sextW32_eq (x : Word) : sextW32 x = BitVec.signExtend 64 (x.setWidth 32) := by
  unfold sextW32 sext
  congr 1

/-! ### Divisions -/

/-- The number of significant bits of a number is the n between whose powers it lies. -/
theorem sigBits_eq (m n : Nat) (h1 : m < 2 ^ n) (h2 : m ≠ 0 → 2 ^ n ≤ 2 * m) (h3 : m = 0 → n = 0) : sigBits m = n := by
  unfold sigBits
  by_cases h : m = 0
  · rw [if_pos h, h3 h]
  · rw [if_neg h]
    have h4 := h2 h
    cases n with
    | zero => simp at h1; exact absurd h1 h
    | succ k =>
      have : Nat.log2 m = k := (Nat.log2_eq_iff h).2 ⟨by rw [Nat.pow_succ] at h4; omega, h1⟩
      omega

theorem divS_eq (x y : Word) (h : y ≠ 0) :
    divS x y = if x.toInt = -(2 ^ 63) ∧ y.toInt = -1 then x else BitVec.ofInt 64 (Int.tdiv x.toInt y.toInt) := by
  unfold divS
  rw [if_neg h]
  split
  · rename_i e
    rw [e.1, e.2, ← BitVec.ofInt_toInt (x := x), e.1]
    rfl
  · rfl

theorem remS_eq (x y : Word) (h : y ≠ 0) : remS x y = x - divS x y * y := by
  unfold remS divS
  rw [if_neg h, if_neg h, BitVec.eq_sub_iff_add_eq, Int.tmod_def]
  conv => lhs; rhs; rhs; rw [← BitVec.ofInt_toInt (x := y)]
  rw [← BitVec.ofInt_mul, ← BitVec.ofInt_add]
  conv => rhs; rw [← BitVec.ofInt_toInt (x := x)]
  congr 1
  ring

theorem divU_eq (x y : Word) (h : y ≠ 0) : divU x y = BitVec.ofNat 64 (x.toNat / y.toNat) := by
  unfold divU
  rw [if_neg h]
  apply BitVec.eq_of_toNat_eq
  have := x.isLt
  have : x.toNat / y.toNat < 2 ^ 64 := Nat.lt_of_le_of_lt (Nat.div_le_self _ _) this
  rw [BitVec.toNat_udiv, BitVec.toNat_ofNat, Nat.mod_eq_of_lt this]

theorem remU_eq (x y : Word) (h : y ≠ 0) : remU x y = x - divU x y * y := by
  unfold remU divU
  rw [if_neg h, if_neg h]
  have e : x = x / y * y + x % y := by
    apply BitVec.eq_of_toNat_eq
    have := x.isLt
    have h1 := Nat.div_add_mod x.toNat y.toNat
    rw [Nat.mul_comm] at h1
    rw [BitVec.toNat_add, BitVec.toNat_mul, BitVec.toNat_udiv, BitVec.toNat_umod]
    rw [Nat.mod_eq_of_lt (a := x.toNat / y.toNat * y.toNat) (by omega), h1, Nat.mod_eq_of_lt this]
  exact BitVec.eq_sub_iff_add_eq.2 (by rw [BitVec.add_comm]; exact e.symm)

/-! ### Counting bits -/

theorem clz64_eq (x : Word) (n : Nat) (h : n ≤ 64) (h1 : x.toNat < 2 ^ (64 - n)) (h2 : n < 64 → 2 ^ (63 - n) ≤ x.toNat) :
    clz64 x = BitVec.ofNat 64 n := by
  have : sigBits x.toNat = 64 - n := by
    by_cases hn : n = 64
    · subst hn; simp at h1; rw [h1]; rfl
    · have h3 := h2 (by omega)
      have hp : 2 ^ (64 - n) = 2 * 2 ^ (63 - n) := by rw [show 64 - n = (63 - n) + 1 by omega, Nat.pow_succ, Nat.mul_comm]
      have hpos : 0 < 2 ^ (63 - n) := Nat.pos_of_ne_zero (by positivity)
      exact sigBits_eq _ _ h1 (fun _ => by omega) (fun e => by omega)
  unfold clz64
  rw [this]
  congr 1
  omega

/-- Trailing zeros within a number of bits. -/
theorem ctzFrom_eq (fuel m n : Nat) (h : n ≤ fuel) (h1 : ∀ i < n, m.testBit i = false) (h2 : n < fuel → m.testBit n = true) :
    ctzFrom fuel m = n := by
  induction fuel generalizing m n with
  | zero => simp [ctzFrom]; omega
  | succ k ih =>
    unfold ctzFrom
    cases n with
    | zero =>
      have := h2 (by omega)
      rw [Nat.testBit_zero] at this
      simp at this; simp [this]
    | succ j =>
      have h0 := h1 0 (by omega)
      rw [Nat.testBit_zero] at h0
      simp at h0
      rw [if_neg (by omega), ih (m / 2) j (by omega)
        (fun i hi => by rw [← Nat.testBit_succ]; exact h1 (i + 1) (by omega))
        (fun hj => by rw [← Nat.testBit_succ]; exact h2 (by omega))]
      omega

theorem popFrom_eq (fuel m : Nat) : popFrom fuel m = ((List.range fuel).filter (fun i => m.testBit i)).length := by
  induction fuel generalizing m with
  | zero => rfl
  | succ k ih =>
    unfold popFrom
    rw [ih, List.range_succ_eq_map, List.filter_cons, List.filter_map, ]
    have e : (fun i => m.testBit i) ∘ Nat.succ = fun i => (m / 2).testBit i := by
      funext i; simp [Nat.testBit_succ]
    rw [e]
    rw [Nat.testBit_zero]
    rcases Nat.mod_two_eq_zero_or_one m with h | h <;> simp [h]; omega

theorem revFrom_testBit (fuel n acc i : Nat) :
    (revFrom fuel n acc).testBit i = if i < fuel then n.testBit (fuel - 1 - i) else acc.testBit (i - fuel) := by
  induction fuel generalizing n acc i with
  | zero => simp [revFrom]
  | succ k ih =>
    unfold revFrom
    rw [ih]
    by_cases h1 : i < k
    · rw [if_pos h1, if_pos (by omega), show k + 1 - 1 - i = (k - 1 - i) + 1 by omega, Nat.testBit_succ]
    · rw [if_neg h1]
      by_cases h2 : i = k
      · subst h2
        rw [if_pos (by omega), Nat.sub_self, Nat.testBit_zero, show i + 1 - 1 - i = 0 by omega, Nat.testBit_zero]
        congr 1
        simp
      · rw [if_neg (by omega), show i - k = (i - (k + 1)) + 1 by omega, Nat.testBit_succ]
        congr 1
        omega

end Sys2Proof.Machine
end

