-- ==== Sys2Proof/Laws/Memory.lean ====
section
/-!
SUPPORT. The laws of a byte-addressed memory: a byte read after a write, what a write leaves alone, and that every operation keeps the
canonical form.
-/

set_option Elab.async false

namespace Sys2Proof.Machine

open Sys2Proof

/-! ### Reading a byte -/

theorem getByte_nil (a : Nat) : getByte [] a = 0 := rfl

/-- Where no cell of a memory has an address, it reads 0. -/
theorem getByte_absent (m : Memory) (a : Nat) (h : ∀ c ∈ m, c.1 ≠ a) : getByte m a = 0 := by
  induction m with
  | nil => rfl
  | cons x t ih =>
    obtain ⟨j, b⟩ := x
    have h1 : j ≠ a := h (j, b) (.head _)
    simp only [getByte, h1, if_false]
    exact ih (fun c hc => h c (.tail _ hc))

/-- A byte of two memories joined: the first one's where it lists the address. -/
theorem getByte_append_left (m l : Memory) (a : Nat) (h : ∀ c ∈ l, c.1 ≠ a) : getByte (m ++ l) a = getByte m a := by
  induction m with
  | nil => rw [List.nil_append, getByte_absent l a h]; rfl
  | cons x t ih =>
    obtain ⟨j, b⟩ := x
    by_cases hj : j = a <;> simp [getByte, hj, ih]

theorem getByte_append_right (m l : Memory) (a : Nat) (h : ∀ c ∈ m, c.1 ≠ a) : getByte (m ++ l) a = getByte l a := by
  induction m with
  | nil => rfl
  | cons x t ih =>
    obtain ⟨j, b⟩ := x
    have h1 : j ≠ a := h (j, b) (.head _)
    simp only [List.cons_append, getByte, h1, if_false]
    exact ih (fun c hc => h c (.tail _ hc))

/-- A filter that keeps an address keeps its byte. -/
theorem getByte_filter (m : Memory) (p : Host.Cell → Bool) (a : Nat) (h : ∀ c ∈ m, c.1 = a → p c = true) :
    getByte (m.filter p) a = getByte m a := by
  induction m with
  | nil => rfl
  | cons x t ih =>
    obtain ⟨j, b⟩ := x
    have iht := ih (fun c hc => h c (.tail _ hc))
    by_cases hj : j = a
    · have : p (j, b) = true := h (j, b) (.head _) hj
      rw [List.filter_cons_of_pos this]; simp [getByte, hj]
    · by_cases hp : p (j, b) = true
      · rw [List.filter_cons_of_pos hp]; simp [getByte, hj, iht]
      · rw [List.filter_cons_of_neg hp]; simp [getByte, hj, iht]

/-- The cells of a write lie in its range. -/
theorem cellsLe_range (a n v : Nat) : ∀ c ∈ cellsLe a n v, a ≤ c.1 ∧ c.1 < a + n := by
  induction n generalizing a v with
  | zero => intro c hc; simp [cellsLe] at hc
  | succ k ih =>
    intro c hc
    simp only [cellsLe] at hc
    split at hc
    · have := ih (a + 1) (v / 256) c hc; omega
    · rcases List.mem_cons.1 hc with h | h
      · subst h; simp
      · have := ih (a + 1) (v / 256) c h; omega

theorem byte_ofNat_eq_zero (v : Nat) (h : v % 256 = 0) : BitVec.ofNat 8 v = 0 := by
  apply BitVec.eq_of_toNat_eq; simp [BitVec.toNat_ofNat, h]

/-- Byte i of a write. -/
theorem getByte_cellsLe (a n v i : Nat) (h : i < n) : getByte (cellsLe a n v) (a + i) = BitVec.ofNat 8 (v / 256 ^ i) := by
  induction n generalizing a v i with
  | zero => omega
  | succ k ih =>
    simp only [cellsLe]
    cases i with
    | zero =>
      split
      · rename_i hz
        rw [getByte_absent _ _ (fun c hc => by have := cellsLe_range _ _ _ c hc; omega)]
        simp [byte_ofNat_eq_zero v hz]
      · simp [getByte]
    | succ j =>
      have e : a + (j + 1) = (a + 1) + j := by omega
      have d : v / 256 ^ (j + 1) = v / 256 / 256 ^ j := by rw [Nat.pow_succ, Nat.mul_comm, Nat.div_div_eq_div_mul]
      split
      · rw [e, ih (a + 1) (v / 256) j (by omega), d]
      · have ne : a ≠ a + (j + 1) := by omega
        simp only [getByte, ne, if_false]
        rw [e, ih (a + 1) (v / 256) j (by omega), d]

/-- A write gives byte i of its range byte i of its value (R5). -/
theorem getByte_writeLe (m : Memory) (a n v i : Nat) (h : i < n) :
    getByte (writeLe m a n v) (a + i) = BitVec.ofNat 8 (v / 256 ^ i) := by
  unfold writeLe
  rw [getByte_append_left _ _ _ (fun c hc => by simp at hc; omega)]
  rw [getByte_append_right _ _ _ (fun c hc => by simp at hc; omega)]
  exact getByte_cellsLe a n v i h

/-- A write leaves every byte outside its range as it was. -/
theorem getByte_writeLe_outside (m : Memory) (a n v x : Nat) (h : x < a ∨ a + n ≤ x) :
    getByte (writeLe m a n v) x = getByte m x := by
  unfold writeLe
  rcases h with h | h
  · rw [getByte_append_left _ _ _ (fun c hc => by simp at hc; omega)]
    rw [getByte_append_left _ _ _ (fun c hc => by have := cellsLe_range _ _ _ c hc; omega)]
    exact getByte_filter m _ x (fun c _ e => by simp [e, h])
  · rw [getByte_append_right _ _ _ (fun c hc => by
      rcases List.mem_append.1 hc with hc | hc
      · simp at hc; omega
      · have := cellsLe_range _ _ _ c hc; omega)]
    exact getByte_filter m _ x (fun c _ e => by simp [e, h])

/-! ### Reading a number -/

theorem readLe_congr (m l : Memory) (a n : Nat) (h : ∀ i, i < n → getByte m (a + i) = getByte l (a + i)) :
    readLe m a n = readLe l a n := by
  induction n generalizing a with
  | zero => rfl
  | succ k ih =>
    simp only [readLe]
    rw [show getByte m a = getByte l a from h 0 (by omega)]
    rw [ih (a + 1) (fun i hi => by have := h (i + 1) (by omega); rwa [show a + 1 + i = a + (i + 1) by omega])]

/-- A number read is below 256^n. -/
theorem readLe_lt (m : Memory) (a n : Nat) : readLe m a n < 256 ^ n := by
  induction n generalizing a with
  | zero => simp [readLe]
  | succ k ih =>
    have h1 := ih (a + 1)
    have h2 := (getByte m a).isLt
    simp only [readLe, Nat.pow_succ]
    omega

/-- Reading the range of a write gives its value (R5). -/
theorem readLe_writeLe (m : Memory) (a n v : Nat) : readLe (writeLe m a n v) a n = v % 256 ^ n := by
  suffices ∀ k l b u, (∀ i, i < k → getByte l (b + i) = BitVec.ofNat 8 (u / 256 ^ i)) → readLe l b k = u % 256 ^ k from
    this n _ a v (fun i hi => getByte_writeLe m a n v i hi)
  intro k
  induction k with
  | zero => intro l b u _; simp [readLe, Nat.mod_one]
  | succ k ih =>
    intro l b u h
    simp only [readLe]
    rw [ih l (b + 1) (u / 256) (fun i hi => by
      have := h (i + 1) (by omega)
      rw [show b + 1 + i = b + (i + 1) by omega, this, Nat.pow_succ, Nat.mul_comm, Nat.div_div_eq_div_mul])]
    have h0 := h 0 (by omega)
    simp only [Nat.add_zero, Nat.pow_zero, Nat.div_one] at h0
    rw [h0, BitVec.toNat_ofNat, show 256 ^ (k + 1) = 256 * 256 ^ k by rw [Nat.pow_succ, Nat.mul_comm], Nat.mod_mul]

/-- Reading outside the range of a write gives what it gave before. -/
theorem readLe_writeLe_outside (m : Memory) (a n v b k : Nat) (h : b + k ≤ a ∨ a + n ≤ b) :
    readLe (writeLe m a n v) b k = readLe m b k :=
  readLe_congr _ _ _ _ (fun i hi => getByte_writeLe_outside _ _ _ _ _ (by omega))

/-- The one-pass read is the read. -/
theorem readRange_eq (m : Memory) (a n : Nat) : readRange m a n = readLe m a n := by
  unfold readRange
  exact readLe_congr _ _ _ _ (fun i hi => getByte_filter _ _ _ (fun c _ e => by simp; omega))

/-! ### The canonical form -/

theorem wfFrom_mono (m : Memory) (lo hi : Nat) (h : lo ≤ hi) (w : Memory.wfFrom hi m = true) : Memory.wfFrom lo m = true := by
  cases m with
  | nil => rfl
  | cons x t =>
    obtain ⟨j, b⟩ := x
    simp [Memory.wfFrom] at w ⊢
    exact ⟨⟨by omega, w.1.2⟩, w.2⟩

/-- Every cell of a memory in canonical form stands at or above the bound. -/
theorem wfFrom_ge (m : Memory) (lo : Nat) (w : Memory.wfFrom lo m = true) : ∀ c ∈ m, lo ≤ c.1 := by
  induction m generalizing lo with
  | nil => intro c hc; cases hc
  | cons x t ih =>
    obtain ⟨j, b⟩ := x
    intro c hc
    simp [Memory.wfFrom] at w
    rcases List.mem_cons.1 hc with h | h
    · subst h; exact w.1.1
    · have := ih (j + 1) w.2 c h; omega

theorem wfFrom_filter (m : Memory) (lo : Nat) (p : Host.Cell → Bool) (w : Memory.wfFrom lo m = true) :
    Memory.wfFrom lo (m.filter p) = true := by
  induction m generalizing lo with
  | nil => rfl
  | cons x t ih =>
    obtain ⟨j, b⟩ := x
    simp [Memory.wfFrom] at w
    have := ih (j + 1) w.2
    by_cases hp : p (j, b) = true
    · simp [List.filter, hp, Memory.wfFrom, w, this]
    · simp [List.filter, hp]
      exact wfFrom_mono _ lo (j + 1) (by omega) this

/-- A filter keeps the canonical form. -/
@[simp] theorem wf_filter (m : Memory) (p : Host.Cell → Bool) (w : Memory.wf m = true) : Memory.wf (m.filter p) = true :=
  wfFrom_filter m 0 p w

theorem wfFrom_append (m l : Memory) (lo mid : Nat) (h : lo ≤ mid) (hm : Memory.wfFrom lo m = true) (hl : Memory.wfFrom mid l = true)
    (hlt : ∀ c ∈ m, c.1 < mid) : Memory.wfFrom lo (m ++ l) = true := by
  induction m generalizing lo with
  | nil => exact wfFrom_mono _ _ _ h hl
  | cons x t ih =>
    obtain ⟨j, b⟩ := x
    simp [Memory.wfFrom] at hm ⊢
    have hj : j < mid := hlt (j, b) (.head _)
    exact ⟨hm.1, ih (j + 1) hj hm.2 (fun c hc => hlt c (.tail _ hc))⟩

theorem wfFrom_cellsLe (a n v : Nat) : Memory.wfFrom a (cellsLe a n v) = true := by
  induction n generalizing a v with
  | zero => rfl
  | succ k ih =>
    simp only [cellsLe]
    split
    · exact wfFrom_mono _ a (a + 1) (by omega) (ih _ _)
    · rename_i h
      have hb : ¬ BitVec.ofNat 8 v = 0#8 := by
        intro e
        have := congrArg BitVec.toNat e
        simp [BitVec.toNat_ofNat] at this
        exact h this
      simp [Memory.wfFrom, hb, ih]

theorem wfFrom_filter_ge (m : Memory) (lo b : Nat) (w : Memory.wfFrom lo m = true) :
    Memory.wfFrom b (m.filter (fun c => decide (b ≤ c.1))) = true := by
  induction m generalizing lo with
  | nil => rfl
  | cons x t ih =>
    obtain ⟨j, d⟩ := x
    simp [Memory.wfFrom] at w
    by_cases hj : b ≤ j
    · have hr := wfFrom_filter t (j + 1) (fun c => decide (b ≤ c.1)) w.2
      simp [List.filter, hj, Memory.wfFrom, w.1.2, hr]
    · simp [List.filter, hj]; exact ih (j + 1) w.2

/-- A write keeps the canonical form. -/
@[simp] theorem wf_writeLe (m : Memory) (a n v : Nat) (w : Memory.wf m = true) : Memory.wf (writeLe m a n v) = true := by
  unfold writeLe Memory.wf
  have h1 := wfFrom_filter m 0 (fun c => decide (c.1 < a)) w
  have h2 := wfFrom_cellsLe a n v
  have h3 := wfFrom_filter_ge m 0 (a + n) w
  have h12 := wfFrom_append _ _ 0 a (by omega) h1 h2 (fun c hc => by simp at hc; omega)
  exact wfFrom_append _ _ 0 (a + n) (by omega) h12 h3 (fun c hc => by
    rcases List.mem_append.1 hc with hc | hc
    · simp at hc; omega
    · have := cellsLe_range _ _ _ c hc; omega)

@[simp] theorem wf_clipRange (m : Memory) (lo hi : Nat) (w : Memory.wf m = true) : Memory.wf (clipRange m lo hi) = true :=
  wf_filter m _ w

@[simp] theorem wf_nil : Memory.wf [] = true := rfl

/-- Two memories in canonical form that read alike everywhere are equal. -/
theorem wf_ext (m l : Memory) (hm : Memory.wf m = true) (hl : Memory.wf l = true) (h : ∀ a, getByte m a = getByte l a) : m = l := by
  suffices ∀ lo m l, Memory.wfFrom lo m = true → Memory.wfFrom lo l = true → (∀ a, getByte m a = getByte l a) → m = l from
    this 0 m l hm hl h
  intro lo m
  induction m generalizing lo with
  | nil =>
    intro l _ hl h
    cases l with
    | nil => rfl
    | cons x t =>
      obtain ⟨j, b⟩ := x
      have := h j
      simp [getByte, Memory.wfFrom] at this hl
      exact absurd this.symm hl.1.2
  | cons x t ih =>
    intro l hm hl h
    obtain ⟨j, b⟩ := x
    cases l with
    | nil =>
      have := h j
      simp [getByte, Memory.wfFrom] at this hm
      exact absurd this hm.1.2
    | cons y u =>
      obtain ⟨i, d⟩ := y
      simp [Memory.wfFrom] at hm hl
      have hi := h i
      have hj := h j
      have absT : ∀ c ∈ t, j + 1 ≤ c.1 := wfFrom_ge t (j + 1) hm.2
      have absU : ∀ c ∈ u, i + 1 ≤ c.1 := wfFrom_ge u (i + 1) hl.2
      have e : i = j := by
        by_contra ne
        rcases Nat.lt_or_gt_of_ne ne with lt | gt
        · have z : getByte ((j, b) :: t) i = 0 := getByte_absent _ _ (fun c hc => by
            rcases List.mem_cons.1 hc with hc | hc
            · subst hc; exact fun e => ne e.symm
            · have := absT c hc; omega)
          rw [z] at hi
          simp [getByte] at hi
          exact hl.1.2 hi.symm
        · have z : getByte ((i, d) :: u) j = 0 := getByte_absent _ _ (fun c hc => by
            rcases List.mem_cons.1 hc with hc | hc
            · subst hc; exact ne
            · have := absU c hc; omega)
          rw [z] at hj
          simp [getByte] at hj
          exact hm.1.2 hj
      subst e
      have eb : b = d := by simpa [getByte] using hi
      subst eb
      have : t = u := ih (i + 1) u hm.2 hl.2 (fun a => by
        have ha := h a
        by_cases hia : i = a
        · subst hia
          rw [getByte_absent t i (fun c hc => by have := absT c hc; omega),
            getByte_absent u i (fun c hc => by have := absU c hc; omega)]
        · simpa [getByte, hia] using ha)
      rw [this]

end Sys2Proof.Machine
end

