-- ==== Sys2Proof/Laws/PerInstr.lean ====
section
/-!
SUPPORT. For every constructor of Instr: the decoder gives back a well-formed instruction from its word.
-/

set_option Elab.async false

namespace Sys2Proof.Laws.DecodeEncode

open Sys2Proof

/-- Decoding the word of a well-formed instruction gives the instruction back, every operand as it was (R38, R39). -/
def Statement (i : Instr) : Prop := i.wf = true → decode (encode i) = .ok i

theorem add (d a b : BitVec 5) (w : BitVec 3) : Statement (.add d a b w) := by
  intro h
  simp [encode, decode, decodeFields, decodeAlu, layR_fields, h]

theorem sub (d a b : BitVec 5) (w : BitVec 3) : Statement (.sub d a b w) := by
  intro h
  simp [encode, decode, decodeFields, decodeAlu, layR_fields, h]

theorem and (d a b : BitVec 5) (w : BitVec 3) : Statement (.and d a b w) := by
  intro h
  simp [encode, decode, decodeFields, decodeAlu, layR_fields, h]

theorem or (d a b : BitVec 5) (w : BitVec 3) : Statement (.or d a b w) := by
  intro h
  simp [encode, decode, decodeFields, decodeAlu, layR_fields, h]

theorem xor (d a b : BitVec 5) (w : BitVec 3) : Statement (.xor d a b w) := by
  intro h
  simp [encode, decode, decodeFields, decodeAlu, layR_fields, h]

theorem andn (d a b : BitVec 5) (w : BitVec 3) : Statement (.andn d a b w) := by
  intro h
  simp [encode, decode, decodeFields, decodeAlu, layR_fields, h]

theorem shl (d a b : BitVec 5) (w : BitVec 3) : Statement (.shl d a b w) := by
  intro h
  simp [encode, decode, decodeFields, decodeAlu, layR_fields, h]

theorem shr (d a b : BitVec 5) (w : BitVec 3) : Statement (.shr d a b w) := by
  intro h
  simp [encode, decode, decodeFields, decodeAlu, layR_fields, h]

theorem sar (d a b : BitVec 5) (w : BitVec 3) : Statement (.sar d a b w) := by
  intro h
  simp [encode, decode, decodeFields, decodeAlu, layR_fields, h]

theorem rol (d a b : BitVec 5) (w : BitVec 3) : Statement (.rol d a b w) := by
  intro h
  simp [encode, decode, decodeFields, decodeAlu, layR_fields, h]

theorem ror (d a b : BitVec 5) (w : BitVec 3) : Statement (.ror d a b w) := by
  intro h
  simp [encode, decode, decodeFields, decodeAlu, layR_fields, h]

theorem slt (d a b : BitVec 5) (w : BitVec 3) : Statement (.slt d a b w) := by
  intro h
  simp [encode, decode, decodeFields, decodeAlu, layR_fields, h]

theorem sltu (d a b : BitVec 5) (w : BitVec 3) : Statement (.sltu d a b w) := by
  intro h
  simp [encode, decode, decodeFields, decodeAlu, layR_fields, h]

theorem seq (d a b : BitVec 5) (w : BitVec 3) : Statement (.seq d a b w) := by
  intro h
  simp [encode, decode, decodeFields, decodeAlu, layR_fields, h]

theorem min (d a b : BitVec 5) (w : BitVec 3) : Statement (.min d a b w) := by
  intro h
  simp [encode, decode, decodeFields, decodeAlu, layR_fields, h]

theorem max (d a b : BitVec 5) (w : BitVec 3) : Statement (.max d a b w) := by
  intro h
  simp [encode, decode, decodeFields, decodeAlu, layR_fields, h]

theorem minu (d a b : BitVec 5) (w : BitVec 3) : Statement (.minu d a b w) := by
  intro h
  simp [encode, decode, decodeFields, decodeAlu, layR_fields, h]

theorem maxu (d a b : BitVec 5) (w : BitVec 3) : Statement (.maxu d a b w) := by
  intro h
  simp [encode, decode, decodeFields, decodeAlu, layR_fields, h]

theorem mul (d a b : BitVec 5) (w : BitVec 3) : Statement (.mul d a b w) := by
  intro h
  simp [encode, decode, decodeFields, decodeAlu, layR_fields, h]

theorem mulh (d a b : BitVec 5) (w : BitVec 3) : Statement (.mulh d a b w) := by
  intro h
  simp [encode, decode, decodeFields, decodeAlu, layR_fields, h]

theorem mulhu (d a b : BitVec 5) (w : BitVec 3) : Statement (.mulhu d a b w) := by
  intro h
  simp [encode, decode, decodeFields, decodeAlu, layR_fields, h]

theorem div (d a b : BitVec 5) (w : BitVec 3) : Statement (.div d a b w) := by
  intro h
  simp [encode, decode, decodeFields, decodeAlu, layR_fields, h]

theorem divu (d a b : BitVec 5) (w : BitVec 3) : Statement (.divu d a b w) := by
  intro h
  simp [encode, decode, decodeFields, decodeAlu, layR_fields, h]

theorem rem (d a b : BitVec 5) (w : BitVec 3) : Statement (.rem d a b w) := by
  intro h
  simp [encode, decode, decodeFields, decodeAlu, layR_fields, h]

theorem remu (d a b : BitVec 5) (w : BitVec 3) : Statement (.remu d a b w) := by
  intro h
  simp [encode, decode, decodeFields, decodeAlu, layR_fields, h]

theorem clz (d a : BitVec 5) (w : BitVec 3) : Statement (.clz d a w) := by
  intro h
  simp [encode, decode, decodeFields, decodeAlu, layR_fields, h]

theorem ctz (d a : BitVec 5) (w : BitVec 3) : Statement (.ctz d a w) := by
  intro h
  simp [encode, decode, decodeFields, decodeAlu, layR_fields, h]

theorem popc (d a : BitVec 5) (w : BitVec 3) : Statement (.popc d a w) := by
  intro h
  simp [encode, decode, decodeFields, decodeAlu, layR_fields, h]

theorem brev (d a : BitVec 5) (w : BitVec 3) : Statement (.brev d a w) := by
  intro h
  simp [encode, decode, decodeFields, decodeAlu, layR_fields, h]

theorem sextB (d a : BitVec 5) (w : BitVec 3) : Statement (.sextB d a w) := by
  intro h
  simp [encode, decode, decodeFields, decodeAlu, layR_fields, h]

theorem sextH (d a : BitVec 5) (w : BitVec 3) : Statement (.sextH d a w) := by
  intro h
  simp [encode, decode, decodeFields, decodeAlu, layR_fields, h]

theorem sextW (d a : BitVec 5) (w : BitVec 3) : Statement (.sextW d a w) := by
  intro h
  simp [encode, decode, decodeFields, decodeAlu, layR_fields, h]

theorem zextW (d a : BitVec 5) (w : BitVec 3) : Statement (.zextW d a w) := by
  intro h
  simp [encode, decode, decodeFields, decodeAlu, layR_fields, h]

theorem sel (d a b : BitVec 5) (w : BitVec 3) : Statement (.sel d a b w) := by
  intro h
  simp [encode, decode, decodeFields, decodeAlu, layR_fields, h]

theorem addw (d a b : BitVec 5) (w : BitVec 3) : Statement (.addw d a b w) := by
  intro h
  simp [encode, decode, decodeFields, decodeAlu, layR_fields, h]

theorem subw (d a b : BitVec 5) (w : BitVec 3) : Statement (.subw d a b w) := by
  intro h
  simp [encode, decode, decodeFields, decodeAlu, layR_fields, h]

theorem mulw (d a b : BitVec 5) (w : BitVec 3) : Statement (.mulw d a b w) := by
  intro h
  simp [encode, decode, decodeFields, decodeAlu, layR_fields, h]

theorem addi (d a : BitVec 5) (i : BitVec 13) (w : BitVec 3) : Statement (.addi d a i w) := by
  intro h
  simp [encode, decode, decodeFields, layI_fields, h]

theorem andi (d a : BitVec 5) (i : BitVec 13) (w : BitVec 3) : Statement (.andi d a i w) := by
  intro h
  simp [encode, decode, decodeFields, layI_fields, h]

theorem ori (d a : BitVec 5) (i : BitVec 13) (w : BitVec 3) : Statement (.ori d a i w) := by
  intro h
  simp [encode, decode, decodeFields, layI_fields, h]

theorem xori (d a : BitVec 5) (i : BitVec 13) (w : BitVec 3) : Statement (.xori d a i w) := by
  intro h
  simp [encode, decode, decodeFields, layI_fields, h]

theorem slti (d a : BitVec 5) (i : BitVec 13) (w : BitVec 3) : Statement (.slti d a i w) := by
  intro h
  simp [encode, decode, decodeFields, layI_fields, h]

theorem sltiu (d a : BitVec 5) (i : BitVec 13) (w : BitVec 3) : Statement (.sltiu d a i w) := by
  intro h
  simp [encode, decode, decodeFields, layI_fields, h]

theorem shli (d a : BitVec 5) (n : BitVec 6) (w : BitVec 3) : Statement (.shli d a n w) := by
  intro h
  simp [encode, decode, decodeFields, decodeShi, layShi_fields, h]

theorem shri (d a : BitVec 5) (n : BitVec 6) (w : BitVec 3) : Statement (.shri d a n w) := by
  intro h
  simp [encode, decode, decodeFields, decodeShi, layShi_fields, h]

theorem sari (d a : BitVec 5) (n : BitVec 6) (w : BitVec 3) : Statement (.sari d a n w) := by
  intro h
  simp [encode, decode, decodeFields, decodeShi, layShi_fields, h]

theorem roli (d a : BitVec 5) (n : BitVec 6) (w : BitVec 3) : Statement (.roli d a n w) := by
  intro h
  simp [encode, decode, decodeFields, decodeShi, layShi_fields, h]

theorem lui (d : BitVec 5) (i : BitVec 18) (w : BitVec 3) : Statement (.lui d i w) := by
  intro h
  simp [encode, decode, decodeFields, layU_fields, h]

theorem adr (d : BitVec 5) (i : BitVec 18) (w : BitVec 3) : Statement (.adr d i w) := by
  intro h
  simp [encode, decode, decodeFields, layU_fields, h]

theorem extu (d a : BitVec 5) (p : BitVec 6) (l : BitVec 5) (w : BitVec 3) : Statement (.extu d a p l w) := by
  intro h
  simp [encode, decode, decodeFields, decodeBitf, layBitf_fields, h]

theorem exts (d a : BitVec 5) (p : BitVec 6) (l : BitVec 5) (w : BitVec 3) : Statement (.exts d a p l w) := by
  intro h
  simp [encode, decode, decodeFields, decodeBitf, layBitf_fields, h]

theorem ins (d a : BitVec 5) (p : BitVec 6) (l : BitVec 5) (w : BitVec 3) : Statement (.ins d a p l w) := by
  intro h
  simp [encode, decode, decodeFields, decodeBitf, layBitf_fields, h]

theorem fadd (d a b : BitVec 5) (w : BitVec 3) : Statement (.fadd d a b w) := by
  intro h
  simp [encode, decode, decodeFields, decodeFpu, layR_fields, h]

theorem fsub (d a b : BitVec 5) (w : BitVec 3) : Statement (.fsub d a b w) := by
  intro h
  simp [encode, decode, decodeFields, decodeFpu, layR_fields, h]

theorem fmul (d a b : BitVec 5) (w : BitVec 3) : Statement (.fmul d a b w) := by
  intro h
  simp [encode, decode, decodeFields, decodeFpu, layR_fields, h]

theorem fma (d a b : BitVec 5) (w : BitVec 3) : Statement (.fma d a b w) := by
  intro h
  simp [encode, decode, decodeFields, decodeFpu, layR_fields, h]

theorem fnma (d a b : BitVec 5) (w : BitVec 3) : Statement (.fnma d a b w) := by
  intro h
  simp [encode, decode, decodeFields, decodeFpu, layR_fields, h]

theorem fdiv (d a b : BitVec 5) (w : BitVec 3) : Statement (.fdiv d a b w) := by
  intro h
  simp [encode, decode, decodeFields, decodeFpu, layR_fields, h]

theorem fsqrt (d a : BitVec 5) (w : BitVec 3) : Statement (.fsqrt d a w) := by
  intro h
  simp [encode, decode, decodeFields, decodeFpu, layR_fields, h]

theorem fmin (d a b : BitVec 5) (w : BitVec 3) : Statement (.fmin d a b w) := by
  intro h
  simp [encode, decode, decodeFields, decodeFpu, layR_fields, h]

theorem fmax (d a b : BitVec 5) (w : BitVec 3) : Statement (.fmax d a b w) := by
  intro h
  simp [encode, decode, decodeFields, decodeFpu, layR_fields, h]

theorem feq (d a b : BitVec 5) (w : BitVec 3) : Statement (.feq d a b w) := by
  intro h
  simp [encode, decode, decodeFields, decodeFpu, layR_fields, h]

theorem flt (d a b : BitVec 5) (w : BitVec 3) : Statement (.flt d a b w) := by
  intro h
  simp [encode, decode, decodeFields, decodeFpu, layR_fields, h]

theorem fle (d a b : BitVec 5) (w : BitVec 3) : Statement (.fle d a b w) := by
  intro h
  simp [encode, decode, decodeFields, decodeFpu, layR_fields, h]

theorem fclass (d a : BitVec 5) (w : BitVec 3) : Statement (.fclass d a w) := by
  intro h
  simp [encode, decode, decodeFields, decodeFpu, layR_fields, h]

theorem fabs (d a : BitVec 5) (w : BitVec 3) : Statement (.fabs d a w) := by
  intro h
  simp [encode, decode, decodeFields, decodeFpu, layR_fields, h]

theorem fneg (d a : BitVec 5) (w : BitVec 3) : Statement (.fneg d a w) := by
  intro h
  simp [encode, decode, decodeFields, decodeFpu, layR_fields, h]

theorem cvtF32I64 (d a : BitVec 5) (w : BitVec 3) : Statement (.cvtF32I64 d a w) := by
  intro h
  simp [encode, decode, decodeFields, decodeFpu, layR_fields, h]

theorem cvtI64F32 (d a : BitVec 5) (w : BitVec 3) : Statement (.cvtI64F32 d a w) := by
  intro h
  simp [encode, decode, decodeFields, decodeFpu, layR_fields, h]

theorem cvtF32N64 (d a : BitVec 5) (w : BitVec 3) : Statement (.cvtF32N64 d a w) := by
  intro h
  simp [encode, decode, decodeFields, decodeFpu, layR_fields, h]

theorem cvtN64F32 (d a : BitVec 5) (w : BitVec 3) : Statement (.cvtN64F32 d a w) := by
  intro h
  simp [encode, decode, decodeFields, decodeFpu, layR_fields, h]

theorem cvtBf16F32 (d a : BitVec 5) (w : BitVec 3) : Statement (.cvtBf16F32 d a w) := by
  intro h
  simp [encode, decode, decodeFields, decodeFpu, layR_fields, h]

theorem cvtF32Bf16 (d a : BitVec 5) (w : BitVec 3) : Statement (.cvtF32Bf16 d a w) := by
  intro h
  simp [encode, decode, decodeFields, decodeFpu, layR_fields, h]

theorem cvtE4m3F32 (d a : BitVec 5) (w : BitVec 3) : Statement (.cvtE4m3F32 d a w) := by
  intro h
  simp [encode, decode, decodeFields, decodeFpu, layR_fields, h]

theorem cvtF32E4m3 (d a : BitVec 5) (w : BitVec 3) : Statement (.cvtF32E4m3 d a w) := by
  intro h
  simp [encode, decode, decodeFields, decodeFpu, layR_fields, h]

theorem cvtE5m2F32 (d a : BitVec 5) (w : BitVec 3) : Statement (.cvtE5m2F32 d a w) := by
  intro h
  simp [encode, decode, decodeFields, decodeFpu, layR_fields, h]

theorem cvtF32E5m2 (d a : BitVec 5) (w : BitVec 3) : Statement (.cvtF32E5m2 d a w) := by
  intro h
  simp [encode, decode, decodeFields, decodeFpu, layR_fields, h]

theorem frnd (d a : BitVec 5) (w : BitVec 3) : Statement (.frnd d a w) := by
  intro h
  simp [encode, decode, decodeFields, decodeFpu, layR_fields, h]

theorem beq (a b : BitVec 5) (o : BitVec 10) (w : BitVec 3) : Statement (.beq a b o w) := by
  intro h
  simp [encode, decode, decodeFields, decodeBr, layB_fields, h]

theorem bne (a b : BitVec 5) (o : BitVec 10) (w : BitVec 3) : Statement (.bne a b o w) := by
  intro h
  simp [encode, decode, decodeFields, decodeBr, layB_fields, h]

theorem blt (a b : BitVec 5) (o : BitVec 10) (w : BitVec 3) : Statement (.blt a b o w) := by
  intro h
  simp [encode, decode, decodeFields, decodeBr, layB_fields, h]

theorem bge (a b : BitVec 5) (o : BitVec 10) (w : BitVec 3) : Statement (.bge a b o w) := by
  intro h
  simp [encode, decode, decodeFields, decodeBr, layB_fields, h]

theorem bltu (a b : BitVec 5) (o : BitVec 10) (w : BitVec 3) : Statement (.bltu a b o w) := by
  intro h
  simp [encode, decode, decodeFields, decodeBr, layB_fields, h]

theorem bgeu (a b : BitVec 5) (o : BitVec 10) (w : BitVec 3) : Statement (.bgeu a b o w) := by
  intro h
  simp [encode, decode, decodeFields, decodeBr, layB_fields, h]

theorem j (o : BitVec 23) (w : BitVec 3) : Statement (.j o w) := by
  intro h
  simp [encode, decode, decodeFields, layJ_fields, h]

theorem call (o : BitVec 23) (w : BitVec 3) : Statement (.call o w) := by
  intro h
  simp [encode, decode, decodeFields, layJ_fields, h]

theorem jr (a : BitVec 5) (w : BitVec 3) : Statement (.jr a w) := by
  intro h
  simp [encode, decode, decodeFields, decodeJx, layR_fields, h]

theorem jalr (d a : BitVec 5) (w : BitVec 3) : Statement (.jalr d a w) := by
  intro h
  simp [encode, decode, decodeFields, decodeJx, layR_fields, h]

theorem callr (a : BitVec 5) (w : BitVec 3) : Statement (.callr a w) := by
  intro h
  simp [encode, decode, decodeFields, decodeJx, layR_fields, h]

theorem ret (w : BitVec 3) : Statement (.ret w) := by
  intro h
  simp [encode, decode, decodeFields, decodeJx, layR_fields, h]

theorem fjmp (a : BitVec 5) (w : BitVec 3) : Statement (.fjmp a w) := by
  intro h
  simp [encode, decode, decodeFields, decodeJx, layR_fields, h]

theorem ld (d a : BitVec 5) (o : BitVec 9) (s t : BitVec 2) (w : BitVec 3) : Statement (.ld d a o s t w) := by
  intro h
  simp [encode, decode, decodeFields, layM_fields, h]

theorem ldu (d a : BitVec 5) (o : BitVec 9) (s t : BitVec 2) (w : BitVec 3) : Statement (.ldu d a o s t w) := by
  intro h
  simp [encode, decode, decodeFields, layM_fields, h]

theorem st (d a : BitVec 5) (o : BitVec 9) (s t : BitVec 2) (w : BitVec 3) : Statement (.st d a o s t w) := by
  intro h
  simp [encode, decode, decodeFields, layM_fields, h]

theorem lda (d a : BitVec 5) (s : BitVec 3) (z : BitVec 1) (w : BitVec 3) : Statement (.lda d a s z w) := by
  intro h
  simp [encode, decode, decodeFields, decodeAmo, layA_fields, h]

theorem strl (a b : BitVec 5) (s : BitVec 3) (z : BitVec 1) (w : BitVec 3) : Statement (.strl a b s z w) := by
  intro h
  simp [encode, decode, decodeFields, decodeAmo, layA_fields, h]

theorem swap (d a b : BitVec 5) (s : BitVec 3) (z : BitVec 1) (w : BitVec 3) : Statement (.swap d a b s z w) := by
  intro h
  simp [encode, decode, decodeFields, decodeAmo, layA_fields, h]

theorem cas (d a b : BitVec 5) (s : BitVec 3) (z : BitVec 1) (w : BitVec 3) : Statement (.cas d a b s z w) := by
  intro h
  simp [encode, decode, decodeFields, decodeAmo, layA_fields, h]

theorem atadd (d a b : BitVec 5) (s : BitVec 3) (z : BitVec 1) (w : BitVec 3) : Statement (.atadd d a b s z w) := by
  intro h
  simp [encode, decode, decodeFields, decodeAmo, layA_fields, h]

theorem atand (d a b : BitVec 5) (s : BitVec 3) (z : BitVec 1) (w : BitVec 3) : Statement (.atand d a b s z w) := by
  intro h
  simp [encode, decode, decodeFields, decodeAmo, layA_fields, h]

theorem ator (d a b : BitVec 5) (s : BitVec 3) (z : BitVec 1) (w : BitVec 3) : Statement (.ator d a b s z w) := by
  intro h
  simp [encode, decode, decodeFields, decodeAmo, layA_fields, h]

theorem atxor (d a b : BitVec 5) (s : BitVec 3) (z : BitVec 1) (w : BitVec 3) : Statement (.atxor d a b s z w) := by
  intro h
  simp [encode, decode, decodeFields, decodeAmo, layA_fields, h]

theorem atmin (d a b : BitVec 5) (s : BitVec 3) (z : BitVec 1) (w : BitVec 3) : Statement (.atmin d a b s z w) := by
  intro h
  simp [encode, decode, decodeFields, decodeAmo, layA_fields, h]

theorem atmax (d a b : BitVec 5) (s : BitVec 3) (z : BitVec 1) (w : BitVec 3) : Statement (.atmax d a b s z w) := by
  intro h
  simp [encode, decode, decodeFields, decodeAmo, layA_fields, h]

theorem atminn (d a b : BitVec 5) (s : BitVec 3) (z : BitVec 1) (w : BitVec 3) : Statement (.atminn d a b s z w) := by
  intro h
  simp [encode, decode, decodeFields, decodeAmo, layA_fields, h]

theorem atmaxn (d a b : BitVec 5) (s : BitVec 3) (z : BitVec 1) (w : BitVec 3) : Statement (.atmaxn d a b s z w) := by
  intro h
  simp [encode, decode, decodeFields, decodeAmo, layA_fields, h]

theorem atfadd (d a b : BitVec 5) (s w : BitVec 3) : Statement (.atfadd d a b s w) := by
  intro h
  simp [encode, decode, decodeFields, decodeAmo, layA_fields, h]

theorem atfmax (d a b : BitVec 5) (s w : BitVec 3) : Statement (.atfmax d a b s w) := by
  intro h
  simp [encode, decode, decodeFields, decodeAmo, layA_fields, h]

theorem ataddnr (a b : BitVec 5) (s : BitVec 3) (z : BitVec 1) (w : BitVec 3) : Statement (.ataddnr a b s z w) := by
  intro h
  simp [encode, decode, decodeFields, decodeAmo, layA_fields, h]

theorem sti (d a b : BitVec 5) (z : BitVec 2) (s r : BitVec 1) (w : BitVec 3) : Statement (.sti d a b z s r w) := by
  intro h
  simp [encode, decode, decodeFields, laySti_fields, h]

theorem fenceFull (a b : BitVec 5) (s : BitVec 3) (g : BitVec 1) (w : BitVec 3) : Statement (.fenceFull a b s g w) := by
  intro h
  simp [encode, decode, decodeFields, decodeFence, layFence_fields, h]

theorem fenceAcq (a b : BitVec 5) (s : BitVec 3) (g : BitVec 1) (w : BitVec 3) : Statement (.fenceAcq a b s g w) := by
  intro h
  simp [encode, decode, decodeFields, decodeFence, layFence_fields, h]

theorem fenceRel (a b : BitVec 5) (s : BitVec 3) (g : BitVec 1) (w : BitVec 3) : Statement (.fenceRel a b s g w) := by
  intro h
  simp [encode, decode, decodeFields, decodeFence, layFence_fields, h]

theorem fenceEng (w : BitVec 3) : Statement (.fenceEng w) := by
  intro h
  simp [encode, decode, decodeFields, decodeFence, layFence_fields, h]

theorem vwpin (d a : BitVec 5) (w : BitVec 3) : Statement (.vwpin d a w) := by
  intro h
  simp [encode, decode, decodeFields, decodeXlat, layR_fields, h]

theorem vwset (d a b : BitVec 5) (w : BitVec 3) : Statement (.vwset d a b w) := by
  intro h
  simp [encode, decode, decodeFields, decodeXlat, layR_fields, h]

theorem vwclr (d a : BitVec 5) (w : BitVec 3) : Statement (.vwclr d a w) := by
  intro h
  simp [encode, decode, decodeFields, decodeXlat, layR_fields, h]

theorem vwget (d a : BitVec 5) (w : BitVec 3) : Statement (.vwget d a w) := by
  intro h
  simp [encode, decode, decodeFields, decodeXlat, layR_fields, h]

theorem tlbiL (a : BitVec 5) (w : BitVec 3) : Statement (.tlbiL a w) := by
  intro h
  simp [encode, decode, decodeFields, decodeXlat, layR_fields, h]

theorem tlbiB (a b : BitVec 5) (w : BitVec 3) : Statement (.tlbiB a b w) := by
  intro h
  simp [encode, decode, decodeFields, decodeXlat, layR_fields, h]

theorem publish (a : BitVec 5) (w : BitVec 3) : Statement (.publish a w) := by
  intro h
  simp [encode, decode, decodeFields, decodeXlat, layR_fields, h]

theorem probe (d a : BitVec 5) (w : BitVec 3) : Statement (.probe d a w) := by
  intro h
  simp [encode, decode, decodeFields, decodeXlat, layR_fields, h]

theorem tileOpen (d a : BitVec 5) (w : BitVec 3) : Statement (.tileOpen d a w) := by
  intro h
  simp [encode, decode, decodeFields, decodeTile, layR_fields, h]

theorem tileClose (d a : BitVec 5) (w : BitVec 3) : Statement (.tileClose d a w) := by
  intro h
  simp [encode, decode, decodeFields, decodeTile, layR_fields, h]

theorem tenR (a : BitVec 5) (w : BitVec 3) : Statement (.tenR a w) := by
  intro h
  simp [encode, decode, decodeFields, decodeTile, layR_fields, h]

theorem tenW (a : BitVec 5) (w : BitVec 3) : Statement (.tenW a w) := by
  intro h
  simp [encode, decode, decodeFields, decodeTile, layR_fields, h]

theorem tenTryr (d a : BitVec 5) (w : BitVec 3) : Statement (.tenTryr d a w) := by
  intro h
  simp [encode, decode, decodeFields, decodeTile, layR_fields, h]

theorem tenTryw (d a : BitVec 5) (w : BitVec 3) : Statement (.tenTryw d a w) := by
  intro h
  simp [encode, decode, decodeFields, decodeTile, layR_fields, h]

theorem tenRel (d a : BitVec 5) (w : BitVec 3) : Statement (.tenRel d a w) := by
  intro h
  simp [encode, decode, decodeFields, decodeTile, layR_fields, h]

theorem tenDown (a : BitVec 5) (w : BitVec 3) : Statement (.tenDown a w) := by
  intro h
  simp [encode, decode, decodeFields, decodeTile, layR_fields, h]

theorem tileSplit (d a b : BitVec 5) (w : BitVec 3) : Statement (.tileSplit d a b w) := by
  intro h
  simp [encode, decode, decodeFields, decodeTile, layR_fields, h]

theorem tileQry (d a : BitVec 5) (w : BitVec 3) : Statement (.tileQry d a w) := by
  intro h
  simp [encode, decode, decodeFields, decodeTile, layR_fields, h]

theorem vld (d a : BitVec 5) (w : BitVec 3) : Statement (.vld d a w) := by
  intro h
  simp [encode, decode, decodeFields, decodeVmem, layV_fields, h]

theorem vst (d a : BitVec 5) (w : BitVec 3) : Statement (.vst d a w) := by
  intro h
  simp [encode, decode, decodeFields, decodeVmem, layV_fields, h]

theorem vlds (d a b : BitVec 5) (t w : BitVec 3) : Statement (.vlds d a b t w) := by
  intro h
  simp [encode, decode, decodeFields, decodeVmem, layV_fields, h]

theorem vsts (d a b : BitVec 5) (t w : BitVec 3) : Statement (.vsts d a b t w) := by
  intro h
  simp [encode, decode, decodeFields, decodeVmem, layV_fields, h]

theorem vgath (d a b : BitVec 5) (t w : BitVec 3) : Statement (.vgath d a b t w) := by
  intro h
  simp [encode, decode, decodeFields, decodeVmem, layV_fields, h]

theorem vscat (d a b : BitVec 5) (t w : BitVec 3) : Statement (.vscat d a b t w) := by
  intro h
  simp [encode, decode, decodeFields, decodeVmem, layV_fields, h]

theorem vadd (d a b : BitVec 5) (t w : BitVec 3) : Statement (.vadd d a b t w) := by
  intro h
  simp [encode, decode, decodeFields, decodeVint, layV_fields, h]

theorem vsub (d a b : BitVec 5) (t w : BitVec 3) : Statement (.vsub d a b t w) := by
  intro h
  simp [encode, decode, decodeFields, decodeVint, layV_fields, h]

theorem vmul (d a b : BitVec 5) (t w : BitVec 3) : Statement (.vmul d a b t w) := by
  intro h
  simp [encode, decode, decodeFields, decodeVint, layV_fields, h]

theorem vmulh (d a b : BitVec 5) (t w : BitVec 3) : Statement (.vmulh d a b t w) := by
  intro h
  simp [encode, decode, decodeFields, decodeVint, layV_fields, h]

theorem vmin (d a b : BitVec 5) (t w : BitVec 3) : Statement (.vmin d a b t w) := by
  intro h
  simp [encode, decode, decodeFields, decodeVint, layV_fields, h]

theorem vmax (d a b : BitVec 5) (t w : BitVec 3) : Statement (.vmax d a b t w) := by
  intro h
  simp [encode, decode, decodeFields, decodeVint, layV_fields, h]

theorem vminu (d a b : BitVec 5) (t w : BitVec 3) : Statement (.vminu d a b t w) := by
  intro h
  simp [encode, decode, decodeFields, decodeVint, layV_fields, h]

theorem vmaxu (d a b : BitVec 5) (t w : BitVec 3) : Statement (.vmaxu d a b t w) := by
  intro h
  simp [encode, decode, decodeFields, decodeVint, layV_fields, h]

theorem vadds (d a b : BitVec 5) (t w : BitVec 3) : Statement (.vadds d a b t w) := by
  intro h
  simp [encode, decode, decodeFields, decodeVint, layV_fields, h]

theorem vsubs (d a b : BitVec 5) (t w : BitVec 3) : Statement (.vsubs d a b t w) := by
  intro h
  simp [encode, decode, decodeFields, decodeVint, layV_fields, h]

theorem vaddsn (d a b : BitVec 5) (t w : BitVec 3) : Statement (.vaddsn d a b t w) := by
  intro h
  simp [encode, decode, decodeFields, decodeVint, layV_fields, h]

theorem vabs (d a : BitVec 5) (t w : BitVec 3) : Statement (.vabs d a t w) := by
  intro h
  simp [encode, decode, decodeFields, decodeVint, layV_fields, h]

theorem vneg (d a : BitVec 5) (t w : BitVec 3) : Statement (.vneg d a t w) := by
  intro h
  simp [encode, decode, decodeFields, decodeVint, layV_fields, h]

theorem vmac (d a b : BitVec 5) (t w : BitVec 3) : Statement (.vmac d a b t w) := by
  intro h
  simp [encode, decode, decodeFields, decodeVint, layV_fields, h]

theorem vwmul (d a b : BitVec 5) (t w : BitVec 3) : Statement (.vwmul d a b t w) := by
  intro h
  simp [encode, decode, decodeFields, decodeVint, layV_fields, h]

theorem vwmac (d a b : BitVec 5) (t w : BitVec 3) : Statement (.vwmac d a b t w) := by
  intro h
  simp [encode, decode, decodeFields, decodeVint, layV_fields, h]

theorem vdot4 (d a b : BitVec 5) (t w : BitVec 3) : Statement (.vdot4 d a b t w) := by
  intro h
  simp [encode, decode, decodeFields, decodeVint, layV_fields, h]

theorem vfadd (d a b : BitVec 5) (t w : BitVec 3) : Statement (.vfadd d a b t w) := by
  intro h
  simp [encode, decode, decodeFields, decodeVflt, layV_fields, h]

theorem vfsub (d a b : BitVec 5) (t w : BitVec 3) : Statement (.vfsub d a b t w) := by
  intro h
  simp [encode, decode, decodeFields, decodeVflt, layV_fields, h]

theorem vfmul (d a b : BitVec 5) (t w : BitVec 3) : Statement (.vfmul d a b t w) := by
  intro h
  simp [encode, decode, decodeFields, decodeVflt, layV_fields, h]

theorem vfma (d a b : BitVec 5) (t w : BitVec 3) : Statement (.vfma d a b t w) := by
  intro h
  simp [encode, decode, decodeFields, decodeVflt, layV_fields, h]

theorem vfnma (d a b : BitVec 5) (t w : BitVec 3) : Statement (.vfnma d a b t w) := by
  intro h
  simp [encode, decode, decodeFields, decodeVflt, layV_fields, h]

theorem vfmin (d a b : BitVec 5) (t w : BitVec 3) : Statement (.vfmin d a b t w) := by
  intro h
  simp [encode, decode, decodeFields, decodeVflt, layV_fields, h]

theorem vfmax (d a b : BitVec 5) (t w : BitVec 3) : Statement (.vfmax d a b t w) := by
  intro h
  simp [encode, decode, decodeFields, decodeVflt, layV_fields, h]

theorem vfabs (d a : BitVec 5) (t w : BitVec 3) : Statement (.vfabs d a t w) := by
  intro h
  simp [encode, decode, decodeFields, decodeVflt, layV_fields, h]

theorem vfneg (d a : BitVec 5) (t w : BitVec 3) : Statement (.vfneg d a t w) := by
  intro h
  simp [encode, decode, decodeFields, decodeVflt, layV_fields, h]

theorem vfwmul (d a b : BitVec 5) (t w : BitVec 3) : Statement (.vfwmul d a b t w) := by
  intro h
  simp [encode, decode, decodeFields, decodeVflt, layV_fields, h]

theorem vfwma (d a b : BitVec 5) (t w : BitVec 3) : Statement (.vfwma d a b t w) := by
  intro h
  simp [encode, decode, decodeFields, decodeVflt, layV_fields, h]

theorem vfexp2 (d a : BitVec 5) (t w : BitVec 3) : Statement (.vfexp2 d a t w) := by
  intro h
  simp [encode, decode, decodeFields, decodeVflt, layV_fields, h]

theorem vflog2 (d a : BitVec 5) (t w : BitVec 3) : Statement (.vflog2 d a t w) := by
  intro h
  simp [encode, decode, decodeFields, decodeVflt, layV_fields, h]

theorem vfrcp (d a : BitVec 5) (t w : BitVec 3) : Statement (.vfrcp d a t w) := by
  intro h
  simp [encode, decode, decodeFields, decodeVflt, layV_fields, h]

theorem vfrsq (d a : BitVec 5) (t w : BitVec 3) : Statement (.vfrsq d a t w) := by
  intro h
  simp [encode, decode, decodeFields, decodeVflt, layV_fields, h]

theorem vand (d a b : BitVec 5) (t w : BitVec 3) : Statement (.vand d a b t w) := by
  intro h
  simp [encode, decode, decodeFields, decodeVlog, layV_fields, h]

theorem vor (d a b : BitVec 5) (t w : BitVec 3) : Statement (.vor d a b t w) := by
  intro h
  simp [encode, decode, decodeFields, decodeVlog, layV_fields, h]

theorem vxor (d a b : BitVec 5) (t w : BitVec 3) : Statement (.vxor d a b t w) := by
  intro h
  simp [encode, decode, decodeFields, decodeVlog, layV_fields, h]

theorem vandn (d a b : BitVec 5) (t w : BitVec 3) : Statement (.vandn d a b t w) := by
  intro h
  simp [encode, decode, decodeFields, decodeVlog, layV_fields, h]

theorem vshl (d a b : BitVec 5) (t w : BitVec 3) : Statement (.vshl d a b t w) := by
  intro h
  simp [encode, decode, decodeFields, decodeVlog, layV_fields, h]

theorem vshr (d a b : BitVec 5) (t w : BitVec 3) : Statement (.vshr d a b t w) := by
  intro h
  simp [encode, decode, decodeFields, decodeVlog, layV_fields, h]

theorem vsar (d a b : BitVec 5) (t w : BitVec 3) : Statement (.vsar d a b t w) := by
  intro h
  simp [encode, decode, decodeFields, decodeVlog, layV_fields, h]

theorem vcmpeq (d a b : BitVec 5) (t w : BitVec 3) : Statement (.vcmpeq d a b t w) := by
  intro h
  simp [encode, decode, decodeFields, decodeVlog, layV_fields, h]

theorem vcmplt (d a b : BitVec 5) (t w : BitVec 3) : Statement (.vcmplt d a b t w) := by
  intro h
  simp [encode, decode, decodeFields, decodeVlog, layV_fields, h]

theorem vcmple (d a b : BitVec 5) (t w : BitVec 3) : Statement (.vcmple d a b t w) := by
  intro h
  simp [encode, decode, decodeFields, decodeVlog, layV_fields, h]

theorem vcmpltn (d a b : BitVec 5) (t w : BitVec 3) : Statement (.vcmpltn d a b t w) := by
  intro h
  simp [encode, decode, decodeFields, decodeVlog, layV_fields, h]

theorem vfcmpeq (d a b : BitVec 5) (t w : BitVec 3) : Statement (.vfcmpeq d a b t w) := by
  intro h
  simp [encode, decode, decodeFields, decodeVlog, layV_fields, h]

theorem vfcmplt (d a b : BitVec 5) (t w : BitVec 3) : Statement (.vfcmplt d a b t w) := by
  intro h
  simp [encode, decode, decodeFields, decodeVlog, layV_fields, h]

theorem vfcmple (d a b : BitVec 5) (t w : BitVec 3) : Statement (.vfcmple d a b t w) := by
  intro h
  simp [encode, decode, decodeFields, decodeVlog, layV_fields, h]

theorem vsel (d a b : BitVec 5) (t w : BitVec 3) : Statement (.vsel d a b t w) := by
  intro h
  simp [encode, decode, decodeFields, decodeVlog, layV_fields, h]

theorem vmand (d a b : BitVec 5) (t w : BitVec 3) : Statement (.vmand d a b t w) := by
  intro h
  simp [encode, decode, decodeFields, decodeVlog, layV_fields, h]

theorem vmor (d a b : BitVec 5) (t w : BitVec 3) : Statement (.vmor d a b t w) := by
  intro h
  simp [encode, decode, decodeFields, decodeVlog, layV_fields, h]

theorem vmxor (d a b : BitVec 5) (t w : BitVec 3) : Statement (.vmxor d a b t w) := by
  intro h
  simp [encode, decode, decodeFields, decodeVlog, layV_fields, h]

theorem vmnot (d a : BitVec 5) (t w : BitVec 3) : Statement (.vmnot d a t w) := by
  intro h
  simp [encode, decode, decodeFields, decodeVlog, layV_fields, h]

theorem vmpop (d a : BitVec 5) (t w : BitVec 3) : Statement (.vmpop d a t w) := by
  intro h
  simp [encode, decode, decodeFields, decodeVlog, layV_fields, h]

theorem vmfirst (d a : BitVec 5) (t w : BitVec 3) : Statement (.vmfirst d a t w) := by
  intro h
  simp [encode, decode, decodeFields, decodeVlog, layV_fields, h]

theorem vmset (d a : BitVec 5) (t w : BitVec 3) : Statement (.vmset d a t w) := by
  intro h
  simp [encode, decode, decodeFields, decodeVlog, layV_fields, h]

theorem vcvt (d a b : BitVec 5) (t w : BitVec 3) : Statement (.vcvt d a b t w) := by
  intro h
  simp [encode, decode, decodeFields, decodeVxf, layV_fields, h]

theorem vqo4 (d a b : BitVec 5) (t w : BitVec 3) : Statement (.vqo4 d a b t w) := by
  intro h
  simp [encode, decode, decodeFields, decodeVxf, layV_fields, h]

theorem vdqo4 (d a b : BitVec 5) (t w : BitVec 3) : Statement (.vdqo4 d a b t w) := by
  intro h
  simp [encode, decode, decodeFields, decodeVxf, layV_fields, h]

theorem vrsum (d a : BitVec 5) (t w : BitVec 3) : Statement (.vrsum d a t w) := by
  intro h
  simp [encode, decode, decodeFields, decodeVxf, layV_fields, h]

theorem vrmax (d a : BitVec 5) (t w : BitVec 3) : Statement (.vrmax d a t w) := by
  intro h
  simp [encode, decode, decodeFields, decodeVxf, layV_fields, h]

theorem vrmin (d a : BitVec 5) (t w : BitVec 3) : Statement (.vrmin d a t w) := by
  intro h
  simp [encode, decode, decodeFields, decodeVxf, layV_fields, h]

theorem vramax (d a : BitVec 5) (t w : BitVec 3) : Statement (.vramax d a t w) := by
  intro h
  simp [encode, decode, decodeFields, decodeVxf, layV_fields, h]

theorem vdot (d a b : BitVec 5) (t w : BitVec 3) : Statement (.vdot d a b t w) := by
  intro h
  simp [encode, decode, decodeFields, decodeVxf, layV_fields, h]

theorem vbcast (d a : BitVec 5) (t w : BitVec 3) : Statement (.vbcast d a t w) := by
  intro h
  simp [encode, decode, decodeFields, decodeVxf, layV_fields, h]

theorem vmov (d a : BitVec 5) (t w : BitVec 3) : Statement (.vmov d a t w) := by
  intro h
  simp [encode, decode, decodeFields, decodeVxf, layV_fields, h]

theorem vperm (d a b : BitVec 5) (t w : BitVec 3) : Statement (.vperm d a b t w) := by
  intro h
  simp [encode, decode, decodeFields, decodeVxf, layV_fields, h]

theorem vslide (d a b : BitVec 5) (t w : BitVec 3) : Statement (.vslide d a b t w) := by
  intro h
  simp [encode, decode, decodeFields, decodeVxf, layV_fields, h]

theorem vext (d a b : BitVec 5) (t w : BitVec 3) : Statement (.vext d a b t w) := by
  intro h
  simp [encode, decode, decodeFields, decodeVxf, layV_fields, h]

theorem vins (d a b : BitVec 5) (t w : BitVec 3) : Statement (.vins d a b t w) := by
  intro h
  simp [encode, decode, decodeFields, decodeVxf, layV_fields, h]

theorem vhad (d a b : BitVec 5) (t w : BitVec 3) : Statement (.vhad d a b t w) := by
  intro h
  simp [encode, decode, decodeFields, decodeVxf, layV_fields, h]

theorem viota (d : BitVec 5) (t w : BitVec 3) : Statement (.viota d t w) := by
  intro h
  simp [encode, decode, decodeFields, decodeVxf, layV_fields, h]

theorem vzip (d a b : BitVec 5) (t w : BitVec 3) : Statement (.vzip d a b t w) := by
  intro h
  simp [encode, decode, decodeFields, decodeVxf, layV_fields, h]

theorem vunzip (d a b : BitVec 5) (t w : BitVec 3) : Statement (.vunzip d a b t w) := by
  intro h
  simp [encode, decode, decodeFields, decodeVxf, layV_fields, h]

theorem accRd (d a : BitVec 5) (w : BitVec 3) : Statement (.accRd d a w) := by
  intro h
  simp [encode, decode, decodeFields, decodeAcc, layR_fields, h]

theorem accWr (d a : BitVec 5) (w : BitVec 3) : Statement (.accWr d a w) := by
  intro h
  simp [encode, decode, decodeFields, decodeAcc, layR_fields, h]

theorem accClr (d : BitVec 5) (w : BitVec 3) : Statement (.accClr d w) := by
  intro h
  simp [encode, decode, decodeFields, decodeAcc, layR_fields, h]

theorem mwait (a : BitVec 5) (w : BitVec 3) : Statement (.mwait a w) := by
  intro h
  simp [encode, decode, decodeFields, decodeAcc, layR_fields, h]

theorem mstat (d : BitVec 5) (w : BitVec 3) : Statement (.mstat d w) := by
  intro h
  simp [encode, decode, decodeFields, decodeAcc, layR_fields, h]

theorem rpt (c : BitVec 5) (i : BitVec 6) (l : BitVec 4) (x y z : BitVec 1) (s : BitVec 2) (w : BitVec 3) : Statement (.rpt c i l x y z s w) := by
  intro h
  simp [encode, decode, decodeFields, layRpt_fields, h]

theorem xsend (d a b : BitVec 5) (w : BitVec 3) : Statement (.xsend d a b w) := by
  intro h
  simp [encode, decode, decodeFields, decodeXeng, layR_fields, h]

theorem xwait (a : BitVec 5) (w : BitVec 3) : Statement (.xwait a w) := by
  intro h
  simp [encode, decode, decodeFields, decodeXeng, layR_fields, h]

theorem xstat (d a b : BitVec 5) (w : BitVec 3) : Statement (.xstat d a b w) := by
  intro h
  simp [encode, decode, decodeFields, decodeXeng, layR_fields, h]

theorem hstart (d a b : BitVec 5) (w : BitVec 3) : Statement (.hstart d a b w) := by
  intro h
  simp [encode, decode, decodeFields, decodeHelp, layR_fields, h]

theorem hstartNb (d a b : BitVec 5) (w : BitVec 3) : Statement (.hstartNb d a b w) := by
  intro h
  simp [encode, decode, decodeFields, decodeHelp, layR_fields, h]

theorem hexit (w : BitVec 3) : Statement (.hexit w) := by
  intro h
  simp [encode, decode, decodeFields, decodeHelp, layR_fields, h]

theorem hjoin (d a : BitVec 5) (w : BitVec 3) : Statement (.hjoin d a w) := by
  intro h
  simp [encode, decode, decodeFields, decodeHelp, layR_fields, h]

theorem hstat (d a : BitVec 5) (w : BitVec 3) : Statement (.hstat d a w) := by
  intro h
  simp [encode, decode, decodeFields, decodeHelp, layR_fields, h]

theorem yield (w : BitVec 3) : Statement (.yield w) := by
  intro h
  simp [encode, decode, decodeFields, decodeHelp, layR_fields, h]

theorem hkill (a : BitVec 5) (w : BitVec 3) : Statement (.hkill a w) := by
  intro h
  simp [encode, decode, decodeFields, decodeHelp, layR_fields, h]

theorem trForm (d a : BitVec 5) (w : BitVec 3) : Statement (.trForm d a w) := by
  intro h
  simp [encode, decode, decodeFields, decodeTroupe, layR_fields, h]

theorem trBreak (w : BitVec 3) : Statement (.trBreak w) := by
  intro h
  simp [encode, decode, decodeFields, decodeTroupe, layR_fields, h]

theorem trDetach (w : BitVec 3) : Statement (.trDetach w) := by
  intro h
  simp [encode, decode, decodeFields, decodeTroupe, layR_fields, h]

theorem trRejoin (w : BitVec 3) : Statement (.trRejoin w) := by
  intro h
  simp [encode, decode, decodeFields, decodeTroupe, layR_fields, h]

theorem trStat (d : BitVec 5) (w : BitVec 3) : Statement (.trStat d w) := by
  intro h
  simp [encode, decode, decodeFields, decodeTroupe, layR_fields, h]

theorem sync (l : BitVec 2) (w : BitVec 3) : Statement (.sync l w) := by
  intro h
  simp [encode, decode, decodeFields, decodeSync, laySync_fields, h]

theorem djoin (a : BitVec 5) (l : BitVec 2) (w : BitVec 3) : Statement (.djoin a l w) := by
  intro h
  simp [encode, decode, decodeFields, decodeSync, laySync_fields, h]

theorem dleave (l : BitVec 2) (w : BitVec 3) : Statement (.dleave l w) := by
  intro h
  simp [encode, decode, decodeFields, decodeSync, laySync_fields, h]

theorem dqry (d : BitVec 5) (l : BitVec 2) (w : BitVec 3) : Statement (.dqry d l w) := by
  intro h
  simp [encode, decode, decodeFields, decodeSync, laySync_fields, h]

theorem bar (l : BitVec 2) (w : BitVec 3) : Statement (.bar l w) := by
  intro h
  simp [encode, decode, decodeFields, decodeSync, laySync_fields, h]

theorem cfetch (d a : BitVec 5) (w : BitVec 3) : Statement (.cfetch d a w) := by
  intro h
  simp [encode, decode, decodeFields, decodeCode, layR_fields, h]

theorem cwait (a : BitVec 5) (w : BitVec 3) : Statement (.cwait a w) := by
  intro h
  simp [encode, decode, decodeFields, decodeCode, layR_fields, h]

theorem cstat (d a : BitVec 5) (w : BitVec 3) : Statement (.cstat d a w) := by
  intro h
  simp [encode, decode, decodeFields, decodeCode, layR_fields, h]

theorem cevict (a : BitVec 5) (w : BitVec 3) : Statement (.cevict a w) := by
  intro h
  simp [encode, decode, decodeFields, decodeCode, layR_fields, h]

theorem evwait (a : BitVec 5) (w : BitVec 3) : Statement (.evwait a w) := by
  intro h
  simp [encode, decode, decodeFields, decodeEvt, layR_fields, h]

theorem evsig (a : BitVec 5) (w : BitVec 3) : Statement (.evsig a w) := by
  intro h
  simp [encode, decode, decodeFields, decodeEvt, layR_fields, h]

theorem evrd (d a : BitVec 5) (w : BitVec 3) : Statement (.evrd d a w) := by
  intro h
  simp [encode, decode, decodeFields, decodeEvt, layR_fields, h]

theorem evclr (a : BitVec 5) (w : BitVec 3) : Statement (.evclr a w) := by
  intro h
  simp [encode, decode, decodeFields, decodeEvt, layR_fields, h]

theorem wfe (w : BitVec 3) : Statement (.wfe w) := by
  intro h
  simp [encode, decode, decodeFields, decodeEvt, layR_fields, h]

theorem crr (d : BitVec 5) (c : BitVec 11) (w : BitVec 3) : Statement (.crr d c w) := by
  intro h
  simp [encode, decode, decodeFields, decodeCsr, layS_fields, h]

theorem crw (d a : BitVec 5) (c : BitVec 11) (w : BitVec 3) : Statement (.crw d a c w) := by
  intro h
  simp [encode, decode, decodeFields, decodeCsr, layS_fields, h]

theorem crset (d a : BitVec 5) (c : BitVec 11) (w : BitVec 3) : Statement (.crset d a c w) := by
  intro h
  simp [encode, decode, decodeFields, decodeCsr, layS_fields, h]

theorem crclr (d a : BitVec 5) (c : BitVec 11) (w : BitVec 3) : Statement (.crclr d a c w) := by
  intro h
  simp [encode, decode, decodeFields, decodeCsr, layS_fields, h]

theorem trap (k : BitVec 10) (w : BitVec 3) : Statement (.trap k w) := by
  intro h
  simp [encode, decode, decodeFields, decodeSys, layTrap_fields, h]

theorem sysc (w : BitVec 3) : Statement (.sysc w) := by
  intro h
  simp [encode, decode, decodeFields, decodeSys, layR_fields, h]

theorem hcall (w : BitVec 3) : Statement (.hcall w) := by
  intro h
  simp [encode, decode, decodeFields, decodeSys, layR_fields, h]

theorem eret (w : BitVec 3) : Statement (.eret w) := by
  intro h
  simp [encode, decode, decodeFields, decodeSys, layR_fields, h]

theorem bkpt (w : BitVec 3) : Statement (.bkpt w) := by
  intro h
  simp [encode, decode, decodeFields, decodeSys, layR_fields, h]

theorem halt (w : BitVec 3) : Statement (.halt w) := by
  intro h
  simp [encode, decode, decodeFields, decodeSys, layR_fields, h]

theorem tsread (d : BitVec 5) (w : BitVec 3) : Statement (.tsread d w) := by
  intro h
  simp [encode, decode, decodeFields, decodeSys, layR_fields, h]

theorem gexit (w : BitVec 3) : Statement (.gexit w) := by
  intro h
  simp [encode, decode, decodeFields, decodeSys, layR_fields, h]

theorem cntrd (d a : BitVec 5) (w : BitVec 3) : Statement (.cntrd d a w) := by
  intro h
  simp [encode, decode, decodeFields, decodeSys, layR_fields, h]

theorem gang (w : BitVec 3) : Statement (.gang w) := by
  intro h
  simp [encode, decode, decodeFields, decodeSys, layR_fields, h]

theorem rpop (d : BitVec 5) (w : BitVec 3) : Statement (.rpop d w) := by
  intro h
  simp [encode, decode, decodeFields, decodeRetry, layR_fields, h]

theorem rfix (a b : BitVec 5) (w : BitVec 3) : Statement (.rfix a b w) := by
  intro h
  simp [encode, decode, decodeFields, decodeRetry, layR_fields, h]

theorem rreplay (a : BitVec 5) (w : BitVec 3) : Statement (.rreplay a w) := by
  intro h
  simp [encode, decode, decodeFields, decodeRetry, layR_fields, h]

theorem rkill (a : BitVec 5) (w : BitVec 3) : Statement (.rkill a w) := by
  intro h
  simp [encode, decode, decodeFields, decodeRetry, layR_fields, h]

theorem vamoF32 (a b : BitVec 5) (w : BitVec 3) : Statement (.vamoF32 a b w) := by
  intro h
  simp [encode, decode, decodeFields, decodeVamo, layR_fields, h]

theorem vamoBf16 (a b : BitVec 5) (w : BitVec 3) : Statement (.vamoBf16 a b w) := by
  intro h
  simp [encode, decode, decodeFields, decodeVamo, layR_fields, h]

theorem vamoI32 (a b : BitVec 5) (w : BitVec 3) : Statement (.vamoI32 a b w) := by
  intro h
  simp [encode, decode, decodeFields, decodeVamo, layR_fields, h]

theorem lnch (d a : BitVec 5) (w : BitVec 3) : Statement (.lnch d a w) := by
  intro h
  simp [encode, decode, decodeFields, decodeSched, layR_fields, h]

theorem lwait (a : BitVec 5) (w : BitVec 3) : Statement (.lwait a w) := by
  intro h
  simp [encode, decode, decodeFields, decodeSched, layR_fields, h]

theorem lqry (d a : BitVec 5) (w : BitVec 3) : Statement (.lqry d a w) := by
  intro h
  simp [encode, decode, decodeFields, decodeSched, layR_fields, h]

theorem lcancel (d a : BitVec 5) (w : BitVec 3) : Statement (.lcancel d a w) := by
  intro h
  simp [encode, decode, decodeFields, decodeSched, layR_fields, h]

theorem qpeek (d : BitVec 5) (q : BitVec 2) (w : BitVec 3) : Statement (.qpeek d q w) := by
  intro h
  simp [encode, decode, decodeFields, decodePort, layPort_fields, h]

theorem qclr (q : BitVec 2) (w : BitVec 3) : Statement (.qclr q w) := by
  intro h
  simp [encode, decode, decodeFields, decodePort, layPort_fields, h]

theorem qstat (d : BitVec 5) (q : BitVec 2) (w : BitVec 3) : Statement (.qstat d q w) := by
  intro h
  simp [encode, decode, decodeFields, decodePort, layPort_fields, h]

theorem pset (d a : BitVec 5) (w : BitVec 3) : Statement (.pset d a w) := by
  intro h
  simp [encode, decode, decodeFields, decodeLptr, layR_fields, h]

theorem pget (d a : BitVec 5) (w : BitVec 3) : Statement (.pget d a w) := by
  intro h
  simp [encode, decode, decodeFields, decodeLptr, layR_fields, h]

theorem padd (d a b : BitVec 5) (w : BitVec 3) : Statement (.padd d a b w) := by
  intro h
  simp [encode, decode, decodeFields, decodeLptr, layR_fields, h]

theorem paddi (d a : BitVec 5) (i : BitVec 13) (w : BitVec 3) : Statement (.paddi d a i w) := by
  intro h
  simp [encode, decode, decodeFields, layI_fields, h]

theorem fixedResultVisible (core ctx : Nat) : Statement (.fixedResultVisible core ctx) := by
  intro h
  simp [Instr.wf] at h

theorem variableResultWrite (core ctx : Nat) : Statement (.variableResultWrite core ctx) := by
  intro h
  simp [Instr.wf] at h

theorem fpexcTrap (core ctx : Nat) : Statement (.fpexcTrap core ctx) := by
  intro h
  simp [Instr.wf] at h

theorem deferredTrap (core ctx : Nat) : Statement (.deferredTrap core ctx) := by
  intro h
  simp [Instr.wf] at h

theorem segmentFetchDone (core slot : Nat) : Statement (.segmentFetchDone core slot) := by
  intro h
  simp [Instr.wf] at h

theorem vectorPassBind (core : Nat) : Statement (.vectorPassBind core) := by
  intro h
  simp [Instr.wf] at h

theorem scratchpadResize (core : Nat) : Statement (.scratchpadResize core) := by
  intro h
  simp [Instr.wf] at h

theorem plane (core blocks : Nat) : Statement (.plane core blocks) := by
  intro h
  simp [Instr.wf] at h

theorem mma (core blocks : Nat) : Statement (.mma core blocks) := by
  intro h
  simp [Instr.wf] at h

theorem mmaR (core blocks : Nat) : Statement (.mmaR core blocks) := by
  intro h
  simp [Instr.wf] at h

theorem had (core blocks : Nat) : Statement (.had core blocks) := by
  intro h
  simp [Instr.wf] at h

theorem drain (core : Nat) : Statement (.drain core) := by
  intro h
  simp [Instr.wf] at h

theorem zero (core : Nat) : Statement (.zero core) := by
  intro h
  simp [Instr.wf] at h

theorem mark (core : Nat) : Statement (.mark core) := by
  intro h
  simp [Instr.wf] at h

theorem matrixCommandDone (core : Nat) : Statement (.matrixCommandDone core) := by
  intro h
  simp [Instr.wf] at h

theorem copy (core ticket elems : Nat) : Statement (.copy core ticket elems) := by
  intro h
  simp [Instr.wf] at h

theorem fill (core ticket elems : Nat) : Statement (.fill core ticket elems) := by
  intro h
  simp [Instr.wf] at h

theorem allreduce (core ticket : Nat) : Statement (.allreduce core ticket) := by
  intro h
  simp [Instr.wf] at h

theorem reducescatter (core ticket : Nat) : Statement (.reducescatter core ticket) := by
  intro h
  simp [Instr.wf] at h

theorem allgather (core ticket : Nat) : Statement (.allgather core ticket) := by
  intro h
  simp [Instr.wf] at h

theorem abort (core ticket : Nat) : Statement (.abort core ticket) := by
  intro h
  simp [Instr.wf] at h

theorem engineCommandDone (core ticket : Nat) : Statement (.engineCommandDone core ticket) := by
  intro h
  simp [Instr.wf] at h

theorem portWordArrival (word : Nat) : Statement (.portWordArrival word) := by
  intro h
  simp [Instr.wf] at h

theorem forwardedInstruction (core : Nat) : Statement (.forwardedInstruction core) := by
  intro h
  simp [Instr.wf] at h

theorem trFormTimeout (core : Nat) : Statement (.trFormTimeout core) := by
  intro h
  simp [Instr.wf] at h

theorem troupehang (core : Nat) : Statement (.troupehang core) := by
  intro h
  simp [Instr.wf] at h

theorem syncDone (core : Nat) : Statement (.syncDone core) := by
  intro h
  simp [Instr.wf] at h

theorem homeRequest (req : Nat) : Statement (.homeRequest req) := by
  intro h
  simp [Instr.wf] at h

theorem pushArrival (push : Nat) : Statement (.pushArrival push) := by
  intro h
  simp [Instr.wf] at h

theorem tLineExpiry (core line : Nat) : Statement (.tLineExpiry core line) := by
  intro h
  simp [Instr.wf] at h

theorem memoryResponse (req : Nat) (value : BitVec 64) (poisoned : Bool) : Statement (.memoryResponse req value poisoned) := by
  intro h
  simp [Instr.wf] at h

theorem farHomeRequest (req : Nat) : Statement (.farHomeRequest req) := by
  intro h
  simp [Instr.wf] at h

theorem farInvalidationAck (line die : Nat) : Statement (.farInvalidationAck line die) := by
  intro h
  simp [Instr.wf] at h

theorem replicaUpdate (update : Nat) : Statement (.replicaUpdate update) := by
  intro h
  simp [Instr.wf] at h

theorem tenureGrant (request : Nat) : Statement (.tenureGrant request) := by
  intro h
  simp [Instr.wf] at h

theorem leaseRevoke (tenure : Nat) : Statement (.leaseRevoke tenure) := by
  intro h
  simp [Instr.wf] at h

theorem stringsTimer (core : Nat) : Statement (.stringsTimer core) := by
  intro h
  simp [Instr.wf] at h

theorem wake (core : Nat) : Statement (.wake core) := by
  intro h
  simp [Instr.wf] at h

theorem helperStartTrigger (core : Nat) : Statement (.helperStartTrigger core) := by
  intro h
  simp [Instr.wf] at h

theorem groupPlacement (part : Nat) : Statement (.groupPlacement part) := by
  intro h
  simp [Instr.wf] at h

theorem groupStart (core : Nat) : Statement (.groupStart core) := by
  intro h
  simp [Instr.wf] at h

theorem tsliceExpiry (part : Nat) : Statement (.tsliceExpiry part) := by
  intro h
  simp [Instr.wf] at h

theorem forcedSwitchStop (part : Nat) : Statement (.forcedSwitchStop part) := by
  intro h
  simp [Instr.wf] at h

theorem saveDone (part : Nat) : Statement (.saveDone part) := by
  intro h
  simp [Instr.wf] at h

theorem restoreDone (part : Nat) : Statement (.restoreDone part) := by
  intro h
  simp [Instr.wf] at h

theorem softError (core : Nat) : Statement (.softError core) := by
  intro h
  simp [Instr.wf] at h

theorem create (part : Nat) : Statement (.create part) := by
  intro h
  simp [Instr.wf] at h

theorem switch (part : Nat) : Statement (.switch part) := by
  intro h
  simp [Instr.wf] at h

theorem resume (part : Nat) : Statement (.resume part) := by
  intro h
  simp [Instr.wf] at h

theorem cont (part : Nat) (gs : Bool) : Statement (.cont part gs) := by
  intro h
  simp [Instr.wf] at h

theorem kill (part : Nat) : Statement (.kill part) := by
  intro h
  simp [Instr.wf] at h

theorem destroy (part : Nat) : Statement (.destroy part) := by
  intro h
  simp [Instr.wf] at h

theorem svcstart (part : Nat) : Statement (.svcstart part) := by
  intro h
  simp [Instr.wf] at h

theorem launch (part : Nat) : Statement (.launch part) := by
  intro h
  simp [Instr.wf] at h

theorem registerWrite (pa : Nat) (value : BitVec 64) : Statement (.registerWrite pa value) := by
  intro h
  simp [Instr.wf] at h

theorem crossTriggerHalt (request : HaltRequest) : Statement (.crossTriggerHalt request) := by
  intro h
  simp [Instr.wf] at h

theorem debugResume (rank : Nat) : Statement (.debugResume rank) := by
  intro h
  simp [Instr.wf] at h

theorem kaleidoscopeTurn  : Statement (.kaleidoscopeTurn ) := by
  intro h
  simp [Instr.wf] at h

theorem turnDrain  : Statement (.turnDrain ) := by
  intro h
  simp [Instr.wf] at h

theorem turnRetrain  : Statement (.turnRetrain ) := by
  intro h
  simp [Instr.wf] at h

theorem turnMap (failed : BitVec 48) : Statement (.turnMap failed) := by
  intro h
  simp [Instr.wf] at h

theorem turnActive  : Statement (.turnActive ) := by
  intro h
  simp [Instr.wf] at h

theorem fabricTimeout (req : Nat) : Statement (.fabricTimeout req) := by
  intro h
  simp [Instr.wf] at h

theorem peerRequest (src exp ra : Nat) (op : PeerOp) (value expected : BitVec 64) : Statement (.peerRequest src exp ra op value expected) := by
  intro h
  simp [Instr.wf] at h

theorem fanoutTimeout (peer : Nat) : Statement (.fanoutTimeout peer) := by
  intro h
  simp [Instr.wf] at h

theorem severed (peer : Nat) : Statement (.severed peer) := by
  intro h
  simp [Instr.wf] at h

theorem flushed (peer : Nat) : Statement (.flushed peer) := by
  intro h
  simp [Instr.wf] at h

theorem messageLanding (part job ring : Nat) (source : BitVec 128) (data : List (BitVec 8)) : Statement (.messageLanding part job ring source data) := by
  intro h
  simp [Instr.wf] at h

theorem hostBar4Write (addr : HostAddress) (size : Nat) (value : BitVec 64) : Statement (.hostBar4Write addr size value) := by
  intro h
  simp [Instr.wf] at h

theorem hostBar4Read (addr : HostAddress) (size : Nat) : Statement (.hostBar4Read addr size) := by
  intro h
  simp [Instr.wf] at h

theorem mailboxHostWrite (vf offset size : Nat) (value : BitVec 64) : Statement (.mailboxHostWrite vf offset size value) := by
  intro h
  simp [Instr.wf] at h

theorem vfFlr (vf : Nat) : Statement (.vfFlr vf) := by
  intro h
  simp [Instr.wf] at h

theorem tagRevive (vf : Nat) : Statement (.tagRevive vf) := by
  intro h
  simp [Instr.wf] at h

theorem powerGrantEpoch (used : List (Nat × List Nat)) (hot : List Nat) : Statement (.powerGrantEpoch used hot) := by
  intro h
  simp [Instr.wf] at h

theorem boot (image : List (BitVec 8)) (signature : BitVec 3072) : Statement (.boot image signature) := by
  intro h
  simp [Instr.wf] at h

theorem stageVerify (image : List (BitVec 8)) (signature : BitVec 3072) : Statement (.stageVerify image signature) := by
  intro h
  simp [Instr.wf] at h

theorem attestationRequest  : Statement (.attestationRequest ) := by
  intro h
  simp [Instr.wf] at h

theorem attestationReportReady  : Statement (.attestationReportReady ) := by
  intro h
  simp [Instr.wf] at h

theorem debugUnlockToken (token : List (BitVec 8)) : Statement (.debugUnlockToken token) := by
  intro h
  simp [Instr.wf] at h

theorem routerAccept (core ctx : Nat) : Statement (.routerAccept core ctx) := by
  intro h
  simp [Instr.wf] at h

theorem linkDown (group : Nat) : Statement (.linkDown group) := by
  intro h
  simp [Instr.wf] at h

theorem linkUp (group : Nat) : Statement (.linkUp group) := by
  intro h
  simp [Instr.wf] at h

theorem llcDramSoftError (line : Nat) : Statement (.llcDramSoftError line) := by
  intro h
  simp [Instr.wf] at h

end Sys2Proof.Laws.DecodeEncode
end

