-- ==== Sys2Proof/Laws/Waits.lean ====
section
/-!
SUPPORT. What an access from outside does when it arrives at its home: it is performed, or it waits and only the times by which holders answer change.
-/

set_option Elab.async false

namespace Sys2Proof.Machine

open Sys2Proof

/-- Asking the holders of lines changes the directory of copies alone. -/
theorem askPeers_frame (lines : List Nat) (alone : Bool) (till : Nat) (s : State) :
    askPeers lines alone till s = { s with peerDir := (askPeers lines alone till s).peerDir } := rfl

@[simp] theorem askPeers_mem (lines : List Nat) (alone : Bool) (till : Nat) (s : State) : (askPeers lines alone till s).mem = s.mem := rfl
@[simp] theorem askPeers_cores (lines : List Nat) (alone : Bool) (till : Nat) (s : State) : (askPeers lines alone till s).cores = s.cores := rfl
@[simp] theorem askPeers_parts (lines : List Nat) (alone : Bool) (till : Nat) (s : State) : (askPeers lines alone till s).parts = s.parts := rfl
@[simp] theorem askPeers_reqs (lines : List Nat) (alone : Bool) (till : Nat) (s : State) : (askPeers lines alone till s).reqs = s.reqs := rfl

/-- A holder that is asked keeps its peer and its line, and has a time to answer by. -/
theorem askPeers_mem_peerDir {lines : List Nat} {alone : Bool} {till : Nat} {s : State} {d : PeerCopy}
    (h : d ∈ (askPeers lines alone till s).peerDir) :
    ∃ e ∈ s.peerDir, d.peer = e.peer ∧ d.line = e.line ∧ d.owned = e.owned ∧
      ((∃ l ∈ lines, e.against l alone = true) → d.till.isSome = true) ∧ ((∀ l ∈ lines, e.against l alone = false) → d = e) := by
  simp only [askPeers, List.mem_map] at h
  obtain ⟨e, he, rfl⟩ := h
  refine ⟨e, he, ?_⟩
  by_cases hq : lines.any (fun l => e.against l alone) = true
  · simp only [hq, if_true]
    refine ⟨trivial, trivial, trivial, fun _ => rfl, fun hn => ?_⟩
    obtain ⟨l, hl, ha⟩ := List.any_eq_true.mp hq
    simp [hn l hl] at ha
  · rw [if_neg hq]
    refine ⟨rfl, rfl, rfl, fun ⟨l, hl, ha⟩ => absurd (List.any_eq_true.mpr ⟨l, hl, ha⟩) hq, fun _ => rfl⟩

/-- An access from outside that nothing keeps back is performed. -/
theorem arriveDev_runs {o : DevOp} {s : State} (h : o.waits s = false) : arriveDev s o = o.run s := by simp [arriveDev, h]

/-- One that waits stands behind those that wait already, and changes nothing else but the times of the holders it asks. -/
theorem arriveDev_waits {o : DevOp} {s : State} (h : o.waits s = true) :
    ∃ dir, arriveDev s o = { s with peerDir := dir, devWaits := s.devWaits ++ [o] } := by
  refine ⟨(askPeers (o.lines s) (!o.reads) (s.cycle + o.cycles s) s).peerDir, ?_⟩
  unfold arriveDev
  rw [if_pos h]
  rfl

/-- An access waits for no copy where peers hold none, and for none before it where none waits. -/
theorem DevOp.waits_eq_false {o : DevOp} {s : State} (h : s.devWaits = []) (hd : s.peerDir = []) : o.waits s = false := by
  simp [DevOp.waits, linesHeld, peerHolds, h, hd]

/-- Where nothing waits, copies that go leave nothing to serve. -/
@[simp] theorem serveWaits_nothing {s : State} (hp : s.peerWaits = []) (hd : s.devWaits = []) : serveWaits s = s := by
  obtain ⟨⟩ := s
  simp_all [serveWaits, serveDevWaits, servePeerWaits]

end Sys2Proof.Machine
end

