-- ==== Sys2Proof/Tests/Slice0.lean ====
section
/-!
SUPPORT. Tests: terms the well-formedness check refuses, words written out from the spec's encodings, single steps with the values of the spec's
own examples, and for each statement with hypotheses a state and operands that meet them.
-/

set_option Elab.async false

namespace Sys2Proof.Tests

open Sys2Proof Sys2Proof.Machine

/-! ### Well-formedness (R38, R55 to R60) -/

/-- EXTU, EXTS and INS whose field reaches past bit 63. -/
theorem test_wf_field_past_bit_63 : ∀ i ∈ [Instr.extu 1 2 60 4 0, .exts 1 2 33 31 0, .ins 1 2 63 1 0], i.wf = false := by decide

/-- LDU of a doubleword, of which only LD has the form. -/
theorem test_wf_ldu_doubleword : Instr.wf (.ldu 1 2 0 3 0 0) = false := by decide

/-- A FENCE without a range that names registers. -/
theorem test_wf_fence_operands : ∀ i ∈ [Instr.fenceFull 1 0 2 0 0, .fenceAcq 0 1 2 0 0, .fenceRel 1 1 2 0 0], i.wf = false := by decide

/-- TILE.SPLIT whose pair of destinations does not lie in g2 to g26. -/
theorem test_wf_split_pair : ∀ i ∈ [Instr.tileSplit 1 2 3 0, .tileSplit 26 2 3 0], i.wf = false := by decide

/-- VLDS, VSTS, VGATH and VSCAT of a type of no 8, 16 or 32 bits. -/
theorem test_wf_element_memory_types : ∀ t ∈ [(0 : BitVec 3), 4, 7], ∀ i ∈ [Instr.vlds 1 2 3 t 0, .vsts 1 2 3 t 0, .vgath 1 2 3 t 0, .vscat 1 2 3 t 0],
    i.wf = false := by decide

/-- Integer instructions of a float type, and float instructions of an integer type. -/
theorem test_wf_integer_types : ∀ i ∈ [Instr.vadd 1 2 3 4 0, .vsub 1 2 3 5 0, .vmul 1 2 3 6 0, .vmulh 1 2 3 7 0, .vmin 1 2 3 4 0, .vmax 1 2 3 4 0,
    .vminu 1 2 3 4 0, .vmaxu 1 2 3 4 0, .vadds 1 2 3 4 0, .vsubs 1 2 3 4 0, .vaddsn 1 2 3 4 0, .vabs 1 2 4 0, .vneg 1 2 4 0, .vmac 1 2 3 4 0,
    .vshl 1 2 3 4 0, .vshr 1 2 3 4 0, .vsar 1 2 3 4 0, .vcmpeq 1 2 3 4 0, .vcmplt 1 2 3 4 0, .vcmple 1 2 3 4 0, .vcmpltn 1 2 3 4 0],
    i.wf = false := by decide
theorem test_wf_float_types : ∀ i ∈ [Instr.vfadd 1 2 3 3 0, .vfsub 1 2 3 0 0, .vfmul 1 2 3 1 0, .vfma 1 2 3 2 0, .vfnma 1 2 3 3 0, .vfmin 1 2 3 3 0,
    .vfmax 1 2 3 3 0, .vfabs 1 2 3 0, .vfneg 1 2 3 0, .vfexp2 1 2 3 0, .vflog2 1 2 3 0, .vfrcp 1 2 3 0, .vfrsq 1 2 3 0, .vfcmpeq 1 2 3 3 0,
    .vfcmplt 1 2 3 3 0, .vfcmple 1 2 3 3 0], i.wf = false := by decide

/-- Widening instructions of a type that has no wider one, or to a pair past p31. -/
theorem test_wf_widening : ∀ i ∈ [Instr.vwmul 1 2 3 3 0, .vwmac 1 2 3 3 0, .vfwmul 1 2 3 7 0, .vfwma 1 2 3 7 0, .vwmul 31 2 3 1 0, .vwmac 31 2 3 1 0,
    .vfwmul 31 2 3 6 0, .vfwma 31 2 3 6 0, .vdot4 1 2 3 2 0, .vdot4 31 2 3 0 0], i.wf = false := by decide

/-- A mask field above 3. -/
theorem test_wf_mask_fields : ∀ i ∈ [Instr.vcmpeq 4 2 3 3 0, .vcmplt 4 2 3 3 0, .vcmple 4 2 3 3 0, .vcmpltn 4 2 3 3 0, .vfcmpeq 4 2 3 7 0,
    .vfcmplt 4 2 3 7 0, .vfcmple 4 2 3 7 0, .vmand 4 0 0 0 0, .vmor 0 4 0 0 0, .vmxor 0 0 4 0 0, .vmnot 4 0 0 0, .vmnot 0 4 0 0, .vmpop 1 4 3 0,
    .vmfirst 1 4 3 0, .vmset 4 1 3 0], i.wf = false := by decide

/-- VCVT with a reserved b field or to lines past p31, and VQO4, VDQO4 and VHAD outside their types and block sizes. -/
theorem test_wf_conversions : ∀ i ∈ [Instr.vcvt 1 2 0b11111 7 0, .vcvt 30 2 7 4 0, .vqo4 1 2 3 4 0, .vdqo4 1 2 3 4 0, .vhad 1 2 0 4 0, .vhad 1 2 3 6 0],
    i.wf = false := by decide

/-- An accumulator above 7. -/
theorem test_wf_accumulators : ∀ i ∈ [Instr.accRd 0 8 0, .accWr 8 0 0, .accClr 8 0], i.wf = false := by decide

/-- RPT with a register and an immediate count. -/
theorem test_wf_rpt_counts : Instr.wf (.rpt 1 1 0 0 0 0 0 0) = false := by decide

/-- An event is no instruction of a program, and has no word. -/
theorem test_wf_events : ∀ i ∈ [Instr.create 0, .wake 0, .boot [] 0, .kaleidoscopeTurn, .homeRequest 0, .hostBar4Read ⟨4, 0, 0⟩ 0],
    i.wf = false ∧ encode i = 0 := by decide

/-! ### Words that are no instruction (R38) -/

/-- The examples of chapters 02 and 04: an op that is not listed, a type the major does not admit, b not zero, and a code not listed. -/
theorem test_decode_refuses : decode 0x51095F88 = .error .code ∧ decode 0x68897419 = .error .limit ∧ decode 0x04000900 = .error .reserved ∧
    decode 0x04000128 = .error .code ∧ decode 0 = .error .major ∧ decode 0xFFFFFFFF = .error .major ∧ decode 0xB8000000 = .error .major := by decide

/-- Example of chapter 02: the type alone differs from the BF16 form. -/
theorem test_decode_type_field : decode 0x6C897419 = .ok (.vfma 4 9 14 4 1) := by decide

/-! ### Words written out bit by bit, one or more of every family -/

/-- `add g6, g6, g6` -/
theorem test_word_add : decode 0b00000100110001100011000000000000 = .ok (.add 6 6 6 0) := by decide
/-- `sel g5, g6, g7` -/
theorem test_word_sel : decode 0b00000100101001100011100100001000 = .ok (.sel 5 6 7 0) := by decide
/-- `addi g5, g5, -2440` -/
theorem test_word_addi : decode 0b00001000101001011011001111000000 = .ok (.addi 5 5 0x1678 0) := by decide
/-- `sari g3, g3, 5` -/
theorem test_word_sari : decode 0b00011000011000111000000000101000 = .ok (.sari 3 3 5 0) := by decide
/-- `lui g5, 0x91a3` -/
theorem test_word_lui : decode 0b00100100101001001000110100011000 = .ok (.lui 5 0x091A3 0) := by decide
/-- `adr g2, . + 64` -/
theorem test_word_adr : decode 0b00101000010000000000000010000000 = .ok (.adr 2 16 0) := by decide
/-- `extu g7, g8, 12, 8` -/
theorem test_word_extu : decode 0b00101100111010000000110000111000 = .ok (.extu 7 8 12 7 0) := by decide
/-- `fma g4, g5, g6` -/
theorem test_word_fma : decode 0b00110000100001010011000000011000 = .ok (.fma 4 5 6 0) := by decide
/-- `cvt.i64.f32 g10, g11` -/
theorem test_word_cvtI64F32 : decode 0b00110001010010110000000010000000 = .ok (.cvtI64F32 10 11 0) := by decide
/-- `blt g3, g4, 3 words back` -/
theorem test_word_blt : decode 0b00110100011001000101111111101000 = .ok (.blt 3 4 0x3FD 0) := by decide
/-- `j 4 words back` -/
theorem test_word_j : decode 0b00111011111111111111111111100000 = .ok (.j 0x7FFFFC 0) := by decide
/-- `call 16 words ahead` -/
theorem test_word_call : decode 0b00111100000000000000000010000000 = .ok (.call 16 0) := by decide
/-- `jalr g1, g6` -/
theorem test_word_jalr : decode 0b01000000001001100000000000001000 = .ok (.jalr 1 6 0) := by decide
/-- `ld.d.si g7, 16(g3)` -/
theorem test_word_ld : decode 0b01000100111000110000000101110000 = .ok (.ld 7 3 2 3 2 0) := by decide
/-- `ldu.b g5, -1(g6)` -/
theorem test_word_ldu : decode 0b01001000101001101111111110000000 = .ok (.ldu 5 6 0x1FF 0 0 0) := by decide
/-- `st.w.wt g4, 8(g2)` -/
theorem test_word_st : decode 0b01001100100000100000000101001000 = .ok (.st 4 2 2 2 1 0) := by decide
/-- `cas.d.pkg g8, g10, (g9)` -/
theorem test_word_cas : decode 0b01010001000010010101000111011000 = .ok (.cas 8 9 10 5 1 0) := by decide
/-- `atfadd.w.clu g8, g6, (g5)` -/
theorem test_word_atfadd : decode 0b01010001000001010011011000100000 = .ok (.atfadd 8 5 6 2 0) := by decide
/-- `sti.d.set.rep g4, g6, (g5)` -/
theorem test_word_sti : decode 0b01010100100001010011011110000000 = .ok (.sti 4 5 6 3 1 1 0) := by decide
/-- `fence.full.pkg.rng g5, g6` -/
theorem test_word_fenceFull : decode 0b01011000000001010011010100100000 = .ok (.fenceFull 5 6 5 1 0) := by decide
/-- `vwset g7, g8, g9` -/
theorem test_word_vwset : decode 0b01011100111010000100100000001000 = .ok (.vwset 7 8 9 0) := by decide
/-- `tile.split g10, g6, g7` -/
theorem test_word_tileSplit : decode 0b01100001010001100011100001000000 = .ok (.tileSplit 10 6 7 0) := by decide
/-- `vld p1, g17` -/
theorem test_word_vld : decode 0b01100100001100010000000000000000 = .ok (.vld 1 17 0) := by decide
/-- `vfma.bf16 p4, p9, p14 !1` -/
theorem test_word_vfma : decode 0b01101100100010010111011000011001 = .ok (.vfma 4 9 14 6 1) := by decide
/-- `vcmplt.i32 m1, p0, p1` -/
theorem test_word_vcmplt : decode 0b01110000001000000000101101000000 = .ok (.vcmplt 1 0 1 3 0) := by decide
/-- `vcvt.e4m3 p8, p2, f32, rne` -/
theorem test_word_vcvt : decode 0b01110101000000100011110000000000 = .ok (.vcvt 8 2 7 4 0) := by decide
/-- `acc.rd p8, acc2` -/
theorem test_word_accRd : decode 0b01111001000000100000000000000000 = .ok (.accRd 8 2 0) := by decide
/-- `rpt 8, 4, 0b110, 1` -/
theorem test_word_rpt : decode 0b01111100000000111001111001000000 = .ok (.rpt 0 7 3 1 1 0 1 0) := by decide
/-- `xsend g8, g9, g10` -/
theorem test_word_xsend : decode 0b10000001000010010101000000000000 = .ok (.xsend 8 9 10 0) := by decide
/-- `hstart g9, g10, g11` -/
theorem test_word_hstart : decode 0b10000101001010100101100000000000 = .ok (.hstart 9 10 11 0) := by decide
/-- `tr.form g5, g6` -/
theorem test_word_trForm : decode 0b10001000101001100000000000000000 = .ok (.trForm 5 6 0) := by decide
/-- `djoin 3, g5` -/
theorem test_word_djoin : decode 0b10001100000001010000000110000000 = .ok (.djoin 5 2 0) := by decide
/-- `cfetch g6, g7` -/
theorem test_word_cfetch : decode 0b10010000110001110000000000000000 = .ok (.cfetch 6 7 0) := by decide
/-- `crclr g2, cr.fflags, g9` -/
theorem test_word_crclr : decode 0b10011000010010010000000001011000 = .ok (.crclr 2 9 2 0) := by decide
/-- `trap 0x2a` -/
theorem test_word_trap : decode 0b10011100001010100000000000000000 = .ok (.trap 0x2A 0) := by decide
/-- `rfix g8, g9` -/
theorem test_word_rfix : decode 0b10100000000010000100100000001000 = .ok (.rfix 8 9 0) := by decide
/-- `lnch g5, g6` -/
theorem test_word_lnch : decode 0b10101000101001100000000000000000 = .ok (.lnch 5 6 0) := by decide
/-- `qpeek g5, q1` -/
theorem test_word_qpeek : decode 0b10101100101111010000000000000000 = .ok (.qpeek 5 1 0) := by decide
/-- `pset p1, g5` -/
theorem test_word_pset : decode 0b10110000001001010000000000000000 = .ok (.pset 1 5 0) := by decide
/-- `evwait g5`: major 0x25, a 5, fn 0 (R59) -/
theorem test_word_evwait : decode (0b100101#6 ++ 0#5 ++ 5#5 ++ 0#5 ++ 0#8 ++ 0#3) = .ok (.evwait 5 0) := by decide
/-- `vamo.bf16 p3, (g4)`: major 0x29, a 4, b 3, fn 1 (R436) -/
theorem test_word_vamo : decode (0b101001#6 ++ 0#5 ++ 4#5 ++ 3#5 ++ 1#8 ++ 0#3) = .ok (.vamoBf16 4 3 0) := by decide
/-- `vadd.i16 p4, p9, p14`: major 0x1A, d 4, a 9, b 14, ty 010, fn 0 (R54) -/
theorem test_word_vadd : decode (0b011010#6 ++ 4#5 ++ 9#5 ++ 14#5 ++ 2#3 ++ 0#5 ++ 0#3) = .ok (.vadd 4 9 14 2 0) := by decide
/-- `paddi p3, p4, -1`: major 0x2D, d 3, a 4, imm13 0x1FFF (R39) -/
theorem test_word_paddi : decode (0b101101#6 ++ 3#5 ++ 4#5 ++ 0x1FFF#13 ++ 0#3) = .ok (.paddi 3 4 0x1FFF 0) := by decide

/-- The encoder gives the words of the assembler's example (R36). -/
theorem test_encode : encode (.lui 5 0x91A3 0) = 0x24A48D18 ∧ encode (.addi 6 0 0x1FFF 2) = 0x08C0FFFA ∧ encode (.bne 5 0 2 0) = 0x34A02010 ∧
    encode (.gexit 0) = 0x9C000038 ∧ encode (.vrsum 7 0 3 0) = 0x74E00318 ∧ encode (.vmpop 8 1 3 0) = 0x71010398 := by decide

/-! ### Small states -/

/-- A live ctx0 at 0x100000 with the registers of a list. -/
def ctxWith (l : List (Reg × Word)) : Ctx := l.foldl (fun x r => x.setReg r.1 r.2) { Ctx.reset with live := true, pc := 0x100000, tvec := 0x102000 }

/-- A translation context with everything 0. -/
def xc0 : Xctx := ⟨0, 0, 0, 0, 0, 0, 0, 0, false, 0, 0⟩
/-- A core that runs a group of partition 0: segment 0x100000 is resident, as the two of the vectors at 0x102000 are; 0x100800 has failed and 0x101000
is being fetched. -/
def coreWith (x : Ctx) : Core :=
  ({ Core.reset with
    group := some ⟨0, 1, 0, 0, 0, 11, 8, 4, true, true, false, 0⟩
    slots := ((((Core.reset.slots.setIfInBounds 0 (.resident 0x100000 1)).setIfInBounds 1 (.failed 0x100800 2)).setIfInBounds 2
      (.fetching 0x101000 3 0 xc0)).setIfInBounds 4 (.resident 0x102000 4)).setIfInBounds 5 (.resident 0x102800 5) } : Core).setCtx 0 x

/-- Partition 0 runs on clusters 0 to 3, its hypervisor vector resident, with a save area. -/
def part0 : Part := { Part.reset with state := 1, len := 4, hvec := 0x102000, save := 0x10000 }

/-- The machine with a core 0 and partition 0. -/
def machine (k : Core) : State := { State.reset with cores := [(0, k)], parts := State.reset.parts.setIfInBounds 0 part0 }

/-- The machine with a ctx0 of core 0. -/
def onCtx (x : Ctx) : State := machine (coreWith x)

/-- The machine with registers of ctx0 of core 0. -/
def regs (l : List (Reg × Word)) : State := onCtx (ctxWith l)

/-- What a register of the executing context reads as once its results are visible. -/
def after (o : Out) (r : Reg) : Option Word :=
  match o with
  | .next t => some ((settle { t with cycle := t.cycle + 100 } t.cur).me.reg r)
  | _ => none

/-- The flags of the executing context once its results are visible. -/
def flagsAfter (o : Out) : Option (BitVec 8) :=
  match o with
  | .next t => some ((settle { t with cycle := t.cycle + 100 } t.cur).me.accrued (t.cycle + 100)).fflags
  | _ => none

/-- A property of the next state. -/
def holds (o : Out) (p : State → Bool) : Bool :=
  match o with
  | .next t => p t
  | _ => false

/-! ### Arithmetic: the values of R104's examples and of R105 to R108 -/

theorem test_div : after (exec (.div 3 1 2 0) (regs [(1, -7), (2, 2)])) 3 = some (-3) := by decide +kernel
theorem test_div_overflow : after (exec (.div 3 1 2 0) (regs [(1, 0x8000000000000000), (2, -1)])) 3 = some 0x8000000000000000 := by decide +kernel
theorem test_rem : after (exec (.rem 3 1 2 0) (regs [(1, -7), (2, 2)])) 3 = some (-1) := by decide +kernel
theorem test_rem_by_zero : after (exec (.rem 3 1 2 0) (regs [(1, 5)])) 3 = some 5 := by decide +kernel
theorem test_divu_by_zero : after (exec (.divu 3 1 2 0) (regs [(1, 5)])) 3 = some 0xFFFFFFFFFFFFFFFF := by decide +kernel
theorem test_mulh : after (exec (.mulh 3 1 2 0) (regs [(1, -1), (2, -1)])) 3 = some 0 := by decide +kernel
theorem test_mulhu : after (exec (.mulhu 3 1 2 0) (regs [(1, -1), (2, -1)])) 3 = some 0xFFFFFFFFFFFFFFFE := by decide +kernel
theorem test_addw : after (exec (.addw 3 1 2 0) (regs [(1, 0x7FFFFFFF), (2, 1)])) 3 = some 0xFFFFFFFF80000000 := by decide +kernel
theorem test_ror : after (exec (.ror 3 1 2 0) (regs [(1, 1), (2, 65)])) 3 = some 0x8000000000000000 := by decide +kernel
theorem test_lui : after (exec (.lui 5 0x91A3 0) (regs [])) 5 = some 0x12346000 := by decide +kernel
theorem test_addi : after (exec (.addi 5 5 0x1678 0) (regs [(5, 0x12346000)])) 5 = some 0x12345678 := by decide +kernel
theorem test_adr : after (exec (.adr 2 16 0) (regs [])) 2 = some 0x100040 := by decide +kernel
theorem test_extu : after (exec (.extu 7 8 12 7 0) (regs [(8, 0x12345678)])) 7 = some 0x45 := by decide +kernel
theorem test_ins_reads_its_destination : after (exec (.ins 7 8 8 7 0) (regs [(7, 0xFFFFFFFF), (8, 0x1AB)])) 7 = some 0xFFFFABFF := by decide +kernel
theorem test_sel_third_source : after (exec (.sel 5 6 7 0) (regs [(5, 0), (6, 1), (7, 2)])) 5 = some 2 := by decide +kernel
theorem test_discards_g0 : after (exec (.add 0 1 1 0) (regs [(1, 4)])) 0 = some 0 := by decide +kernel

/-! ### Floating point: chapter 04's fused example, R79's conversions, and the special operands of R69 and R112 to R114 -/

theorem test_fnma : after (exec (.fnma 7 5 5 1) (regs [(5, 0x3F800800), (7, 0x3F801000)])) 7 = some 0xB3800000 := by decide +kernel
theorem test_fmul_inexact : flagsAfter (exec (.fmul 8 5 5 0) (regs [(5, 0x3F800800)])) = some 0x01 ∧
    after (exec (.fmul 8 5 5 0) (regs [(5, 0x3F800800)])) 8 = some 0x3F801000 := by decide +kernel
theorem test_conversions : f32.convert bf16 0 false 0x3F808000 = (0x3F80, 0x01) ∧ f32.convert bf16 2 false 0x3F808000 = (0x3F81, 0x01) ∧
    f32.convert e4m3 0 false 0x43E80000 = (0x7E, 0x01) ∧ (f32.convert e4m3 0 false 0x43E88000).1 = 0x7F ∧ (f32.convert e4m3 0 true 0x43E88000).1 = 0x7E ∧
    f32.convert e5m2 0 false 0x476A6000 = (0x7B, 0x01) ∧ (f32.convert e5m2 0 false 0x47800000).1 = 0x7C ∧
    (f32.convert e4m3 0 false 0xBA83126F).1 = 0x81 := by decide +kernel
theorem test_float_specials : ∀ rm : BitVec 2,
    f32.sub rm 0x7F800000 0x7F800000 = (0x7FC00000, 0x10) ∧ f32.mul rm 0 0xFF800000 = (0x7FC00000, 0x10) ∧
    f32.div rm 0 0x80000000 = (0x7FC00000, 0x10) ∧ f32.div rm 0x7F800000 0x7F800000 = (0x7FC00000, 0x10) ∧
    f32.div rm 0x3F800000 0x80000000 = (0xFF800000, 0x08) ∧ f32.sqrt rm 0xBF800000 = (0x7FC00000, 0x10) ∧
    f32.sqrt rm 0x80000000 = (0x80000000, 0) ∧ f32.add rm 0x3F800000 0xBF800000 = (if rm = 3 then 0x80000000 else 0, 0) ∧
    f32.add rm 0x7FC00001 0x3F800000 = (0x7FC00000, 0) ∧ f32.minMax false 0x80000000 0 = (0x80000000, 0) := by decide +kernel

/-! ### Control flow, traps and return -/

theorem test_branch_back : holds (exec (.blt 3 4 0x3FD 0) (onCtx { ctxWith [(3, -1), (4, 0)] with pc := 0x10000C })) (fun t => t.me.pc == 0x100000) = true := by
  decide +kernel
theorem test_call_pushes : holds (exec (.call 16 0) (onCtx { ctxWith [(27, 0x2000)] with slim := 0x1000, sbase := 0x2000 }))
    (fun t => t.me.pc == 0x100040 && t.me.reg 27 == 0x1FF8 && readLe t.mine.spad 0x1FF8 8 == 0x100004) = true := by decide +kernel
theorem test_ret_empty_stack : holds (exec (.ret 0) (onCtx { ctxWith [(27, 0x2000)] with slim := 0x1000, sbase := 0x2000 }))
    (fun t => t.me.tcause == cSTACKFAULT && t.me.tval == 0x2000 && t.me.tpc == 0x100000) = true := by decide +kernel
theorem test_jump_absent : holds (exec (.jr 5 0) (regs [(5, 0x200000)])) (fun t => t.me.tcause == cCODEABSENT && t.me.tval == 0x200000) = true := by
  decide +kernel
theorem test_trap_entry : holds (exec (.trap 0x2A 0) (regs []))
    (fun t => t.me.pc == 0x102000 + 64 * (cTRAPINSTR.setWidth 64) && t.me.tpc == 0x100004 && t.me.tval == 0x2A && t.me.priv == 1 && t.me.sprv == 0 &&
      t.me.icount == 1) = true := by decide +kernel
theorem test_hcall_enters_h : holds (exec (.hcall 0) (regs [])) (fun t => t.me.priv == 2 && t.me.pc == 0x102000 + 64 * (cHCALLTRAP.setWidth 64)) = true := by
  decide +kernel
theorem test_eret_at_u : holds (exec (.eret 0) (regs [])) (fun t => t.me.tcause == cPRIV && t.me.tval == 0x9C000018) = true := by decide +kernel
theorem test_eret : holds (exec (.eret 0) (onCtx { ctxWith [] with priv := 1, tpc := 0x100010 })) (fun t => t.me.pc == 0x100010 && t.me.priv == 0) = true := by
  decide +kernel
/-- Chapter 05's repeat example: the state of the frame at the trap in replay 2. -/
theorem test_frame_word : frameWord (some ⟨0x100004, [0], 0b111, 1, 2, 4, 0⟩) = 0x8000000060004F00 := by decide +kernel
theorem test_crclr : after (exec (.crclr 2 9 2 0) (onCtx { ctxWith [(9, 0x10)] with fflags := 0x11 })) 2 = some 0x11 ∧
    flagsAfter (exec (.crclr 2 9 2 0) (onCtx { ctxWith [(9, 0x10)] with fflags := 0x11 })) = some 0x01 := by decide +kernel
theorem test_csr_illegal : holds (exec (.crr 2 0x7FF 0) (regs [])) (fun t => t.me.tcause == cILLEGAL) = true := by decide +kernel
/-- A result on its way to port 1 keeps the route it was checked against, once cr.qroute1 is written; one to port 2 is not touched (R261). -/
theorem test_crw_qroute_keeps_route :
    holds (exec (.crw 0 1 0x4D 0) (machine { coreWith { ctxWith [(1, 5)] with
        inflight := [⟨29, 7, 4, 0x100000, 0, 1, true, none⟩, ⟨30, 7, 4, 0x100000, 0, 2, true, none⟩] } with qroute := #v[0, 0x80000003, 0, 0] }))
      (fun t => t.me.inflight.map (fun e => e.route) == [some 0x80000003, none] && t.mine.qroute[1]? == some 5) = true := by decide +kernel
theorem test_csr_priv : holds (exec (.crw 0 1 0x46 0) (regs [])) (fun t => t.me.tcause == cPRIV) = true := by decide +kernel

/-! ### Memory: byte order, sign extension, checks, atomics -/

theorem test_store_load : holds (exec (.st 4 2 2 2 1 0) (regs [(4, 0x1122334455667788), (2, 0x100)]))
    (fun t => readLe t.mine.spad 0x108 4 == 0x55667788 && readLe t.mine.spad 0x108 1 == 0x88 && readLe t.mine.spad 0x10C 4 == 0) = true := by decide +kernel
theorem test_load_sign : after (exec (.ld 5 6 0 0 0 0) (machine { coreWith (ctxWith []) with spad := [(0, 0x80)] })) 5 = some 0xFFFFFFFFFFFFFF80 ∧
    after (exec (.ldu 5 6 0 0 0 0) (machine { coreWith (ctxWith []) with spad := [(0, 0x80)] })) 5 = some 0x80 := by decide +kernel
theorem test_misaligned : holds (exec (.ld 5 6 0 3 0 0) (regs [(6, 4)])) (fun t => t.me.tcause == cMISALIGN && t.me.tval == 4) = true := by decide +kernel
theorem test_atadd_local : after (exec (.atadd 8 5 6 2 0 0) (machine { coreWith (ctxWith [(5, 0), (6, 3)]) with spad := [(0, 4)] })) 8 = some 4 := by
  decide +kernel
theorem test_cas_mismatch_keeps : holds (exec (.cas 8 5 6 2 0 0) (machine { coreWith (ctxWith [(6, 3), (8, 9)]) with spad := [(0, 4)] }))
    (fun t => t.mine.spad == [(0, 4)]) = true := by decide +kernel
/-- Chapter 12's pointers. -/
theorem test_vwset : after (exec (.vwset 13 10 12 0) (regs [(10, 0x10000000000), (12, 1)])) 13 = some 0x0020010000000000 := by decide +kernel
theorem test_vwpin : after (exec (.vwpin 15 10 0) (regs [(10, 0x10000000000)])) 15 = some 0x0010010000000000 := by decide +kernel
theorem test_vwset_out_of_range : holds (exec (.vwset 13 10 12 0) (regs [(10, 0x10000000000), (12, 4)]))
    (fun t => t.me.tcause == cADDRFORM && t.me.tval == 0x10000000000) = true := by decide +kernel

/-! ### Line pointers, ports, engines, launches, strings -/

theorem test_pset : holds (exec (.pset 1 5 0) (regs [(5, 5)])) (fun t => t.me.p[1]?.getD 0 == 5) = true := by decide +kernel
theorem test_qpeek_keeps : after (exec (.qpeek 5 1 0) (machine { coreWith (ctxWith []) with ports := #v[[], [⟨0, 1, 0, 0, 1, 1, 0, 7, [], (0, 0), false⟩], [], []] })) 5 = some 7 := by
  decide +kernel
theorem test_port_source_pops : holds (exec (.add 5 29 0 0) (machine { coreWith (ctxWith []) with ports := #v[[], [⟨0, 1, 0, 0, 1, 1, 0, 7, [], (0, 0), false⟩], [], []] }))
    (fun t => (t.mine.port 1).isEmpty && t.mine.msgrecv == 1) = true := by decide +kernel
theorem test_port_without_route : holds (exec (.or 28 1 0 0) (regs [(1, 7)])) (fun t => t.me.tcause == cPORTFAULT) = true := by decide +kernel
theorem test_lqry_unknown : after (exec (.lqry 7 5 0) (regs [(5, 9)])) 7 = some 0 := by decide +kernel
theorem test_xwait_unknown : holds (exec (.xwait 8 0) (regs [(8, 1)])) (fun t => t.me.pc == 0x100004) = true := by decide +kernel
/-- Chapter 08's strings: two counted events, each in the cycle after its own (R120), then the term is true; two pulses of a cycle count as one. -/
theorem test_strings_count :
    let k := { Core.reset with strcnt := Core.reset.strcnt.setIfInBounds 0 0x20011, strterm := Core.reset.strterm.setIfInBounds 0 0x8001, strtgt := 1 }
    let once := strEndCycle (strEndCycle (strFire 1 (strFire 1 k)))
    let twice := strEndCycle (strEndCycle (strFire 1 (strEndCycle (strFire 1 k))))
    gateOpen k 0 = false ∧ gateOpen once 0 = false ∧ gateOpen (strEndCycle (strFire 1 (strEndCycle (strFire 1 k)))) 0 = false ∧
    gateOpen twice 0 = true ∧ gateOpen (strConsume 11 0 twice) 0 = false := by decide +kernel

/-! ### Vectors: chapter 06's masked reduction -/

/-- A queue entry on lines d, a and b. -/
def entry (i : Instr) (d a b : Nat) : VEntry := ⟨i, 0, 0, d, a, b, [a, b], [d], 0, 0, 0, xc0, 1, false, [], 8, 0⟩

theorem test_viota : ((vecRes (ctxWith []) Core.reset (entry (.viota 0 3 0) 0 0 0)).map
    (fun r => r.lines.map (fun l => (l.1, elemAt 32 l.2 3, elemAt 32 l.2 127)))) = some [(0, 3, 127)] := by decide +kernel
/-- Element 0 of line 0 is 100 and every other is 0: the mask has the bits of element 0 for 0 < 100. -/
theorem test_vcmplt_mask : ((vecRes (ctxWith []) { Core.reset with spad := [(0, 100)] } (entry (.vcmplt 1 1 0 3 0) 1 1 0)).map
    (fun r => r.masks.map (fun m => (m.1, m.2)))) = some [(1, 0xFF)] := by decide +kernel
/-- The sum of 0 to 99 is 4,950.0 as F32, bits 0x459AB000. -/
theorem test_vrsum : (rsum (BitVec.ofNat 1024 (2 ^ 800 - 1)) 3 (List.range 128)).1 = 0x459AB000 := by decide +kernel
theorem test_vmpop : after (exec (.vmpop 8 1 3 0) (onCtx { ctxWith [] with m := (Ctx.reset.m).setIfInBounds 1 (BitVec.ofNat 1024 (2 ^ 800 - 1)) })) 8 = some 100 := by
  decide +kernel

/-! ### Witnesses: states and operands that meet the statements' hypotheses -/

/-- A context with a result of variable latency, one of fixed latency, a poisoned register and the checker on. -/
def busyCtx : Ctx := { ctxWith [] with
  varRes := [⟨1, 7, 5, 0, 1, false, none⟩], inflight := [⟨2, 9, 3, 0xFF000, 0, 2, false, none⟩], poison := 8, chk := true }

/-- A state in which the context of core 0 is about to issue the word w. -/
noncomputable def aboutTo (w : Nat) : State := (regs []).withFetchWord 32 w

theorem witness_DecodeEncode : Instr.wf (.add 1 2 3 0) = true ∧ Instr.wf (.extu 1 2 32 31 7) = true := by decide
theorem witness_DecodeExact : decode 0x04C63000 = .ok (.add 6 6 6 0) ∧ (0x03FFFFFF : IWord).toNat / 2 ^ 26 = 0 ∧
    0x2E ≤ (0xB8000000 : IWord).toNat / 2 ^ 26 := by decide
theorem witness_StepRunsDecoded :
    let s := aboutTo 0x04C63000
    let u := select ⟨0, 0⟩ { s with agenda := [] }
    (s.agenda = [.issue ⟨0, 0⟩] ∧ maySelect s ⟨0, 0⟩ = true ∧ u.me.killReq = false ∧ u.me.deferred = [] ∧ u.me.sends = [] ∧
      streamFull u = false ∧ u.me.fwd = none ∧ u.me.frame = none ∧ u.mine.isResident u.me.pc = true ∧
      decode (BitVec.ofNat 32 (readLe u.mine.imem (slotOf u.me.pc * 2048 + u.me.pc.toNat % 2048) 4)) = .ok (.add 6 6 6 0) ∧
      followers u u.cur.core = []) ∧ encode (.wake 0) = 0 := by decide +kernel
/-- A context that may not issue; a result that is due before an event, a pass or the machine's own acts; and nothing due. -/
theorem witness_StepRunsDecoded_agenda :
    canIssue { State.reset with agenda := [.issue ⟨0, 0⟩] } ⟨0, 0⟩ = false ∧
    (let s := { onCtx busyCtx with cycle := 5 };
      dueAct s = some (.event (.fixedResultVisible 0 0)) ∧ s.agenda = [] ∧
      dueAct { s with agenda := [.event (.wake 0)] } = some (.event (.fixedResultVisible 0 0)) ∧
      dueAct { s with agenda := [.pass 2] } = some (.event (.fixedResultVisible 0 0))) ∧
    dueAct { State.reset with agenda := [.event (.wake 0)] } = none ∧ dueAct { State.reset with agenda := [.pass 1] } = none ∧
    dueAct { State.reset with agenda := [.image 0 0 [1]] } = none ∧ dueAct { State.reset with agenda := [.debugger 0xF0010000000 none] } = none ∧
    dueAct State.reset = none ∧ enabledEvent State.reset = none := by decide +kernel
theorem witness_FetchAndIllegalWords :
    (let s := aboutTo 0;
      let u := select ⟨0, 0⟩ { s with agenda := [] }
      s.agenda = [.issue ⟨0, 0⟩] ∧ maySelect s ⟨0, 0⟩ = true ∧ u.me.killReq = false ∧ u.me.deferred = [] ∧ u.me.sends = [] ∧
      streamFull u = false ∧ nextWord u = .inl 0 ∧ decode 0 = .error .major) ∧
    (let s := { onCtx { ctxWith [] with pc := 0x100800 } with agenda := [.issue ⟨0, 0⟩] };
      let u := select ⟨0, 0⟩ { s with agenda := [] }
      maySelect s ⟨0, 0⟩ = true ∧ u.me.fwd = none ∧ u.me.frame = none ∧ u.mine.isResident u.me.pc = false ∧
      u.me.killReq = false ∧ u.me.deferred = [] ∧ u.me.sends = [] ∧ streamFull u = false) := by decide +kernel
theorem witness_TrapEntry : let s := regs []
    s.cur.ctx < 11 ∧ s.me.fwd = none ∧ followers s s.cur.core = [] ∧ s.me.inflight = [] ∧
    s.mine.isResident (trapVector s.myPart s.me (trapLevel s.me.priv cSYSCALL) cSYSCALL) = true := by decide +kernel
/-- A missed vector: nothing resident at it; and one that is resident. -/
theorem witness_VectorMissStopsThePartition :
    (let s := onCtx { ctxWith [] with tvec := 0x200000 };
      s.cur.ctx < 11 ∧ s.myPart.state = 1 ∧ s.myPart.owns (rankOf s.cur.core) = true ∧
      (let vec := trapVector s.myPart s.me (trapLevel s.me.priv cSYSCALL) cSYSCALL;
       s.mine.slot (slotOf vec) = .resident 0x100000 1 ∧ segOf vec ≠ 0x100000)) ∧
    (let s := regs [];
      let vec := trapVector s.myPart s.me (trapLevel s.me.priv cSYSCALL) cSYSCALL
      s.cur.ctx < 11 ∧ s.myPart.state = 1 ∧ s.myPart.owns (rankOf s.cur.core) = true ∧ s.mine.slot (slotOf vec) = .resident (segOf vec) 4) := by
  decide +kernel
theorem witness_EretReturns :
    (regs []).me.priv = 0 ∧
    (let s := onCtx { ctxWith [] with priv := 1, tpc := 0x100010 };
      s.me.priv ≠ 0 ∧ s.me.rptst.getLsbD 63 = false ∧ s.mine.isResident s.me.tpc = true ∧ s.cur.ctx < 11) ∧
    (let s := onCtx { ctxWith [] with priv := 2, tpc := 0x200010 };
      s.me.priv ≠ 0 ∧ s.me.rptst.getLsbD 63 = false ∧ s.me.fwd = none ∧ s.mine.isResident s.me.tpc = false) ∧
    (let s := onCtx { ctxWith [] with priv := 1, tpc := 0x100010, rptst := 0x8000000060004F00 };
      s.me.rptst.getLsbD 63 = true ∧ frameResident s.mine (frameOf s.mine s.me.rptst s.me.tpc) = true) ∧
    (let s := onCtx { ctxWith [] with priv := 1, tpc := 0x200010, rptst := 0x8000000060004F00 };
      s.me.rptst.getLsbD 63 = true ∧ frameResident s.mine (frameOf s.mine s.me.rptst s.me.tpc) = false) := by decide +kernel
theorem witness_SoftwareTraps : ((regs []).cluster 0).dmctl.getLsbD 0 = false ∧
    (((regs []).setCluster 0 { Cluster.reset with dmctl := 1 }).cluster 0).dmctl.getLsbD 0 = true := by decide +kernel
theorem witness_PrivilegedInstructions : (regs []).me.priv = 0 ∧ (regs []).cur.ctx = 0 ∧ { regs [] with cur := ⟨0, 10⟩ }.cur.ctx ≠ 0 := by decide +kernel
theorem witness_HazardCases : let s := onCtx busyCtx
    hazard [1] [] s = .hold ∧ hazard [29, 29] [] s = .hold ∧ hazard [2] [] s = .trap (.mk' cSTALLSHORT 0xFF000) ∧
    hazard [3] [] s = .trap ⟨cPOISON, 0, some 0, false⟩ ∧ hazard [4, 0] [3] s = .clear := by decide +kernel
theorem witness_HeldAndTrappedForms : let s := onCtx busyCtx
    hazard [1, 4] [5] s = .hold ∧ hazard [4, 3] [] s = .trap ⟨cPOISON, 0, some 0, false⟩ ∧
    (hazard [4, 4] [31] s = .clear ∧ 28 ≤ (31 : Reg).toNat ∧ (s.mine.qroute[(31 : Reg).toNat - 28]?.getD 0).getLsbD 31 = false) := by decide +kernel
theorem witness_RetireEffect : (regs []).cur.ctx < 11 ∧ (regs []).me.frame = none ∧
    (machine { coreWith (ctxWith []) with ports := #v[[], [], [], [⟨0, 1, 0, 0, 3, 1, 0, 7, [], (0, 0), false⟩]] }).mine.port 3 ≠ [] ∧ [31#5] = [BitVec.ofNat 5 (28 + 3)] := by
  decide +kernel
theorem witness_ResultsInFlight : (regs []).cur.ctx < 11 ∧ ¬ ((3 : Reg) = 0 ∧ (0 : BitVec 8) = 0) ∧
    ([⟨2, 9, 3, 0, 0, 1, false, none⟩, ⟨1, 9, 3, 0, 0, 2, false, none⟩] : List Inflight).Pairwise (fun x y => x.visibleAt ≤ y.visibleAt) ∧ (27 : Reg).toNat < 28 ∧ 28 ≤ (28 : Reg).toNat := by
  decide +kernel
theorem witness_ResultEvents :
    (busyCtx.nextDue 5 = some (.inl ⟨2, 9, 3, 0xFF000, 0, 2, false, none⟩) ∧ { busyCtx with inflight := [] }.nextDue 5 = some (.inr ⟨1, 7, 5, 0, 1, false, none⟩) ∧
      { busyCtx with inflight := [⟨2, 9, 3, 0xFF000, 1, 2, true, none⟩] }.nextDue 5 = some (.inl ⟨2, 9, 3, 0xFF000, 1, 2, true, none⟩) ∧
      busyCtx.nextDue 2 = none ∧ { busyCtx with varRes := [] }.nextDue 2 = none ∧
      { busyCtx with varRes := [⟨1, 7, 2, 0, 1, false, none⟩] }.nextDue 5 = some (.inr ⟨1, 7, 2, 0, 1, false, none⟩)) ∧
    (let s := onCtx { ctxWith [] with fpHold := some ⟨0, 1⟩ };
      (s.ctx ⟨0, 0⟩).fpHold = some ⟨0, 1⟩ ∧ (s.ctx ⟨0, 0⟩).live = true ∧ coreRuns s 0 = true) ∧
    (let s := onCtx { ctxWith [] with deferred := [⟨cPOISON, 0, 0, 4⟩, ⟨cPOISON, 0, 0, 9⟩] };
      (∀ e ∈ (s.ctx ⟨0, 0⟩).deferred, e ≠ ⟨cPOISON, 0, 0, 4⟩ → 4 < e.order) ∧ canIssue s ⟨0, 0⟩ = true ∧ inTime s ⟨0, 0⟩ = true ∧ (s.ctx ⟨0, 0⟩).defDepth = 0 ∧
      (s.ctx ⟨0, 0⟩).arrived = false ∧ (s.ctx ⟨0, 0⟩).killReq = false) := by decide +kernel
theorem witness_StepKeepsMemoriesCanonical : memSafe { State.reset with agenda := [.pass 3], mem := [(4, 1), (9, 2)] } = true ∧
    holds (step { State.reset with agenda := [.pass 3], mem := [(4, 1), (9, 2)] }) (fun t => t.cycle == 1 && t.mem == [(4, 1), (9, 2)]) = true := by
  decide +kernel

/-- Ready to read registers and to write g3, and to send on a route that is valid. -/
theorem witness_ready :
    (let s := regs [(1, 2)];
      hazard [1, 2] [3] s = .clear ∧ portFault s 3 = none ∧ hazard [1, 2, 3] [3] s = .clear ∧ hazard [] [0] s = .clear ∧ portFault s 0 = none) ∧
    (let s := machine { coreWith (ctxWith []) with qroute := #v[0x80000003, 0, 0, 0], ports := #v[[⟨0, 1, 0, 0, 0, 1, 0, 7, [], (0, 0), false⟩], [], [], []] };
      hazard [28, 1] [28] s = .clear ∧ portFault s 28 = none) := by decide +kernel
theorem witness_IntegerResults :
    (let s := regs [(1, 0x00F0)];
      (hazard [1, 2] [3] s = .clear ∧ portFault s 3 = none ∧ hazard [1, 2, 3] [3] s = .clear ∧ hazard [1] [3] s = .clear) ∧
      (s.rdA 1).toNat < 2 ^ (64 - 56) ∧ 2 ^ (63 - 56) ≤ (s.rdA 1).toNat ∧ (∀ i < 4, (s.rdA 1).getLsbD i = false) ∧ (s.rdA 1).getLsbD 4 = true ∧
      (s.rdA 0).toNat < 2 ^ (64 - 64)) ∧
    (let s := regs [(1, -9), (2, 2)];
      hazard [1, 2] [3] s = .clear ∧ portFault s 3 = none ∧ s.rdB 1 0 = 0 ∧ s.rdB 1 2 ≠ 0 ∧ (s.rdA 1).toInt.natAbs < 2 ^ 4 ∧
      2 ^ 4 ≤ 2 * (s.rdA 1).toInt.natAbs ∧ (s.rdA 1).toNat < 2 ^ 64 ∧ 2 ^ 64 ≤ 2 * (s.rdA 1).toNat ∧ (s.rdA 0).toNat < 2 ^ 0) := by decide +kernel
theorem witness_ImmediateResults : let s := regs [(1, 2)]
    hazard [1] [3] s = .clear ∧ portFault s 3 = none ∧ hazard [1, 3] [3] s = .clear ∧ hazard [] [3] s = .clear ∧
    (32 : BitVec 6).toNat + ((31 : BitVec 5).toNat + 1) ≤ 64 ∧ (63 : BitVec 6).toNat + (0 : BitVec 5).toNat + 1 ≤ 64 := by decide +kernel
theorem witness_FpuResults :
    (let s := regs [(1, 0x3F800000)];
      hazard [1, 2] [3] s = .clear ∧ portFault s 3 = none ∧ hazard [1, 2, 3] [3] s = .clear ∧ s.me.te &&& (fres (f32.add s.me.rm 1 1)).2.extractLsb' 0 5 = 0) ∧
    (let s := onCtx { ctxWith [(1, 0x3F800800)] with frm := 0x1F0 };
      hazard [1, 1] [3] s = .clear ∧ portFault s 3 = none ∧ s.cur.ctx < 11 ∧
      s.me.te &&& (fres (f32.mul s.me.rm 0x3F800800 0x3F800800)).2.extractLsb' 0 5 ≠ 0) := by decide +kernel
/-- Values that do not overflow, the largest finite value of each format, and values that pass it in each way. -/
theorem witness_RoundingIsCorrect :
    ((f32.round 0 false false 3 (-1)).2 &&& fOF = 0 ∧ (e4m3.round 3 false true 447 0).2 &&& fOF = 0) ∧
    (f32.decode f32.top = .fin false (2 ^ 24 - 1) 104 ∧ bf16.decode bf16.top = .fin false 255 120 ∧ e4m3.decode e4m3.top = .fin false 14 5 ∧
      e5m2.decode e5m2.top = .fin false 7 13) ∧
    (((14 * 2 ^ 5 + 2 ^ 5 / 2 : ℚ) < 465) ∧ (7 * 2 ^ 13 + 2 ^ 13 / 2 : ℚ) = 15 * 2 ^ 12 ∧ e5m2 ≠ e4m3 ∧ (14 * 2 ^ 5 : ℚ) < 449 ∧
      (14 * 2 ^ 5 + 2 ^ 5 : ℚ) ≤ 480) ∧ f32.inf = some 0x7F800000 ∧ e4m3.inf = none := by
  refine ⟨by decide +kernel, by decide +kernel, by norm_num [show e5m2 ≠ e4m3 by decide], by decide +kernel⟩
theorem witness_BranchesAndJumps : let s := regs [(1, -1), (2, 1)]
    hazard [1, 2] [] s = .clear ∧ s.rdA 1 ≠ s.rdB 1 2 ∧ s.rdA 1 = s.rdB 1 1 ∧ (s.rdA 1).toInt < (s.rdB 1 2).toInt ∧ (s.rdB 2 1).toInt ≤ (s.rdA 2).toInt ∧
    (s.rdA 2).toNat < (s.rdB 2 1).toNat ∧ (s.rdB 1 2).toNat ≤ (s.rdA 1).toNat ∧ s.mine.isResident (BitVec.ofInt 64 (s.me.pc.toInt + 4 * 3)) = true ∧
    s.me.fwd = none ∧ s.mine.isResident (BitVec.ofInt 64 (s.me.pc.toInt + 4 * 511 + 4)) = false ∧
    s.mine.isResident (BitVec.ofInt 64 (s.me.pc.toInt + 4 * (-1))) = false := by decide +kernel
theorem witness_BranchesAndJumps_jumps : let s := regs [(1, 0x100010), (2, 0x100811), (3, 0x101000), (4, 0x200000)]
    hazard [1] [] s = .clear ∧ hazard [1] [5] s = .clear ∧ portFault s 5 = none ∧ s.mine.isResident (s.rdA 1) = true ∧ s.mine.isFetching (s.rdA 1) = false ∧
    (s.rdA 2).toNat % 4 ≠ 0 ∧ (s.rdA 3).toNat % 4 = 0 ∧ s.mine.isFetching (s.rdA 3) = true ∧ s.me.fjwait = false ∧ s.me.fwd = none ∧
    s.mine.isResident (s.rdA 4) = false ∧ (onCtx { ctxWith [] with fjwait := true }).me.fjwait = true := by decide +kernel
theorem witness_CallsAndReturns :
    (let s := onCtx { ctxWith [(1, 0x100010), (2, 0x200000), (3, 0x100011), (27, 0x1008)] with slim := 0x1000, sbase := 0x1010 };
      hazard [27] [27] s = .clear ∧ hazard [1, 27] [27] s = .clear ∧ (s.rdA 1).toNat % 4 = 0 ∧ s.mine.isResident (s.rdA 1) = true ∧
      (s.rdA 2).toNat % 4 = 0 ∧ s.mine.isResident (s.rdA 2) = false ∧ s.me.fwd = none ∧ (s.rdA 3).toNat % 4 ≠ 0 ∧ hazard [2, 27] [27] s = .clear ∧
      hazard [3, 27] [27] s = .clear ∧
      (s.me.slim.toNat ≤ (s.me.reg 27 - 8).toNat ∧ (s.me.reg 27 - 8).toNat + 8 ≤ s.me.sbase.toNat ∧ (s.me.reg 27 - 8).toNat % 8 = 0 ∧
        (s.me.reg 27 - 8).toNat + 8 ≤ spBytes s.mine.spsize) ∧ spadBusy s.mine (s.me.reg 27 - 8).toNat 8 true = false ∧ s.me.ring.length < 4 ∧
      orderHolds s (s.me.reg 27 - 8) 8 true = false ∧ (s.me.reg 27).toNat + 8 ≤ s.me.sbase.toNat ∧ spadBusy s.mine (s.me.reg 27).toNat 8 false = false ∧
      orderHolds s (s.me.reg 27) 8 false = false ∧ readLe s.mine.spad (s.me.reg 27).toNat 8 % 4 = 0 ∧
      s.mine.isResident (BitVec.ofInt 64 (s.me.pc.toInt + 4 * 16)) = true ∧ s.mine.isResident (BitVec.ofInt 64 (s.me.pc.toInt + 4 * 0x40000)) = false ∧
      s.mine.isResident (BitVec.ofNat 64 (readLe s.mine.spad (s.me.reg 27).toNat 8)) = false) ∧
    (let s := onCtx { ctxWith [(27, 0x1004)] with slim := 0x1000, sbase := 0x1010 };
      hazard [27] [27] s = .clear ∧ ¬ s.me.slim.toNat ≤ (s.me.reg 27 - 8).toNat ∧ (s.me.reg 27).toNat % 8 ≠ 0) ∧
    (let s := onCtx { ctxWith [(27, 0x20000)] with slim := 0, sbase := 0x20008 };
      (s.me.reg 27).toNat % 8 = 0 ∧ spBytes s.mine.spsize < (s.me.reg 27).toNat + 8 ∧ (s.me.reg 27).toNat + 8 ≤ s.me.sbase.toNat) ∧
    (let h : RingHold := ⟨0, 3, true, 0x200000, 8, 0, false, none⟩;
      ¬ (onCtx { ctxWith [] with ring := [h, h, h, h] }).me.ring.length < 4) ∧
    (let s := machine { coreWith { ctxWith [(27, 0x1000)] with sbase := 0x2000 } with spad := [(0x1000, 2)] };
      readLe s.mine.spad (s.me.reg 27).toNat 8 % 4 ≠ 0) ∧
    (let s := machine { coreWith { ctxWith [(27, 0x1000)] with sbase := 0x2000 } with spad := [(0x1002, 0x10)] };
      readLe s.mine.spad (s.me.reg 27).toNat 8 % 4 = 0 ∧
      s.mine.isResident (BitVec.ofNat 64 (readLe s.mine.spad (s.me.reg 27).toNat 8)) = true) := by decide +kernel
theorem witness_ScalarFrame :
    (holds (exec (.add 3 1 2 0) (regs [(1, 2)])) (fun t => t.note != .trapped) = true ∧
      holds (exec (.beq 1 2 3 0) (regs [(1, 2)])) (fun t => t.note != .trapped) = true) ∧
    (let s := onCtx { ctxWith [(1, 0x100010), (27, 0x1008)] with slim := 0x1000, sbase := 0x1010 };
      holds (exec (.call 4 0) s) (fun t => t.note != .trapped) = true ∧ holds (exec (.callr 1 0) s) (fun t => t.note != .trapped) = true ∧
      holds (exec (.ret 0) (machine { coreWith { ctxWith [(27, 0x1008)] with slim := 0x1000, sbase := 0x1010 } with spad := [(0x100A, 0x10)] }))
        (fun t => t.note != .trapped) = true) := by decide +kernel

/-! #### Memory -/

/-- Tables that map the first 256 MiB of the address space to PA 0x10000000, for every access at U. -/
def tables : Memory := [(0x100000, 1), (0x100002, 0x20), (0x200000, 0xF2), (0x200003, 0x10)]

/-- The machine with those tables and a core. -/
def mapped (k : Core) : State := { machine { k with ttab := 0x100000 } with mem := tables }

/-- It with registers of ctx0. -/
def mregs (l : List (Reg × Word)) : State := mapped (coreWith (ctxWith l))

/-- A queued VADD p3, p4, p5 of halfwords. -/
def ventry : VEntry := ⟨.vadd 3 4 5 1 0, 9, 0x100000, 3, 4, 5, [4, 5], [3], 0, 0, 0, xc0, 1, false, [], 8, 0⟩
/-- An access from this state is translated and reaches a location, no tenure lost. -/
def reached (rt : BitVec 2) (addr : Word) (n : Nat) (need : Need) (s : State) (l : Loc) : Bool :=
  let r := resolve s (s.xctx s.cur) addr n need
  !ringBusy s.me addr n && r.2 == .ok l && !placeWaits r.1 rt l n && (lossAt r.1 l n).isNone

theorem witness_AddressChecks :
    (hazard [1] [3] (regs [(1, 8)]) = .clear ∧ hazard [1, 3] [] (regs [(1, 8)]) = .clear) ∧
    (let s := regs [(1, 0x0050000000000000), (2, 0x41000), (3, 4), (4, 0x1FFF8), (5, 0x40038), (6, 0x100000)];
      ((s.rdA 1).toNat / 2 ^ 52 ≠ 0 ∧ (s.rdA 1).toNat % 2 ^ 52 < 0x100000) ∧ (0x41000 ≤ (s.rdA 2).toNat % 2 ^ 52) ∧ (s.rdA 3).toNat % 8 ≠ 0 ∧
      ¬ spBytes s.mine.spsize < (s.rdA 4).toNat + 8 ∧ spBytes s.mine.spsize < (s.rdA 4).toNat + 8 + 8 ∧
      (0x40000 ≤ (s.rdA 5).toNat ∧ (s.rdA 5).toNat + 8 ≤ 0x40040) ∧ ¬ (s.rdA 6).toNat % 2 ^ 52 < 0x100000) ∧
    (let s := onCtx { ctxWith [(27, 0x1000)] with slim := 0x1008, sbase := 0x2000 };
      hazard [27] [3] s = .clear ∧ (s.rdA 27).toNat < s.me.slim.toNat) := by decide +kernel
theorem witness_LocalLoadsAndStores :
    (let s := regs [(1, 0x1FFF8), (2, 7)];
      hazard [1] [3] s = .clear ∧ portFault s 3 = none ∧ memCheck s 1 (mAddr (s.rdA 1) 0 3) 8 false = none ∧ isLocal (mAddr (s.rdA 1) 0 3) = true ∧
      ringFull s.me = false ∧
      spadBusy s.mine (locOf (mAddr (s.rdA 1) 0 3)) 8 false = false ∧ orderHolds s (BitVec.ofNat 64 (locOf (mAddr (s.rdA 1) 0 3))) 8 false = false ∧
      hazard [1, 2] [] s = .clear ∧ memCheck s 1 (mAddr (s.rdA 1) 0 3) 8 true = none ∧ orderHolds s (mAddr (s.rdA 1) 0 3) 8 true = false ∧
      locOf (mAddr (s.rdA 1) 0 3) < 0x40000 ∧ spadBusy s.mine (locOf (mAddr (s.rdA 1) 0 3)) 8 true = false) ∧
    (let s := regs [(1, 0x40000), (2, 7)];
      hazard [1, 2] [] s = .clear ∧ memCheck s 1 (mAddr (s.rdA 1) 0 3) 8 true = none ∧ isLocal (mAddr (s.rdA 1) 0 3) = true ∧
      locOf (mAddr (s.rdA 1) 0 3) = 0x40000 ∧ s.mine.mq.length < 16) ∧
    (let s := regs [(1, 0x40030), (2, 7)];
      hazard [1, 2] [] s = .clear ∧ memCheck s 1 (mAddr (s.rdA 1) 0 3) 8 true = none ∧ isLocal (mAddr (s.rdA 1) 0 3) = true ∧
      locOf (mAddr (s.rdA 1) 0 3) = 0x40030 ∧ s.mine.mq.length < 16) ∧
    (let s := regs [(1, 0x40038), (2, 7)];
      hazard [1, 2] [] s = .clear ∧ memCheck s 1 (mAddr (s.rdA 1) 0 3) 8 true = none ∧ isLocal (mAddr (s.rdA 1) 0 3) = true ∧
      locOf (mAddr (s.rdA 1) 0 3) = 0x40038 ∧ s.mine.mq.length < 16) := by decide +kernel
theorem witness_TranslatedLoadsAndStores :
    (let s := mregs [(1, 0x100008), (2, 7)]
     let addr := mAddr (s.rdA 1) 0 3;
      hazard [1] [3] s = .clear ∧ hazard [1, 2] [] s = .clear ∧ memCheck s 1 addr 8 false = none ∧ memCheck s 1 addr 8 true = none ∧ isLocal addr = false ∧
      reached 0 addr 8 needR s (.mem 0x10100008 []) = true ∧ reached 0 addr 8 needW s (.mem 0x10100008 []) = true ∧ portFault s 3 = none ∧
      hitNow s { mkReq s addr (.mem 0x10100008 []) 8 (.load true) with rt := 0, dest := 3 } = false ∧
      ownedNow s { mkReq s addr (.mem 0x10100008 []) 8 .store with rt := 0, data := 7 } = false) ∧
    (let s := mapped { coreWith (ctxWith [(1, 0x100008)]) with l1 := [⟨0x404000, .O, 0, false, 0, 0, [], false⟩] };
      hitNow s { mkReq s 0x100008 (.mem 0x10100008 []) 8 (.load true) with rt := 0, dest := 3 } = true ∧
      ownedNow s { mkReq s 0x100008 (.mem 0x10100008 []) 8 .store with rt := 0 } = true) ∧
    (let s := mregs [(1, 0x10000000)]
     let addr := mAddr (s.rdA 1) 0 3;
      memCheck s 1 addr 8 false = none ∧ isLocal addr = false ∧ ringBusy s.me addr 8 = false ∧
      (match (resolve s (s.xctx s.cur) addr 8 needR).2 with
        | .error (.kind _) => true
        | _ => false) = true ∧ privPage s (s.xctx s.cur) addr needR = false ∧ ringTakes (resolve s (s.xctx s.cur) addr 8 needR).1 = false) := by
  decide +kernel
/-- Four ring entries; a queued vector load of the line; a page that may not be viewed; a ring with room and one whose next slot is taken; a lost
tenure. -/
theorem witness_TranslatedLoadsAndStores_holds :
    (let h : RingHold := ⟨0, 3, true, 0x200000, 8, 0, false, none⟩;
      ringBusy (onCtx { ctxWith [] with ring := [h, h, h, h] }).me 0x100008 8 = true) ∧
    (let s := mapped (coreWith { ctxWith [] with vq := [{ ventry with elems := [(0, 0x100000, .mem 0x10100000 [])], psize := 64 }] });
      ringBusy s.me 0x100008 8 = false ∧ (resolve s (s.xctx s.cur) 0x100008 8 needR).2 == .ok (.mem 0x10100008 []) ∧
      placeWaits (resolve s (s.xctx s.cur) 0x100008 8 needR).1 0 (.mem 0x10100008 []) 8 = true) ∧
    (let s := { mregs [] with mem := [(0x100000, 1), (0x100002, 0x20), (0x200000, 0xF6), (0x200003, 0x10)] };
      ringBusy s.me 0x0020000000100008 8 = false ∧ memCheck s 1 0x0020000000100008 8 false = none ∧
      (resolve s (s.xctx s.cur) 0x0020000000100008 8 needR).2 == .error .viewperm) ∧
    (let s := { mregs [] with parts := State.reset.parts.setIfInBounds 0 { part0 with rring := 0x8000, rrsz := 1 } };
      ringTakes s = true ∧ ringHasRoom s s.myPart = true ∧ (match (resolve s (s.xctx s.cur) 0x10000000 8 needR).2 with
        | .error (.kind _) => true
        | _ => false) = true ∧
      ringHasRoom { s with mem := (0x801F, 1) :: tables } s.myPart = false ∧
      (resolve s (s.xctx s.cur) 0x10000000 8 needR).1.peerDir = [] ∧ ringSlot s.myPart s.myPart.rrtail.toNat / 64 = 0x200 ∧
      (∃ d ∈ (resolve { s with peerDir := [⟨5, 0x200, false, none⟩] } (s.xctx s.cur) 0x10000000 8 needR).1.peerDir, d.line = 0x200)) ∧
    (let t : Tenure := ⟨3, 7, ⟨0, 0⟩, true, 0, 100, true, false, 0x404000, 0x404001⟩
     let s := { mregs [] with parts := State.reset.parts.setIfInBounds 0 { part0 with tenures := [t] } };
      placeWaits s 0 (.mem 0x10100008 []) 8 = false ∧ lossAt s (.mem 0x10100008 []) 8 = some t) := by decide +kernel
theorem witness_AtomicInstructions :
    (let s := regs [(1, 8), (2, 3)];
      hazard [1, 2] [3] s = .clear ∧ memCheck s 1 (s.rdA 1) 8 false = none ∧ scopeCheck s 5 = none ∧ isLocal (s.rdA 1) = true ∧
      ringFull s.me = false ∧ spadBusy s.mine (locOf (s.rdA 1)) 8 true = false ∧ orderHolds s (BitVec.ofNat 64 (locOf (s.rdA 1))) 8 true = false ∧
      orderHolds s (BitVec.ofNat 64 (locOf (s.rdA 1))) 8 false = false ∧ releaseHolds s.me = false ∧
      released s s.cur 1 = true ∧ portFault s 3 = none ∧ hazard [1, 2, 3] [3] s = .clear ∧ hazard [1] [3] s = .clear ∧ hazard [1, 2] [] s = .clear) ∧
    (let s := mregs [(1, 0x100008), (2, 3)];
      hazard [1, 2] [3] s = .clear ∧ memCheck s 1 (s.rdA 1) 8 false = none ∧ isLocal (s.rdA 1) = false ∧
      reached 3 (s.rdA 1) 8 (amoNeed 4) s (.mem 0x10100008 []) = true ∧ reached 3 (s.rdA 1) 8 (amoNeed 0) s (.mem 0x10100008 []) = true ∧
      reached 3 (s.rdA 1) 8 (amoNeed 1) s (.mem 0x10100008 []) = true ∧ portFault s 3 = none ∧ scopeCheck s 7 = none ∧ releaseHolds s.me = false ∧
      released s s.cur 7 = true ∧ s.me.failed = []) ∧
    (let s := mapped (coreWith { ctxWith [(1, 0x100008), (2, 3)] with ring := [⟨0, 3, true, 0x200000, 8, 0, false, none⟩] });
      hazard [1, 2] [4] s = .clear ∧ memCheck s 1 (s.rdA 1) 8 false = none ∧ isLocal (s.rdA 1) = false ∧ releaseHolds s.me = true ∧
      reached 3 (s.rdA 1) 8 (amoNeed 0) s (.mem 0x10100008 []) = true) := by decide +kernel
/-- A push that finds no group, the line, a full quota, or room. -/
theorem witness_InjectedStores :
    (let s := mregs [(1, 0x100008), (2, 63), (3, 5)];
      hazard [1, 2, 3] [3] s = .clear ∧ hazard [1, 2, 3] [] s = .clear ∧ stiForm s (s.rdA 1) = none ∧ stackCheck s 1 (s.rdA 1) 8 = none ∧
      (s.rdA 1).toNat % 8 = 0 ∧ isLocal (s.rdA 1) = false ∧ stiTargets s false (s.rdB 1 2) = some [(63, 0)] ∧
      reached 3 (s.rdA 1) 8 needSti s (.mem 0x10100008 []) = true ∧ portFault s 3 = none ∧ stiTargets s false 64 = none) ∧
    (isLocal ((regs [(1, 8)]).rdA 1) = true ∧ stiForm (regs [(1, 8)]) 8 = none) ∧
    (let p : Push := ⟨7, ⟨0, 0⟩, 3, 0, 0, 0, 0x404000, 0, 0⟩
     let s := { machine (coreWith (ctxWith [])) with pushes := [p, { p with id := 9, line := 0x404000 }] };
      (∀ e ∈ s.pushes, e.id = 7 → e = p) ∧ (∀ e ∈ s.pushes, e.id < 7 → e.target = 0 → e.line ≠ 0x404000) ∧ (s.core 0).group ≠ none ∧
      farInvalidated s p.line (dieOfCore 0) = s ∧ isBad s p.line = false ∧ (s.core 0).l1Find 0x404000 = none ∧ (s.core 0).pushed < (s.core 0).pquota.toNat ∧ (s.core 0).l1.length < 8 ∧ (s.core 1).group = none) ∧
    (let k := { coreWith (ctxWith []) with pquota := 0 };
      k.pquota.toNat ≤ k.pushed ∧ k.l1Find 5 = none) ∧
    (({ coreWith (ctxWith []) with l1 := [⟨5, .S, 0, false, 0, 0, [], false⟩] }).l1Find 5 = some ⟨5, .S, 0, false, 0, 0, [], false⟩) := by decide +kernel
/-- A request of core 0's ctx0. -/
def req (id : Nat) (l : Loc) (k : ReqKind) : Req :=
  ⟨id, ⟨0, 0⟩, 0, 0x100000, 0x100008, l, 8, 3, k, 5, 5, false, false, 3, 7, 0, 0, false, false, 0, false, false, false, none, none⟩
/-- A command of core 0's ctx0. -/
def xcmd (op state : Nat) : XCmd :=
  ⟨0, 1, ⟨0, 0⟩, 0, BitVec.ofNat 512 op, [], 0, xc0, 1, 0, 0, 0, BitVec.ofNat 4 state, 2, 0, 0, [(0, 1)], 0, 0, false, [], 0, none⟩
theorem witness_Fences :
    (let s := regs [(1, 0x100000), (2, 64)];
      scopeCheck s 2 = none ∧ scopeCheck s 7 = none ∧ releaseHolds s.me = false ∧ fenceReady s 0 7 0 (2 ^ 64) = true ∧ fenceReady s 2 6 0 (2 ^ 64) = true ∧
      s.me.failed = [] ∧ hazard [1, 2] [] s = .clear ∧ (s.rdA 1).toNat < min ((s.rdA 1).toNat + (s.rdB 1 2).toNat) (2 ^ 64) ∧
      min ((s.rdA 1).toNat + (s.rdB 1 0).toNat) (2 ^ 64) = (s.rdA 1).toNat ∧ enginePending s = false ∧ s.engine = [] ∧
      fenceReady s 0 7 0x100000 0x100040 = true ∧ fenceReady s 1 6 0x100000 0x100040 = true ∧ s.myPart.scopecap = 7 ∧
      fenceReady { s with reqs := [req 1 (.mem 0x10100008 []) .store] } 0 6 0x100000 0x100040 = false) ∧
    fenceReady { regs [] with reqs := [req 1 (.mem 0x10100008 []) .store] } 0 5 0 (2 ^ 64) = false ∧
    (let s := onCtx { ctxWith [] with failed := [⟨0x100000, 8, 1⟩] }; fenceReady s 0 6 0 (2 ^ 64) = true ∧ s.me.failed = ⟨0x100000, 8, 1⟩ :: []) ∧
    enginePending { regs [] with engine := [xcmd 1 1] } = true ∧
    (enginePending { regs [] with engine := [xcmd 1 4] } = false ∧ (xcmd 1 4).unreported = true) := by decide +kernel
theorem witness_RequestEvents :
    (let q := req 1 (.mem 0x10100008 []) .store
     let s := { regs [] with reqs := [q] };
      s.req 1 = some q ∧ q.isFence = false ∧ q.performed = false ∧ q.sent = false ∧ mayPerform (arrive q s) q = true ∧ asksFarHome (arrive q s) q = false) ∧
    (let q := req 1 .nowhere (.fence 2 0 100)
     let s := { regs [] with reqs := [q] };
      s.req 1 = some q ∧ fenceDone s q 2 0 100 = true) ∧
    (let q := { req 1 (.mem 0x10100008 []) (.load true) with performed := true, value := 9 }
     let s := { regs [] with reqs := [q] };
      s.req 1 = some q ∧ q.drop = false ∧ q.replay = none ∧ q.gone = false ∧ q.dest ≠ 0 ∧ q.poison = false ∧ { q with poison := true }.poison = true) ∧
    (let s := { machine { coreWith (ctxWith []) with l1 := [⟨5, .T, 0, false, 0, 0, [], false⟩] } with cycle := 4096 };
      (s.core 0).l1Find 5 = some ⟨5, .T, 0, false, 0, 0, [], false⟩ ∧ 0 + 4096 ≤ s.cycle) ∧
    (let q := { req 1 (.mem 0x10100008 []) (.amo 4) with performed := true, value := 9 }
     let s := { regs [] with reqs := [q] };
      s.req 1 = some q ∧ q.drop = false ∧ q.replay = none ∧ q.gone = false ∧ q.ctx.ctx < 11 ∧ q.dest ≠ 0 ∧ q.dest.toNat < 28) ∧
    (let q := { req 1 (.mem 0x10100008 []) (.sti true [(1, 0)]) with performed := true, value := 1 }
     let s := { regs [] with reqs := [q] };
      s.req 1 = some q ∧ q.drop = false ∧ q.replay = none ∧ s.pushes.any (fun p => p.req == 1) = false ∧
      { s with pushes := [⟨7, ⟨0, 0⟩, 1, 0, 1, 0, 0x404000, 0, 0⟩] }.pushes.any (fun p => p.req == 1) = true) ∧
    (let u : RepUpdate := ⟨4, ⟨0, 0⟩, 0, 0x10000, 8, 0, 0⟩
     let s := { regs [] with updates := [u] };
      (∀ v ∈ s.updates, v.id = 4 → v = u) ∧ (∀ v ∈ s.updates, v.id < 4 → v.pa / 64 ≠ u.pa / 64) ∧ peerHolds s (u.pa / 64) true = false ∧
      peerHolds { s with peerDir := [⟨5, 0x400, false, none⟩] } (u.pa / 64) true = true) ∧
    (isPopulated (regs []) (64 * 0x404000) = true ∧ isBad (regs []) 0x404000 = false) := by decide +kernel
/-- Far memory installed behind pair 1, from PA 0x1000 × 2^28 on. -/
def farState : State := { regs [] with
  fabric := { Fabric.reset with ranges := Fabric.reset.ranges.setIfInBounds 1 ⟨true, 0x1000, 1⟩ }
  reqs := [req 1 (.mem (0x1000 * 2 ^ 28) []) .store]
  far := [⟨0x1000 * 2 ^ 22, 0, 0, false, some 1⟩] }
theorem witness_RequestEvents_far : farState.req 1 = some (req 1 (.mem (0x1000 * 2 ^ 28) []) .store) ∧ isFar farState (0x1000 * 2 ^ 28) = true ∧
    mayPerform farState (req 1 (.mem (0x1000 * 2 ^ 28) []) .store) = true ∧ asksFarHome farState (req 1 (.mem (0x1000 * 2 ^ 28) []) .store) = true ∧
    (req 1 (.mem (0x1000 * 2 ^ 28) []) .store).sent = false ∧ (∀ q ∈ [{ req 1 (.mem (0x1000 * 2 ^ 28) []) .store with sent := true }],
      { farState with reqs := [q] }.req 1 = some q ∧ q.sent = true ∧ q.performed = false ∧ mayPerform { farState with reqs := [q] } q = true) ∧
    farCopy farState (0x1000 * 2 ^ 22) 0 = some ⟨0x1000 * 2 ^ 22, 0, 0, false, some 1⟩ := by decide +kernel
theorem witness_UncachedHomeAccess :
    let s := { mregs [] with reqs := [req 1 (.mem 0x10100038 []) (.load true)] };
    (∀ k ∈ [ReqKind.load true, .store, .amo 4, .amo 0, .sti false [(5, 0)]], let q := req 1 (.mem 0x10100038 []) k;
      q.loc = .mem 0x10100038 [] ∧ q.replay = none ∧ 0x10100038 % 64 + q.size ≤ 64 ∧ q.size ≤ 8 ∧ 0 < q.size ∧ q.rt = 3 ∧ isFar s 0x10100038 = false ∧
      (∃ r ∈ s.reqs, r.id = q.id)) ∧
    (∀ l ∈ [0x404000, 0x404001], isFar s (64 * l) = false ∧ farCopy s l (dieOfCore 0) = none ∧ (∀ c ∈ s.cores, c.2.l1Find l = none) ∧ isBad s l = false) ∧
    heldTenures s = [] ∧ s.pushes = [] ∧ 0x10100038 / 64 = 0x404000 ∧
    (amoNew 4 64 3 5 0).isSome = true ∧ amoNew 0 64 3 5 0 = none ∧
    (let q := { req 1 (.mem 0x10100000 []) (.vamo 1 5 3) with size := 128 };
      q.loc = .mem 0x10100000 [] ∧ q.replay = none ∧ 0 < q.size ∧ 0x10100000 % 128 = 0 ∧ (3 : BitVec 64) ≠ 0 ∧
      (∀ e < 64, (3 : BitVec 64).getLsbD e = true → vamoSize 1 * e < 128)) := by decide +kernel
theorem witness_MemoryFrame : ringTakes (mregs []) = false ∧ (mregs []).cur.ctx < 11 ∧
    (∀ i ∈ [Instr.ld 3 1 0 3 0 0, .ldu 3 1 0 2 0 0, .st 3 1 0 3 0 0, .lda 3 1 2 1 0, .strl 1 2 2 1 0, .swap 3 1 2 2 1 0, .atfadd 3 1 2 2 0, .ataddnr 1 2 2 1 0],
      holds (exec i (regs [(1, 8)])) (fun t => t.note != .trapped) = true ∧
      holds (exec i (mregs [(1, 0x100008)])) (fun t => t.note != .trapped) = true) ∧
    (let s := { mregs [(1, 0x10000000)] with parts := State.reset.parts.setIfInBounds 0 { part0 with rring := 0x8000, rrsz := 1 } };
      ringTakes s = true ∧ s.pushes = [] ∧ (∀ c ∈ s.cores, c.2.l1Find (ringSlot s.myPart 0 / 64) = none) ∧ s.far = [] ∧ s.peerDir = [] ∧
      holds (exec (.ld 3 1 0 3 0 0) s) (fun t => t.note != .trapped && getByte t.mem (ringSlot s.myPart 0 + 31) != getByte s.mem (ringSlot s.myPart 0 + 31)) = true) := by
  decide +kernel


/-! #### Translation, tiles and code -/

/-- Tables whose page 0x100000 is a 64 KiB page for R and W at S and U off, and a descriptor of a shadow at its start: one page, the same,
with a frame list at 0x100040. -/
def shadowTables : Memory := [(0x100000, 1), (0x100002, 0x20), (0x200000, 1), (0x200002, 0x30), (0x300100, 0x32), (0x300102, 0x40),
  (0x400002, 0x10), (0x400008, 1), (0x400010, 0x40), (0x400012, 0x10), (0x400042, 0x50)]
theorem witness_TranslationInstructions :
    (let s := mregs [(1, 0x100008), (2, 3), (3, 0x0020000000100008), (4, 0x1008), (5, 0x100021)];
      hazard [1] [6] s = .clear ∧ portFault s 6 = none ∧ hazard [1, 2] [6] s = .clear ∧ ¬ (s.rdA 1).toNat % 2 ^ 52 < 0x100000 ∧
      (s.rdA 1).toNat % 2 ^ 52 < 2 ^ 51 ∧ (s.rdA 1).toNat / 2 ^ 52 = 0 ∧ (s.rdA 3).toNat / 2 ^ 52 ≠ 0 ∧ (s.rdA 4).toNat % 2 ^ 52 < 0x100000 ∧
      (s.rdB 1 2).toNat < s.ptlen ∧ s.ptlen ≤ (s.rdB 1 3).toNat ∧ (s.rdA 5).toNat % 64 ≠ 0 ∧ hazard [5] [] s = .clear) ∧
    (let s := { mapped (coreWith { ctxWith [(1, 0x100008), (2, 0)] with priv := 1 }) with nextId := 4 }
     let v := invalOf s false (locOf (s.rdA 1)) (locOf (s.rdA 1) + 1);
      s.me.priv ≠ 0 ∧ s.me.wait = .none ∧ releaseHolds s.me = false ∧ released s s.cur 5 = true ∧ s.me.failed = [] ∧ hazard [1, 2] [] s = .clear ∧
      usesEntry { v with large := namesLarge v [rankOf s.cur.core] s } [rankOf s.cur.core] s.nextId (dropEntries v [rankOf s.cur.core] s) = false ∧
      usesEntry { v with large := namesLarge v s.myPart.ranks s } s.myPart.ranks s.nextId (dropEntries v s.myPart.ranks s) = false ∧ (s.rdB 1 2).toNat = 0) ∧
    (let s := { mapped (coreWith { ctxWith [(1, 0x100000)] with priv := 1 }) with mem := shadowTables }
     let lines := publishLines s.cur ⟨0x400000, 0x100000, 1, 0x100040⟩ [0x300100] [0x400040];
      hazard [1] [] s = .clear ∧ (s.rdA 1).toNat % 64 = 0 ∧ isTranslated (s.rdA 1) = true ∧ formCheck s.ptlen (s.rdA 1) = none ∧
      publishCheck s (s.xctx s.cur) (s.rdA 1) = .inr (⟨0x400000, 0x100000, 1, 0x100040⟩, [0x300100], [0x400040]) ∧ enginePending s = false ∧
      s.engine = [] ∧ releaseHolds s.me = false ∧ released s s.cur 5 = true ∧
      usesEntry (Shadow.inval (s.xctx s.cur) ⟨0x400000, 0x100000, 1, 0x100040⟩) s.myPart.ranks s.nextId s = false ∧
      (askFirst lines s).1 = none ∧ (askFirst lines { s with peerDir := [⟨5, 0x300100 / 64, false, none⟩] }).1.isSome = true) := by decide +kernel

/-- A tile of two lines, and partition 0 with it on index 7, its generation 2. -/
def tile2 : Tile := ⟨0x10100000, 0x10100000, 0x1010007F, 0, [128], []⟩
def tilePart : Part := { part0 with tiles := [⟨7, 2, some tile2⟩] }
/-- The machine with that partition, with the tile's handle in g1. -/
def tiled (q : Part) (l : List (Reg × Word)) : State := { machine (coreWith (ctxWith ((1, 0x200007) :: l))) with parts := State.reset.parts.setIfInBounds 0 q }
theorem freeIdx_none_taken (m : Nat) : freeIdx part0 m = some (m % 2 ^ 20) := by
  simp [freeIdx, idxFree, part0, Part.reset, List.range_succ]
theorem witness_TilesAndTenures :
    (let s := machine { coreWith (ctxWith [(1, 0x40)]) with spad := [(0x42, 0x10), (0x49, 1), (0x50, 0x80)] };
      hazard [1] [3] s = .clear ∧ portFault s 3 = none ∧ (s.rdA 1).toNat % 64 = 0 ∧ (s.rdA 1).toNat + 64 ≤ spBytes s.mine.spsize ∧
      spadBusy s.mine (s.rdA 1).toNat 64 false = false ∧ orderHolds s (s.rdA 1) 64 false = false ∧
      descTile (readLe s.mine.spad (s.rdA 1).toNat 64) = some ⟨0x100000, 0x100000, 0x10007F, 0, [128], []⟩ ∧
      descTile (readLe s.mine.spad 0 64) = none) ∧
    (let s := tiled tilePart [(2, 0x4000), (4, 0x100007)];
      handleIdx s.myPart (s.rdA 4) = none ∧ handleIdx s.myPart (s.rdA 1) = some 7 ∧ hazard [1] [3] s = .clear ∧ hazard [1] [] s = .clear ∧
      portFault s 3 = none ∧ heldOn s.myPart 7 = [] ∧ waitingOn s s.myPart 7 = [] ∧ holdsAlready s.myPart 7 s.cur true = false ∧
      mayGrant s s.cur s.nextId true (tileOf s.myPart 7) = true ∧ releaseHolds s.me = false ∧ released s s.cur (capped s.myPart 5) = true ∧
      s.me.wait = .none ∧ myTenure s.myPart 7 s.cur = none ∧ hazard [1, 2] [3, 4] s = .clear ∧ splitCut (tileOf s.myPart 7) (s.rdB 1 2) = some (0, 64) ∧
      splitCut (tileOf s.myPart 7) (s.rdB 1 4) = none) ∧
    (let t : Tenure := ⟨3, 7, ⟨0, 0⟩, true, 0, 100, false, false, 0x404000, 0x404001⟩
     let s := tiled { tilePart with tenures := [t] } [];
      holdsAlready s.myPart 7 s.cur true = true ∧ holdsAlready s.myPart 7 s.cur false = true ∧ myTenure s.myPart 7 s.cur = some t ∧
      ¬ heldOn s.myPart 7 = []) ∧
    (let t : Tenure := ⟨3, 7, ⟨1, 0⟩, true, 0, 100, false, false, 0x404000, 0x404001⟩
     let s := { tiled { tilePart with tenures := [t] } [] with cycle := 500, reqs := [req 1 (.mem 0x10100040 []) .store] };
      holdsAlready s.myPart 7 s.cur false = false ∧ mayGrant s s.cur s.nextId false (tileOf s.myPart 7) = false ∧
      heldTenures s = [(t, tile2)] ∧ t.expired s.cycle = true ∧ (s.reqs.any (waitsFor s (t, tile2))) = true) ∧
    (let r : TenReq := ⟨5, 7, 2, ⟨0, 0⟩, true⟩
     let s := { machine (coreWith { ctxWith [(1, 0x200007)] with wait := .tenure 5 1 0 }) with
       parts := State.reset.parts.setIfInBounds 0 { tilePart with tenReqs := [r] } };
      findTenReq s r.id = some (0, r) ∧ (s.ctx r.ctx).wait = .tenure r.id 1 0 ∧ (s.part 0).state = 1 ∧ (s.part 0).tile r.idx = some tile2 ∧
      mayGrant s r.ctx r.id r.write tile2 = true) := by decide +kernel
/-- The draws of a split: the free index nearest to a free value, whatever that is, while no index is taken. -/
theorem witness_TilesAndTenures_draw : ∃ j, freeIdx part0 ((Config.freeValue 0).toNat % 2 ^ 20) = some j := ⟨_, freeIdx_none_taken _⟩

theorem witness_CodeSlotsAndFrames :
    (let s := regs [(1, 0x100800), (2, 0x0010000000100000), (3, 0x200000), (4, 0x101000), (5, 0x102800), (6, 0x112800)];
      hazard [1] [7] s = .clear ∧ hazard [1] [] s = .clear ∧ portFault s 7 = none ∧ (s.rdA 2).toNat / 2 ^ 52 ≠ 0 ∧ (s.rdA 8).toNat < 0x100000 ∧
      ¬ ((s.rdA 1).toNat / 2 ^ 52 ≠ 0 ∨ (s.rdA 1).toNat < 0x100000) ∧ codeTaken s.mine (s.rdA 3) = true ∧ codeTaken s.mine (s.rdA 1) = false ∧
      (s.mine.slot 1).current (segOf (s.rdA 1)) = none ∧ (s.mine.slot 5).current (segOf (s.rdA 5)) = some 5 ∧
      codeTaken s.mine (s.rdA 6) = false ∧ (s.mine.slot 5).seg = some (segOf (s.rdA 5)) ∧ s.mine.isLive (segOf (s.rdA 5)) = false ∧
      s.mine.isLive (segOf 0x100000) = true ∧ (s.mine.slot 1).seg ≠ some (segOf (s.rdA 4))) ∧
    (let s := regs [(1, 0x62)];
      s.mine.slot ((s.rdA 1).extractLsb' 0 5).toNat = .fetching 0x101000 3 0 xc0 ∧ codeTicket 2 3 = s.rdA 1 ∧ codeTicket 2 4 ≠ s.rdA 1) ∧
    (let s := mapped (coreWith (ctxWith []));
      (s.core 0).slot 2 = .fetching 0x101000 3 0 xc0 ∧
      (resolve s { xc0 with ttab := 0x100000 } 0x101000 1 needX).2 = .ok (.mem 0x10101000 []) ∧
      (fetchLines 0 0x10101000 2 32 (resolve s { xc0 with ttab := 0x100000 } 0x101000 1 needX).1).2 = true ∧
      (fetchLines 0 0x10101000 2 32 { s with bad := [⟨0x404040, BitVec.allOnes 64⟩] }).2 = false) ∧
    (match (resolve (regs []) xc0 0x101000 1 needX).2 with
      | .error _ => true
      | .ok _ => false) = true ∧
    (let s := machine { coreWith (ctxWith [(1, 65537), (2, 3)]) with imem := [(6, 0xC6), (7, 4), (5, 0x30)] };
      hazard [2] [] s = .clear ∧ s.me.fwd = none ∧ 65536 < (s.rdA 1).toNat ∧ captureCheck s.mine (s.me.pc + 4) 1 = none ∧
      captureCheck s.mine (s.me.pc + 4) 2 = some (.mk' cREPEATBAD 1) ∧ (s.rdA 2).toNat ≤ 65536 ∧ (s.rdA 0).toNat = 0) := by decide +kernel

/-! #### Vector and matrix units -/

/-- The right of a sum. -/
def isRight {α β : Type} (x : α ⊕ β) : Bool :=
  match x with
  | .inr _ => true
  | .inl _ => false
/-- Line pointers p1 to p5 at lines 1 to 5, p6 at the last line of the scratchpad and p7 past it. -/
def vctx (l : List (Reg × Word)) : Ctx := { ctxWith l with p := #v[0, 1, 2, 3, 4, 5, 255, 256, 1, 1, 1, 1, 1, 1, 1, 1, 1, 1, 1, 1, 1, 1, 1, 1, 1, 1, 1, 1, 1, 1, 1, 1] }
theorem witness_VectorIssue :
    (let s := onCtx (vctx [(1, 7)]);
      s.cur.ctx < 11 ∧ hazard [] [] s = .clear ∧ hazard [1, 1] [] s = .clear ∧ vecCheck ⟨[3], some 1, some 2, true, false⟩ s = none ∧
      vecCheck ⟨[6], some 1, some 2, true, false⟩ s = none ∧ vecCheck ⟨[7], some 1, some 2, true, false⟩ s = some (.mk' cLOCALRANGE 0x20000) ∧
      s.me.vq.length < 4 ∧ vecWaits ⟨[3], some 1, some 2, true, false⟩ s = false ∧ s.me.chk = false ∧ banksOk ((⟨[5], some 1, some 2, true, false⟩ : VLines).banked s.me) = false ∧
      spLines s.mine.spsize ≤ s.me.lineNo 7) ∧
    (onCtx { vctx [] with vq := [ventry, ventry, ventry, ventry] }).me.vq.length = 4 ∧
    vecWaits ⟨[3], some 1, some 2, true, false⟩ { onCtx (vctx []) with reqs := [req 1 .nowhere (.fence 0 0 (2 ^ 64))] } = true ∧
    vecCheck ⟨[5], some 1, some 2, true, false⟩ (onCtx { vctx [] with chk := true }) = some (.mk' cBANKRULE 0x200010005) := by decide +kernel
theorem witness_VectorResultsForRegisters :
    (let s := onCtx (vctx [(1, 7)]);
      hazard [] [3] s = .clear ∧ hazard [1] [3] s = .clear ∧ portFault s 3 = none ∧ vecCheck (linesAb 1 6) s = none ∧ vecCheck linesNone s = none ∧
      freeLane s.mine s.cycle = some 0 ∧ s.me.vq = [] ∧ vecWaits (linesAb 1 6) s = false ∧ vecWaits linesNone s = false ∧ linesBusy s.mine ((linesAb 1 6).reads s.me) = false) ∧
    (let s := machine { coreWith (vctx []) with lanes := #v[5, 5, 5, 5] };
      freeLane s.mine s.cycle = none) ∧
    (let s := onCtx { vctx [] with vq := [ventry] };
      s.me.vq ≠ [] ∧ linesBusy s.mine ((linesA 3).reads s.me) = true) ∧
    (let s := onCtx (vctx []);
      s.me.chk = false ∧ banksOk ((linesAb 1 5).banked s.me) = false ∧ banksOk ((linesAb 1 2).banked s.me) = true) := by decide +kernel
/-- Queued instructions whose effect R180 to R193 give: one on lines, one that widens, one on masks. -/
theorem witness_VectorElements : ventry.instr = .vadd 3 4 5 1 0 ∧ ({ ventry with wr := [3, 4] } : VEntry).wr = [3, 4] ∧ Machine.tyWidth 1 ≤ 16 ∧
    tyFloat 1 = false := by decide +kernel
/-- The instructions of VectorConversionsAndFlags, of types that they have; a wider and a narrower conversion, and pairs of lines to write. -/
theorem witness_VectorConversionsAndFlags :
    (∀ i ∈ [Instr.vadds 3 4 5 1 0, .vfadd 3 4 5 7 0, .vfwmul 3 4 5 6 0, .vfcmpeq 1 4 5 7 0, .vfexp2 3 4 7 0, .viota 3 7 0, .vdot4 3 4 5 1 0,
        .vdot4 3 4 5 0 0, .vcvt 3 4 6 1 0, .vcvt 3 4 1 7 0, .vqo4 3 4 5 7 0, .vdqo4 3 4 5 7 0, .vhad 3 4 2 7 0],
      i.wf = true ∧ ({ ventry with instr := i, wr := [3, 4] } : VEntry).instr = i) ∧
    tyFloat 7 = true ∧ tyFloat 6 = true ∧ Machine.tyWidth 6 ≤ 16 ∧ (2 : BitVec 5).toNat ≤ 2 ∧ ({ ventry with wr := [3, 4] } : VEntry).wr = [3, 4] ∧
    2 * Machine.tyWidth 1 ≤ Machine.tyWidth ((6 : BitVec 5).extractLsb' 0 3) ∧ Machine.tyWidth ((1 : BitVec 5).extractLsb' 0 3) < 2 * Machine.tyWidth 7 ∧
    [3, 4].length = Machine.tyWidth ((6 : BitVec 5).extractLsb' 0 3) / Machine.tyWidth 1 := by decide +kernel
/-- The same entry as of VMOV, whose result the kernel computes at once. -/
def movEntry : VEntry := { ventry with instr := .vmov 3 4 1 0, d := 3, a := 255, rd := [255] }
/-- The machine at the start of a frame with lane group 0 free alone, this entry in ctx0's queue, and one in ctx1's that has not the
credit for its passes. -/
def bindState (e : VEntry) : State :=
  mapped { (coreWith { vctx [] with vq := [e] }).setCtx 1 { ctxWith [] with vq := [movEntry], vshare := 0 } with lanes := #v[0, 5, 5, 5], vserved := 0 }
/-- A vector load and a vector store of eight bytes at 8 of their line. -/
def loadEntry (l : Loc) : VEntry := { ventry with instr := .vld 3 1 0, a := 255, rd := [], elems := [(8, 0x100000, l)] }
def storeEntry (l : Loc) : VEntry := { ventry with instr := .vst 3 1 0, a := 255, rd := [3], wr := [], elems := [(8, 0x100000, l)] }
theorem witness_VectorPassBind :
    (let s := bindState movEntry;
      s.cycle % 5 = 0 ∧ vecMoves s 0 = true ∧ (∀ j < 4, ((s.core 0).lanes[j]?.getD 0 ≤ s.cycle ↔ j = 0)) ∧ (s.ctx ⟨0, 0⟩).vq = movEntry :: [] ∧
      (headRuns s ⟨0, 0⟩).isSome = true ∧ (s.ctx ⟨0, 0⟩).deficit < movEntry.passes ∧ movEntry.passes ≤ (s.ctx ⟨0, 0⟩).deficit + (s.ctx ⟨0, 0⟩).vshare.toNat ∧
      (s.core 0).vserved = 0 ∧ ((s.core 0).ctx 1).vq.head? = some movEntry ∧ (headRuns s ⟨0, 1⟩).isSome = true ∧
      ((s.core 0).ctx 1).deficit < movEntry.passes ∧ ((s.core 0).ctx 1).deficit + ((s.core 0).ctx 1).vshare.toNat < movEntry.passes ∧
      (∀ j < 11, 2 ≤ j → ((s.core 0).ctx j).vq = []) ∧
      (let x := { s.ctx ⟨0, 0⟩ with vq := [] }
       vecRes x ((s.core 0).setCtx 0 x) movEntry = some ⟨[(3, 0)], [], 0⟩ ∧ vecOutliers ((s.core 0).setCtx 0 x) movEntry = []) ∧
      3 < spLines (s.core 0).spsize ∧ 0 < 2 ^ 4096) ∧
    ({ ctxWith [] with vflags := [(4, 1)] } : Ctx).vflags = [(4, 1)] := by decide +kernel
/-- A slipped entry; one that writes a mask; one that writes two lines. -/
theorem witness_VectorPassBind_entries :
    (let s := machine { coreWith { vctx [] with vq := [{ movEntry with slip := true }] } with lanes := #v[0, 5, 5, 5] };
      (s.ctx ⟨0, 0⟩).vq = [{ movEntry with slip := true }] ∧ (∀ j < 11, j ≠ 0 → ((s.core 0).ctx j).vq = []) ∧ (headRuns s ⟨0, 0⟩).isSome = true) ∧
    (let e := { ventry with instr := .vmset 1 1 1 0, rd := [], wr := [] }
     let s := bindState e
     let x := { s.ctx ⟨0, 0⟩ with vq := [] };
      (headRuns s ⟨0, 0⟩).isSome = true ∧ (vecRes x ((s.core 0).setCtx 0 x) e).map (fun r => (r.masks.map (fun p => p.1), r.lines.length)) = some ([1], 0)) ∧
    (let e := { ventry with instr := .vwmul 3 4 5 1 0, wr := [3, 4] }
     let s := bindState e
     let x := { s.ctx ⟨0, 0⟩ with vq := [] };
      (vecRes x ((s.core 0).setCtx 0 x) e).map (fun r => r.lines.map (fun p => p.1)) = some [3, 4]) := by decide +kernel
/-- Vector loads and stores in the scratchpad, in memory and where nothing answers. -/
theorem witness_VectorPassBind_memory :
    (∀ l ∈ [Loc.spad 0x100, .mem 0x10100038 [], .nowhere], ∀ e ∈ [loadEntry l, storeEntry l], let s := bindState e
      let x := { s.ctx ⟨0, 0⟩ with vq := [] };
      (headRuns s ⟨0, 0⟩).isSome = true ∧ (vecRes x ((s.core 0).setCtx 0 x) e).isNone = true ∧ e.d < spLines (s.core 0).spsize ∧
      (∀ p ∈ e.elems, p.1 + e.psize ≤ 512) ∧ e.elems = [(8, 0x100000, l)] ∧ 0x10100038 % 64 + e.psize ≤ 64 ∧ isFar s 0x10100038 = false ∧
      isFar s (64 * (0x10100038 / 64)) = false ∧ farCopy s (0x10100038 / 64) (dieOfCore 0) = none ∧ (∀ c ∈ s.cores, c.2.l1Find (0x10100038 / 64) = none) ∧
      s.pushes = [] ∧ isBad s (0x10100038 / 64) = false ∧ heldTenures s = [] ∧ isVStore (storeEntry l) = true ∧ isVStore (loadEntry l) = false) := by decide +kernel
theorem witness_VectorMemoryIssue :
    (let s := onCtx (vctx [(1, 0x1FE00), (2, 4), (4, 0x1FE40), (5, 0x20), (6, 0x10000000)]);
      hazard [1] [] s = .clear ∧ vecCheck ⟨[3], none, none, true, false⟩ s = none ∧ vecCheck ⟨[3], none, none, false, false⟩ s = none ∧
      lineAddr s 1 (s.rdA 1) = none ∧ lineAddr s 4 (s.rdA 4) = some (.mk' cLOCALRANGE 0x20000) ∧ lineAddr s 5 (s.rdA 5) = some (.mk' cMISALIGN 0x20) ∧
      isRight (placeAll 64 needW (lineParts (s.rdA 1)) s).1 = true ∧ lineAddr s 6 (s.rdA 6) = none ∧
      isRight (placeAll 64 needR (lineParts (s.rdA 6)) s).1 = false ∧ s.me.vq.length < 4 ∧
      vmemWaits s 64 [(0, 0x1FE00, .spad 0x1FE00)] = false ∧
      (∀ store ∈ [true, false], vecWaits ⟨[3], none, none, !store, false⟩ s = false) ∧
      vmemWaits s 64 [(0, 0x100000, .mem 0x10100000 [])] = false ∧
      vmemWaits { s with reqs := [req 1 .nowhere (.fence 0 0 (2 ^ 64))] } 64 [(0, 0x100000, .mem 0x10100000 [])] = true ∧
      cachedLine s (.peer 5 0 64 0 false true) = none ∧ cachedLine s (.peer 5 0 64 0 true true) ≠ none) ∧
    vecWaits ⟨[3], none, none, true, false⟩ { onCtx (vctx []) with reqs := [req 1 .nowhere (.fence 0 0 (2 ^ 64))] } = true ∧
    (let s := onCtx { vctx [(1, 0x1FE00), (2, 4)] with m := Vector.replicate 4 3 };
      hazard [1, 2] [] s = .clear ∧ vecCheck ⟨[3], none, some 6, true, false⟩ s = none ∧ elemsWait s (some 255) = false ∧
      vecAddr s 1 2 2 [0x1FE00, 0x1FE04] = none ∧ isRight (placeAll 2 needR [(0, 0x1FE00), (2, 0x1FE04)] s).1 = true ∧
      vecAddr s 1 2 2 [0x1FE00, 0x1FE03] = some (.mk' cMISALIGN 0x1FE03)) ∧
    (let s := onCtx { vctx [] with vq := [ventry, ventry, ventry, ventry] };
      elemsWait s none = true ∧ 4 ≤ s.me.vq.length) ∧
    (let s := onCtx (vctx [(1, 0x8000000000000)]);
      hazard [1] [] s = .clear ∧ lineAddr s 1 (s.rdA 1) = none ∧ isPeer (s.rdA 1) = true ∧
      isRight (placeAll 512 needR [(0, s.rdA 1)] s).1 = false ∧
      isRight (placeAll 512 needR [(0, s.rdA 1)] { machine { coreWith (vctx [(1, 0x8000000000000)]) with peertab := 0x300001 } with
        mem := [(0x300000, 1), (0x300009, 0x40), (0x30000A, 0x30), (0x304000, 7)] }).1 = true) := by decide +kernel
theorem witness_LinePointersAndVamo :
    (let s := mregs [(1, 0x100080), (2, 0x100088)];
      hazard [1] [] s = .clear ∧ hazard [] [3] s = .clear ∧ portFault s 3 = none ∧ formCheck s.ptlen (s.rdA 1) = none ∧ (s.rdA 1).toNat % 128 = 0 ∧
      (s.rdA 2).toNat % 128 ≠ 0 ∧ isLocal (s.rdA 1) = false ∧ s.me.lineNo 4 < spLines s.mine.spsize ∧ spadBusy s.mine 128 128 false = false ∧
      orderHolds s 128 128 false = false ∧ reached 3 (s.rdA 1) 128 needRW s (.mem 0x10100080 []) = true) := by decide +kernel
theorem witness_VectorFrame :
    (∀ j ∈ [Instr.vadd 3 4 5 1 0, .vwmul 3 4 6 1 0, .vcvt 3 4 2 1 0, .vmset 1 1 1 0, .vmpop 3 1 1 0, .vfma 3 4 5 7 0, .vrsum 3 4 1 0, .vld 3 1 0,
        .vst 3 1 0, .vlds 3 1 2 1 0, .vscat 3 1 4 1 0], holds (exec j (onCtx (vctx []))) (fun t => t.note != .trapped) = true) ∧
    (∀ j ∈ [Instr.pset 3 1 0, .padd 3 1 1 0, .paddi 3 1 7 0, .pget 3 1 0], holds (exec j (onCtx (vctx []))) (fun t => t.note != .trapped) = true) := by
  decide +kernel
/-- A matrix command of ctx0, its 64 bytes from the number. -/
def mcmd (n : Nat) : MCmd :=
  ⟨BitVec.ofNat 512 n, 1, 0, 0, 0, 0, none, [], xc0, true, none, 0, 0, [], false, false, 0, false⟩
/-- A core with these commands queued. -/
def mstate (l : List MCmd) : State := machine { coreWith (ctxWith []) with mq := l, mseq := 1 }
theorem witness_AccumulatorInstructions :
    (let s := { onCtx (vctx [(1, 2)]) with nextId := 3 };
      pendingFault s.me (some 2) = none ∧ pendingFault s.me none = none ∧ accOwner s.mine 2 = none ∧ accRange s.mine (s.me.lineNo 1) = none ∧
      accHolds s (lineMat (s.me.lineNo 1)) true = false ∧ accHolds s (lineMat (s.me.lineNo 1)) false = false ∧ hazard [1] [] s = .clear ∧
      s.mine.mdone.toNat < (s.rdA 1).toNat ∧ (s.rdA 0).toNat ≤ s.mine.mdone.toNat ∧ hazard [] [3] s = .clear ∧ portFault s 3 = none) ∧
    (let s := onCtx { vctx [] with p := #v[0, 1, 2, 253, 508, 5, 5, 5, 1, 1, 1, 1, 1, 1, 1, 1, 1, 1, 1, 1, 1, 1, 1, 1, 1, 1, 1, 1, 1, 1, 1, 1] };
      pendingFault s.me (some 2) = none ∧ accOwner s.mine 2 = none ∧ 2 ≤ s.me.lineNo 2 % 4 ∧ s.me.lineNo 3 % 4 < 2 ∧
      spLines s.mine.spsize / 2 < lineMat (s.me.lineNo 3) + 8 ∧ lineMat (s.me.lineNo 3) < spLines s.mine.spsize / 2 ∧
      s.me.lineNo 4 % 4 < 2 ∧ spLines s.mine.spsize / 2 < lineMat (s.me.lineNo 4)) ∧
    (let f : MFault := ⟨4, 3, 2, false, 0⟩
     let s := onCtx { ctxWith [] with mfault := some f };
      (pendingFault s.me (some 2)).isSome = true ∧ (pendingFault s.me none).isSome = true ∧ hazard [1] [] s = .clear) ∧
    accOwner (mstate [mcmd (2 + 2 ^ 16 * 5)]).mine 5 = some (mcmd (2 + 2 ^ 16 * 5)) := by decide +kernel
theorem witness_MatrixCommands :
    (∀ n ∈ [1, 2, 3, 4, 5, 6, 7], let s := mstate [mcmd n];
      (s.core 0).mq = mcmd n :: [] ∧ matMoves s 0 = true ∧ (mcmd n).started = true ∧ (mcmd n).performed = false ∧ (mcmd n).code = n) ∧
    (recordStep 0 (mcmd 3) (mstate [mcmd 3])).isSome = true ∧
    (let s := mstate [mcmd 5]
     let r := drainOut (s.core 0).active (mcmd 5) (s.core 0);
      (drainAccesses 0 (mcmd 5) r.2.1 r.2.2.1 (s.setCore 0 r.1)).isSome = true) ∧
    (let c := { mcmd 9 with started := false }
     let s := mstate [c];
      c.started = false ∧ c.performed = false ∧ c.code = 9 ∧ checkCmd (s.core 0) (c.shadow.getD (s.core 0).active) c = some 1 ∧ matMoves s 0 = true ∧
      c.ctx < 11 ∧ c.orphan = false ∧ ((s.core 0).ctx 0).live = true ∧ ((s.core 0).ctx 0).mfault = none) ∧
    (writesDone (mstate [mcmd 3]).mine (mcmd 3) = true ∧ { mcmd 3 with started := false }.code = 3) ∧
    (let c := { mcmd (7 + 2 ^ 10) with before := 5 }
     let s := { mstate [c] with reqs := [req 1 (.mem 0x10100008 []) .store] };
      c.flag 2 = true ∧ (mcmd 7).flag 2 = false ∧ markReleased 0 c s = false ∧ markReleased 0 c (mstate [c]) = true) ∧
    ({ mcmd 6 with performed := true }.performed = true ∧ (mcmd 6).bad = none) := by decide +kernel

/-- A PLANE of one K-block, its planes before its exponents, and a DRAIN of rows 128 bytes apart, its scales past them; a quad that no encoding has and
one that it has; tiles of numbers and of blocks that are not finite. -/
theorem witness_MatrixNumbers :
    (let c := mcmd (1 + 2 ^ 32 + 2 ^ 96 * 128 + 2 ^ 128 * 0x8000 + 2 ^ 160 * 0x9000);
      let p := fun (f : Word) => (planeFmt { MSet.reset with fmta := f } c).1
      c.k32 = 1 ∧ c.num 16 4 = 0x8000 ∧ c.num 20 4 = 0x9000 ∧
      [(0x40 : Word), 0x81, 0x42, 0x83, 0x285, 0xA6].map (fun f => (fmtType (p f), 128 * planesOf (fmtType (p f)) (fmtWidth (p f)))) =
        [(0, 512), (1, 1024), (2, 640), (3, 1024), (5, 1024), (6, 1280)]) ∧
    ((List.replicate 32 3).length = 32 ∧ decodeQuad (ofElems 4 [1, 2, 3, 4]) ≠ none ∧ decodeQuad (ofElems 4 [8, 8, 0, 3]) = none ∧
      e4m3.decode 0x38 = .fin false 8 (-3) ∧ e4m3.decode 0 = .fin false 0 (-9) ∧ e4m3.decode 0x7F = .nan false) ∧
    (let k := { coreWith (ctxWith []) with spad := [(matByte 0x300, 1)] };
      (matRead k (0x100 + (0 * 5 + 4) * 128 + 4 * 0) 4).testBit 0 = true ∧ (matRead k (0x100 + (0 * 5 + 4) * 128 + 4 * 0) 4).testBit 4 = false ∧
      fmtType 0x42 = 2 ∧ fmtType 0x81 ≠ 2) ∧
    (let a : Tile32 := List.replicate 32 (([1, 2] : List Int).map (fun q => Val.ofInt q 0), some 1)
     let b : Tile32 := List.replicate 32 ([], none);
      a.length = 32 ∧ b.length = 32 ∧ a[5]? = some (([1, 2] : List Int).map (fun q => Val.ofInt q 0), some 1) ∧ b[5]? = some ([], none) ∧
      (3 ≤ 5 ∧ 5 < 3 + 4) ∧ ¬ (3 ≤ 7 ∧ 7 < 3 + 4)) ∧
    (let c := mcmd (5 + 2 ^ 64 * 0x40 + 2 ^ 96 * 128);
      c.num 12 4 = 128 ∧ c.num 8 4 = 0x40 ∧ [(0 : Word), 0x201, 0x204, 6].map (fun f => (fmtType f, 4 * typeBits (fmtType f))) =
        [(0, 16), (1, 32), (4, 32), (6, 128)] ∧ scaleAddr 0x8000 = 0x8000) ∧
    ((List.replicate 32 0x3F800000).length = 32 ∧ (∀ x ∈ List.replicate 32 0x3F800000, x < 2 ^ 32) ∧
      f32.decode 0x3F800000 = .fin false 8388608 (-23) ∧ f32.decode 0x7FC00000 = .nan false ∧ f32.decode 0xFF800000 = .inf true ∧
      scaleByte 448 false ((List.replicate 32 0x7FC00000).map f32.decode) = 255 ∧
      scaleByte 448 false ((List.replicate 32 0x3F800000).map f32.decode) ≠ 255) := by decide +kernel

/-! #### Engines, helpers, the retry ring, troupes, synchronization -/

/-- The machine with a command in the engine queue, as the core's ticket 1. -/
def estate (c : XCmd) : State := { machine { coreWith (ctxWith [(1, 1)]) with ticket := 1 } with engine := [c] }
/-- A FILL of 8 bytes from 0x100 of the scratchpad by bytes of 7: op 2, source the pattern, destination, length. -/
def fill8 : Nat := 2 + 7 * 2 ^ 64 + 0x100 * 2 ^ 128 + 8 * 2 ^ 192
/-- A COPY of 8 bytes from 0x100 to 0x200 of the scratchpad. -/
def copy8 : Nat := 1 + 0x100 * 2 ^ 64 + 0x200 * 2 ^ 128 + 8 * 2 ^ 192
/-- A launch of one group of one core, running on core 0. -/
def launch1 : Launch := ⟨1, 1, 0x100000, 1, 0, 11, 8, 4, 0, false, false, false, 0, 0, 0, 0, none, none, 0, 0, [], 0, 0, 0x102000, 1, 0, 1, false, []⟩
/-- The machine with that launch in partition 0. -/
def launched (k : Core) : State := { machine k with parts := State.reset.parts.setIfInBounds 0 { part0 with launches := [launch1], issued := 1 } }
theorem witness_EngineCommands :
    (let s := machine { coreWith (ctxWith [(1, 0x1040), (2, 4), (3, 0x1080), (4, 0x20000), (5, 9)]) with
       spad := [(0x1040, 2), (0x1051, 1), (0x1058, 8), (0x1080, 1), (0x108A, 2), (0x1091, 1), (0x1098, 8)] };
      hazard [0, 1] [6] s = .clear ∧ (s.rdB 0 1).toNat % 64 = 0 ∧ (s.rdB 0 2).toNat % 64 ≠ 0 ∧ (s.rdB 0 4).toNat % 64 = 0 ∧
      spBytes s.mine.spsize < (s.rdB 0 4).toNat + 64 ∧ (s.rdB 0 1).toNat + 64 ≤ spBytes s.mine.spsize ∧
      cmdBusy s (mkCmd s 0 0x1040) 0x1040 = false ∧ sendRange s (mkCmd s 0 0x1040) = none ∧
      (s.rdB 0 3).toNat % 64 = 0 ∧ cmdBusy s (mkCmd s 0 0x1080) 0x1080 = false ∧ (sendRange s (mkCmd s 0 0x1080)).isSome = true ∧
      (mkCmd s 0 0x1040).localDst = true ∧ portFault s 6 = none ∧ releaseHolds s.me = false ∧
      gateOpen s.mine 1 = true ∧ sendFull s = false ∧ s.me.ranges.length < 8 ∧
      released s s.cur (sendScope s (mkCmd s 0 0x1040)) = true ∧ s.me.failed = [] ∧ ticketCmd s (s.rdA 5) = none ∧ hazard [5] [] s = .clear) ∧
    (let s := machine { coreWith { ctxWith [(1, 0x1040)] with vq := [ventry] } with spad := [(0x1040, 2), (0x1051, 1), (0x1058, 8)] };
      (s.rdB 0 1).toNat % 64 = 0 ∧ writesQueued s.mine = true) ∧
    (let s := estate (xcmd 1 1);
      ticketCmd s (s.rdA 1) = some (xcmd 1 1) ∧ (xcmd 1 1).ended = false) ∧
    (let s := estate (xcmd 1 4);
      ticketCmd s (s.rdA 1) = some (xcmd 1 4) ∧ (xcmd 1 4).ended = true ∧ (xcmd 1 4).unreported = true ∧ (xcmd 1 3).ended = true ∧
      (xcmd 1 3).unreported = false) ∧
    (let c := { xcmd 2 0 with bytes := BitVec.ofNat 512 fill8, status := 0 }
     let s := estate c;
      findCmd s 0 1 = some c ∧ engineRuns s c = true ∧ c.isColl = false ∧ c.state = 0 ∧ (s.part c.xctx.part).state = 1 ∧ engineOk s c = true ∧
      mergeOpen { s with cycle := 64 } c = true ∧ mergeOpen { s with cycle := 65 } c = false ∧
      c.bad = false ∧ engineOk s { c with engine := 9 } = false ∧ mergeOpen s (xcmd (2 + 2 ^ 8 * 8) 0) = false ∧ (xcmd (2 + 2 ^ 8 * 8) 0).bad = true) ∧
    (let c := { xcmd 2 1 with bytes := BitVec.ofNat 512 fill8, status := 0, index := 7 }
     let s := estate c;
      c.op = 2 ∧ c.group = [(0, 1)] ∧ c.state = 1 ∧ c.status = 0 ∧ c.index < c.total ∧
      (match writeElem s c (c.src.toNat % 256 ^ c.elem) with
        | .ok _ => true
        | _ => false) = true) ∧
    (let c := { xcmd 1 1 with bytes := BitVec.ofNat 512 copy8, status := 0 }
     let s := estate c;
      c.op = 1 ∧ c.index < c.total ∧
      (match engineRead s c.ctx (engCtx s c) (c.srcAt c.index) c.elem with
        | .ok v t => (match writeElem t c v with
          | .ok _ => true
          | _ => false)
        | _ => false) = true) := by decide +kernel
/-- An all-reduce of launch 1's one member over one element at level 1, in a phase. -/
def coll (state : Nat) (phase : BitVec 4) : XCmd :=
  { xcmd 0x10 state with
    bytes := BitVec.ofNat 512 (0x10 + 2 ^ 48 + 0x100 * 2 ^ 64 + 0x200 * 2 ^ 128 + 2 ^ 192 + 0x100000 * 2 ^ 256), status := 0, phase := phase, launch := 1, dom := 1 }
/-- Two merged FILLs that are over end together, with one outcome (R280). -/
theorem test_merged_commands_end_together :
    (let c := { xcmd 2 1 with status := 7, group := [(0, 1), (0, 2)] }
     holds (exec (.engineCommandDone 0 1) { launched (coreWith (ctxWith [])) with engine := [c, { c with ticket := 2 }] })
       (fun t => t.engine.map (fun c => (c.ticket, c.state, c.status)) == [(1, 4, 7), (2, 4, 7)])) = true := by decide +kernel
theorem witness_EngineCommands_collectives :
    (let s := { launched { coreWith (ctxWith []) with ticket := 1 } with engine := [coll 0 0] };
      (coll 0 0).op = 0x10 ∧ (coll 0 0).status = 0 ∧ (coll 0 0).state = 0 ∧ (s.part 0).state = 1 ∧ (coll 0 0).bad = false) ∧
    (∀ p ∈ [(0 : BitVec 4), 1, 2, 3], (coll 1 p).state = 1 ∧ (coll 1 p).phase = p ∧
      isBroken { launched (coreWith (ctxWith [])) with engine := [coll 1 p] } (coll 1 p) = false ∧
      (∀ e ∈ groupOf { launched (coreWith (ctxWith [])) with engine := [coll 1 p] } (coll 1 p), engineRuns { launched (coreWith (ctxWith [])) with engine := [coll 1 p] } e = true) ∧
      (membersOf { launched (coreWith (ctxWith [])) with engine := [coll 1 p] } (coll 1 p)).isSome = true) ∧
    (let s := { launched (coreWith (ctxWith [])) with engine := [{ coll 1 2 with status := 3 }] };
      isBroken s (coll 1 2) = true ∧ (coll 1 2).isColl = true ∧ (coll 1 2).phase ≠ 4) ∧
    (endStatus (launched (coreWith (ctxWith []))) (coll 1 4) = some 0 ∧ replicasDone (launched (coreWith (ctxWith []))) (coll 1 4) = true ∧
      (coll 1 4).ctx.ctx < 11 ∧ (coll 1 4).isColl = true ∧ findCmd { regs [] with engine := [coll 1 4] } 0 1 = some (coll 1 4)) ∧
    (let c := { xcmd 1 1 with group := [(0, 1), (0, 2)] };
      c.isColl = false ∧ c.group ≠ []) ∧
    (∀ state ∈ [(0 : Nat), 1], let c := { coll state 0 with bytes := (coll state 0).bytes ^^^ BitVec.ofNat 512 (2 ^ 40 + 2 ^ 48) }
     let s := { launched { coreWith (ctxWith []) with ticket := 1 } with
       engine := [c], mem := [(0x4000, 3), (0x4080, 1)], deadTags := [⟨3, 0, false, 9⟩]
       parts := State.reset.parts.setIfInBounds 0 { part0 with launches := [launch1], issued := 1, vfnum := 0x83 } };
      findCmd s 0 1 = some c ∧ engineRuns s c = true ∧ c.status = 0 ∧ c.op = 0x10 ∧
      (membersOf s c).map (fun m => m.peers) = some true ∧ fabricHeld s c.xctx.part = true ∧ engineOk s c = true ∧ c.bad = false) := by decide +kernel
theorem witness_EngineCommands_phases :
    (let s := { launched (coreWith (ctxWith [])) with engine := [{ coll 1 2 with frames := [0x10100000] }] };
      (match readMembers (groupOf s (coll 1 2)) s with
        | .ok vals t => (match putMembers ((groupOf s (coll 1 2)).zip (collResult (coll 1 2) ⟨0, 0, 1, 1, false⟩ vals t).1)
            (collResult (coll 1 2) ⟨0, 0, 1, 1, false⟩ vals t).2 with
          | .ok _ _ => true
          | _ => false)
        | _ => false) = true ∧
      (match publishable [] s with
        | .ok ps => ps.isEmpty && (askFirst (ps.flatMap (fun p => publishLines p.1 p.2.2.1 p.2.2.2.1 p.2.2.2.2)) s).1.isNone
        | .error _ => false) = true) := by decide +kernel

/-- A helper's context with registers. -/
def helperState (l : List (Reg × Word)) : State :=
  { machine ((coreWith (ctxWith [])).setCtx 1 (ctxWith l)) with cur := ⟨0, 1⟩ }
theorem witness_HelperInstructions :
    (let s := regs [(1, 0x100010), (2, 5), (3, 10), (4, 11)];
      s.cur.ctx = 0 ∧ hazard [1, 2] [6] s = .clear ∧ portFault s 6 = none ∧ (s.rdA 1).toNat % 4 = 0 ∧ helperCount s.mine ≠ 0 ∧
      freeHelper s.mine = some 1 ∧ hazard [3] [6] s = .clear ∧ hazard [3] [] s = .clear ∧
      (1 ≤ (s.rdA 3).toNat ∧ (s.rdA 3).toNat ≤ 10 ∧ (s.mine.ctx 10).live = false) ∧ ¬ (1 ≤ (s.rdA 4).toNat ∧ (s.rdA 4).toNat ≤ 10)) ∧
    (let s := machine { coreWith (ctxWith []) with group := some ⟨0, 1, 0, 0, 0, 1, 8, 4, true, true, false, 0⟩ };
      helperCount s.mine = 0) ∧
    (let s := machine { coreWith (ctxWith []) with ctxs := Vector.replicate 11 (ctxWith []) };
      freeHelper s.mine = none ∧ (s.mine.ctx 10).live = true ∧ (s.mine.ctx 10).service = false) ∧
    (let s := helperState [(3, 9)];
      s.cur.ctx ≠ 0 ∧ s.cur.ctx < 11 ∧ hazard [3] [] s = .clear ∧ s.reqs = [] ∧ s.me.varRes = [] ∧ s.me.vq = [] ∧ s.me.inflight = [] ∧
      releaseHolds s.me = false ∧ released s s.cur (tenureScope s 1) = true) ∧
    (let k := { coreWith (ctxWith []) with strtgt := 1 <<< 62 };
      k.strDue.getLsbD 1 = false ∧ k.strtgt.getLsbD 62 = true ∧ freeHelper k = some 1 ∧
      { k with strDue := 2 }.strDue.getLsbD 1 = true ∧ (strConsume 0 3 { k with strDue := 2 }).strtgt.getLsbD 62 = true) ∧
    (let k := strConsume 0 3 { coreWith (ctxWith []) with strDue := 2 };
      k.strtgt.getLsbD 62 = false ∧ hdescAt k + 16 ≤ spBytes k.spsize ∧ helperCount k ≠ 0 ∧ freeHelper k = some 1 ∧
      freeHelper { k with ctxs := Vector.replicate 11 (ctxWith []) } = none) := by decide +kernel

/-- Entry 5 of partition 0's ring, popped: a doubleword load of ctx0. -/
def ringEntry : RingEntry := ⟨5, ⟨0, 0⟩, 0x100000, 0x100008, 0, encode (.ld 3 1 0 3 0 0), true, 3, 0, true⟩
/-- The machine at S with that entry, registers and a wait. -/
def ringState (l : List (Reg × Word)) (wt : Wait) : State :=
  { mapped (coreWith { ctxWith l with priv := 1, wait := wt, ring := [⟨5, 3, true, 0x100008, 8, 0, false, none⟩] }) with
    parts := State.reset.parts.setIfInBounds 0 { part0 with rring := 0x10000, rrsz := 8, rrhead := 6, rrtail := 7, ringEnts := [ringEntry] } }
theorem witness_RetryRing :
    (let s := ringState [(1, 0x8000000000000005), (2, 7)] .none;
      s.me.priv ≠ 0 ∧ hazard [] [6] s = .clear ∧ portFault s 6 = none ∧ s.myPart.rrhead ≠ s.myPart.rrtail ∧ hazard [1, 2] [] s = .clear ∧
      hazard [1] [] s = .clear ∧ namedEntry s (s.rdA 1) = some (0, ringEntry) ∧ fixWaits s ringEntry = false ∧ s.myPartNo = 0 ∧ namedEntry s (s.rdA 2) = none ∧
      entryHold s ringEntry = some ⟨5, 3, true, 0x100008, 8, 0, false, none⟩ ∧ ringEntry.load = true ∧
      (resolve s { s.xctx ringEntry.ctx with priv := 0 } ringEntry.va (replayOf 0 s ringEntry).1 (replayOf 0 s ringEntry).2.1).2 = .ok (.mem 0x10100008 [])) ∧
    ((onCtx { ctxWith [] with priv := 1 }).myPart.rrhead = (onCtx { ctxWith [] with priv := 1 }).myPart.rrtail) ∧
    (let s := ringState [] (.replay 3);
      s.me.wait = .replay 3 ∧ (s.req 3).isSome = false) ∧
    (let x : PortWord := ⟨4, 0, 0, 1, 3, 1, 0, 7, [], (0, 0), false⟩
     let e := { ringEntry with reg := 28 }
     let s := onCtx { ctxWith [] with ring := [⟨5, 28, true, 0x100008, 8, 0, false, none⟩], sends := [x] };
      fixWaits s e = true) ∧
    (let s := { onCtx { ctxWith [(1, 0x8000000000000005)] with priv := 2 } with
       parts := (State.reset.parts.setIfInBounds 0 part0).setIfInBounds 3 { part0 with state := 3, base := 9, ringEnts := [ringEntry] } };
      namedEntry s (s.rdA 1) = some (3, ringEntry) ∧ s.myPartNo = 0 ∧ (s.part 3).popped ringEntry.n = some ringEntry ∧ (s.part 3).state ≠ 1) ∧
    (let s := onCtx { ctxWith [] with priv := 2, wait := .replayOf 3 5 };
      s.me.wait = .replayOf 3 5 ∧ (s.part 3).popped 5 = none ∧
      (∀ st ∈ [(1 : BitVec 3), 3], ({ s with parts := s.parts.setIfInBounds 3 { part0 with state := st, base := 9, ringEnts := [ringEntry] } }.part 3).popped 5 =
        some ringEntry)) ∧
    (let s := ringState [] .none;
      s.peerDir = [] ∧ entryLines s 0 ringEntry.n = [0x400 + 160 / 64] ∧
      (∃ l ∈ entryLines s 0 ringEntry.n, ∃ d ∈ { s with peerDir := [⟨5, 0x402, false, none⟩] }.peerDir, d.line = l) ∧
      (s.part 0).ringEnts.find? (fun r => r.n == ringEntry.n) = some ringEntry ∧ ringEntry.ctx.ctx < 11 ∧ (3 : Reg) ≠ 0 ∧ (3 : Reg).toNat < 28 ∧
      { ringEntry with load := false }.load = false) := by decide +kernel

/-- Two cores of one group, of which core 0 waits in TR.FORM. -/
def pair (w0 w1 : Wait) (ts : List Troupe) : State :=
  let k := { coreWith (ctxWith [(1, 3), (2, 1)]) with group := some ⟨0, 1, 0, 0, 1, 11, 8, 4, true, true, false, 0⟩ }
  { machine k with
    cores := [(0, k.setCtx 0 { k.ctx 0 with wait := w0 }), (1, k.setCtx 0 { k.ctx 0 with wait := w1 })]
    clusters := [(0, { Cluster.reset with troupes := ts })], cycle := 70000 }
theorem witness_TroupesAndForwarding :
    (let s := pair .none .none [];
      s.cur.ctx = 0 ∧ hazard [] [6] s = .clear ∧ hazard [1] [6] s = .clear ∧ portFault s 6 = none ∧ troupeOf s 0 = none ∧ (s.rdA 1).toNat < 2 ^ 16 ∧
      maskCores 0 3 = [0, 1] ∧ (3 : BitVec 16).getLsbD 0 = true ∧ sameGroup s 0 0 = true ∧ sameGroup s 0 1 = true ∧ ¬ 2 ≤ (maskCores 0 1).length ∧
      hasFormed (s.setMe { s.me with wait := .trForm 3 s.cycle 6 1 0 }) 3 1 = false ∧ isLeader s 0 = false ∧ amDetached s = false ∧ hazard [] [] s = .clear) ∧
    (let s := pair .none (.trForm 3 70000 6 1 0) []
     let u := s.setMe { s.me with wait := .trForm 3 s.cycle 6 1 0 };
      hasFormed u 3 0 = true ∧ hasFormed u 3 1 = true) ∧
    (let s := pair (.trForm 3 1 6 1 0) (.trForm 3 70000 6 1 0) [];
      s.me.wait = .trForm 3 1 6 1 0 ∧ overLimit s 0 1 = true ∧ overLimit s 0 70000 = false ∧ ((s.core 0).ctx 0).wait = .trForm 3 1 6 1 0 ∧
      coreMoves s 0 = true) ∧
    (let s := pair .none .none [⟨3, 0, 2⟩];
      troupeOf s 0 = some ⟨3, 0, 2⟩ ∧ isLeader s 0 = true ∧ detachedCores s 0 = [1] ∧ hasRejoined s 1 = false ∧ amDetached { s with cur := ⟨1, 0⟩ } = true ∧
      isLeader { s with cur := ⟨1, 0⟩ } 1 = false) ∧
    (let s := pair (.trRejoin 1 0) .none [⟨3, 0, 2⟩];
      ((s.core 0).ctx 0).wait = .trRejoin 1 0 ∧ coreMoves s 0 = true ∧ isLeader s 0 = true ∧ overLimit s 0 1 = true ∧ hasRejoined s 1 = false ∧
      detachedCores s 0 = [1]) ∧
    (let e : FwdEntry := ⟨0x04C63000, 0x100000, 0x100004, none, 69998, false, false⟩
     let s := { machine { coreWith (ctxWith []) with fwdBuf := [e] } with cycle := 70000 };
      (s.core 0).fwdBuf = e :: [] ∧ e.last = false ∧ s.cycle < e.at_ + 3 ∧ (⟨0, 0, 0, none, 0, true, false⟩ : FwdEntry).last = true) ∧
    (let s := { machine { coreWith (ctxWith []) with fwdBuf := [⟨0x04C63000, 0x100000, 0x100004, none, 69997, false, false⟩] } with cycle := 70000 };
      ((s.core 0).ctx 0).fwd = none ∧ ((s.core 0).ctx 0).live = true ∧ coreMoves s 0 = true) ∧
    (onCtx { ctxWith [] with fwd := some ⟨0, 0, 0, none, 0, false, false⟩ }).me.fwd ≠ none := by decide +kernel

theorem witness_SyncAndPorts :
    (let s := launched { coreWith (ctxWith [(1, 0)]) with dm := #v[1, 0, 0, 0] };
      s.cur.ctx = 0 ∧ s.mine.levelValid 1 = true ∧ 1 ≤ s.mine.groupSlots ∧ s.mine.levelValid 2 = false ∧ hazard [] [] s = .clear ∧ s.me.wait = .none ∧
      releaseHolds s.me = false ∧ released s s.cur ((domainOf s s.cur.core 1).elim 5 (fun m => m.scope s)) = true ∧
      fabStore s ((domainOf s s.cur.core 1).elim 5 (fun m => m.scope s)) = none ∧ hazard [1] [] s = .clear ∧ hazard [] [6] s = .clear ∧
      portFault s 6 = none ∧ s.mine.port 0 = []) ∧
    (let s := launched { coreWith { ctxWith [] with wait := .sync 1 false 0 none } with dm := #v[1, 0, 0, 0] }
     let m : Domain := ⟨0, 1, 1, 0, 0, 1⟩;
      ((s.core 0).ctx 0).wait = .sync 1 false 0 none ∧ domainOf s 0 1 = some m ∧ (s.part m.part).state = 1 ∧ m.allHere s = true) ∧
    (let s := { launched { coreWith { ctxWith [] with wait := .sync 1 false 0 none } with dm := #v[1, 0, 0, 0], sent := #v[1, 0, 0, 0] } with cycle := 1 }
     let m : Domain := ⟨0, 1, 1, 0, 0, 1⟩;
      domainOf s 0 1 = some m ∧ m.allHere s = true ∧ (wordSums s m.level (m.running s) (m.ended s)) = (1, 0) ∧ (∀ c ∈ m.running s, atBar s c = false)) ∧
    (let s := launched { coreWith { ctxWith [] with wait := .sync 1 true 0 none } with dm := #v[1, 0, 0, 0] }
     let m : Domain := ⟨0, 1, 1, 0, 0, 1⟩;
      m.running s ≠ [] ∧ (∀ c ∈ m.running s, atBar s c = true) ∧ wordSums s m.level (m.running s) (m.ended s) = (0, 0)) ∧
    (let s := launched { coreWith { ctxWith [] with wait := .sync 1 false 0 (some (0, 0)) } with dm := #v[1, 0, 0, 0] };
      ((s.core 0).ctx 0).wait = .sync 1 false 0 (some (0, 0)) ∧ domainOf s 0 1 = some ⟨0, 1, 1, 0, 0, 1⟩ ∧ (s.part 0).state = 1) ∧
    (let s := launched { coreWith (ctxWith []) with dm := #v[1, 0, 0, 0] };
      (⟨0, 1, 1, 0, 0, 1⟩ : Domain).allHere s = false) ∧
    (let x : PortWord := ⟨4, 1, 0, 0, 3, 1, 0, 7, [], (0, 0), false⟩
     let s := { machine { coreWith (ctxWith []) with ports := #v[[x], [], [], []] } with net := [x] };
      s.mine.port 0 = x :: [] ∧ s.net.find? (fun y => y.id == 4) = some x ∧ x.port < 4 ∧ x.dest < 25600 ∧ rankCell (rankOf x.dest) = (0, 0) ∧
      routerStopped s (0, 0) = false ∧ wordBehind s x = false ∧ takesWord s x = true ∧
      ((s.core x.dest).port x.port).length < 16 ∧ takesWord s { x with launch := 2 } = false) ∧
    (let x : PortWord := ⟨4, 1, 0, 0, 3, 1, 0, 7, [], (1, 0), false⟩
     let s := { machine (coreWith (ctxWith [])) with net := [x] };
      x.cell ≠ rankCell (rankOf x.dest) ∧ routerStopped s x.cell = false ∧ stepTo x.cell (rankCell (rankOf x.dest)) = (0, 0) ∧
      routerTakes s (0, 0) = true ∧ wordsBefore s x = [] ∧
      routerStopped { s with clusters := [(0, { Cluster.reset with halted := true })] } (0, 0) = true ∧
      routerTakes { s with clusters := [(0, { Cluster.reset with halted := true })] } (0, 0) = false) ∧
    (let x : PortWord := ⟨4, 0, 0, 1, 3, 1, 0, 7, [], (0, 0), false⟩
     let s := onCtx { ctxWith [] with sends := [x] };
      (s.ctx ⟨0, 0⟩).sends = x :: [] ∧ routerTakes s (rankCell (rankOf 0)) = true ∧
      routerTakes { s with clusters := [(0, { Cluster.reset with halted := true })] } (rankCell (rankOf 0)) = false) := by decide +kernel

/-! #### Special registers, the system, launches, partitions and the package -/

theorem witness_EventsStringsAndRegisters :
    (let s := machine { coreWith (ctxWith [(1, 7)]) with evcnt := #v[0, 0, 0, 0, 0, 0, 0, 3] };
      s.cur.ctx < 11 ∧ hazard [1] [] s = .clear ∧ s.mine.evcnt[((s.rdA 1).extractLsb' 0 3).toNat]?.getD 0 ≠ 0 ∧
      s.mine.evcnt[((s.rdA 0).extractLsb' 0 3).toNat]?.getD 0 = 0 ∧ releaseHolds s.me = false ∧ released s s.cur 1 = true ∧ fabStore s 1 = none ∧
      hazard [1] [6] s = .clear ∧ portFault s 6 = none ∧ hazard [] [] s = .clear ∧ s.me.wake = false ∧ hazard [] [6] s = .clear ∧
      csrDefined 0x7FF = false ∧ csrDefined 1 = true ∧ csrDefined 0x100 = true ∧ csrDenied 0 0x100 true = true ∧ csrDenied 0 1 true = false ∧
      csrDenied 0 1 false = false ∧ csrDenied 0 0x300 false = true ∧ flagsPending s.me = false ∧ csrDefined 2 = true ∧ csrDenied 0 2 true = false ∧ csrReadOnly 0x51 = true ∧ csrDenied 1 0x45 true = false ∧
      csrDefined 0x45 = true ∧ s.me.wait = .none ∧ (7 : Word).extractLsb' 0 2 ≠ s.mine.spsize ∧ (4 : Word).extractLsb' 0 2 = s.mine.spsize) ∧
    (onCtx { ctxWith [] with wake := true }).me.wake = true ∧
    (let x := { ctxWith [] with inflight := [⟨3, 0, 9, 0x100000, 0, 1, true, none⟩] }; flagsPending x = true) ∧
    (onCtx { ctxWith [] with wait := .resized 2 }).me.wait = .resized 2 ∧
    (let s := { machine { coreWith (ctxWith []) with strDue := 1, strtgt := 0x100000 } with cycle := 64 };
      (s.core 0).strDue.getLsbD 0 = true ∧ (s.core 0).strtgt.extractLsb' 20 4 ≠ 0 ∧
      (s.core 0).timerAt + 2 ^ (((s.core 0).strtgt.extractLsb' 20 4).toNat + 5) ≤ s.cycle) ∧
    (let k := coreWith { ctxWith [] with wait := .resize 3 };
      resizer k = some (0, 3) ∧ resizeReady k = true) ∧
    (pageAt 0xF0020001008 = .pcb 1 ∧ pageAt 0xF0010000FF8 = .debug 0 ∧ pageAt 0xF0030000000 = .fabric ∧ pageAt 0xF004003F000 = .network 63 ∧
      pageAt 0xF0040040000 = .none) := by decide +kernel
theorem witness_SystemInstructions :
    (let s := onCtx { ctxWith [(1, 8)] with priv := 1 };
      s.cur.ctx < 11 ∧ s.me.priv ≠ 0 ∧ hazard [] [] s = .clear ∧ (s.part 0).state = 1 ∧ (s.part 1).state ≠ 1 ∧ hazard [] [6] s = .clear ∧
      portFault s 6 = none ∧ allDone s = true ∧ hazard [1] [6] s = .clear ∧ 8 ≤ (s.rdA 1).toNat ∧ s.cur.ctx = 0 ∧ s.me.vq = [] ∧
      enginePending s = false ∧ s.engine = [] ∧ releaseHolds s.me = false ∧ released s s.cur (capped s.myPart 7) = true ∧
      fabStore s (capped s.myPart 7) = none ∧ (∀ i < 11, 1 ≤ i → (s.mine.ctx i).live = false)) ∧
    allDone { regs [] with reqs := [req 1 (.mem 0x10100008 []) .store] } = false ∧
    ((machine ((coreWith (ctxWith [])).setCtx 1 (ctxWith []))).mine.ctx 1).live = true ∧
    (onCtx { vctx [] with vq := [ventry] }).me.vq ≠ [] ∧
    enginePending { regs [] with engine := [xcmd 1 1] } = true := by decide +kernel
/-- At U, and at S with nothing that keeps it back, in a partition that runs. -/
theorem witness_GangStopsThePartition :
    (regs []).me.priv = 0 ∧
    (let s := onCtx { ctxWith [] with priv := 1 };
      s.me.priv ≠ 0 ∧ hazard [] [] s = .clear ∧ partRuns s s.cur.core = true ∧ canIssue s s.cur = true) := by decide +kernel
/-- A launch descriptor of one group of one core with eleven contexts, entry 0x100000, at 0x1000 of the scratchpad. -/
def ldescMem : Memory := [(0x1002, 0x10), (0x1008, 1), (0x100D, 11)]
theorem witness_LaunchesAndGroups :
    (let s := launched { coreWith (ctxWith [(1, 0x1000), (2, 8), (3, 1), (4, 2)]) with spad := ldescMem };
      hazard [1] [6] s = .clear ∧ (s.rdA 1).toNat % 64 = 0 ∧ (s.rdA 2).toNat % 64 ≠ 0 ∧
      (match ctxRead s (s.rdA 1) 64 with
        | .ok _ _ => true
        | _ => false) = true ∧ portFault s 6 = none ∧ queueFull s.myPart = false ∧
      queueFull { s.myPart with launches := List.replicate 64 { launch1 with disp := 0, running := 0 } } = true ∧ releaseHolds s.me = false ∧
      released s s.cur (capped s.myPart 7) = true ∧ fabStore s (capped s.myPart 7) = none ∧ hazard [3] [] s = .clear ∧
      knownLaunch s.myPart (s.rdA 4) = none ∧ knownLaunch s.myPart (s.rdA 3) = some launch1 ∧ launch1.complete = false ∧ launch1.dispatched = true ∧
      ({ launch1 with ended := 1, running := 0 } : Launch).complete = true ∧ ({ launch1 with disp := 0, running := 0 } : Launch).dispatched = false) ∧
    (let desc := readLe ldescMem 0x1000 64
     let l := launchFrom desc [] 2 2 0 0 0;
      launchBad part0 desc l = none ∧ placeBad part0 l = none ∧ l.pinned = false ∧ launchBad part0 0 (launchFrom 0 [] 2 2 0 0 0) = some 2) ∧
    (let l := { launch1 with disp := 0, running := 0 }
     let s := { State.reset with parts := State.reset.parts.setIfInBounds 0 { part0 with launches := [l], issued := 1 } };
      (s.part 0).state = 1 ∧ (pickGroup s (s.part 0)).map (fun r => r.1) = some l ∧ pickGroup s { part0 with launches := [] } = none) ∧
    (let g : GroupRef := ⟨0, 1, 0, 0, 0, 11, 8, 4, false, false, false, 0⟩
     let s := launched { Core.reset with group := some g };
      (s.core 0).group = some g ∧ launchOf (s.part g.part) g.launch = some launch1 ∧ g.started = false ∧ (s.part g.part).state = 1 ∧
      coreQuiet s 0 = true) := by decide +kernel
/-- The machine with partition 0 as q. -/
def withPart (q : Part) : State := { State.reset with parts := State.reset.parts.setIfInBounds 0 q }
theorem witness_PartitionCommandsAndSwitching :
    (let s := withPart { part0 with state := 0 };
      (s.part 0).state = 0 ∧ rangeOk (s.part 0) = true ∧ clustersFree s 0 = true ∧ (s.part 0).save ≠ 0 ∧ rangeOk { part0 with len := 0 } = false ∧
      commandBusy (s.part 0) = false) ∧
    (commandBusy { part0 with switchAt := some 4 } = true ∧ commandBusy part0 = false ∧ part0.state = 1) ∧
    (let q := { part0 with state := 3, savedLen := 4 };
      q.state = 3 ∧ q.len = q.savedLen ∧ rangeOk q = true ∧ clustersFree (withPart q) 0 = true ∧ commandBusy q = false) ∧
    (let q := { part0 with state := 5, reason := 2 };
      commandBusy q = false ∧ q.reason ≠ 0 ∧ groupsRun q = false ∧ groupsRun { part0 with launches := [launch1] } = true) ∧
    (let q := { part0 with svccore := 0x10010003 };
      (q.svccore.extractLsb' 16 4).toNat ≠ 0 ∧ (q.svccore.extractLsb' 0 15).toNat < 16 * q.len.toNat ∧
      (((withPart q).core (q.coreNo 3)).ctx 1).live = false ∧ ((q.svccore.extractLsb' 0 15).toNat = 3)) ∧
    (let q := { part0 with ldesc := 0x1000 };
      q.ldesc.toNat % 64 = 0 ∧ { part0 with ldesc := 8 }.ldesc.toNat % 64 ≠ 0 ∧
      (match launchRead 0 (withPart q) q.ldesc 64 with
        | .fault _ => true
        | _ => false) = true ∧ q.launching = false ∧ { q with launching := true }.launching = true) ∧
    (let s := { withPart part0 with peerDir := [⟨5, 0x404000, false, none⟩, ⟨5, 0x400, true, none⟩] };
      (∃ d ∈ s.peerDir, (0x10100000 : Word).toNat < 64 * d.line + 64 ∧ 64 * d.line < saveEnd { part0 with save := 0x10100000 }) ∧
      (∃ d ∈ s.peerDir, d.owned = true)) ∧
    (let q := { part0 with tslice := 5 };
      q.tslice ≠ 0 ∧ q.sliced = false ∧ q.sliceAt + q.tslice.toNat ≤ ({ withPart q with cycle := 90 } : State).ticks) ∧
    (let q := { part0 with switchAt := some 5 };
      q.switchAt = some 5 ∧ 5 ≤ ({ withPart q with cycle := 90 } : State).ticks) ∧
    (let q := { part0 with state := 2 };
      q.switchAt = none ∧ settled (withPart q) 0 = true) ∧
    ((withPart { part0 with state := 0 }).part 0).state = 0 ∧ groupsRun { part0 with state := 0 } = false ∧
    (debugOpen (withPart part0) 0 = false ∧
      debugOpen { withPart part0 with security := { State.reset.security with opened := 1 } } 0 = true) ∧
    (let s := { withPart { part0 with state := 0 } with parts := (State.reset.parts.setIfInBounds 0 part0).setIfInBounds 3 { part0 with state := 3, base := 4 } };
      clustersFree s 0 = true ∧ (s.part 3).state ≠ 0) ∧
    (let s := { withPart { part0 with state := 0 } with parts := (State.reset.parts.setIfInBounds 0 part0).setIfInBounds 3 { part0 with state := 3, base := 3 } };
      clustersFree s 0 = false) ∧
    partRuns (withPart part0) 0 = true ∧ (placeBad part0 launch1 = none ∧ queueFull part0 = false) := by decide +kernel
theorem witness_FabricTurnsAndPeers :
    (State.reset.fabric.state = 0 ∧ (turnRefusal State.reset.fabric).isSome = true) ∧
    (let f := { Fabric.reset with edges := Fabric.reset.edges.setIfInBounds 3 ⟨0, 2, false⟩ };
      f.turns 3 = true ∧ turnRefusal f = none) ∧
    (let s := { regs [] with reqs := [{ req 1 (.mem 0x10100008 []) (.load true) with sent := true }] };
      farUnderWay s = false ∧ linkUnderWay s = false) ∧
    (farUnderWay { farState with fabric := { farState.fabric with
       state := 2, edges := (Fabric.reset.edges.setIfInBounds 2 ⟨1, 0, true⟩).setIfInBounds 3 ⟨1, 0, true⟩ } } = true) ∧
    (let s := { regs [] with
       fabric := { Fabric.reset with state := 2, edges := Fabric.reset.edges.setIfInBounds 3 ⟨2, 0, true⟩ }
       reqs := [{ req 1 (.peer 5 0 64 0 true false) (.load true) with sent := true }] };
      s.fabric.turns 3 = true ∧ linkUnderWay s = true) ∧
    (let q := { req 1 (.peer 5 0 64 0 true false) (.load true) with sent := true }
     let s := { regs [] with reqs := [q], cycle := 2 ^ 40 };
      s.req 1 = some q ∧ leftPackage s q = true ∧ q.issuedAt + fabricCycles (s.part q.part) ≤ s.cycle) ∧
    (let q := { req 1 (.mem (0x1000 * 2 ^ 28) []) .store with sent := true }
     let s := { farState with cycle := 2 ^ 40, reqs := [q] };
      s.req 1 = some q ∧ leftPackage s q = true ∧ q.issuedAt + fabricCycles (s.part q.part) ≤ s.cycle) ∧
    (let s := { State.reset with
       fabric := { Fabric.reset with exptab := 0x8001 }
       mem := [(0x8000, 1), (0x800A, 0x10), (0x800B, 0x10), (0x8010, 1), (0x8019, 0x90), (0x9005, 7)], peerDir := [⟨6, 0x404000, true, none⟩] };
      exportAddr s 5 0 64 (.read 8) = some 0x10100040 ∧ (PeerCopy.against 0x404000 (peerAlone (.read 8)) ⟨6, 0x404000, true, none⟩) = true ∧
      exportAddr s 5 0 8 (.read 8) = some 0x10100008 ∧ linesOf (.mem 0x10100008 []) (peerSize (.read 8)) = [0x404000]) ∧
    (let s := { State.reset with peerDir := [⟨5, 0x404000, false, some 3⟩], cycle := 4 };
      (∃ d ∈ s.peerDir, d.peer = 5 ∧ ∃ t, d.till = some t ∧ t ≤ s.cycle) ∧ s.peerWaits = [] ∧ s.devWaits = []) ∧
    (let o : DevOp := .write 0x10100000 8 7
     let s := { State.reset with peerDir := [⟨5, (exportBase State.reset 0 + 64) / 64, false, none⟩], devWaits := [o] };
      s.devWaits = [o] ∧ s.peerDir ≠ [] ∧ s.peerWaits = [] ∧ (∀ d ∈ s.peerDir, d.peer = 5 ∧ d.line = (exportBase s 0 + 64) / 64)) ∧
    (let s := { State.reset with peerDir := [⟨5, 0x404000, false, some 3⟩], cycle := 2 };
      ∀ d ∈ s.peerDir, d.peer = 5 → ∀ t, d.till = some t → s.cycle < t) ∧
    (let s := { State.reset with fabric := { Fabric.reset with edges := Fabric.reset.edges.setIfInBounds 3 ⟨2, 2, false⟩ } };
      s.fabric.state = 0 ∧ (s.fabric.edge 3).pers ≠ 0) ∧
    ringOf State.reset 0 0 = none ∧
    (ringOf { State.reset with netPages := State.reset.netPages.setIfInBounds 0 ⟨0, 0, 0x1000, 1, 5⟩
                               mem := [(0x1003, 1), (0x1008, 12), (0x1009, 0x80)] } 0 0).isSome = true ∧
    (let s := withPart { part0 with vfnum := 0x83 };
      boundPart s 3 = some 0 ∧ boundPart s 4 = none) ∧
    (let q := { req 1 (.peer 5 0 64 0 true false) (.load true) with sent := true }
     let s := { regs [] with reqs := [q], deadTags := [⟨3, 0, true, 9⟩] };
      s.deadTags.find? (fun d => d.vf == 3) = some ⟨3, 0, true, 9⟩ ∧ outstanding 0 s ≠ [] ∧ s.cycle < 9 ∧ outstanding 0 { s with reqs := [] } = []) ∧
    (let s := { State.reset with deadTags := [⟨3, 0, false, 9⟩] };
      s.deadTags.find? (fun d => d.vf == 3) = some ⟨3, 0, false, 9⟩ ∧ s.cycle < 9 ∧ 9 ≤ { s with cycle := 9 }.cycle) := by decide +kernel
theorem witness_FabricTurnsAndPeers_read :
    (∀ data, PeerOp.read 8 ≠ .gone data) ∧ exportAddr State.reset 5 0 64 (.read 8) = none ∧
    State.reset.peerWaits = [] := ⟨fun _ h => absurd (congrArg peerSize h) (by decide : (8 : Nat) ≠ 64), by decide +kernel⟩
/-- What homeAnswers speaks of: nothing that waits and no copy; a copy of a line against a host's write; an earlier access of the host; a message for a
ring. -/
theorem witness_homeAnswers :
    (let o : DevOp := .write 0x10100000 8 7
     let d : PeerCopy := ⟨5, 0x404000, false, none⟩;
      State.reset.devWaits = [] ∧ State.reset.peerDir = [] ∧ o.lines State.reset = [0x404000] ∧ d.against 0x404000 (!o.reads) = true ∧
      o.before o = true ∧ d.against 0x404000 (!(DevOp.read 0x10100000 8).reads) = false) ∧
    (let s := { State.reset with netPages := State.reset.netPages.setIfInBounds 0 ⟨0, 0, 0x1000, 1, 5⟩, mem := [(0x1003, 1), (0x1008, 12), (0x1009, 0x80)] };
      ringOf s 0 0 = some ⟨0x1000, 0x1000000, 12, false, 0, 0, 0⟩ ∧ (0 : Nat) = 0 % 2 ^ 24 ∧ ringOf s 0 1 = none) := by decide +kernel
theorem witness_HostSecurityAndPower :
    (State.reset.security.stopped = false ∧ State.reset.security.stages = 0 ∧ 0 + 8 ≤ 2 ^ 36) ∧
    (let x := { State.reset.security with stopped := true };
      x.stopped = true) ∧
    (let x := { State.reset.security with stages := 1, busy := true };
      x.stopped = false ∧ 1 ≤ x.stages ∧ x.stages < 8 ∧ x.busy = true) ∧
    (let s := withPart { part0 with vfnum := 0x83 };
      boundPart s 3 = some 0 ∧ boundPart s 4 = none) ∧
    (withPart part0).ticks < 1000 * ((withPart part0).epochs + 1) ∧
    (let s := { withPart part0 with cycle := 10 ^ 6 };
      1000 * (s.epochs + 1) ≤ s.ticks ∧ (s.part 0).owns 2 = true ∧ (∀ r < 64, (s.part r).owns 2 = true → r = 0) ∧
      (∀ i < 5, 1600 * (tget ([] : List (Nat × List Nat)) 2 [])[i]?.getD 0 ≤ 1000 * (modeBudget (s.part 0).pwmode)[i]?.getD 0) ∧
      (∀ i < 5, 1000 * (modeBudget (s.part 0).pwmode)[i]?.getD 0 + sparePool s (s.part 0) i <
        1600 * (tget [(2, List.replicate 5 (10 ^ 9))] 2 [])[i]?.getD 0)) := by decide +kernel

end Sys2Proof.Tests
end

section
/-!
Every memory keeps its canonical form. `Canon s` says that all memories of the state `s` are canonical; for each operation of the
model that answers a state, a core or a memory there is one rule, named after it, that says it keeps the form. The rules stand in
the model's own order and each one cites the rules of the operations that it is made of. `writeLe` puts bytes into a memory and
`loadCore` moves a range of one to address 0; nearly every other operation leaves memories as they are (`Canon.same`).
-/

namespace Sys2Proof.Machine

open Sys2Proof

/-! ### Memories in canonical form (R127, R156) -/

/-- A memory in canonical form: addresses rise strictly from `lo` on and every byte that is listed is not zero. -/
def MemCanonFrom (lo : Nat) (m : Memory) : Prop :=
  (∀ c ∈ m, lo ≤ c.1 ∧ c.2 ≠ 0) ∧ m.Pairwise (fun c d => c.1 < d.1)

theorem wfFrom_iff (lo : Nat) (m : Memory) : Memory.wfFrom lo m = true ↔ MemCanonFrom lo m := by
  induction m generalizing lo with
  | nil => simp [Memory.wfFrom, MemCanonFrom]
  | cons c t ih =>
    obtain ⟨a, b⟩ := c
    simp only [Memory.wfFrom, Bool.and_eq_true, decide_eq_true_eq, ih, MemCanonFrom, List.forall_mem_cons, List.pairwise_cons]
    constructor
    · rintro ⟨⟨ha, hb⟩, ht, hp⟩
      exact ⟨⟨⟨ha, hb⟩, fun c hc => ⟨by have := (ht c hc).1; omega, (ht c hc).2⟩⟩, fun c hc => (ht c hc).1, hp⟩
    · rintro ⟨⟨⟨ha, hb⟩, ht⟩, hlt, hp⟩
      exact ⟨⟨ha, hb⟩, fun c hc => ⟨hlt c hc, (ht c hc).2⟩, hp⟩

/-- A memory in canonical form: equal contents are equal data. -/
def MemCanon (m : Memory) : Prop := Memory.wf m = true

theorem memCanon_iff (m : Memory) : MemCanon m ↔ (∀ c ∈ m, c.2 ≠ 0) ∧ m.Pairwise (fun c d => c.1 < d.1) := by
  rw [MemCanon, Memory.wf, wfFrom_iff, MemCanonFrom]
  simp

theorem memCanon_nil : MemCanon [] := rfl

/-- Leaving bytes out keeps a memory canonical. -/
theorem MemCanon.filter {m : Memory} {p : Host.Cell → Bool} (h : MemCanon m) : MemCanon (m.filter p) := by
  rw [memCanon_iff] at h ⊢
  exact ⟨fun c hc => h.1 c (List.mem_of_mem_filter hc), h.2.filter p⟩

theorem MemCanon.clipRange {m : Memory} {lo hi : Nat} (h : MemCanon m) : MemCanon (clipRange m lo hi) := h.filter

/-- The cells of a number lie in its range, are no zero bytes, and rise. -/
theorem cellsLe_spec (a n v : Nat) :
    (∀ c ∈ cellsLe a n v, (a ≤ c.1 ∧ c.1 < a + n) ∧ c.2 ≠ 0) ∧ (cellsLe a n v).Pairwise (fun c d => c.1 < d.1) := by
  induction n generalizing a v with
  | zero => simp [cellsLe]
  | succ n ih =>
    obtain ⟨hr, hp⟩ := ih (a + 1) (v / 256)
    have hr' : ∀ c ∈ cellsLe (a + 1) n (v / 256), (a ≤ c.1 ∧ c.1 < a + (n + 1)) ∧ c.2 ≠ 0 := fun c hc => by
      obtain ⟨⟨h1, h2⟩, h3⟩ := hr c hc
      exact ⟨⟨by omega, by omega⟩, h3⟩
    unfold cellsLe
    split
    · exact ⟨hr', hp⟩
    · next hv =>
      have hb : BitVec.ofNat 8 v ≠ 0 := fun e => hv (by simpa using congrArg BitVec.toNat e)
      refine ⟨List.forall_mem_cons.2 ⟨⟨⟨le_refl a, by omega⟩, hb⟩, hr'⟩, List.pairwise_cons.2 ⟨fun c hc => ?_, hp⟩⟩
      have := (hr c hc).1.1
      show a < c.1
      omega

/-- Writing bytes keeps a memory canonical. -/
theorem MemCanon.writeLe {m : Memory} {a n v : Nat} (h : MemCanon m) : MemCanon (writeLe m a n v) := by
  have hc := cellsLe_spec a n v
  rw [memCanon_iff] at h ⊢
  obtain ⟨hz, hp⟩ := h
  unfold Machine.writeLe
  constructor
  · intro c hm
    rw [List.mem_append, List.mem_append] at hm
    rcases hm with (hm | hm) | hm
    · exact hz c (List.mem_of_mem_filter hm)
    · exact (hc.1 c hm).2
    · exact hz c (List.mem_of_mem_filter hm)
  · rw [List.pairwise_append, List.pairwise_append]
    refine ⟨⟨hp.filter _, hc.2, fun c hm d hd => ?_⟩, hp.filter _, fun c hm d hd => ?_⟩
    · have h1 : c.1 < a := by simpa using (List.mem_filter.1 hm).2
      have := (hc.1 d hd).1.1
      omega
    · have h2 : a + n ≤ d.1 := by simpa using (List.mem_filter.1 hd).2
      rw [List.mem_append] at hm
      rcases hm with hm | hm
      · have h1 : c.1 < a := by simpa using (List.mem_filter.1 hm).2
        omega
      · have := (hc.1 c hm).1.2
        omega

/-- Moving the bytes from `base` on down to address 0 keeps their order. -/
theorem MemCanon.shiftDown {m : Memory} (h : MemCanon m) (base : Nat) (hb : ∀ c ∈ m, base ≤ c.1) :
    MemCanon (m.map (fun c => (c.1 - base, c.2))) := by
  rw [memCanon_iff] at h ⊢
  obtain ⟨hz, hp⟩ := h
  refine ⟨fun c hc => ?_, ?_⟩
  · obtain ⟨d, hd, rfl⟩ := List.mem_map.1 hc
    exact hz d hd
  · refine List.pairwise_map.2 (hp.imp_of_mem fun {c d} hc hd hlt => ?_)
    have := hb c hc
    show c.1 - base < d.1 - base
    omega

/-! ### Cores and states whose memories are canonical -/

/-- A core's own memories are canonical. -/
structure CoreCanon (k : Core) : Prop where
  imem : MemCanon k.imem
  spad : MemCanon k.spad

/-- The memories of all listed cores are canonical. -/
def CoresCanon (l : List (Nat × Core)) : Prop := ∀ e ∈ l, CoreCanon e.2

/-- Every memory of the machine is canonical. -/
structure Canon (s : State) : Prop where
  mem : MemCanon s.mem
  cores : CoresCanon s.cores

/-- An outcome that answers a next state answers one whose memories are canonical. -/
def OutCanon (o : Out) : Prop := ∀ t, o = .next t → Canon t

theorem coreSafe_iff (k : Core) : coreSafe k = true ↔ CoreCanon k := by
  rw [coreSafe, Bool.and_eq_true]
  exact ⟨fun h => ⟨h.1, h.2⟩, fun h => ⟨h.imem, h.spad⟩⟩

theorem memSafe_iff (s : State) : memSafe s = true ↔ Canon s := by
  simp only [memSafe, Bool.and_eq_true, List.all_eq_true, coreSafe_iff]
  exact ⟨fun h => ⟨h.1, h.2⟩, fun h => ⟨h.mem, h.cores⟩⟩

section
variable {s t : State} {k j : Core} {l : List (Nat × Core)} {m : Memory} {n : Nat}

/-- What leaves memory and cores as they are keeps them canonical. -/
theorem Canon.same (h : Canon s) (hm : t.mem = s.mem) (hc : t.cores = s.cores) : Canon t :=
  ⟨hm ▸ h.mem, hc ▸ h.cores⟩

/-- What leaves a core's own memories as they are keeps them canonical. -/
theorem CoreCanon.same (h : CoreCanon k) (hi : j.imem = k.imem) (hs : j.spad = k.spad) : CoreCanon j :=
  ⟨hi ▸ h.imem, hs ▸ h.spad⟩

theorem Canon.next (h : Canon s) : OutCanon (.next s) := fun _ e => Host.Outcome.next.inj e ▸ h

theorem OutCanon.state {o : Out} (h : OutCanon o) (e : o = .next t) : Canon t := h t e

theorem Core.reset_canon : CoreCanon Core.reset := ⟨memCanon_nil, memCanon_nil⟩

/-! #### Tables of cores -/

theorem CoresCanon.tget (h : CoresCanon l) : CoreCanon (tget l n Core.reset) := by
  rcases tget_mem l n Core.reset with e | e
  · rw [e]; exact Core.reset_canon
  · exact h _ e

theorem CoresCanon.tset (h : CoresCanon l) (hk : CoreCanon k) : CoresCanon (tset l n k) := fun e he => by
  rcases mem_tset l n k e he with rfl | he
  · exact hk
  · exact h e he

theorem CoresCanon.filter {p : Nat × Core → Bool} (h : CoresCanon l) : CoresCanon (l.filter p) :=
  fun e he => h e (List.mem_of_mem_filter he)

theorem CoresCanon.map {f : Nat × Core → Nat × Core} (h : CoresCanon l) (hf : ∀ e, CoreCanon e.2 → CoreCanon (f e).2) :
    CoresCanon (l.map f) :=
  fun e he => by
    obtain ⟨d, hd, rfl⟩ := List.mem_map.1 he
    exact hf d (h d hd)

theorem coresCanon_nil : CoresCanon [] := fun _ h => by cases h

theorem Canon.core (h : Canon s) : CoreCanon (s.core n) := h.cores.tget

theorem Canon.setCore (h : Canon s) (hk : CoreCanon k) : Canon (s.setCore n k) := ⟨h.mem, h.cores.tset hk⟩

end

/-- The state that stands first in a pair has canonical memories. -/
def FstCanon {α : Type} (r : State × α) : Prop := Canon r.1

/-! ### Branches, options, pairs and folds -/

section
variable {α β γ : Type}

/-- A branch has what both of its sides have. -/
theorem ite_keeps {P : α → Prop} {c : Prop} [Decidable c] {a b : α} (ha : P a) (hb : P b) : P (if c then a else b) := by
  split
  · exact ha
  · exact hb

/-- What an option says to do keeps what both of its cases keep. -/
theorem elim_keeps {P : β → Prop} {o : Option α} {b : β} {f : α → β} (h : P b) (hf : ∀ a, P (f a)) : P (o.elim b f) := by
  cases o with
  | none => exact h
  | some a => exact hf a

/-- A fold keeps what each of its steps keeps. -/
theorem foldl_keeps {P : β → Prop} {f : β → α → β} {l : List α} {b : β} (h : P b) (hf : ∀ b a, P b → P (f b a)) :
    P (l.foldl f b) := by
  induction l generalizing b with
  | nil => exact h
  | cons a t ih => exact ih (hf b a h)

/-- A fold keeps what each of its steps over an element of the list keeps. -/
theorem foldl_keeps_of_mem {P : β → Prop} {f : β → α → β} {l : List α} {b : β} (h : P b) (hf : ∀ b, ∀ a ∈ l, P b → P (f b a)) :
    P (l.foldl f b) := by
  induction l generalizing b with
  | nil => exact h
  | cons a t ih => exact ih (hf b a (.head t) h) (fun b c hc => hf b c (.tail a hc))

theorem Canon.ofFst {p : State × α} {a : α} {t : State} (h : Canon p.1) (e : p = (t, a)) : Canon t := by rw [e] at h; exact h

theorem Canon.ofSnd {p : α × State} {a : α} {t : State} (h : Canon p.2) (e : p = (a, t)) : Canon t := by rw [e] at h; exact h

end

/-! ### What accesses of units come to -/

section
variable {s t : State}

/-- What a context's read comes to: where it answers a state, that state's memories are canonical. -/
def CtxReadCanon (r : CtxRead) : Prop :=
  match r with
  | .hold _ => True
  | .trap _ s | .ok _ s => Canon s

theorem CtxReadCanon.trap {r : CtxRead} {a : Trap} (h : CtxReadCanon r) (e : r = .trap a t) : Canon t := by
  subst e; exact h

theorem CtxReadCanon.ok {r : CtxRead} {a : Nat} (h : CtxReadCanon r) (e : r = .ok a t) : Canon t := by
  subst e; exact h

/-- What an engine's read comes to: where it answers a state, that state's memories are canonical. -/
def EngReadCanon (r : EngRead) : Prop :=
  match r with
  | .wait _ | .fail _ => True
  | .ok _ s => Canon s

theorem EngReadCanon.ok {r : EngRead} {a : Nat} (h : EngReadCanon r) (e : r = .ok a t) : Canon t := by
  subst e; exact h

/-- What an engine's write comes to: where it answers a state, that state's memories are canonical. -/
def EngWriteCanon (r : EngWrite) : Prop :=
  match r with
  | .wait _ | .fail _ => True
  | .ok s => Canon s

theorem EngWriteCanon.ok {r : EngWrite} (h : EngWriteCanon r) (e : r = .ok t) : Canon t := by
  subst e; exact h

/-- What reading a shadow descriptor comes to: where it answers a state, that state's memories are canonical. -/
def ShadowEndCanon (r : ShadowEnd) : Prop :=
  match r with
  | .wait _ | .fail _ => True
  | .ok _ _ s => Canon s

theorem ShadowEndCanon.ok {r : ShadowEnd} {a : Shadow} {b : List Nat} (h : ShadowEndCanon r) (e : r = .ok a b t) : Canon t := by
  subst e; exact h

/-- What reading a member's elements comes to: where it answers a state, that state's memories are canonical. -/
def ElemsEndCanon (r : ElemsEnd) : Prop :=
  match r with
  | .wait _ | .fail _ _ => True
  | .ok _ s => Canon s

theorem ElemsEndCanon.ok {r : ElemsEnd} {a : List Nat} (h : ElemsEndCanon r) (e : r = .ok a t) : Canon t := by
  subst e; exact h

/-- What a phase of a collective comes to: where it answers a state, that state's memories are canonical. -/
def CollEndCanon {α : Type} (r : CollEnd α) : Prop :=
  match r with
  | .wait _ | .fail _ _ _ _ => True
  | .ok _ s => Canon s

theorem CollEndCanon.ok {α : Type} {r : CollEnd α} {a : α} (h : CollEndCanon r) (e : r = .ok a t) : Canon t := by
  subst e; exact h

/-- What writing a member's elements comes to: where it answers a state, that state's memories are canonical. -/
def PutEndCanon (r : PutEnd) : Prop :=
  match r with
  | .wait _ | .fail _ _ => True
  | .ok s => Canon s

theorem PutEndCanon.ok {r : PutEnd} (h : PutEndCanon r) (e : r = .ok t) : Canon t := by
  subst e; exact h

/-- What an access of a unit comes to: where it answers a state, that state's memories are canonical. -/
def UnitEndCanon (r : UnitEnd) : Prop :=
  match r with
  | .wait => True
  | .fail _ _ s | .ok _ s => Canon s

theorem UnitEndCanon.fail {r : UnitEnd} {a : BitVec 6} {b : Word} (h : UnitEndCanon r) (e : r = .fail a b t) : Canon t := by
  subst e; exact h

theorem UnitEndCanon.ok {r : UnitEnd} {a : Nat} (h : UnitEndCanon r) (e : r = .ok a t) : Canon t := by
  subst e; exact h

/-- What the check of a record comes to: where it answers a state, that state's memories are canonical. -/
def RecEndCanon (r : RecEnd) : Prop :=
  match r with
  | .wait => True
  | .ok _ s => Canon s

theorem RecEndCanon.ok {r : RecEnd} {a : MRecord} (h : RecEndCanon r) (e : r = .ok a t) : Canon t := by
  subst e; exact h

/-- What a read of LAUNCH comes to: where it answers a state, that state's memories are canonical. -/
def LaunchReadCanon (r : LaunchRead) : Prop :=
  match r with
  | .wait _ | .fault _ => True
  | .ok _ s => Canon s

theorem LaunchReadCanon.ok {r : LaunchRead} {a : Nat} (h : LaunchReadCanon r) (e : r = .ok a t) : Canon t := by
  subst e; exact h

end

/-! ### Machine/Base -/

/-! #### Tables -/

theorem Canon.setCluster {s : State} {n : ℕ} {k : Cluster} (h : Canon s) : Canon (s.setCluster n k) :=
  h.same rfl rfl

theorem CoreCanon.setCtx {k : Core} {i : ℕ} {x : Ctx} (hk : CoreCanon k) : CoreCanon (k.setCtx i x) :=
  hk.same rfl rfl

theorem Canon.setCtx {s : State} {c : CtxId} {x : Ctx} (h : Canon s) : Canon (s.setCtx c x) :=
  h.setCore h.core.setCtx

theorem Canon.mine {s : State} (h : Canon s) : CoreCanon s.mine :=
  h.core

theorem Canon.setMe {s : State} {x : Ctx} (h : Canon s) : Canon (s.setMe x) :=
  h.setCtx

theorem Canon.setMine {s : State} {k : Core} (h : Canon s) (hk : CoreCanon k) : Canon (s.setMine k) :=
  h.setCore hk

theorem Canon.setPart {s : State} {p : ℕ} {q : Part} (h : Canon s) : Canon (s.setPart p q) :=
  h.same rfl rfl

/-! ### Machine/Flags -/

theorem Canon.accrue {c : CtxId} {f : BitVec 8} {s : State} (h : Canon s) : Canon (accrue c f s) :=
  h.setCtx

/-! ### Machine/Mem -/

/-! #### Lines -/

theorem CoreCanon.l1Drop {k : Core} {line : ℕ} (hk : CoreCanon k) : CoreCanon (k.l1Drop line) :=
  hk.same rfl rfl

theorem CoreCanon.l1Put {k : Core} {e : L1Line} (hk : CoreCanon k) : CoreCanon (k.l1Put e) :=
  hk.same rfl rfl

theorem Canon.mapCores {s : State} {f : ℕ → Core → Core} (h : Canon s) (hf : ∀ (n : ℕ) (j : Core), CoreCanon j → CoreCanon (f n j)) :
    Canon (s.mapCores f) :=
  ⟨h.mem, CoresCanon.map h.cores (fun _ h1 => hf _ _ h1)⟩

theorem Canon.rawWrite {s : State} {pa n v : ℕ} (h : Canon s) : Canon (rawWrite s pa n v) :=
  ⟨h.mem.writeLe, h.cores⟩

theorem Canon.setFar {s : State} {c : FarCopy} (h : Canon s) : Canon (setFar s c) :=
  h.same rfl rfl

theorem Canon.setBacking {s : State} {die line : ℕ} {d : CLine} (h : Canon s) : Canon (setBacking s die line d) := by
  unfold Machine.setBacking
  split
  · exact h.setFar
  · exact h.rawWrite

theorem Canon.cleanse {s : State} {line off n : ℕ} (h : Canon s) : Canon (cleanse s line off n) :=
  h.same rfl rfl

theorem Canon.writeBack {s : State} {die line : ℕ} {d : CLine} (h : Canon s) : Canon (writeBack s die line d) :=
  h.setBacking.cleanse

theorem Canon.recallO {s : State} {die line : ℕ} (h : Canon s) : Canon (recallO s die line) := by
  unfold Machine.recallO
  split
  · exact h
  · split
    · exact h
    · exact Canon.setCore (ite_keeps h.writeBack h) (CoreCanon.l1Put (Canon.core (ite_keeps h.writeBack h)))

theorem Canon.invalidate {s : State} {die line : ℕ} {keep : Option ℕ} (h : Canon s) : Canon (invalidate s die line keep) := by
  unfold Machine.invalidate
  exact Canon.mapCores h.recallO fun _ _ h1 => ite_keeps h1.l1Drop h1

theorem CoreCanon.dropT {k : Core} {range : Option (ℕ × ℕ)} (hk : CoreCanon k) : CoreCanon (dropT k range) :=
  hk.same rfl rfl

theorem Canon.dropOwnT {s : State} {core line : ℕ} (h : Canon s) : Canon (dropOwnT s core line) :=
  h.setCore (CoreCanon.same h.core rfl rfl)

/-! #### Far homes (R333) -/

theorem Canon.dropFar {s : State} {line die : ℕ} (h : Canon s) : Canon (dropFar s line die) :=
  Canon.same h.invalidate rfl rfl

theorem Canon.farRecall {s : State} {line : ℕ} (h : Canon s) : Canon (farRecall s line) := by
  unfold Machine.farRecall
  split
  · exact h
  · exact h.invalidate.dropFar.rawWrite

theorem Canon.farEvict {s : State} {line die : ℕ} (h : Canon s) : Canon (farEvict s line die) :=
  ite_keeps h.farRecall h.dropFar

theorem Canon.farRoom {s : State} {die line : ℕ} (h : Canon s) : Canon (farRoom s die line) :=
  ite_keeps h (elim_keeps h fun _ => h.farEvict)

theorem Canon.farFetch {s : State} {die line : ℕ} (h : Canon s) : Canon (farFetch s die line) := by
  unfold Machine.farFetch
  split
  · exact h.setFar
  · exact h.farRecall.farRoom.setFar

theorem Canon.farGrant {s : State} {die line : ℕ} {d : CLine} (h : Canon s) : Canon (farGrant s die line d) :=
  Canon.setFar (h.same rfl rfl)

theorem Canon.freshen {s : State} {die line : ℕ} (h : Canon s) : Canon (freshen s die line) :=
  ite_keeps h.invalidate h

theorem Canon.farOwn {s : State} {die line : ℕ} (h : Canon s) : Canon (farOwn s die line) := by
  unfold Machine.farOwn
  split
  · exact h.setFar
  · exact Canon.farGrant (ite_keeps h.freshen.farRecall h.freshen.farRecall.farRoom)

theorem Canon.farInvalidated {s : State} {line die : ℕ} (h : Canon s) : Canon (farInvalidated s line die) :=
  ite_keeps h.dropFar h

theorem Canon.farSettle {s : State} {line : ℕ} (h : Canon s) : Canon (farSettle s line) :=
  Canon.farRecall (foldl_keeps (P := Canon) h fun _ _ h1 => h1.farInvalidated)

theorem Canon.farClear {s : State} {line : ℕ} (h : Canon s) : Canon (farClear s line) :=
  foldl_keeps (P := Canon) h.farSettle fun _ _ h1 => h1.dropFar

theorem Canon.bring {s : State} {die line : ℕ} (h : Canon s) : Canon (bring s die line) :=
  ite_keeps h.farFetch h

theorem Canon.bringOwned {s : State} {die line : ℕ} (h : Canon s) : Canon (bringOwned s die line) :=
  ite_keeps h.farOwn h

/-! #### Fills and pushes -/

theorem Canon.evictFor {s : State} {core line : ℕ} (h : Canon s) : Canon (evictFor s core line) := by
  unfold Machine.evictFor
  extract_lets _ k
  have h1 : CoreCanon k := CoreCanon.same h.core rfl rfl
  split
  · exact h.setCore h1
  · split
    · exact h.setCore h1
    · extract_lets s1
      have h2 : Canon s1 := ite_keeps ((h.setCore h1).writeBack) (h.setCore h1)
      exact h2.setCore h2.core.l1Drop

theorem Canon.fillLine {s : State} {core line : ℕ} {st : L1State} {data : CLine} {va : Word} {bad : Bool} (h : Canon s) :
    Canon (fillLine s core line st data va bad) :=
  ((h.setCore h.core.l1Drop).evictFor).setCore ((((h.setCore h.core.l1Drop).evictFor).core).l1Put)

theorem Canon.noteAccepted {s : State} {p : Push} (h : Canon s) : Canon (noteAccepted s p) :=
  h.same rfl rfl

theorem Canon.pushArrive {s : State} {p : Push} (h : Canon s) : Canon (pushArrive s p) := by
  unfold Machine.pushArrive
  extract_lets s1 k deny refuse
  have hs : Canon s1 := Canon.farInvalidated (h.same rfl rfl)
  clear_value s1
  have hdeny {t : State} (ht : Canon t) : Canon (deny t) := ht.setCore (ht.core.same rfl rfl)
  have hrefuse : Canon (refuse s1) := hdeny (hs.setCore (hs.core.same rfl rfl))
  exact ite_keeps (hdeny hs) (ite_keeps hs.noteAccepted (ite_keeps hrefuse (ite_keeps hrefuse hs.bring.fillLine.noteAccepted)))

theorem Canon.flushPushes {s : State} {line : ℕ} (h : Canon s) : Canon (flushPushes s line) :=
  foldl_keeps (P := Canon) h fun _ _ h1 => h1.pushArrive

/-! #### Accesses at the home -/

theorem Canon.homeRead {s : State} {die line : ℕ} (h : Canon s) : Canon (homeRead s die line).1 :=
  h.bring.recallO

theorem Canon.homeWrite {s : State} {die pa n v : ℕ} (h : Canon s) : Canon (homeWrite s die pa n v) :=
  h.flushPushes.bringOwned.invalidate.setBacking.cleanse

theorem Canon.countMiss {s : State} {core : ℕ} (h : Canon s) : Canon (countMiss s core) :=
  h.setCore (CoreCanon.same h.core rfl rfl)

theorem Canon.countPush {s : State} {core : ℕ} (h : Canon s) : Canon (countPush s core) :=
  h.setCore (CoreCanon.same h.core rfl rfl)

theorem Canon.useLine {s : State} {core : ℕ} {e : L1Line} (h : Canon s) : Canon (useLine s core e) := by
  unfold Machine.useLine
  split
  · exact (h.setCore h.core.l1Put).countPush
  · exact h.setCore h.core.l1Put

theorem Canon.fillOwned {s : State} {core line : ℕ} (h : Canon s) : Canon (fillOwned s core line) :=
  h.flushPushes.bringOwned.invalidate.fillLine

theorem Canon.fillExclusive {s : State} {core line : ℕ} (h : Canon s) : Canon (fillExclusive s core line) :=
  h.flushPushes.bring.invalidate.fillLine

theorem Canon.loadLine {s : State} {core : Nat} {rt : BitVec 2} {pa n : Nat} {va : Word} (h : Canon s) :
    Canon (loadLine s core rt pa n va).1 := by
  unfold Machine.loadLine
  extract_lets line off die hit atHome fill fillO absent
  have hHit (t : State) (e : L1Line) (ht : Canon t) : Canon (hit t e).1 := ht.useLine
  have hHome (t : State) (ht : Canon t) : Canon (atHome t).1 := ite_keeps (P := FstCanon) ht.countMiss.homeRead ht.countMiss.homeRead
  have hFill (t : State) (st : L1State) (ht : Canon t) : Canon (fill t st).1 :=
    ite_keeps (P := FstCanon) ht.countMiss.homeRead ht.countMiss.homeRead.fillLine
  have hFillO (t : State) (ht : Canon t) : Canon (fillO t).1 :=
    ite_keeps (P := FstCanon) ht.countMiss.homeRead ht.countMiss.homeRead.fillExclusive
  have hAbsent (t : State) (ht : Canon t) : Canon (absent t).1 :=
    ite_keeps (P := FstCanon) (hFillO t ht)
      (ite_keeps (P := FstCanon) (hFill t _ ht) (ite_keeps (P := FstCanon) (hFill t _ ht) (hHome t ht)))
  split
  · next e _ =>
    split
    · exact ite_keeps (P := FstCanon) (hHit _ _ h) (hAbsent _ (h.setCore h.core.l1Drop))
    · have hw : Canon (if e.dirty then Machine.writeBack s die line e.data else s) := ite_keeps h.writeBack h
      exact ite_keeps (P := FstCanon) (hHome _ (hw.setCore hw.core.l1Put)) (hHit _ _ h)
    · exact ite_keeps (P := FstCanon) (hHome _ h) (hHit _ _ h)
    · exact ite_keeps (P := FstCanon) (hHome _ h.useLine) (hHit _ _ h)
  · exact hAbsent _ h

theorem Canon.l1Write {s : State} {core pa n v : ℕ} (h : Canon s) : Canon (l1Write s core pa n v) := by
  unfold Machine.l1Write
  split
  · exact h.setCore h.core.l1Put
  · exact h

theorem Canon.storeLine {s : State} {core : ℕ} {rt : BitVec 2} {pa n v : ℕ} (h : Canon s) : Canon (storeLine s core rt pa n v) := by
  unfold Machine.storeLine
  extract_lets
  split
  · exact h.l1Write
  · split
    · extract_lets s1 s2
      have h1 : Canon s1 := ite_keeps h.flushPushes.countPush h.flushPushes
      have h2 : Canon s2 := ite_keeps h1.writeBack h1
      split
      · exact (h2.setCore h2.core.l1Drop).homeWrite
      · exact ite_keeps h1.fillOwned.l1Write (((h1.setCore h1.core.l1Drop).homeWrite).fillLine)
    · exact ite_keeps h.flushPushes.countMiss.fillOwned.l1Write h.flushPushes.countMiss.homeWrite

theorem Canon.storeHome {s : State} {core pa n v : ℕ} (h : Canon s) : Canon (storeHome s core pa n v) := by
  unfold Machine.storeHome
  extract_lets _ s1
  have h1 : Canon s1 := by
    unfold s1
    split
    · exact ite_keeps (Canon.setCore (ite_keeps h.writeBack h) h.core.l1Put) h
    · exact h
  exact h1.storeLine

/-! #### Copies that peers hold (R434, R438) -/

theorem Canon.askPeers {lines : List ℕ} {alone : Bool} {till : ℕ} {s : State} (h : Canon s) : Canon (askPeers lines alone till s) :=
  h.same rfl rfl

theorem Canon.drawLine {n : ℕ} {s : State} (h : Canon s) : Canon (drawLine n s).2 := by
  induction n generalizing s with
  | zero =>
    exact h
  | succ n ih =>
    exact ih (h.same rfl rfl)

theorem Canon.takePeerCopies {line : ℕ} {alone : Bool} {s : State} (h : Canon s) : Canon (takePeerCopies line alone s) := by
  unfold Machine.takePeerCopies
  extract_lets written s1 r
  have h1 : Canon s1 := h.same rfl rfl
  clear_value s1
  exact ite_keeps (ite_keeps h1.drawLine.rawWrite.cleanse h1) h

theorem Canon.deviceWrite {s : State} {pa n v : ℕ} (h : Canon s) : Canon (deviceWrite s pa n v) :=
  ite_keeps h.takePeerCopies.flushPushes.farClear.rawWrite.cleanse h.takePeerCopies.homeWrite

theorem Canon.ownWrite {p pa n v : ℕ} {s : State} (h : Canon s) : Canon (ownWrite p pa n v s) :=
  ite_keeps (h.same rfl rfl) h.deviceWrite

theorem Canon.deviceRead {s : State} {pa n : ℕ} (h : Canon s) : Canon (deviceRead s pa n).1 := by
  unfold Machine.deviceRead
  extract_lets _ s1 r
  have h1 : Canon s1 := ite_keeps h.takePeerCopies.farSettle h.takePeerCopies
  have h2 : Canon r.1 := by
    unfold r
    split
    · exact h1
    · exact h1.homeRead
  exact h2

/-! ### Machine/Ops -/

/-! #### Registers and ports -/

theorem CoreCanon.countRecv {k : Core} {w : PortWord} (hk : CoreCanon k) : CoreCanon (k.countRecv w) :=
  hk.same rfl rfl

theorem CoreCanon.pop {k : Core} {q : ℕ} (hk : CoreCanon k) : CoreCanon (k.pop q) := by
  unfold Machine.Core.pop
  split
  · exact hk
  · exact CoreCanon.countRecv (hk.same rfl rfl)

theorem Canon.popPorts {rs : List Reg} {s : State} (h : Canon s) : Canon (popPorts rs s) :=
  foldl_keeps (P := Canon) h fun _ _ h1 => ite_keeps (h1.setMine h1.mine.pop) h1

theorem Canon.sendWord {s : State} {c : CtxId} {q : ℕ} {v : Word} {kept : Option Word} (h : Canon s) : Canon (sendWord s c q v kept) :=
  Canon.setCtx (Canon.setCore (h.same rfl rfl) (CoreCanon.same h.core rfl rfl))

theorem Canon.writeResult {s : State} {c : CtxId} {r : Reg} {v : Word} {flags : BitVec 8} {kept : Option Word} (h : Canon s) :
    Canon (writeResult s c r v flags kept) :=
  ite_keeps h.setCtx.sendWord h.setCtx.setCtx

theorem Canon.accrueAt {c : CtxId} {due : ℕ} {f : BitVec 8} {s : State} (h : Canon s) : Canon (accrueAt c due f s) :=
  ite_keeps h h.setCtx

theorem Canon.showFixed {c : CtxId} {e : Inflight} {s : State} (h : Canon s) : Canon (showFixed c e s) :=
  ite_keeps h.setCtx.writeResult h.setCtx.writeResult.accrueAt

theorem Canon.showVar {c : CtxId} {e : VarResult} {s : State} (h : Canon s) : Canon (showVar c e s) :=
  h.setCtx.writeResult

theorem Canon.settleDue {c : CtxId} {n : ℕ} {s : State} (h : Canon s) : Canon (settleDue c n s) := by
  induction n generalizing s with
  | zero =>
    exact h
  | succ n ih =>
    unfold Machine.settleDue
    split
    · exact h
    · exact ih h.showFixed
    · exact ih h.showVar

theorem Canon.settle {s : State} {c : CtxId} (h : Canon s) : Canon (settle s c) :=
  h.settleDue

theorem Canon.settleFixed {c : CtxId} {n : ℕ} {s : State} (h : Canon s) : Canon (settleFixed c n s) := by
  induction n generalizing s with
  | zero =>
    exact h
  | succ n ih =>
    unfold Machine.settleFixed
    split
    · exact h
    · exact ih h.showFixed

theorem Canon.settleAll {s : State} {c : CtxId} (h : Canon s) : Canon (settleAll s c) :=
  h.setCtx.settleFixed

theorem Canon.produce {latency : ℕ} {d : Reg} {v : Word} {flags : BitVec 8} {s : State} (h : Canon s) : Canon (produce latency d v flags s)
    :=
  ite_keeps h h.setMe

theorem Canon.produceFpu {latency : ℕ} {d : Reg} {v : Word} {flags : BitVec 8} {s : State} (h : Canon s) :
    Canon (produceFpu latency d v flags s) :=
  h.setMe

theorem Canon.deliver {d : Reg} {v : Word} {s : State} (h : Canon s) : Canon (deliver d v s) :=
  h.writeResult

theorem Canon.produceLater {latency : ℕ} {d : Reg} {v : Word} {flags : BitVec 8} {s : State} (h : Canon s) :
    Canon (produceLater latency d v flags s) :=
  h.setMe

theorem Canon.produceFpuLater {latency : ℕ} {d : Reg} {v : Word} {flags : BitVec 8} {s : State} (h : Canon s) :
    Canon (produceFpuLater latency d v flags s) :=
  h.setMe

/-! #### The curtain tree (R386) -/

theorem Canon.discloseCore {p : ℕ} {s : State} {core : ℕ} (h : Canon s) : Canon (discloseCore p s core) :=
  foldl_keeps (P := Canon) h.ownWrite.ownWrite fun _ _ h1 => h1.ownWrite

theorem Canon.curtainStop {p : ℕ} {reason : BitVec 2} {s : State} (h : Canon s) : Canon (curtainStop p reason s) := by
  unfold Machine.curtainStop
  extract_lets q s1 s2 s3
  have h1 : Canon s1 := h.setPart
  have h2 : Canon s2 := h1.same rfl rfl
  have h3 : Canon s3 := foldl_keeps h2 fun b i hb => foldl_keeps hb.setCluster fun _ _ hc => hc.discloseCore
  exact ite_keeps h3.ownWrite h

/-! #### Troupes: detachment (R268) -/

theorem Canon.mapTroupe {core : ℕ} {f : Troupe → Option Troupe} {s : State} (h : Canon s) : Canon (mapTroupe core f s) :=
  h.setCluster

theorem Canon.markDetached {core : ℕ} {s : State} (h : Canon s) : Canon (markDetached core s) :=
  h.mapTroupe

theorem Canon.detach {core : ℕ} {s : State} (h : Canon s) : Canon (detach core s) :=
  Canon.setCore h.markDetached (CoreCanon.setCtx (CoreCanon.same h.markDetached.core rfl rfl))

theorem Canon.forward {e : FwdEntry} {s : State} {core : ℕ} (h : Canon s) : Canon (forward e s core) :=
  h.setCore (CoreCanon.same h.core rfl rfl)

theorem Canon.forwardIssued {w : IWord} {taken : Bool} {s0 s : State} (h : Canon s) : Canon (forwardIssued w taken s0 s) :=
  ite_keeps (foldl_keeps (P := Canon) h fun _ _ h1 => h1.forward) h

theorem Canon.endStream {pc : Word} {frame : Option Frame} {mark : Bool} {s : State} (h : Canon s) : Canon (endStream pc frame mark s) :=
  ite_keeps (foldl_keeps (P := Canon) h fun _ _ h1 => ite_keeps h1.forward.markDetached h1.forward) h

theorem Canon.asCtx {c : CtxId} {f : State → State} {s : State} (h : Canon s) (hf : ∀ t : State, Canon t → Canon (f t)) :
    Canon (asCtx c f s) := by
  unfold Machine.asCtx
  have h1 : Canon (f { s with cur := c }) := hf _ (h.same rfl rfl)
  exact h1.same rfl rfl

/-! #### Taking an exception -/

theorem Canon.takeTrap {t : Trap} {tpc : Word} {s : State} (h : Canon s) : Canon (takeTrap t tpc s) := by
  unfold Machine.takeTrap
  extract_lets _ _ _ _ _ _ s1 _ _ s2
  have h1 : Canon s1 := ite_keeps h.settleAll.endStream.detach h.settleAll.endStream
  have h2 : Canon s2 := Canon.same h1.setMe rfl rfl
  exact ite_keeps h2 h2.setCluster.curtainStop

theorem Canon.slotTaken {s : State} (h : Canon s) : Canon (slotTaken s) :=
  h.setMine (CoreCanon.same h.mine rfl rfl)

theorem Canon.trap {t : Trap} {s : State} (h : Canon s) : OutCanon (trap t s) :=
  h.takeTrap.slotTaken.next

theorem Canon.trapAt {cause : BitVec 6} {tval : Word} {s : State} (h : Canon s) : OutCanon (trapAt cause tval s) :=
  h.trap

/-! #### How a helper ends (R140, R141, R327) -/

theorem Canon.dropTenures {c : CtxId} {s : State} (h : Canon s) : Canon (dropTenures c s) :=
  h.setPart

theorem Canon.dropResults {c : CtxId} {s : State} (h : Canon s) : Canon (dropResults c s) :=
  h.same rfl rfl

theorem Canon.endHelper {c : CtxId} {value : Word} {killed : Bool} {s : State} (h : Canon s) : Canon (endHelper c value killed s) :=
  Canon.setCtx (Canon.setCore h.dropTenures.dropResults (CoreCanon.same h.dropTenures.dropResults.core rfl rfl))

/-! #### How an instruction ends -/

theorem Canon.issued {w : BitVec 3} {s : State} (h : Canon s) : Canon (issued w s) :=
  Canon.setMe (Canon.setMine h.slotTaken (CoreCanon.same h.slotTaken.mine rfl rfl))

theorem Canon.retireAt {w : BitVec 3} {move : Ctx → Ctx} {s : State} (h : Canon s) : Canon (retireAt w move s) :=
  Canon.same h.issued.setMe rfl rfl

theorem Canon.spaced {w : BitVec 3} {s : State} (h : Canon s) : Canon (spaced w s) :=
  h.setMe

theorem Canon.finish {w : BitVec 3} {rs : List Reg} {s : State} (h : Canon s) : Canon (finish w rs s) :=
  h.popPorts.retireAt

theorem Canon.finishAt {w : BitVec 3} {rs : List Reg} {t : Word} {s : State} (h : Canon s) : Canon (finishAt w rs t s) :=
  h.popPorts.retireAt

theorem Canon.held {s : State} (h : Canon s) : Canon (held s) := by
  unfold Machine.held
  extract_lets k s1
  have h1 : Canon s1 := h.setMine (h.mine.same rfl rfl)
  exact Canon.same h1.setMe rfl rfl

theorem Canon.hold {s : State} (h : Canon s) : OutCanon (hold s) :=
  h.held.next

/-! #### Returning from an exception -/

theorem Canon.returnFrom {w : BitVec 3} {s : State} (h : Canon s) : OutCanon (returnFrom w s) := by
  unfold Machine.returnFrom
  extract_lets x t f s1
  have h1 : Canon s1 := h.setMe
  clear_value f
  cases f with
  | some f => exact ite_keeps h1.retireAt.next h1.spaced.takeTrap.slotTaken.next
  | none =>
    dsimp only
    split
    · exact h1.spaced.takeTrap.slotTaken.next
    · exact h1.retireAt.next

/-! #### What comes before an instruction's own checks -/

theorem Canon.issueThen {rs ds : List Reg} {s : State} {k : State → Out} (h : Canon s) (hk : ∀ (t : State), Canon t → OutCanon (k t)) :
    OutCanon (issueThen rs ds s k) := by
  unfold Machine.issueThen
  split
  · exact h.hold
  · exact h.trap
  · exact hk _ h

theorem Canon.destThen {d : Reg} {s : State} {k : State → Out} (h : Canon s) (hk : ∀ (t : State), Canon t → OutCanon (k t)) :
    OutCanon (destThen d s k) := by
  unfold Machine.destThen
  split
  · exact h.trap
  · exact hk _ h

theorem Canon.holdThen {b : Bool} {s : State} {k : State → Out} (h : Canon s) (hk : ∀ (t : State), Canon t → OutCanon (k t)) :
    OutCanon (holdThen b s k) :=
  ite_keeps h.hold (hk _ h)

theorem Canon.failThen {t : Option Trap} {s : State} {k : State → Out} (h : Canon s) (hk : ∀ (t : State), Canon t → OutCanon (k t)) :
    OutCanon (failThen t s k) := by
  unfold Machine.failThen
  split
  · exact h.trap
  · exact hk _ h

theorem Canon.privThen {level : BitVec 2} {word : IWord} {s : State} {k : State → Out} (h : Canon s)
    (hk : ∀ (t : State), Canon t → OutCanon (k t)) : OutCanon (privThen level word s k) :=
  ite_keeps h.trapAt (hk _ h)

theorem Canon.ctx0Then {word : IWord} {s : State} {k : State → Out} (h : Canon s) (hk : ∀ (t : State), Canon t → OutCanon (k t)) :
    OutCanon (ctx0Then word s k) :=
  ite_keeps h.trapAt (hk _ h)

theorem Canon.completeWith {w : BitVec 3} {rs : List Reg} {d : Reg} {v : Word} {s : State} (h : Canon s) :
    OutCanon (completeWith w rs d v s) :=
  h.destThen fun _ h1 => h1.deliver.finish.next

theorem Canon.draw {s : State} (h : Canon s) : Canon (draw s).2 :=
  h.same rfl rfl

/-! ### Machine/Translate -/

/-! #### The translation of an access (R305–R308, R311) -/

theorem Canon.tlbFill {x : Xctx} {t : TlbEntry} {s : State} (h : Canon s) : Canon (tlbFill x t s) :=
  h.setCluster

/-! #### From an address to a location -/

theorem Canon.resolve {s : State} {x : Xctx} {va : Word} {size : ℕ} {n : Need} (h : Canon s) : Canon (resolve s x va size n).1 := by
  unfold Machine.resolve
  split
  · split
    · exact h
    · exact h.tlbFill
  · split
    · exact h
    · exact h.tlbFill

/-! ### Machine/Access -/

/-! #### Tiles and tenures (R317, R321, R324, R326) -/

theorem Canon.dropLines {core lo hi : ℕ} {s : State} (h : Canon s) : Canon (dropLines core lo hi s) := by
  unfold Machine.dropLines
  extract_lets _ s1
  have h1 : Canon s1 := foldl_keeps (P := Canon) h fun _ _ h1 => ite_keeps h1.writeBack h1
  exact h1.setCore (CoreCanon.same h1.core rfl rfl)

theorem Canon.revoke {h : Tenure × Tile} {s : State} (hs : Canon s) : Canon (revoke h s) :=
  Canon.same hs.dropLines rfl rfl

theorem Canon.revokeFor {c : CtxId} {line : ℕ} {write : Bool} {s : State} (h : Canon s) : Canon (revokeFor c line write s) :=
  foldl_keeps (P := Canon) h fun _ _ h1 => h1.revoke

theorem Canon.tellLost {s : State} {c : CtxId} {id : ℕ} (h : Canon s) : Canon (tellLost s c id) :=
  h.setPart

/-! #### The retry ring (R379–R382) -/

theorem Canon.completeEntry {p n : ℕ} {s : State} (h : Canon s) : Canon (completeEntry p n s) := by
  unfold Machine.completeEntry
  extract_lets
  split
  · exact h
  · exact h.ownWrite.setPart.setCtx

theorem Canon.wakeService {p : ℕ} {s : State} (h : Canon s) : Canon (wakeService p s) :=
  ite_keeps h.setCtx h

theorem Canon.appendEntry {c : CtxId} {pc va data : Word} {word : IWord} {load : Bool} {reg : Reg} {aux : Word} {size : ℕ}
    {kind : BitVec 3} {acq : Bool} {s : State} {route : Option Word} (h : Canon s) :
    Canon (appendEntry c pc va data word load reg aux size kind acq s route) := by
  unfold Machine.appendEntry
  extract_lets p q n a s1 s2 s3 s4 q' s5 x s6
  have h4 : Canon s4 := h.deviceWrite.deviceWrite.deviceWrite.deviceWrite
  have h6 : Canon s6 := h4.setPart.setCtx
  clear_value s6
  exact Canon.wakeService (h6.same rfl rfl)

theorem Canon.endReplay {q : Req} {s : State} (h : Canon s) : Canon (endReplay q s) := by
  unfold Machine.endReplay
  split
  · exact h.completeEntry
  · exact h

/-! #### Performing (R231, R240, R308, R334, R426, R433) -/

theorem Canon.setReq {s : State} {id : ℕ} {f : Req → Req} (h : Canon s) : Canon (setReq s id f) :=
  h.same rfl rfl

theorem Canon.dropReq {s : State} {id : ℕ} (h : Canon s) : Canon (dropReq s id) :=
  h.same rfl rfl

theorem Canon.noteFailed {q : Req} {s : State} (h : Canon s) : Canon (noteFailed q s) :=
  ite_keeps h h.setCtx

theorem Canon.raiseDeferred {c : CtxId} {cause : BitVec 6} {pc va : Word} {order : ℕ} {s : State} (h : Canon s) :
    Canon (raiseDeferred c cause pc va order s) :=
  h.setCtx

theorem Canon.acquireAt {c : CtxId} {scope : BitVec 3} {s : State} (h : Canon s) : Canon (acquireAt c scope s) :=
  ite_keeps (h.setCore h.core.dropT) h

theorem Canon.acquired {q : Req} {s : State} (h : Canon s) : Canon (acquired q s) :=
  ite_keeps h.acquireAt h

theorem Canon.storeOver {q : Req} {poison gone : Bool} {s : State} (h : Canon s) : Canon (storeOver q poison gone s) :=
  ite_keeps (ite_keeps h h.raiseDeferred) (ite_keeps h.noteFailed h)

theorem Canon.performedReq {q : Req} {v : Word} {poison gone : Bool} {s : State} (h : Canon s) : Canon (performedReq q v poison gone s)
    := by
  unfold Machine.performedReq
  extract_lets
  split
  · exact h.acquired.dropReq.endReplay.storeOver
  · split
    · exact h.acquired.setReq.storeOver
    · exact h.acquired.setReq

theorem Canon.addDelay {core slice d : ℕ} {s : State} (h : Canon s) : Canon (addDelay core slice d s) :=
  h.setCore (CoreCanon.same h.core rfl rfl)

theorem Canon.countDelay {core slice : ℕ} {s : State} (h : Canon s) : Canon (countDelay core slice s) :=
  Canon.addDelay (h.same rfl rfl)

theorem Canon.countPeerDelay {core : ℕ} {s : State} (h : Canon s) : Canon (countPeerDelay core s) :=
  Canon.addDelay (h.same rfl rfl)

theorem Canon.multicast {c : CtxId} {part : ℕ} {va : Word} {others : List RepSlot} {n v : ℕ} {s : State} (h : Canon s) :
    Canon (multicast c part va others n v s) :=
  foldl_keeps (P := Canon) h fun _ _ h1 => (h1.same rfl rfl)

theorem Canon.doorbell {p pa n : ℕ} {s : State} (h : Canon s) : Canon (doorbell p pa n s) :=
  ite_keeps (h.same rfl rfl) h

theorem Canon.noteFarWrite {c : CtxId} {va : Word} {n pa : ℕ} {s : State} (h : Canon s) : Canon (noteFarWrite c va n pa s) :=
  ite_keeps (h.same rfl rfl) h

theorem Canon.lateAnswer {p : ℕ} {s : State} (h : Canon s) : Canon (lateAnswer p s).2 :=
  h.draw

theorem Canon.lateFar {c : CtxId} {line : ℕ} {write : Bool} {s : State} (h : Canon s) : Canon (lateFar c line write s).2 := by
  unfold Machine.lateFar
  extract_lets
  split
  · exact h.lateAnswer
  · exact h

theorem Canon.amoAtHome {s : State} {core pa n : ℕ} {sys writes : Bool} {f : ℕ → Option ℕ} (h : Canon s) :
    Canon (amoAtHome s core pa n sys writes f).1 := by
  unfold Machine.amoAtHome
  extract_lets _ _ _ s1 s2 s3
  have h1 : Canon s1 := ite_keeps h.dropOwnT.flushPushes.countPush h.dropOwnT.flushPushes
  have h2 : Canon s2 := ite_keeps h1.farSettle h1
  have h3 : Canon s3 := Canon.invalidate (ite_keeps h2.bringOwned h2.bring)
  split
  · exact h3
  · split
    · exact h3
    · exact h3.homeWrite

theorem Canon.amoHere {s : State} {core pa n : ℕ} {writes : Bool} {f : ℕ → Option ℕ} (h : Canon s) :
    Canon (amoHere s core pa n writes f).1 := by
  unfold Machine.amoHere
  extract_lets
  split
  · exact ite_keeps h.fillOwned h
  · exact Canon.l1Write (ite_keeps h.fillOwned h)

theorem Canon.amoFor {by_ : AmoBy} {pa : ℕ} {others : List RepSlot} {scope : BitVec 3} {sys writes : Bool} {n : ℕ} {f : ℕ → Option ℕ}
    {s : State} (h : Canon s) : Canon (amoFor by_ pa others scope sys writes n f s).1 := by
  unfold Machine.amoFor
  extract_lets
  split
  · exact ite_keeps h.amoHere.noteFarWrite.doorbell h.amoHere
  · dsimp only
    split
    · exact ite_keeps h.amoAtHome h.amoAtHome.noteFarWrite.multicast.doorbell
    · exact h.amoAtHome

theorem Canon.amoCounted {by_ : AmoBy} {pa : ℕ} {others : List RepSlot} {scope : BitVec 3} {sys writes : Bool} {n : ℕ} {f : ℕ → Option ℕ}
    {s : State} (h : Canon s) : Canon (amoCounted by_ pa others scope sys writes n f s).1 :=
  Canon.amoFor (ite_keeps h h.countDelay)

theorem Canon.sendPushes {q : Req} {line : ℕ} {targets : List (ℕ × ℕ)} {s : State} (h : Canon s) : Canon (sendPushes q line targets s) :=
  foldl_keeps (P := Canon) h fun _ _ h1 => (h1.same rfl rfl)

theorem Canon.vamoStep {q : Req} {ty : BitVec 2} {data : BitVec 1024} {left : BitVec 64} {run : ℕ → (ℕ → ℕ) → State → State × Bool}
    {s : State} (h : Canon s) (hrun : ∀ (n : ℕ) (f : ℕ → ℕ) (t : State), Canon t → Canon (run n f t).1) :
    Canon (vamoStep q ty data left run s) := by
  unfold Machine.vamoStep
  extract_lets l e n src r rest
  have hr : Canon r.1 := hrun _ _ _ (h.same rfl rfl)
  exact ite_keeps hr.performedReq hr.setReq

theorem Canon.performMem {q : Req} {pa : ℕ} {others : List RepSlot} {s : State} (h : Canon s) : Canon (performMem q pa others s) := by
  unfold Machine.performMem
  extract_lets _ _ _ _ r _ s1 _ _ _ s2
  have h1 : Canon r.1 := Canon.loadLine (ite_keeps h h.countDelay)
  have h2 : Canon s1 := Canon.storeLine (ite_keeps h h.countDelay)
  have h3 : Canon s2 := h.countDelay.storeHome.noteFarWrite
  split
  · exact h1.performedReq
  · exact ite_keeps h.countDelay.performedReq h2.noteFarWrite.multicast.doorbell.performedReq
  · exact h.amoCounted.performedReq
  · exact h3.sendPushes.doorbell.performedReq
  · exact Canon.vamoStep (ite_keeps h.countDelay h) fun _ _ _ h4 => h4.amoFor
  · exact h

/-! #### Peers (R432, R433) -/

theorem Canon.deviceAmo {s : State} {pa n : ℕ} {f : ℕ → Option ℕ} (h : Canon s) : Canon (deviceAmo s pa n f).1 := by
  unfold Machine.deviceAmo
  extract_lets
  split
  · exact h.deviceRead.deviceWrite
  · exact h.deviceRead

theorem Canon.notePeerCopy {src exp line : ℕ} {owned : Bool} {s : State} (h : Canon s) : Canon (notePeerCopy src exp line owned s) :=
  ite_keeps (h.same rfl rfl) h

theorem Canon.servePeer {s : State} {src exp ra : ℕ} {op : PeerOp} {value expect : Word} {part : Option ℕ} (h : Canon s) :
    Canon (servePeer s src exp ra op value expect part).1 := by
  unfold Machine.servePeer
  extract_lets ring
  have hring {pa n : ℕ} {t : State} (ht : Canon t) : Canon (ring pa n t) := elim_keeps ht fun _ => ht.doorbell
  clear_value ring
  split
  · exact h
  · next pa _ =>
    extract_lets amo _ r s1
    have hamo (n : ℕ) (f : ℕ → Option ℕ) : Canon (amo n f).1 :=
      ite_keeps (hring (h.deviceAmo (n := n) (f := f))) (h.deviceAmo (n := n) (f := f))
    have hr : Canon r.1 := h.takePeerCopies.flushPushes.deviceRead
    have h1 : Canon s1 := ite_keeps hr.farClear hr.invalidate
    clear_value amo r s1
    cases op with
    | read n => exact h.deviceRead (n := n)
    | cached => exact Canon.notePeerCopy (h.deviceRead (n := 8))
    | own => exact h1.notePeerCopy
    | write n => exact hring h.deviceWrite
    | amo o n => exact hamo _ _
    | vamo ty => exact hamo _ _
    | gone _ => exact h

theorem Canon.putPeerBytes {src exp ra n v : ℕ} {part : Option ℕ} {s : State} (h : Canon s) :
    Canon (putPeerBytes src exp ra n v part s).1 := by
  unfold Machine.putPeerBytes
  split
  · exact h
  · extract_lets s1
    have h1 : Canon s1 := foldl_keeps (P := Canon) h (fun _ _ h1 => h1.deviceWrite)
    exact elim_keeps h1 fun _ => h1.doorbell

/-! #### Cached lines of peers (R334, R434) -/

theorem Canon.cachedPut {c : CtxId} {va : Word} {rt : BitVec 2} {pa n v : ℕ} {s : State} (h : Canon s) : Canon (cachedPut c va rt pa n v s)
    :=
  h.storeLine.noteFarWrite

theorem Canon.cachedStore {q : Req} {pa : ℕ} {s : State} (h : Canon s) : Canon (cachedStore q pa s) :=
  h.cachedPut

theorem Canon.performCached {q : Req} {line : ℕ} {s : State} (h : Canon s) : Canon (performCached q line s) := by
  unfold Machine.performCached
  extract_lets _ _ r r1
  have h1 : Canon r.1 := Canon.loadLine (ite_keeps h h.countPeerDelay)
  have h2 : Canon r1.1 := h.countPeerDelay.amoAtHome
  split
  · exact h1.performedReq
  · exact h2.performedReq
  · exact Canon.performedReq (Canon.cachedStore (ite_keeps h h.countPeerDelay))
  · exact h

theorem Canon.dropCached {line : ℕ} {s : State} (h : Canon s) : Canon (dropCached line s) :=
  foldl_keeps (P := Canon) h fun _ _ h1 => h1.dropFar

theorem Canon.dropAsked {core line : ℕ} {s : State} (h : Canon s) : Canon (dropAsked core line s) :=
  h.dropCached.dropOwnT

theorem Canon.cachedData {line off n v : ℕ} {s : State} (h : Canon s) : Canon (cachedData line off n v s).2 := by
  unfold Machine.cachedData
  split
  · exact h.invalidate.dropFar
  · split
    · exact h
    · exact h.drawLine

theorem Canon.fillShared {die line off n v : ℕ} {s : State} (h : Canon s) : Canon (fillShared die line off n v s) :=
  ite_keeps h h.cachedData.setFar

theorem Canon.fillOwn {die line : ℕ} {s : State} (h : Canon s) : Canon (fillOwn die line s) :=
  ite_keeps h h.freshen.cachedData.farGrant

theorem Canon.fillCached {q : Req} {line : ℕ} {v : Word} {s : State} (h : Canon s) : Canon (fillCached q line v s) := by
  unfold Machine.fillCached
  extract_lets
  split
  · exact h.fillOwn
  · exact h.fillShared

theorem Canon.dropOwnTs {l : Loc} {n core : ℕ} {s : State} (h : Canon s) : Canon (dropOwnTs l n core s) :=
  foldl_keeps (P := Canon) h fun _ _ h1 => h1.dropOwnT

theorem Canon.performPeer {q : Req} {peer exp ra : ℕ} {s : State} (h : Canon s) : Canon (performPeer q peer exp ra s) := by
  unfold Machine.performPeer
  split
  · extract_lets _ r
    have h1 : Canon r.1 := h.dropOwnTs.countPeerDelay.servePeer
    split
    · refine Canon.vamoStep (ite_keeps h.dropOwnTs.countPeerDelay h.dropOwnTs) fun _ _ _ h2 => ?_
      split
      · exact h2
      · exact h2.deviceAmo.doorbell
    · exact h1.performedReq
  · split
    · exact ite_keeps h.performCached h.setReq
    · exact h.setReq

theorem Canon.performMmio {q : Req} {pa : ℕ} {s : State} (h : Canon s) : Canon (performMmio q pa s) := by
  unfold Machine.performMmio
  extract_lets
  split
  · exact h.performedReq
  · exact Canon.performedReq (h.same rfl rfl)
  · exact Canon.performedReq (h.same rfl rfl)
  · extract_lets s1
    have h1 : Canon s1 := by
      unfold s1
      split
      · exact h.same rfl rfl
      · exact h
    exact h1.performedReq
  · exact h.performedReq
  · exact h

theorem Canon.performReq {q : Req} {s : State} (h : Canon s) : Canon (performReq q s) := by
  unfold Machine.performReq
  split
  · exact Canon.dropReq (ite_keeps (h.setCore h.core.dropT) h)
  · split
    · exact h.performMem
    · exact h.performMmio
    · exact h.performPeer
    · exact h.performedReq
    · exact h.performedReq
    · exact h

/-! #### Responses (R96) -/

theorem Canon.deliverResponse {q : Req} {v : Word} {poison gone : Bool} {s : State} (h : Canon s) :
    Canon (deliverResponse q v poison gone s) := by
  unfold Machine.deliverResponse
  split
  · exact h
  · extract_lets s1
    have h1 : Canon s1 := ite_keeps h.raiseDeferred h
    exact ite_keeps (ite_keeps h1.raiseDeferred h1.setCtx) h1.writeResult

theorem Canon.mayHold {line : ℕ} {s : State} (h : Canon s) : Canon (mayHold line s).2 := by
  unfold Machine.mayHold
  split
  · exact h
  · exact h.draw

theorem Canon.heldLine {q : Req} {s : State} (h : Canon s) : Canon (heldLine q s).2 := by
  unfold Machine.heldLine
  split
  · exact h
  · exact h.mayHold

theorem Canon.answered {q : Req} {v : Word} {poison : Bool} {s : State} (h : Canon s) : Canon (answered q v poison s) := by
  unfold Machine.answered
  split
  · extract_lets _ _ r r1
    have h1 : Canon r.1 := h.heldLine.fillCached.loadLine
    have h2 : Canon r1.1 := h.heldLine.fillCached.amoAtHome
    split
    · exact h1.deliverResponse
    · exact h.heldLine.fillCached.cachedStore
    · exact ite_keeps h2.deliverResponse h.heldLine.dropAsked.deliverResponse
    · exact ite_keeps h.heldLine.dropAsked h.heldLine.dropAsked.deliverResponse
  · extract_lets s1
    have h1 : Canon s1 := elim_keeps h.heldLine (fun _ => h.heldLine.dropOwnT)
    exact ite_keeps (ite_keeps h1.noteFailed h1) h1.deliverResponse

theorem Canon.respond {q : Req} {v : Word} {poison : Bool} {s : State} (h : Canon s) : Canon (respond q v poison s) := by
  unfold Machine.respond
  split
  · split
    · exact ite_keeps h h.dropReq.deliverResponse.endReplay
    · exact h.dropReq.deliverResponse.endReplay
  · exact ite_keeps h.dropReq.countPeerDelay.acquired.answered.endReplay h

theorem Canon.answeredHere {q : Req} {s : State} (h : Canon s) : Canon (answeredHere q s) :=
  h.dropReq.acquired.answered.endReplay

/-! #### Lines that an access for a context waits for (R324, R325, R438) -/

theorem Canon.askArrive {a : Ask} {s : State} (h : Canon s) : Canon (a.arrive s) := h.revokeFor

theorem Canon.put {a : Ask} {s : State} (h : Canon s) : Canon (a.put s) :=
  h.askArrive.askPeers

theorem Canon.askFirst {l : List Ask} {s : State} (h : Canon s) : Canon (askFirst l s).2 :=
  foldl_keeps (P := Canon) h fun _ _ h1 => h1.askArrive

theorem Canon.askedFor {ask : Option Ask} {s : State} (h : Canon s) : Canon (askedFor ask s) :=
  elim_keeps h fun _ => h.put

/-! ### Machine/Operands -/

/-! #### Scopes (R401, R402) -/

theorem Canon.countDemote {scope : BitVec 3} {s : State} (h : Canon s) : Canon (countDemote scope s) :=
  ite_keeps (h.setMine (CoreCanon.same h.mine rfl rfl)) h

/-! #### What holds an access at issue -/

theorem Canon.trapFab {f : FailedStore} {s : State} (h : Canon s) : OutCanon (trapFab f s) :=
  h.setMe.trap

theorem Canon.releaseThen {scope : BitVec 3} {s : State} {k : State → Out} (h : Canon s) (hk : ∀ (t : State), Canon t → OutCanon (k t)) :
    OutCanon (releaseThen scope s k) := by
  unfold Machine.releaseThen
  split
  · exact h.hold
  · split
    · exact h.trapFab
    · exact hk _ h

/-! #### Translated accesses -/

theorem Canon.peersThen {p : ℕ} {lines : List ℕ} {s : State} {k : State → Out} (h : Canon s) (hk : ∀ (t : State), Canon t → OutCanon (k t))
    : OutCanon (peersThen p lines s k) :=
  ite_keeps h.askPeers.hold (hk _ h)

theorem Canon.faultEnd {w : BitVec 3} {rs : List Reg} {addr : Word} {size : ℕ} {kind : BitVec 3} {f : Faulting} {s : State} (h : Canon s) :
    OutCanon (faultEnd w rs addr size kind f s) :=
  ite_keeps (ite_keeps (h.peersThen fun _ h1 => h1.appendEntry.countDemote.finish.next) h.hold) h.trapAt

theorem Canon.placedThen {rt : BitVec 2} {addr : Word} {size : ℕ} {l : Loc} {s : State} {k : Loc → State → Out} (h : Canon s)
    (hk : ∀ (x : Loc) (t : State), Canon t → OutCanon (k x t)) : OutCanon (placedThen rt addr size l s k) := by
  unfold Machine.placedThen
  split
  · exact h.hold
  · split
    · exact h.tellLost.trapAt
    · exact hk _ _ h

theorem Canon.locThen {w : BitVec 3} {rs : List Reg} {rt : BitVec 2} {addr : Word} {size : ℕ} {n : Need} {f : Faulting} {s : State}
    {k : Loc → State → Out} (h : Canon s) (hk : ∀ (x : Loc) (t : State), Canon t → OutCanon (k x t)) :
    OutCanon (locThen w rs rt addr size n f s k) := by
  unfold Machine.locThen
  split
  · exact h.hold
  · split
    · next e =>
      exact (h.resolve.ofFst e).trapAt
    · next e =>
      exact ite_keeps ((h.resolve.ofFst e).trapAt) ((h.resolve.ofFst e).faultEnd)
    · next e =>
      exact Canon.placedThen (h.resolve.ofFst e) fun _ _ h1 => hk _ _ h1

theorem Canon.preciseLoc {addr : Word} {size : ℕ} {n : Need} {s : State} {k : Loc → State → Out} (h : Canon s)
    (hk : ∀ (x : Loc) (t : State), Canon t → OutCanon (k x t)) : OutCanon (preciseLoc addr size n s k) := by
  unfold Machine.preciseLoc
  split
  · exact h.hold
  · split
    · next e =>
      exact (h.resolve.ofFst e).trapAt
    · next e =>
      exact (h.resolve.ofFst e).trap
    · next e =>
      exact Canon.placedThen (h.resolve.ofFst e) fun _ _ h1 => hk _ _ h1

theorem CoreCanon.setSpadLine {k : Core} {l v : ℕ} (hk : CoreCanon k) : CoreCanon (k.setSpadLine l v) :=
  ⟨hk.imem, hk.spad.writeLe⟩

theorem Canon.addReq {q : Req} {s : State} (h : Canon s) : Canon (addReq q s) :=
  h.same rfl rfl

theorem Canon.l1Load {q : Req} {s : State} (h : Canon s) : Canon (l1Load q s).2 := by
  unfold Machine.l1Load
  split
  · exact h.loadLine
  · exact h

theorem Canon.l1Store {q : Req} {s : State} (h : Canon s) : Canon (l1Store q s) := by
  unfold Machine.l1Store
  split
  · exact h.l1Write.noteFarWrite.doorbell
  · exact h

/-! #### Reads that an instruction makes as a load of its context (R317, R363) -/

theorem Canon.drawBytes {n : ℕ} {s : State} (h : Canon s) : Canon (drawBytes n s).2 := by
  induction n generalizing s with
  | zero =>
    exact h
  | succ n ih =>
    exact ih h.draw

theorem Canon.homeBytes {pa n : ℕ} {s : State} (h : Canon s) : Canon (homeBytes pa n s).2 := by
  induction n generalizing pa s with
  | zero =>
    exact h
  | succ n ih =>
    exact ih h.deviceRead

theorem Canon.servePeerBytes {q exp ra n : Nat} {s : State} {r : Nat × State} (h : Canon s) (e : servePeerBytes q exp ra n s = some r) :
    Canon r.2 := by
  obtain ⟨pa, _, rfl⟩ := Option.map_eq_some_iff.1 e
  exact h.homeBytes

theorem Canon.peerAnswer {n : ℕ} {s : State} (h : Canon s) : Canon (peerAnswer n s).2 :=
  h.draw.drawBytes

theorem Canon.peerRead {l : Loc} {q exp ra n : ℕ} {s : State} (h : Canon s) : Canon (peerRead l q exp ra n s).2 := by
  unfold Machine.peerRead
  split
  · split
    · next e1 =>
      exact h.servePeerBytes e1
    · exact h
  · extract_lets
    split
    · split
      · exact h.peerAnswer.cachedData
      · exact h.peerAnswer
    · exact h.peerAnswer

theorem Canon.peerWrite {part : ℕ} {l : Loc} {q exp ra n v : ℕ} {s : State} (h : Canon s) : Canon (peerWrite part l q exp ra n v s).1 := by
  unfold Machine.peerWrite
  split
  · exact h.putPeerBytes
  · exact elim_keeps h.draw fun _ => h.draw.dropCached

theorem Canon.fromPeer {l : Loc} {n core : ℕ} {s : State} (h : Canon s) : Canon (fromPeer l n core s) :=
  h.countPeerDelay.dropOwnTs

theorem Canon.unitPeerRead {c : CtxId} {rt : BitVec 2} {l : Loc} {q exp ra n : ℕ} {s : State} (h : Canon s) :
    Canon (unitPeerRead c rt l q exp ra n s).2 := by
  unfold Machine.unitPeerRead
  split
  · exact h.fromPeer.peerRead
  · extract_lets _ _ a
    have h1 : Canon a.2 := h.countPeerDelay.peerAnswer
    split
    · exact Canon.loadLine (ite_keeps h h.countPeerDelay)
    · split
      · exact h1
      · split
        · exact h1.mayHold.fillShared.loadLine
        · exact h1.mayHold.dropOwnT

theorem Canon.unitPeerWrite {c : CtxId} {va : Word} {rt : BitVec 2} {l : Loc} {q exp ra n v : ℕ} {s : State} (h : Canon s) :
    Canon (unitPeerWrite c va rt l q exp ra n v s).1 := by
  unfold Machine.unitPeerWrite
  split
  · exact h.fromPeer.peerWrite
  · extract_lets _ _ _ h1
    have h2 : Canon h1.2 := h.countPeerDelay.draw.mayHold
    split
    · exact h.cachedPut
    · split
      · exact h.countPeerDelay.cachedPut
      · split
        · exact h.countPeerDelay.draw
        · split
          · exact h2.fillOwn.cachedPut
          · exact h2.dropAsked

theorem Canon.revokeFrom {l : Loc} {n : ℕ} {s : State} (h : Canon s) : Canon (revokeFrom l n s) :=
  foldl_keeps (P := Canon) h fun _ _ h1 => h1.revokeFor

theorem Canon.askFor {c : CtxId} {l : Loc} {n : ℕ} {write : Bool} {s : State} (h : Canon s) : Canon (askFor c l n write s) :=
  h.askPeers

theorem Canon.ctxRead {s : State} {va : Word} {n : ℕ} (h : Canon s) : CtxReadCanon (ctxRead s va n) := by
  unfold Machine.ctxRead
  split
  · exact h
  · split
    · exact ite_keeps trivial h
    · split
      · exact trivial
      · split
        · next e1 =>
          exact h.resolve.ofFst e1
        · next e1 =>
          exact h.resolve.ofFst e1
        · next e1 =>
          split
          · exact (h.resolve.ofFst e1).tellLost
          · extract_lets t
            have h1 : Canon t := (h.resolve.ofFst e1).revokeFrom
            split
            · exact trivial
            · split
              · exact ite_keeps h1.countDelay.lateFar (ite_keeps h1.countDelay.lateFar.loadLine h1.countDelay.lateFar.loadLine)
              · exact h1
              · split
                · next e3 =>
                  exact h1.unitPeerRead.ofSnd e3
                · next e3 =>
                  exact h1.unitPeerRead.ofSnd e3
              · exact Canon.raiseDeferred (h1.same rfl rfl)
              · exact h1
              · exact trivial

/-! #### Accesses that a unit of the core makes for a context (R178, R190, R213, R218, R227) -/

theorem Canon.loadAt {c : CtxId} {l : Loc} {n : ℕ} {s : State} (h : Canon s) : Canon (loadAt c l n s).2.2.2 := by
  unfold Machine.loadAt
  split
  · exact h
  · extract_lets _ _ _ r
    have h1 : Canon r.1 := h.countDelay.lateFar.loadLine
    split
    · exact h.loadLine
    · split
      · exact h.countDelay.lateFar
      · exact h1
  · exact h
  · exact h.unitPeerRead
  · exact h
  · exact h

theorem Canon.mmioPut {pa n v : ℕ} {s : State} (h : Canon s) : Canon (mmioPut pa n v s) :=
  h.same rfl rfl

theorem Canon.storeAt {c : CtxId} {pc va : Word} {order : ℕ} {l : Loc} {n v : ℕ} {s : State} (h : Canon s) :
    Canon (storeAt c pc va order l n v s) := by
  unfold Machine.storeAt
  extract_lets
  split
  · exact h.setCore ⟨h.core.imem, h.core.spad.writeLe⟩
  · extract_lets
    split
    · exact h.countDelay.setCtx
    · split
      · exact h.storeLine.noteFarWrite.multicast.doorbell
      · exact ite_keeps h.countDelay.lateFar.setCtx h.countDelay.lateFar.storeLine.noteFarWrite.multicast.doorbell
  · exact h.mmioPut
  · exact ite_keeps h.unitPeerWrite.setCtx h.unitPeerWrite
  · exact h.raiseDeferred
  · exact h.setCtx

theorem Canon.revokeAt {c : CtxId} {l : Loc} {n : ℕ} {write : Bool} {s : State} (h : Canon s) : Canon (revokeAt c l n write s) :=
  foldl_keeps (P := Canon) h fun _ _ h1 => h1.revokeFor

theorem Canon.unitLoc {s : State} {c : CtxId} {x : Xctx} {va : Word} {n : ℕ} {need : Need} (h : Canon s) :
    Canon (unitLoc s c x va n need).1 := by
  unfold Machine.unitLoc
  split
  · exact h
  · split
    · exact h
    · split
      · next e =>
        exact h.resolve.ofFst e
      · next e =>
        exact h.resolve.ofFst e

theorem Canon.holdRead {ask : Option (Loc × ℕ)} {s : State} (h : Canon s) : OutCanon (holdRead ask s) :=
  Canon.hold (elim_keeps h fun _ => h.revokeFrom.askFor)

theorem Canon.readThen {s : State} {va : Word} {n : ℕ} {k : ℕ → State → Out} (h : Canon s)
    (hk : ∀ (i : ℕ) (t : State), Canon t → OutCanon (k i t)) : OutCanon (readThen s va n k) := by
  unfold Machine.readThen
  split
  · exact h.holdRead
  · next e =>
    exact (h.ctxRead.trap e).trap
  · next e =>
    exact hk _ _ (h.ctxRead.ok e)

/-! ### Machine/Strings -/

theorem CoreCanon.strRaise {k k' : Core} (hk' : CoreCanon k') : CoreCanon (strRaise k k') := hk'.same rfl rfl

theorem CoreCanon.strCount {k : Core} {src : ℕ} (hk : CoreCanon k) : CoreCanon (strCount k src) :=
  hk.same rfl rfl

theorem CoreCanon.strFire {src : ℕ} {k : Core} (hk : CoreCanon k) : CoreCanon (strFire src k) :=
  hk.same rfl rfl

theorem CoreCanon.strEndCycle {k : Core} (hk : CoreCanon k) : CoreCanon (strEndCycle k) := by
  unfold Machine.strEndCycle
  split
  · exact hk
  · exact CoreCanon.strRaise (CoreCanon.same (foldl_keeps (P := CoreCanon) hk fun _ _ h => h.strCount) rfl rfl)

theorem Canon.pulse {core src : ℕ} {s : State} (h : Canon s) : Canon (pulse core src s) :=
  h.setCore h.core.strFire

theorem CoreCanon.strConsume {cycle target : ℕ} {k : Core} (hk : CoreCanon k) : CoreCanon (strConsume cycle target k) := by
  unfold Machine.strConsume
  extract_lets seen terms k1
  have h1 : CoreCanon k1 := foldl_keeps (P := CoreCanon) hk fun _ _ h => h.same rfl rfl
  exact h1.same rfl rfl

/-! ### Machine/Matrix -/

/-! #### Matrix space (R195, R196) -/

theorem MemCanon.matWrite {m : Memory} {y n v : Nat} (hm : MemCanon m) : MemCanon (matWrite m y n v) := by
  induction n generalizing m y v with
  | zero => exact hm
  | succ n ih => exact ih hm.writeLe

/-! #### Commands (R198, R205, R220) -/

theorem Canon.commit {data : Word} {s : State} (h : Canon s) : Canon (commit data s) :=
  Canon.setMe (h.setMine (CoreCanon.same h.mine rfl rfl))

theorem Canon.windowStore {w : BitVec 3} {rs : List Reg} {addr : Word} {z : ℕ} {data : Word} {s : State} (h : Canon s) :
    OutCanon (windowStore w rs addr z data s) := by
  unfold Machine.windowStore
  extract_lets
  split
  · exact h.trapAt
  · exact ite_keeps (ite_keeps h.hold h.commit.finish.next) (ite_keeps h.setMe.finish.next h.trapAt)

/-! #### Faults (R222, R223) -/

theorem Canon.recordFault {core ctx : ℕ} {lost : Bool} {f : MFault} {rec_ rkind : ℕ} {s : State} (h : Canon s) :
    Canon (recordFault core ctx lost f rec_ rkind s) :=
  Canon.setCore (ite_keeps h h.setCtx) (CoreCanon.same (Canon.core (ite_keeps h h.setCtx)) rfl rfl)

theorem Canon.mfaultThen {acc : Option ℕ} {s : State} {k : State → Out} (h : Canon s) (hk : ∀ (t : State), Canon t → OutCanon (k t)) :
    OutCanon (mfaultThen acc s k) := by
  unfold Machine.mfaultThen
  split
  · exact h.setMe.trap
  · exact hk _ h

/-! ### Machine/Acc -/

theorem CoreCanon.setAcc {k : Core} {n : ℕ} {v : Acc} (hk : CoreCanon k) : CoreCanon (k.setAcc n v) :=
  hk.same rfl rfl

theorem CoreCanon.accToLines {m : ℕ} {v : Acc} {k : Core} (hk : CoreCanon k) : CoreCanon (accToLines m v k) :=
  foldl_keeps (P := CoreCanon) hk fun _ _ h => h.setSpadLine

theorem Canon.accThen {n : ℕ} {s : State} {k : State → Out} (h : Canon s) (hk : ∀ (t : State), Canon t → OutCanon (k t)) :
    OutCanon (accThen n s k) :=
  h.mfaultThen fun _ h1 => h1.failThen fun _ h2 => hk _ h2

theorem Canon.execAccRd {d a : Reg} {w : BitVec 3} {s : State} (h : Canon s) : OutCanon (execAccRd d a w s) :=
  h.issueThen fun _ h1 => h1.accThen fun _ h2 => h2.failThen fun _ h3 => ite_keeps h3.hold (((h3.setMine h3.mine.accToLines).finish).next)

theorem Canon.execAccWr {d a : Reg} {w : BitVec 3} {s : State} (h : Canon s) : OutCanon (execAccWr d a w s) :=
  h.issueThen fun _ h1 => h1.accThen fun _ h2 => h2.failThen fun _ h3 => ite_keeps h3.hold (((h3.setMine h3.mine.setAcc).finish).next)

theorem Canon.execAccClr {d : Reg} {w : BitVec 3} {s : State} (h : Canon s) : OutCanon (execAccClr d w s) :=
  h.issueThen fun _ h1 => h1.accThen fun _ h2 => ((h2.setMine h2.mine.setAcc).finish).next

/-! ### Machine/Alu -/

/-! #### Shared forms -/

theorem Canon.alu2 {lat : ℕ} {f : Word → Word → Word} {d a b : Reg} {w : BitVec 3} {s : State} (h : Canon s) :
    OutCanon (alu2 lat f d a b w s) :=
  h.issueThen fun _ h1 => h1.destThen fun _ h2 => h2.produce.finish.next

theorem Canon.alu1 {lat : ℕ} {f : Word → Word} {d a : Reg} {w : BitVec 3} {s : State} (h : Canon s) : OutCanon (alu1 lat f d a w s) :=
  h.issueThen fun _ h1 => h1.destThen fun _ h2 => h2.produce.finish.next

theorem Canon.alu3 {lat : ℕ} {f : Word → Word → Word → Word} {d a b : Reg} {w : BitVec 3} {s : State} (h : Canon s) :
    OutCanon (alu3 lat f d a b w s) :=
  h.issueThen fun _ h1 => h1.destThen fun _ h2 => h2.produce.finish.next

theorem Canon.aluDiv {lat : Word → Word → ℕ} {f : Word → Word → Word} {d a b : Reg} {w : BitVec 3} {s : State} (h : Canon s) :
    OutCanon (aluDiv lat f d a b w s) :=
  h.issueThen fun _ h1 => h1.destThen fun _ h2 => h2.produceLater.finish.next

/-! ### Machine/LoadStore -/

theorem CoreCanon.spadStore {k : Core} {x n v : ℕ} (hk : CoreCanon k) : CoreCanon (spadStore k x n v) :=
  ⟨hk.imem, hk.spad.writeLe⟩

theorem Canon.localLoad {w : BitVec 3} {rs : List Reg} {d : Reg} {x n : ℕ} {signed : Bool} {s : State} (h : Canon s) :
    OutCanon (localLoad w rs d x n signed s) :=
  ite_keeps h.hold h.completeWith

theorem Canon.startLoad {w : BitVec 3} {rs : List Reg} {d : Reg} {q : Req} {s : State} (h : Canon s) : OutCanon (startLoad w rs d q s) :=
  h.destThen fun _ h1 => ite_keeps h1.l1Load.deliver.finish.next h1.addReq.finish.next

theorem Canon.load {signed : Bool} {word : IWord} {d a : Reg} {o : BitVec 9} {z t : BitVec 2} {w : BitVec 3} {s : State} (h : Canon s) :
    OutCanon (load signed word d a o z t w s) :=
  h.issueThen fun _ h1 => h1.failThen fun _ h2 => ite_keeps h2.localLoad (h2.locThen fun _ _ h3 => h3.startLoad)

theorem Canon.localStore {w : BitVec 3} {rs : List Reg} {addr : Word} {n : ℕ} {data : Word} {s : State} (h : Canon s) :
    OutCanon (localStore w rs addr n data s) :=
  ite_keeps h.windowStore (ite_keeps h.hold (((h.setMine h.mine.spadStore).finish).next))

theorem Canon.startStore {w : BitVec 3} {rs : List Reg} {q : Req} {s : State} (h : Canon s) : OutCanon (startStore w rs q s) :=
  ite_keeps h.l1Store.finish.next h.addReq.finish.next

theorem Canon.execSt {d a : Reg} {o : BitVec 9} {s_ t : BitVec 2} {w : BitVec 3} {s : State} (h : Canon s) :
    OutCanon (execSt d a o s_ t w s) :=
  h.issueThen fun _ h1 => h1.failThen fun _ h2 => ite_keeps h2.localStore (h2.locThen fun _ _ h3 => h3.startStore)

/-! ### Machine/Atomic -/

theorem Canon.localAmo {op : BitVec 4} {scope w : BitVec 3} {rs : List Reg} {d : Reg} {x n : ℕ} {data expect : Word} {s : State}
    (h : Canon s) : OutCanon (localAmo op scope w rs d x n data expect s) := by
  unfold Machine.localAmo
  split
  · exact h.hold
  · extract_lets _ s'
    have h1 : Canon s' := by
      unfold s'
      split
      · exact h.setMine h.mine.spadStore
      · exact h
    split
    · refine h.destThen fun _ h2 => ?_
      refine Canon.next ?_
      refine Canon.finish ?_
      refine Canon.countDemote ?_
      refine Canon.deliver ?_
      split
      · exact h2.setMine h2.mine.spadStore
      · exact h2
    · exact h1.countDemote.finish.next

theorem Canon.amoReleaseThen {op : BitVec 4} {scope : BitVec 3} {s : State} {k : State → Out} (h : Canon s)
    (hk : ∀ (t : State), Canon t → OutCanon (k t)) : OutCanon (amoReleaseThen op scope s k) :=
  ite_keeps (h.releaseThen fun _ h1 => hk _ h1) (hk _ h)

theorem Canon.amo {op : BitVec 4} {word : IWord} {d a b : Reg} {rs : List Reg} {scope : BitVec 3} {z : BitVec 1} {w : BitVec 3} {s : State}
    (h : Canon s) : OutCanon (amo op word d a b rs scope z w s) := by
  unfold Machine.amo
  refine h.issueThen fun _ h1 => ?_
  extract_lets
  refine h1.failThen fun _ h2 => ?_
  refine h2.failThen fun _ h3 => ?_
  extract_lets
  split
  · exact h3.localAmo
  · split
    · exact h3.hold
    · exact h3.locThen fun _ _ h4 => h4.amoReleaseThen fun _ h5 => ite_keeps (h5.destThen fun _ h6 =>
        h6.countDemote.addReq.finish.next) h5.countDemote.addReq.finish.next

/-! ### Machine/Branch -/

theorem Canon.branch {cond : Word → Word → Bool} {a b : Reg} {o : BitVec 10} {w : BitVec 3} {s : State} (h : Canon s) :
    OutCanon (branch cond a b o w s) :=
  h.issueThen fun _ h1 => ite_keeps (h1.failThen fun _ h2 => h2.finishAt.next) h1.finish.next

theorem Canon.execJr {a : Reg} {w : BitVec 3} {s : State} (h : Canon s) : OutCanon (execJr a w s) :=
  h.issueThen fun _ h1 => h1.failThen fun _ h2 => h2.failThen fun _ h3 => h3.finishAt.next

theorem Canon.execJalr {d a : Reg} {w : BitVec 3} {s : State} (h : Canon s) : OutCanon (execJalr d a w s) :=
  h.issueThen fun _ h1 => h1.failThen fun _ h2 => h2.failThen fun _ h3 => h3.destThen fun _ h4 => h4.deliver.finishAt.next

theorem Canon.callTo {w : BitVec 3} {rs : List Reg} {t : Word} {s : State} (h : Canon s) : OutCanon (callTo w rs t s) := by
  unfold Machine.callTo
  extract_lets
  refine h.failThen fun _ h1 => ?_
  refine h1.failThen fun _ h2 => ?_
  split
  · exact h2.hold
  · exact Canon.next (Canon.finishAt (Canon.deliver (h2.setMine ⟨h2.mine.imem, h2.mine.spad.writeLe⟩)))

theorem Canon.execRet {w : BitVec 3} {s : State} (h : Canon s) : OutCanon (execRet w s) :=
  h.issueThen fun _ h1 => h1.failThen fun _ h2 => ite_keeps h2.hold (h2.failThen fun _ h3 => h3.failThen fun _ h4 =>
    h4.deliver.finishAt.next)

theorem Canon.execFjmp {a : Reg} {w : BitVec 3} {s : State} (h : Canon s) : OutCanon (execFjmp a w s) :=
  h.issueThen fun _ h1 => h1.failThen fun _ h2 => ite_keeps (ite_keeps h2.hold h2.trapAt) (h2.failThen fun _ h3 => h3.finishAt.next)

/-! ### Machine/Fence -/

/-! #### Engine commands of a context, as fences and waits meet them (R252, R282) -/

theorem Canon.markReported {core ticket : ℕ} {s : State} (h : Canon s) : Canon (markReported core ticket s) :=
  h.same rfl rfl

theorem Canon.trapEngine {c : XCmd} {s : State} (h : Canon s) : OutCanon (trapEngine c s) :=
  h.markReported.trapAt

theorem Canon.engineThen {s : State} {k : State → Out} (h : Canon s) (hk : ∀ (t : State), Canon t → OutCanon (k t)) :
    OutCanon (engineThen s k) := by
  unfold Machine.engineThen
  split
  · exact h.hold
  · split
    · exact h.trapEngine
    · exact hk _ h

/-! #### FENCE (R250–R253) -/

theorem Canon.dropTAt {scope : BitVec 3} {range : Option (ℕ × ℕ)} {s : State} (h : Canon s) : Canon (dropTAt scope range s) :=
  ite_keeps (h.setMine h.mine.dropT) h

theorem Canon.markFence {kind : BitVec 2} {scope : BitVec 3} {lo hi : ℕ} {s : State} (h : Canon s) : Canon (markFence kind scope lo hi s) :=
  h.addReq

theorem Canon.fenceFab {kind : BitVec 2} {scope : BitVec 3} {s : State} {k : State → Out} (h : Canon s)
    (hk : ∀ (t : State), Canon t → OutCanon (k t)) : OutCanon (fenceFab kind scope s k) := by
  unfold Machine.fenceFab
  split
  · exact h.trapFab
  · exact hk _ h

theorem Canon.fenceNow {kind : BitVec 2} {scope : BitVec 3} {range : Option (ℕ × ℕ)} {s : State} {k : State → Out} (h : Canon s)
    (hk : ∀ (t : State), Canon t → OutCanon (k t)) : OutCanon (fenceNow kind scope range s k) :=
  ite_keeps h.hold (h.fenceFab fun _ h1 => hk _ (ite_keeps h1 h1.dropTAt))

theorem Canon.fence {kind : BitVec 2} {a b : Reg} {scope : BitVec 3} {g : BitVec 1} {w : BitVec 3} {s : State} (h : Canon s) :
    OutCanon (fence kind a b scope g w s) := by
  unfold Machine.fence
  extract_lets
  refine h.issueThen fun _ h1 => ?_
  refine h1.failThen fun _ h2 => ?_
  extract_lets
  split
  · exact h2.hold
  · split
    · exact h2.fenceFab fun _ h3 => h3.countDemote.finish.next
    · exact ite_keeps h2.markFence.countDemote.finish.next (h2.fenceNow fun _ h3 => h3.countDemote.finish.next)

/-! ### Machine/Code -/

/-! #### The CODE major -/

theorem Canon.startFetch {va : Word} {s : State} (h : Canon s) : Canon (startFetch va s).2 := by
  unfold Machine.startFetch
  extract_lets
  split
  · exact h
  · exact h.setMine (CoreCanon.same h.mine rfl rfl)

theorem Canon.execCfetch {d a : Reg} {w : BitVec 3} {s : State} (h : Canon s) : OutCanon (execCfetch d a w s) :=
  h.issueThen fun _ h1 => h1.failThen fun _ h2 => h2.failThen fun _ h3 => h3.destThen fun _ h4 => h4.startFetch.deliver.finish.next

theorem Canon.execCwait {a : Reg} {w : BitVec 3} {s : State} (h : Canon s) : OutCanon (execCwait a w s) := by
  unfold Machine.execCwait
  refine h.issueThen fun _ h1 => ?_
  extract_lets
  split
  · exact ite_keeps h1.hold h1.finish.next
  · exact h1.finish.next

theorem Canon.execCevict {a : Reg} {w : BitVec 3} {s : State} (h : Canon s) : OutCanon (execCevict a w s) := by
  unfold Machine.execCevict
  refine h.issueThen fun _ h1 => ?_
  extract_lets
  split
  · exact h1.failThen fun _ h2 => Canon.next (Canon.finish (h2.setMine (CoreCanon.same h2.mine rfl rfl)))
  · exact h1.finish.next

/-! #### SEGMENT_FETCH_DONE (R127) -/

theorem Canon.fetchLine {core pa : ℕ} {s : State} (h : Canon s) : Canon (fetchLine core pa s).1 := by
  unfold Machine.fetchLine
  split
  · exact h
  · split
    · exact h.loadLine
    · extract_lets
      split
      · exact h.countDelay.lateFar
      · exact h.countDelay.lateFar.loadLine

theorem Canon.fetchLines {core pa slot n : ℕ} {s : State} (h : Canon s) : Canon (fetchLines core pa slot n s).1 := by
  induction n generalizing s with
  | zero =>
    exact h
  | succ n ih =>
    unfold Machine.fetchLines
    extract_lets
    split
    · exact h.fetchLine
    · exact ih (Canon.setCore h.fetchLine ⟨h.fetchLine.core.imem.writeLe, h.fetchLine.core.spad⟩)

theorem Canon.setSlot {core slot : ℕ} {t : Slot} {s : State} (h : Canon s) : Canon (setSlot core slot t s) :=
  h.setCore (CoreCanon.same h.core rfl rfl)

theorem Canon.landFetch {core slot : ℕ} {g : Word} {n : BitVec 32} {x : Xctx} {s : State} (h : Canon s) :
    Canon (landFetch core slot g n x s) := by
  unfold Machine.landFetch
  split
  · next e =>
    exact (h.resolve.ofFst e).setSlot
  · next e =>
    split
    · next e1 =>
      exact (((h.resolve.ofFst e).fetchLines).ofFst e1).setSlot
    · next e1 =>
      exact (((h.resolve.ofFst e).fetchLines).ofFst e1).setSlot
  · next e =>
    exact (h.resolve.ofFst e).setSlot

theorem Canon.execSegmentFetchDone {core slot : ℕ} {s : State} (h : Canon s) : OutCanon (execSegmentFetchDone core slot s) := by
  unfold Machine.execSegmentFetchDone
  split
  · exact ite_keeps h.landFetch.next h.next
  · exact h.next

/-! #### RPT (R132–R134) -/

theorem Canon.execRpt {c : Reg} {i : BitVec 6} {l : BitVec 4} {x y z : BitVec 1} {st : BitVec 2} {w : BitVec 3} {s : State} (h : Canon s) :
    OutCanon (execRpt c i l x y z st w s) := by
  unfold Machine.execRpt
  extract_lets
  refine h.issueThen fun _ h1 => ?_
  extract_lets
  refine h1.failThen fun _ h2 => ?_
  split
  · exact h2.failThen fun _ h3 => h3.finishAt.next
  · exact ite_keeps h2.finishAt.next (h2.failThen fun _ h3 => h3.popPorts.retireAt.next)

/-! ### Machine/Csr -/

/-! #### Writes: field by field, under R8 and each field's own rules -/

theorem CoreCanon.csrWriteCore {cycle n : Nat} {k : Core} {v : Word} (hk : CoreCanon k) : CoreCanon (csrWriteCore cycle k n v) := by
  unfold Machine.csrWriteCore
  repeat refine ite_keeps (P := CoreCanon) (hk.same rfl rfl) ?_
  exact hk

theorem Canon.keepRoutes {port : ℕ} {s : State} (h : Canon s) : Canon (keepRoutes port s) := by
  unfold Machine.keepRoutes
  extract_lets k old
  have hk : CoreCanon { k with ctxs := k.ctxs.map (Ctx.keepRoutes port old) } := h.mine.same rfl rfl
  exact (h.setMine hk).same rfl rfl

theorem Canon.csrWrite {n : ℕ} {v : Word} {s : State} (h : Canon s) : Canon (csrWrite n v s) := by
  unfold Machine.csrWrite
  split
  · exact h
  · split
    · exact h.keepRoutes.setMine h.keepRoutes.mine.csrWriteCore
    · exact ite_keeps h.setMe (ite_keeps h.setPart (h.setMine h.mine.csrWriteCore))

/-! #### The CSR major (R111, R119–R121, R157) -/

theorem Canon.resizeThen {size : BitVec 2} {s : State} {k : State → Out} (h : Canon s) (hk : ∀ (t : State), Canon t → OutCanon (k t)) :
    OutCanon (resizeThen size s k) := by
  unfold Machine.resizeThen
  split
  · exact ite_keeps h.hold h.setMe.hold
  · exact ite_keeps (hk _ h) h.setMe.hold

theorem Canon.csr {op : BitVec 2} {word : IWord} {d a : Reg} {c : BitVec 11} {w : BitVec 3} {s : State} (h : Canon s) :
    OutCanon (csr op word d a c w s) := by
  unfold Machine.csr
  extract_lets
  split
  · exact h.trapAt
  · split
    · exact h.trapAt
    · split
      · exact h.hold
      · refine h.issueThen fun _ h1 => ?_
        refine h1.destThen fun _ h2 => ?_
        extract_lets
        split
        · exact h2.produce.finish.next
        · split
          · split
            · exact h2.produce.finish.next
            · exact h2.resizeThen fun _ h3 => h3.produce.finish.next
          · exact h2.produce.csrWrite.finish.next

/-! #### SCRATCHPAD_RESIZE (R157) -/

theorem Canon.flushL1 {core : ℕ} {s : State} (h : Canon s) : Canon (flushL1 core s) := by
  unfold Machine.flushL1
  extract_lets s1
  have h1 : Canon s1 := foldl_keeps (P := Canon) h fun _ _ h1 => ite_keeps h1.writeBack h1
  exact h1.setCore (CoreCanon.same h1.core rfl rfl)

theorem CoreCanon.resizeTo {size : BitVec 2} {k : Core} (hk : CoreCanon k) : CoreCanon (resizeTo size k) :=
  ⟨hk.imem, hk.spad.filter⟩

theorem Canon.execScratchpadResize {core : ℕ} {s : State} (h : Canon s) : OutCanon (execScratchpadResize core s) := by
  unfold Machine.execScratchpadResize
  split
  · exact h.next
  · exact ite_keeps ((h.flushL1.setCore h.flushL1.core.resizeTo.setCtx).next) h.next

/-! ### Machine/Xlat -/

/-! #### Views (R309) -/

theorem Canon.execVwset {d a b : Reg} {w : BitVec 3} {s : State} (h : Canon s) : OutCanon (execVwset d a b w s) :=
  h.issueThen fun _ h1 => h1.failThen fun _ h2 => h2.destThen fun _ h3 => h3.produceLater.finish.next

/-! #### Invalidation (R312, R431) -/

theorem Canon.dropEntries {v : Inval} {ranks : List ℕ} {s : State} (h : Canon s) : Canon (dropEntries v ranks s) :=
  h.same rfl rfl

theorem Canon.tlbi {v : Inval} {ranks : List ℕ} {w : BitVec 3} {rs : List Reg} {s : State} (h : Canon s) : OutCanon (tlbi v ranks w rs s)
    := by
  unfold Machine.tlbi
  split
  · exact ite_keeps h.hold h.finish.next
  · exact h.releaseThen fun _ h1 => ite_keeps h1.dropEntries.setMe.hold h1.dropEntries.finish.next

/-! #### PROBE (R313) -/

theorem Canon.probeRecord {s : State} {va : Word} (h : Canon s) : Canon (probeRecord s va).2 := by
  unfold Machine.probeRecord
  extract_lets
  split
  · exact h
  · split
    · split
      · exact h
      · split
        · exact h
        · exact h.tlbFill
    · split
      · exact h
      · split
        · exact h
        · exact h.tlbFill

/-! #### Shadow descriptors and PUBLISH (R314–R316) -/

theorem Canon.swapFrame {s : State} {leaf entry : ℕ} (h : Canon s) : Canon (swapFrame s leaf entry) :=
  h.deviceWrite.deviceWrite

theorem Canon.publishPages {x : Xctx} {d : Shadow} {leaves entries : List ℕ} {s : State} (h : Canon s) :
    Canon (publishPages x d leaves entries s) :=
  Canon.dropEntries (Canon.deviceWrite (foldl_keeps (P := Canon) h fun _ _ h1 => h1.swapFrame))

theorem Canon.execPublish {a : Reg} {w : BitVec 3} {s : State} (h : Canon s) : OutCanon (execPublish a w s) := by
  unfold Machine.execPublish
  refine h.issueThen fun _ h1 => ?_
  extract_lets
  refine h1.failThen fun _ h2 => ?_
  refine h2.failThen fun _ h3 => ?_
  split
  · exact h3.trap
  · refine h3.engineThen fun _ h4 => ?_
    refine h4.releaseThen fun _ h5 => ?_
    split
    · exact h5.hold
    · split
      · exact h5.put.hold
      · next e1 =>
        exact (((h5.askFirst.ofSnd e1).publishPages).finish).next

/-! ### Machine/Engine -/

/-! #### The table of commands -/

theorem Canon.mapCmds {ids : List (ℕ × ℕ)} {f : XCmd → XCmd} {s : State} (h : Canon s) : Canon (mapCmds ids f s) :=
  h.same rfl rfl

/-! #### Accesses of an engine (R277, R278) -/

theorem Canon.engineLoc {s : State} {x : Xctx} {va : Word} {size : ℕ} {n : Need} (h : Canon s) : Canon (engineLoc s x va size n).1 := by
  unfold Machine.engineLoc
  split
  · exact h
  · split
    · exact h
    · split
      · next e =>
        exact h.resolve.ofFst e
      · next e =>
        exact h.resolve.ofFst e

theorem Canon.lateHome {p pa : ℕ} {s : State} (h : Canon s) : Canon (lateHome p pa s).2 := by
  unfold Machine.lateHome
  split
  · exact h.lateAnswer
  · exact h

theorem Canon.enginePeerRead {die : ℕ} {l : Loc} {q exp ra n : ℕ} {s : State} (h : Canon s) :
    Canon (enginePeerRead die l q exp ra n s).2 := by
  unfold Machine.enginePeerRead
  split
  · exact h.peerRead
  · extract_lets
    split
    · exact h.homeRead
    · split
      · exact h.peerAnswer
      · split
        · exact h.peerAnswer.mayHold.fillShared.homeRead
        · exact h.peerAnswer.mayHold

theorem Canon.acksCome {line : ℕ} {s : State} (h : Canon s) : Canon (acksCome line s) :=
  foldl_keeps (P := Canon) h fun _ _ h1 => h1.farInvalidated

theorem Canon.enginePeerWrite {cores : List ℕ} {die part : ℕ} {l : Loc} {q exp ra n v : ℕ} {s : State} (h : Canon s) :
    Canon (enginePeerWrite cores die part l q exp ra n v s).1 := by
  unfold Machine.enginePeerWrite
  split
  · exact ite_keeps h.peerWrite (foldl_keeps (P := Canon) h.peerWrite fun _ _ h1 => h1.dropOwnTs)
  · extract_lets
    split
    · exact foldl_keeps (P := Canon) h.homeWrite.acksCome fun _ _ h1 => h1.dropOwnT
    · split
      · exact h.draw
      · dsimp only
        split
        · exact foldl_keeps (P := Canon) h.draw.mayHold.fillOwn.homeWrite.acksCome fun _ _ h1 => h1.dropOwnT
        · exact foldl_keeps (P := Canon) h.draw.mayHold.dropCached fun _ _ h1 => h1.dropOwnT

theorem Canon.engineRead {s : State} {ctx : CtxId} {x : Xctx} {va : Word} {n : ℕ} (h : Canon s) : EngReadCanon (engineRead s ctx x va n)
    := by
  unfold Machine.engineRead
  split
  · exact trivial
  · next e =>
    split
    · exact ite_keeps (h.engineLoc.ofFst e) trivial
    · split
      · exact trivial
      · next e1 =>
        exact ite_keeps trivial (((((h.engineLoc.ofFst e).askFirst).ofSnd e1).lateHome).deviceRead)
    · exact h.engineLoc.ofFst e
    · split
      · exact trivial
      · split
        · exact trivial
        · next e1 =>
          split
          · next e2 =>
            exact ((((h.engineLoc.ofFst e).askFirst).ofSnd e1).enginePeerRead).ofSnd e2
          · exact trivial
    · exact trivial
    · exact trivial

theorem Canon.engineStore {cores : List ℕ} {core part : ℕ} {va : Word} {pa : ℕ} {others : List RepSlot} {n v : ℕ} {s : State} (h : Canon s)
    : Canon (engineStore cores core part va pa others n v s) :=
  Canon.doorbell (Canon.multicast (foldl_keeps (P := Canon) h.deviceWrite fun _ _ h1 => h1.dropOwnT))

theorem Canon.engineMem {ctx : CtxId} {cores : List ℕ} {x : Xctx} {va : Word} {pa : ℕ} {others : List RepSlot} {n v : ℕ} {s : State}
    (h : Canon s) : EngWriteCanon (engineMem ctx cores x va pa others n v s) := by
  unfold Machine.engineMem
  split
  · exact trivial
  · next e =>
    exact ite_keeps trivial (((h.askFirst.ofSnd e).lateHome).engineStore)

theorem Canon.engineWrite {s : State} {ctx : CtxId} {spads : List ℕ} {x : Xctx} {va : Word} {n v : ℕ} (h : Canon s) :
    EngWriteCanon (engineWrite s ctx spads x va n v) := by
  unfold Machine.engineWrite
  split
  · exact trivial
  · next e =>
    split
    · split
      · exact foldl_keeps (P := Canon) (h.engineLoc.ofFst e) fun _ _ h1 => h1.setCore ⟨h1.core.imem, h1.core.spad.writeLe⟩
      · exact trivial
    · exact (h.engineLoc.ofFst e).engineMem
    · exact (h.engineLoc.ofFst e).mmioPut
    · split
      · exact trivial
      · split
        · exact trivial
        · next e1 =>
          exact ite_keeps trivial ((((h.engineLoc.ofFst e).askFirst).ofSnd e1).enginePeerWrite)
    · exact trivial
    · exact ite_keeps trivial trivial

/-! #### Shadow destinations (R314, R315) -/

theorem Canon.readsOf {ctx : CtxId} {x : Xctx} {l : List Nat} {s t : State} (h : Canon s) (e : readsOf ctx x l s = .ok t) : Canon t := by
  unfold Machine.readsOf at e
  split at e
  · cases e
  · next u e1 =>
    have hu : Canon u := h.askFirst.ofSnd e1
    extract_lets r at e
    have hr : Canon r.2 := foldl_keeps (P := fun r : Bool × State => Canon r.2) hu (fun _ _ hb => hb.lateHome)
    split at e
    · cases e
    · cases e; exact hr

theorem Canon.readsThen {ctx : CtxId} {x : Xctx} {l : List ℕ} {s : State} {k : State → ShadowEnd} (h : Canon s)
    (hk : ∀ (t : State), Canon t → ShadowEndCanon (k t)) : ShadowEndCanon (readsThen ctx x l s k) := by
  unfold Machine.readsThen
  split
  · exact trivial
  · exact trivial
  · next e =>
    exact hk _ (h.readsOf e)

theorem Canon.shadowOf {s : State} {ctx : CtxId} {x : Xctx} {shd : Word} (h : Canon s) : ShadowEndCanon (shadowOf s ctx x shd) := by
  unfold Machine.shadowOf
  split
  · exact trivial
  · split
    · exact trivial
    · refine h.readsThen fun _ h1 => ?_
      split
      · exact trivial
      · exact trivial
      · split
        · exact trivial
        · split
          · exact trivial
          · exact h1.readsThen fun _ h2 => ite_keeps trivial h2

theorem Canon.shadowWrite {s : State} {ctx : CtxId} {cores : List ℕ} {x : Xctx} {frames : List ℕ} {dva va : Word} {n v : ℕ} (h : Canon s) :
    EngWriteCanon (shadowWrite s ctx cores x frames dva va n v) := by
  unfold Machine.shadowWrite
  extract_lets
  split
  · exact trivial
  · split
    · exact trivial
    · exact ite_keeps trivial (ite_keeps trivial h.engineMem)

/-! #### Collectives a context has joined (R141, R286) -/

theorem Canon.abortJoined {x : CtxId} {s : State} (h : Canon s) : Canon (abortJoined x s) :=
  h.same rfl rfl

theorem Canon.endHelperAll {c : CtxId} {value : Word} {killed : Bool} {s : State} (h : Canon s) : Canon (endHelperAll c value killed s) :=
  h.abortJoined.endHelper

/-! ### Machine/Group -/

/-! #### Groups on cores (R371, R373, R374) -/

theorem Canon.mapLaunch {p issued : ℕ} {f : Launch → Launch} {s : State} (h : Canon s) : Canon (mapLaunch p issued f s) :=
  h.setPart

theorem Canon.leaveGroup {core : ℕ} {s : State} (h : Canon s) : Canon (leaveGroup core s) := by
  unfold Machine.leaveGroup
  extract_lets k k1
  have h1 (v : Vector Ctx 11) : Canon (s.setCore core { k1 with ctxs := v }) := h.setCore (h.core.same rfl rfl)
  split
  · exact h
  · dsimp only
    split
    · exact (h1 _).mapTroupe
    · exact (h1 _).mapTroupe.mapLaunch

theorem Canon.discardWords {p : ℕ} {id : BitVec 32} {s : State} (h : Canon s) : Canon (discardWords p id s) := by
  unfold Machine.discardWords
  split
  · exact ite_keeps (h.same rfl rfl) h
  · exact h

theorem Canon.groupEnd {g : GroupRef} {s : State} (h : Canon s) : Canon (groupEnd g s) := by
  unfold Machine.groupEnd
  extract_lets s1
  have h1 : Canon s1 := foldl_keeps (P := Canon) h fun _ _ h1 => h1.leaveGroup
  split
  · exact h1
  · exact h1.mapLaunch.discardWords

theorem Canon.coreEnds {core : ℕ} {s : State} (h : Canon s) : Canon (coreEnds core s) := by
  unfold Machine.coreEnds
  extract_lets
  split
  · exact h
  · extract_lets s1
    have h1 : Canon s1 := h.setCore (CoreCanon.same h.core rfl rfl)
    exact ite_keeps h1.groupEnd h1

/-! #### Dispatch (R365, R366, R371, R372) -/

theorem Canon.resplit {core : ℕ} {size : BitVec 2} {s : State} (h : Canon s) : Canon (resplit core size s) := by
  unfold Machine.resplit
  split
  · exact h
  · extract_lets s1
    have h1 : Canon s1 := foldl_keeps (P := Canon) h (fun _ _ h1 => ite_keeps h1.writeBack h1)
    exact h1.setCore ⟨h1.core.imem, h1.core.spad.filter⟩

theorem Canon.placeOn {p : ℕ} {l : Launch} {first core : ℕ} {s : State} (h : Canon s) : Canon (placeOn p l first core s) :=
  Canon.setCore h.resplit (CoreCanon.same h.resplit.core rfl rfl)

theorem Canon.placeGroup {p : ℕ} {l : Launch} {first : ℕ} {s : State} (h : Canon s) : Canon (placeGroup p l first s) := by
  unfold Machine.placeGroup
  extract_lets _ _ s1 _ _ s2
  have h1 : Canon s1 := foldl_keeps (P := Canon) h fun _ _ h1 => h1.placeOn
  have h2 : Canon s2 := ite_keeps h1.setCluster h1
  exact ite_keeps h2.mapLaunch h2.mapLaunch.setPart

theorem Canon.execGroupPlacement {part : ℕ} {s : State} (h : Canon s) : OutCanon (execGroupPlacement part s) := by
  unfold Machine.execGroupPlacement
  extract_lets
  split
  · split
    · exact h.placeGroup.next
    · exact h.next
  · exact h.next

/-! #### Group start (R139, R170, R373) -/

theorem CoreCanon.startCore {l : Launch} {g : GroupRef} {core cycle : ℕ} {k : Core} (hk : CoreCanon k) :
    CoreCanon (startCore l g core cycle k) :=
  hk.same rfl rfl

theorem Canon.spadImage {core at_ : ℕ} {bytes : List Byte} {s : State} (h : Canon s) : Canon (spadImage core at_ bytes s) :=
  ite_keeps (h.setCore ⟨h.core.imem, foldl_keeps (P := MemCanon) h.core.spad (fun _ _ h1 => h1.writeLe)⟩) h

theorem Canon.execGroupStart {core : ℕ} {s : State} (h : Canon s) : OutCanon (execGroupStart core s) := by
  unfold Machine.execGroupStart
  split
  · exact h.next
  · extract_lets q
    split
    · exact h.next
    · refine ite_keeps h.next ?_
      extract_lets i s1 s2 k
      have h1 : Canon s1 := by
        unfold s1
        split
        · exact h.landFetch
        · exact h
      have h2 : Canon s2 := h1.same rfl rfl
      exact (h2.setCore h2.core.startCore.dropT).next

/-! ### Machine/Xeng -/

theorem Canon.addCmd {c : XCmd} {s : State} (h : Canon s) : Canon (addCmd c s) := by
  unfold Machine.addCmd
  extract_lets _ _ s1
  have h1 : Canon s1 := h.setMine (CoreCanon.same h.mine.strConsume rfl rfl)
  exact Canon.same (ite_keeps h1.setMe h1) rfl rfl

theorem Canon.execXsend {d a b : Reg} {w : BitVec 3} {s : State} (h : Canon s) : OutCanon (execXsend d a b w s) := by
  unfold Machine.execXsend
  refine h.issueThen fun _ h1 => ?_
  extract_lets
  refine h1.failThen fun _ h2 => ?_
  refine h2.failThen fun _ h3 => ?_
  extract_lets
  split
  · exact h3.hold
  · exact h3.failThen fun _ h4 => h4.destThen fun _ h5 => ite_keeps h5.hold (h5.releaseThen fun _ h6 => h6.addCmd.deliver.finish.next)

theorem Canon.execXwait {a : Reg} {w : BitVec 3} {s : State} (h : Canon s) : OutCanon (execXwait a w s) := by
  unfold Machine.execXwait
  refine h.issueThen fun _ h1 => ?_
  split
  · exact h1.finish.next
  · exact ite_keeps h1.hold (ite_keeps h1.trapEngine h1.finish.next)

theorem Canon.execXstat {d a b : Reg} {w : BitVec 3} {s : State} (h : Canon s) : OutCanon (execXstat d a b w s) := by
  unfold Machine.execXstat
  refine h.issueThen fun _ h1 => ?_
  extract_lets
  split
  · exact h1.trapAt
  · split
    · exact h1.completeWith
    · exact h1.destThen fun _ h2 => Canon.next (Canon.finish (Canon.deliver (ite_keeps h2.markReported h2)))

/-! ### Machine/EvEngine -/

/-! #### COPY and FILL: the start (R273, R275, R277, R280, R315, R442) -/

theorem Canon.runAs {l : List XCmd} {f : XCmd → XCmd} {s : State} (h : Canon s) : Canon (runAs l f s) :=
  h.mapCmds

theorem Canon.startCopy {c : XCmd} {s : State} (h : Canon s) : Canon (startCopy c s) := by
  unfold Machine.startCopy
  extract_lets
  split
  · exact h.mapCmds
  · split
    · exact h.mapCmds
    · split
      · exact h.runAs
      · split
        · exact h.runAs
        · split
          · split
            · exact h.put
            · exact h.runAs
            · next e1 =>
              exact ite_keeps ((h.shadowOf.ok e1).runAs) h.runAs
          · exact h.runAs

/-! #### COPY and FILL: the elements -/

theorem Canon.readElem {s : State} {c : XCmd} (h : Canon s) : EngReadCanon (readElem s c) :=
  ite_keeps h h.engineRead

theorem Canon.writeElem {s : State} {c : XCmd} {v : ℕ} (h : Canon s) : EngWriteCanon (writeElem s c v) :=
  ite_keeps h.shadowWrite (ite_keeps (ite_keeps trivial h) (ite_keeps trivial h.engineWrite))

theorem Canon.nextElem {c : XCmd} {s : State} (h : Canon s) : Canon (nextElem c s) :=
  ite_keeps h.mapCmds.draw.mapCmds h.mapCmds

theorem Canon.stepElem {c : XCmd} {s : State} (h : Canon s) : Canon (stepElem c s).1 := by
  unfold Machine.stepElem
  split
  · exact h.askedFor
  · exact h.mapCmds
  · next e =>
    split
    · exact h.askedFor
    · exact (h.readElem.ok e).mapCmds
    · next e1 =>
      exact (((h.readElem.ok e).writeElem).ok e1).nextElem

theorem Canon.runElems {n core ticket : ℕ} {s : State} (h : Canon s) : Canon (runElems n core ticket s) := by
  induction n generalizing s with
  | zero =>
    exact h
  | succ n ih =>
    unfold Machine.runElems
    split
    · exact h
    · exact ite_keeps h (ite_keeps (ih h.stepElem) h.stepElem)

theorem Canon.moveCmd {core ticket n : ℕ} {s : State} {kind : XCmd → Bool} (h : Canon s) : OutCanon (moveCmd core ticket n s kind) := by
  unfold Machine.moveCmd
  split
  · exact h.next
  · exact ite_keeps h.next (ite_keeps (ite_keeps h.startCopy.next h.next) h.runElems.next)

/-! #### Collectives: the data (R284–R286) -/

theorem Canon.readElems {n i : ℕ} {c : XCmd} {s : State} (h : Canon s) : ElemsEndCanon (readElems n i c s) := by
  induction n generalizing i s with
  | zero =>
    exact h
  | succ n ih =>
    unfold Machine.readElems
    extract_lets
    split
    · exact trivial
    · exact trivial
    · next e =>
      split
      · next e1 =>
        exact (ih (h.engineRead.ok e)).ok e1
      · exact ih (h.engineRead.ok e)

theorem Canon.readMembers {l : List XCmd} {s : State} (h : Canon s) : CollEndCanon (readMembers l s) := by
  induction l generalizing s with
  | nil =>
    exact h
  | cons a t ih =>
    unfold Machine.readMembers
    split
    · exact trivial
    · exact trivial
    · next e =>
      split
      · next e1 =>
        exact (ih (h.readElems.ok e)).ok e1
      · exact ih (h.readElems.ok e)

theorem Canon.drawElems {n size : ℕ} {s : State} (h : Canon s) : Canon (drawElems n size s).2 := by
  induction n generalizing s with
  | zero =>
    exact h
  | succ n ih =>
    exact ih h.draw

theorem Canon.collResult {c : XCmd} {m : Members} {vals : List (List ℕ)} {s : State} (h : Canon s) : Canon (collResult c m vals s).2 := by
  unfold Machine.collResult
  extract_lets _ _ _ r r1
  have h1 : Canon r.2 := by
    unfold r
    split
    · exact h.drawElems.drawElems
    · exact h
  have h2 : Canon r1.2 := by
    unfold r1
    split
    · exact h.drawElems
    · exact h
  split
  · exact h1
  · split
    · exact h2
    · exact h2

theorem Canon.putElems {c : XCmd} {i : ℕ} {l : List ℕ} {s : State} (h : Canon s) : PutEndCanon (putElems c i l s) := by
  induction l generalizing i s with
  | nil =>
    exact h
  | cons a t ih =>
    unfold Machine.putElems
    extract_lets
    split
    · next e =>
      exact ih (h.shadowWrite.ok e)
    · exact trivial
    · exact trivial

theorem Canon.putMembers {l : List (XCmd × List ℕ)} {s : State} (h : Canon s) : CollEndCanon (putMembers l s) := by
  induction l generalizing s with
  | nil =>
    exact h
  | cons a t ih =>
    unfold Machine.putMembers
    split
    · exact trivial
    · exact trivial
    · next e =>
      exact ih (h.putElems.ok e)

theorem Canon.takeShadows {m : Members} {l : List XCmd} {s : State} (h : Canon s) : CollEndCanon (takeShadows m l s) := by
  induction l generalizing s with
  | nil =>
    exact h
  | cons a t ih =>
    unfold Machine.takeShadows
    split
    · exact trivial
    · exact trivial
    · next e =>
      exact ite_keeps (ih ((h.shadowOf.ok e).mapCmds)) trivial

/-! #### Collectives: the steps -/

theorem Canon.entriesDiffer {m : Members} {s : State} (h : Canon s) : Canon (entriesDiffer m s).2 := by
  unfold Machine.entriesDiffer
  split
  · exact h.draw
  · exact h

theorem Canon.formColl {c : XCmd} {m : Members} {s : State} (h : Canon s) : Canon (formColl c m s) := by
  unfold Machine.formColl
  extract_lets
  split
  · exact h
  · split
    · exact h.mapCmds
    · split
      · exact h.mapCmds
      · split
        · exact h
        · split
          · exact h.askedFor
          · exact h.mapCmds.mapCmds
          · next e =>
            exact ite_keeps (((h.mapCmds.takeShadows.ok e).entriesDiffer).mapCmds) ((h.mapCmds.takeShadows.ok e).entriesDiffer)

theorem Canon.startColl {c : XCmd} {s : State} (h : Canon s) : Canon (startColl c s) := by
  unfold Machine.startColl
  extract_lets
  split
  · exact h.mapCmds
  · split
    · exact h.mapCmds
    · split
      · exact h.mapCmds
      · exact ite_keeps h h.formColl

theorem Canon.setPhase {n : BitVec 4} {index : ℕ} {c : XCmd} {s : State} (h : Canon s) : Canon (setPhase n index c s) :=
  h.mapCmds

theorem Canon.advance {n : BitVec 4} {index : ℕ} {c : XCmd} {m : Members} {s : State} (h : Canon s) : Canon (advance n index c m s) :=
  ite_keeps (ite_keeps h.draw.mapCmds h.draw.setPhase) h.setPhase

theorem Canon.stepColl {c : XCmd} {m : Members} {s : State} (h : Canon s) : Canon (stepColl c m s) := by
  unfold Machine.stepColl
  extract_lets
  split
  · exact h.advance
  · split
    · exact h.advance
    · split
      · split
        · exact h.askedFor
        · exact h.mapCmds
        · next e1 =>
          extract_lets r
          have h1 : Canon r.2 := (h.readMembers.ok e1).collResult
          split
          · exact h.mapCmds
          · next e2 =>
            exact (h1.putMembers.ok e2).advance
          · exact h.askedFor
      · split
        · split
          · exact h.mapCmds
          · split
            · exact h
            · split
              · exact h.put
              · next e2 =>
                exact Canon.setPhase (foldl_keeps (P := Canon) (h.askFirst.ofSnd e2) fun _ _ h1 => h1.publishPages)
        · exact h

theorem Canon.moveColl {op core ticket : ℕ} {s : State} (h : Canon s) : OutCanon (moveColl op core ticket s) := by
  unfold Machine.moveColl
  split
  · exact h.next
  · split
    · exact h.next
    · split
      · exact ite_keeps h.startColl.next h.next
      · split
        · split
          · exact Canon.next (ite_keeps h h.stepColl)
          · exact h.next
        · exact h.next

/-! #### ABORT and the end (R282, R283, R286, R437) -/

theorem Canon.execAbort {core ticket : ℕ} {s : State} (h : Canon s) : OutCanon (execAbort core ticket s) := by
  unfold Machine.execAbort
  split
  · exact h.next
  · split
    · exact h.next
    · extract_lets
      split
      · exact h.next
      · split
        · exact h.mapCmds.next
        · split
          · exact h.mapCmds.next
          · split
            · split
              · exact h.mapCmds.mapCmds.next
              · exact h.next
            · exact h.next

theorem Canon.retireCmd {coll : Bool} {s : State} {id : ℕ × ℕ} (h : Canon s) : Canon (retireCmd coll s id) := by
  unfold Machine.retireCmd
  extract_lets s1
  have h1 : Canon s1 := elim_keeps h fun _ => h.setCtx
  exact ite_keeps h1.pulse.pulse h1.pulse

theorem Canon.execEngineCommandDone {core ticket : ℕ} {s : State} (h : Canon s) : OutCanon (execEngineCommandDone core ticket s) := by
  unfold Machine.execEngineCommandDone
  split
  · exact h.next
  · split
    · exact h.next
    · exact ite_keeps h.next (Canon.next (foldl_keeps (P := Canon) h.mapCmds fun _ _ h1 => h1.retireCmd))

/-! ### Machine/Evt -/

theorem CoreCanon.setEv {k : Core} {n : ℕ} {v : Word} (hk : CoreCanon k) : CoreCanon (setEv k n v) :=
  hk.same rfl rfl

theorem Canon.signalEvent {core n : ℕ} {s : State} (h : Canon s) : Canon (signalEvent core n s) :=
  (h.setCore h.core.setEv).pulse

theorem Canon.execWake {core : ℕ} {s : State} (h : Canon s) : OutCanon (execWake core s) := by
  unfold Machine.execWake
  extract_lets k k1
  have h1 : CoreCanon k1 := h.core.strConsume.same rfl rfl
  exact ite_keeps (Canon.next (h.setCore (h1.same rfl rfl))) h.next

/-! ### Machine/VUnit -/

/-! #### Checks at issue (R159, R162, R163) -/

theorem Canon.countSlip {v : VLines} {s : State} (h : Canon s) : Canon (countSlip v s) :=
  ite_keeps (h.setMine (CoreCanon.same h.mine rfl rfl)) h

theorem Canon.pushVec {i : Instr} {v : VLines} {ga gb : Word} {passes : ℕ} {el : List (ℕ × Word × Loc)} {size : ℕ} {rd wr : List ℕ}
    {s : State} (h : Canon s) : Canon (pushVec i v ga gb passes el size rd wr s) :=
  Canon.setMe (Canon.same h.countSlip rfl rfl)

theorem Canon.vec {i : Instr} {v : VLines} {ga gb : Option Reg} {passes : ℕ} {w : BitVec 3} {s : State} (h : Canon s) :
    OutCanon (vec i v ga gb passes w s) := by
  unfold Machine.vec
  exact h.holdThen fun _ h1 => h1.issueThen fun _ h2 => h2.failThen fun _ h3 => h3.pushVec.finish.next

theorem Canon.vec3 {i : Instr} {d a b : Reg} {w : BitVec 3} {s : State} (h : Canon s) : OutCanon (vec3 i d a b w s) :=
  h.vec

theorem Canon.vec2 {i : Instr} {d a : Reg} {w : BitVec 3} {s : State} (h : Canon s) : OutCanon (vec2 i d a w s) :=
  h.vec

/-! #### Results for a g register (R166) -/

theorem CoreCanon.takeLane {n cycle frames : ℕ} {k : Core} (hk : CoreCanon k) : CoreCanon (takeLane n cycle frames k) :=
  hk.same rfl rfl

theorem Canon.vecGWith {draws : ℕ} {v : VLines} {gb : Option Reg} {d : Reg} {f : State → Word → Word × BitVec 8} {w : BitVec 3} {s : State}
    (h : Canon s) : OutCanon (vecGWith draws v gb d f w s) := by
  unfold Machine.vecGWith
  extract_lets
  split
  · exact h.hold
  · exact h.holdThen fun _ h1 => h1.issueThen fun _ h2 => h2.failThen fun _ h3 => h3.destThen fun _ h4 =>
      Canon.next (Canon.finish (Canon.produce (Canon.same (h4.countSlip.setMine h4.countSlip.mine.takeLane) rfl rfl)))

theorem Canon.vecG {v : VLines} {gb : Option Reg} {d : Reg} {f : State → Word → Word × BitVec 8} {w : BitVec 3} {s : State} (h : Canon s) :
    OutCanon (vecG v gb d f w s) :=
  h.vecGWith

/-! ### Machine/MatOps -/

/-! #### PLANE (R90, R208) -/

theorem CoreCanon.planeStep {m : MSet} {c : MCmd} {kb : ℕ} {k : Core} (hk : CoreCanon k) : CoreCanon (planeStep m c kb k).1 :=
  ⟨hk.imem, foldl_keeps (P := MemCanon) hk.spad (fun _ _ h => MemCanon.matWrite (foldl_keeps (P := MemCanon) h (fun _ _ h1 =>
    h1.matWrite)))⟩

/-! #### HAD (R92, R215) -/

theorem CoreCanon.hadVector {inF outF : Bool} {n count src dst : ℕ} {k : Core} (hk : CoreCanon k) :
    CoreCanon (hadVector inF outF n count src dst k).1 :=
  ⟨hk.imem, hk.spad.matWrite⟩

theorem CoreCanon.hadStep {c : MCmd} {kb : ℕ} {k : Core} (hk : CoreCanon k) : CoreCanon (hadStep c kb k).1 :=
  foldl_keeps (P := fun r : Core × BitVec 8 => CoreCanon r.1) hk fun _ _ h => h.hadVector

/-! #### DRAIN (R83, R84, R87, R88, R216) -/

theorem CoreCanon.drainOut {m : MSet} {c : MCmd} {k : Core} (hk : CoreCanon k) : CoreCanon (drainOut m c k).1 :=
  ⟨hk.imem, foldl_keeps (P := MemCanon) hk.spad (fun _ _ h => MemCanon.matWrite (ite_keeps h.matWrite h))⟩

/-! ### Machine/Outlier -/

theorem Canon.unitAmo {c : CtxId} {pc va : Word} {order : ℕ} {l : Loc} {op : BitVec 4} {scope : BitVec 3} {n v : ℕ} {s : State}
    (h : Canon s) : Canon (unitAmo c pc va order l op scope n v s).2.2 := by
  unfold Machine.unitAmo
  extract_lets _ _ _ r
  have h1 : Canon r.2 := h.countPeerDelay.peerAnswer
  split
  · exact elim_keeps h fun _ => h.setCore ⟨h.core.imem, h.core.spad.writeLe⟩
  · extract_lets late
    have h2 : Canon late.2 := by
      unfold late
      split
      · exact h
      · exact h.lateFar
    split
    · exact h2
    · exact h2.amoCounted
  · exact elim_keeps h fun _ => h.mmioPut
  · split
    · exact h.fromPeer.servePeer
    · exact elim_keeps h1 fun _ => h1.dropAsked
  · exact h.raiseDeferred
  · exact h

theorem Canon.amoAt {c : CtxId} {x : Xctx} {pc va : Word} {order : ℕ} {op : BitVec 4} {scope : BitVec 3} {n v : ℕ} {s : State}
    {kept : ℕ → ℕ → Bool} (h : Canon s) : UnitEndCanon (amoAt c x pc va order op scope n v s kept) := by
  unfold Machine.amoAt
  split
  · exact h
  · split
    · next e =>
      exact h.unitLoc.ofFst e
    · next e =>
      split
      · exact trivial
      · exact ite_keeps (((h.unitLoc.ofFst e).revokeAt).unitAmo) (((h.unitLoc.ofFst e).revokeAt).unitAmo)

theorem Canon.putAt {c : CtxId} {x : Xctx} {pc va : Word} {order v : ℕ} {s : State} {kept : ℕ → ℕ → Bool} (h : Canon s) :
    UnitEndCanon (putAt c x pc va order v s kept) := by
  unfold Machine.putAt
  split
  · exact h
  · split
    · next e =>
      exact h.unitLoc.ofFst e
    · next e =>
      split
      · exact trivial
      · exact ite_keeps ((((h.unitLoc.ofFst e).revokeAt).storeAt).setCtx) (((h.unitLoc.ofFst e).revokeAt).storeAt)

theorem Canon.appendOutlier {c : CtxId} {x : Xctx} {pc : Word} {order : ℕ} {e : ℕ × ℕ} {s : State} {kept : ℕ → ℕ → Bool} (h : Canon s) :
    UnitEndCanon (appendOutlier c x pc order e s kept) := by
  unfold Machine.appendOutlier
  extract_lets
  split
  · next e1 =>
    exact ite_keeps ((h.amoAt.ok e1).putAt) (h.amoAt.ok e1)
  · exact h.amoAt

theorem Canon.appendAll {c : CtxId} {x : Xctx} {pc : Word} {order : ℕ} {full : State → State} {l : List (ℕ × ℕ)} {s : State}
    {kept : ℕ → ℕ → Bool} (h : Canon s) (hfull : ∀ (t : State), Canon t → Canon (full t)) :
    UnitEndCanon (appendAll c x pc order full l s kept) := by
  induction l generalizing s with
  | nil =>
    exact h
  | cons a t ih =>
    unfold Machine.appendAll
    split
    · next e =>
      split
      · next e1 =>
        exact (ih (h.appendOutlier.ok e)).ok e1
      · next e1 =>
        exact ite_keeps ((ih (h.appendOutlier.ok e)).fail e1) (hfull _ ((ih (h.appendOutlier.ok e)).fail e1))
      · exact trivial
    · exact h.appendOutlier

/-! ### Machine/EvMatrix -/

/-! #### Starting (R199, R206, R207, R213, R224) -/

theorem Canon.unitRead {fuel core : Nat} {cmd : MCmd} {va : Word} {n : Nat} {s : State} (h : Canon s) :
    UnitEndCanon (unitRead fuel core cmd va n s) := by
  induction fuel generalizing va n s with
  | zero => exact h
  | succ f ih =>
    unfold Machine.unitRead
    refine ite_keeps (P := UnitEndCanon) h ?_
    extract_lets m
    split
    · next e => exact h.unitLoc.ofFst e
    · next t l e =>
      have ht : Canon t := h.unitLoc.ofFst e
      refine ite_keeps (P := UnitEndCanon) trivial ?_
      extract_lets r
      have hr : Canon r.2.2.2 := ht.revokeAt.loadAt
      refine ite_keeps (P := UnitEndCanon) (ite_keeps (P := Canon) hr.raiseDeferred hr) ?_
      split
      · next e => exact (ih hr).ok e
      · exact ih hr

theorem Canon.checkRecord {core : ℕ} {c : MCmd} {r : ℕ} {s : State} (h : Canon s) : RecEndCanon (checkRecord core c r s) := by
  unfold Machine.checkRecord
  extract_lets
  split
  · exact h
  · split
    · exact trivial
    · next e =>
      exact h.unitRead.fail e
    · next e =>
      split
      · exact h.unitRead.ok e
      · split
        · exact h.unitRead.ok e
        · split
          · exact trivial
          · next e1 =>
            exact ((h.unitRead.ok e).unitRead).fail e1
          · next e1 =>
            exact ((h.unitRead.ok e).unitRead).ok e1

theorem Canon.checkRecords {core : Nat} {c : MCmd} {n r : Nat} {s : State} {x : List MRecord × State} (h : Canon s)
    (e : checkRecords core c n r s = some x) : Canon x.2 := by
  induction n generalizing r s x with
  | zero => cases e; exact h
  | succ n ih =>
    unfold Machine.checkRecords at e
    split at e
    · cases e
    · next e1 =>
      obtain ⟨y, hy, rfl⟩ := Option.map_eq_some_iff.1 e
      show Canon y.2
      exact ih (h.checkRecord.ok e1) hy

theorem Canon.setHead {core : ℕ} {c : MCmd} {s : State} (h : Canon s) : Canon (setHead core c s) :=
  h.setCore (CoreCanon.same h.core rfl rfl)

theorem Canon.startHead {core : Nat} {c : MCmd} {s t : State} (h : Canon s) (e : startHead core c s = some t) : Canon t := by
  unfold Machine.startHead at e
  extract_lets k1 fresh k2 k3 s1 at e
  have hk2 : CoreCanon k2 := h.core.strConsume.same rfl rfl
  have h1 : Canon s1 := h.setCore (ite_keeps (P := CoreCanon) hk2.setAcc hk2)
  split at e
  · obtain ⟨r, hr, rfl⟩ := Option.map_eq_some_iff.1 e
    exact (h1.checkRecords hr).setHead
  · cases e
    exact h1.setHead

theorem Canon.headNow {core : Nat} {s : State} {r : MCmd × State} (h : Canon s) (e : headNow core s = some r) : Canon r.2 := by
  unfold Machine.headNow at e
  split at e
  · cases e
  · split at e
    · cases e
    · split at e
      · cases e; exact h
      · split at e
        · cases e; exact h.setHead
        · split at e
          · obtain ⟨t, ht, e⟩ := Option.bind_eq_some_iff.1 e
            obtain ⟨d, _, rfl⟩ := Option.map_eq_some_iff.1 e
            exact h.startHead ht
          · cases e

theorem Canon.goOn {code core : ℕ} {s : State} {f : MCmd → State → State} (h : Canon s)
    (hf : ∀ (c : MCmd) (t : State), Canon t → Canon (f c t)) : OutCanon (goOn code core s f) := by
  unfold Machine.goOn
  split
  · split
    · next e1 =>
      exact Canon.next (ite_keeps (h.headNow e1) (hf _ _ (h.headNow e1)))
    · exact h.next
  · exact h.next

/-! #### PLANE, MMA and HAD -/

theorem Canon.runBlocks {core : ℕ} {span : MCmd → ℕ → ℕ} {f : MCmd → ℕ → Core → Core × BitVec 8} {n : ℕ} {c : MCmd} {s : State}
    (h : Canon s) (hf : ∀ (c : MCmd) (i : ℕ) (j : Core), CoreCanon j → CoreCanon (f c i j).1) : Canon (runBlocks core span f n c s) := by
  induction n generalizing c s with
  | zero =>
    exact h.setHead
  | succ n ih =>
    exact ite_keeps ((h.setCore (hf _ _ _ h.core)).setHead) (ih (h.setCore (hf _ _ _ h.core)))

theorem CoreCanon.mmaStep {c : MCmd} {kb : ℕ} {k : Core} (hk : CoreCanon k) : CoreCanon (mmaStep c kb k).1 :=
  hk.setAcc

/-! #### MMA.R (R214) -/

theorem Canon.recordFails {core : ℕ} {r : MRecord} {c : MCmd} {s : State} (h : Canon s) : Canon (recordFails core r c s).2 :=
  h.setCore h.core.setAcc

theorem Canon.recordStep {core : Nat} {c : MCmd} {s : State} {r : MCmd × State} (h : Canon s) (e : recordStep core c s = some r) :
    Canon r.2 := by
  unfold Machine.recordStep at e
  split at e
  · cases e; exact h
  · split at e
    · cases e; exact h
    · extract_lets p at e
      split at e
      · cases e
      · next e1 => cases e; exact (h.unitRead.fail e1).recordFails
      · next e1 =>
        have h1 := h.unitRead.ok e1
        split at e
        · cases e
        · next e2 => cases e; exact (h1.unitRead.fail e2).recordFails
        · next e2 =>
          have h2 := h1.unitRead.ok e2
          cases e
          exact h2.setCore h2.core.setAcc

theorem Canon.runRecords {core n : ℕ} {c : MCmd} {s : State} (h : Canon s) : Canon (runRecords core n c s) := by
  induction n generalizing c s with
  | zero =>
    exact h.setHead
  | succ n ih =>
    unfold Machine.runRecords
    split
    · exact h.setHead
    · next e =>
      exact ite_keeps ((h.recordStep e).setHead) (ih (h.recordStep e))

/-! #### DRAIN, ZERO and MARK -/

theorem Canon.cmdAccrue {core : ℕ} {c : MCmd} {f : BitVec 8} {s : State} (h : Canon s) : Canon (cmdAccrue core c f s) :=
  ite_keeps h h.accrue

theorem Canon.drainAccesses {core : Nat} {c : MCmd} {outs : List (Nat × Nat)} {amax : Nat} {s : State} {r : Bool × Bool × State}
    (h : Canon s)
    (e : drainAccesses core c outs amax s = some r) : Canon r.2.2 := by
  unfold Machine.drainAccesses at e
  extract_lets k x at e
  split at e
  · cases e
  · next e1 => cases e; exact (h.appendAll fun _ ht => ht.cmdAccrue).fail e1
  · next e1 =>
    have h1 := (h.appendAll fun _ ht => ht.cmdAccrue).ok e1
    split at e
    · split at e
      · cases e
      · next e2 => cases e; exact h1.amoAt.fail e2
      · next e2 => cases e; exact h1.amoAt.ok e2
    · cases e; exact h1

theorem Canon.execDrain {core : ℕ} {s : State} (h : Canon s) : OutCanon (execDrain core s) := by
  unfold Machine.execDrain
  refine h.goOn fun _ _ h1 => ?_
  extract_lets
  split
  · exact h1
  · next e =>
    extract_lets k
    have h2 : CoreCanon k := ((h1.setCore h1.core.drainOut).drainAccesses e).core
    exact Canon.setHead (Canon.setCore ((h1.setCore h1.core.drainOut).drainAccesses e) (ite_keeps h2.setAcc h2))

theorem Canon.execZero {core : ℕ} {s : State} (h : Canon s) : OutCanon (execZero core s) :=
  h.goOn fun _ _ h1 => Canon.setHead (h1.setCore (foldl_keeps (P := CoreCanon) h1.core fun _ _ h2 => ite_keeps h2.setAcc h2))

/-! #### Completion (R75, R200, R218, R222) -/

theorem Canon.completeCmd {core : ℕ} {c : MCmd} {s : State} (h : Canon s) : Canon (completeCmd core c s) := by
  unfold Machine.completeCmd
  extract_lets _ _ s1 s2 s3
  have h1 : Canon s1 := h.setCore (CoreCanon.same h.core rfl rfl)
  have h2 : Canon s2 := ite_keeps h1 h1.cmdAccrue
  have h3 : Canon s3 := by
    unfold s3
    split
    · exact h2.recordFault
    · exact h2
  exact ite_keeps (Canon.signalEvent (ite_keeps h3.pulse h3)) (ite_keeps h3.pulse h3)

theorem Canon.execMatrixCommandDone {core : ℕ} {s : State} (h : Canon s) : OutCanon (execMatrixCommandDone core s) := by
  unfold Machine.execMatrixCommandDone
  split
  · exact h.next
  · split
    · exact h.completeCmd.next
    · split
      · next e1 =>
        exact ite_keeps (((h.headNow e1).completeCmd).next) h.next
      · exact h.next

/-! ### Machine/Image -/

/-! #### The layout (R377) -/

theorem Canon.putImage {q : Part} {fields : List Field} {s : State} (h : Canon s) : Canon (putImage q fields s) := by
  unfold Machine.putImage
  extract_lets _ _ _ s1
  have h1 : Canon s1 := h.mapCores fun _ _ h1 => (h1.same rfl rfl)
  exact ⟨foldl_keeps (P := MemCanon) h1.mem.filter (fun _ _ h2 => h2.writeLe), h1.cores⟩

theorem Canon.writeImage {p : ℕ} {s : State} (h : Canon s) : Canon (writeImage p s) :=
  h.putImage

theorem Canon.putFields {p : ℕ} {l : List Field} {s : State} (h : Canon s) : Canon (putFields p l s) :=
  foldl_keeps (P := Canon) h fun _ _ h1 => h1.ownWrite

theorem Canon.savedRecord {p : ℕ} {c : CtxId} {s : State} (h : Canon s) : Canon (savedRecord p c s) :=
  ite_keeps h.putFields h

theorem Canon.savedRegs {p : ℕ} {s : State} {core : ℕ} (h : Canon s) : Canon (savedRegs p s core) :=
  ite_keeps h.putFields h

/-! #### Reading it back (R378) -/

theorem CoreCanon.loadCoreCsr {k : Core} {n : Nat} {v : Word} (hk : CoreCanon k) : CoreCanon (loadCoreCsr k n v) := by
  unfold Machine.loadCoreCsr
  iterate 16 refine ite_keeps (P := CoreCanon) (hk.same rfl rfl) ?_
  exact hk.csrWriteCore

/-- The bytes of a range have addresses from its start on. -/
theorem le_of_mem_clipRange {m : Memory} {lo hi : Nat} {c : Host.Cell} (h : c ∈ clipRange m lo hi) : lo ≤ c.1 := by
  have hp := (List.mem_filter.1 h).2
  rw [decide_eq_true_eq] at hp
  exact hp.1

/-- The bytes of a range, moved down to address 0, are a canonical memory. -/
theorem MemCanon.clipRangeDown {m : Memory} {lo hi : Nat} (hm : MemCanon m) :
    MemCanon ((Machine.clipRange m lo hi).map (fun c => (c.1 - lo, c.2))) :=
  hm.clipRange.shiftDown lo fun _ hc => le_of_mem_clipRange hc

theorem MemCanon.loadCore {m : Memory} {a : Nat} {k : Core} (hm : MemCanon m) (hk : CoreCanon k) : CoreCanon (loadCore m a k) := by
  unfold Machine.loadCore
  extract_lets k1
  have h1 : CoreCanon k1 := foldl_keeps (P := CoreCanon) hk fun _ _ hb => hb.loadCoreCsr
  clear_value k1
  exact ⟨h1.imem, hm.clipRangeDown⟩

theorem Canon.recallImage {q : Part} {s : State} (h : Canon s) : Canon (recallImage q s) :=
  foldl_keeps (P := Canon) h fun _ _ h1 => h1.recallO

theorem Canon.readImage {p : Nat} {cores : List Nat} {s : State} (h : Canon s) : Canon (readImage p cores s) := by
  unfold Machine.readImage
  extract_lets s1 q m
  have h1 : Canon s1 := h.recallImage
  have hm : MemCanon m := h1.mem.clipRange
  exact foldl_keeps (P := Canon) h1.setPart fun _ _ ht => ht.setCore (hm.loadCore ht.core)

/-! ### Machine/Port -/

theorem Canon.execQpeek {d : Reg} {q : BitVec 2} {w : BitVec 3} {s : State} (h : Canon s) : OutCanon (execQpeek d q w s) := by
  unfold Machine.execQpeek
  refine h.issueThen fun _ h1 => ?_
  split
  · exact h1.destThen fun _ h2 => h2.hold
  · exact h1.completeWith

theorem CoreCanon.clearPort {k : Core} {q n : ℕ} (hk : CoreCanon k) : CoreCanon (clearPort k q n) := by
  induction n generalizing k with
  | zero =>
    exact hk
  | succ n ih =>
    exact ih hk.pop

/-! #### ROUTER_ACCEPT and PORT_WORD_ARRIVAL (R95, R262, R263) -/

theorem Canon.execRouterAccept {core ctx : ℕ} {s : State} (h : Canon s) : OutCanon (execRouterAccept core ctx s) := by
  unfold Machine.execRouterAccept
  extract_lets c
  split
  · exact h.next
  · next x t _ =>
    refine ite_keeps ?_ h.next
    extract_lets s1 k
    have h1 : Canon s1 := h.setCtx
    have h2 : Canon (s1.setCore core { k with msgsent := k.msgsent + 1 }) := h1.setCore (h1.core.same rfl rfl)
    exact Canon.next (h2.same rfl rfl)

theorem Canon.hopWord {x : PortWord} {c : ℕ × ℕ} {s : State} (h : Canon s) : Canon (hopWord x c s) :=
  ite_keeps (h.same rfl rfl) h

theorem Canon.landWord {x : PortWord} {s : State} (h : Canon s) : Canon (landWord x s) := by
  unfold Machine.landWord
  extract_lets _ k'
  have h1 : CoreCanon k' := CoreCanon.same h.core rfl rfl
  exact h.setCore (ite_keeps h1 h1.strRaise.strFire)

theorem Canon.execPortWordArrival {word : ℕ} {s : State} (h : Canon s) : OutCanon (execPortWordArrival word s) := by
  unfold Machine.execPortWordArrival
  split
  · exact h.next
  · have h1 : Canon { s with net := s.net.filter (fun w => w.id != word) } := h.same rfl rfl
    exact ite_keeps h.next (ite_keeps h.hopWord.next (ite_keeps h.next h1.landWord.next))

/-! ### Machine/EvSwitch -/

/-! #### TSLICE_EXPIRY and FORCED_SWITCH_STOP (R375, R376) -/

theorem Canon.settleCtx {s : State} {c : CtxId} (h : Canon s) : Canon (settleCtx s c) := by
  unfold Machine.settleCtx
  split
  · exact h.setCtx
  · exact h

theorem Canon.pauseCmds {p : ℕ} {s : State} (h : Canon s) : Canon (pauseCmds p s) :=
  h.same rfl rfl

theorem Canon.execForcedSwitchStop {part : ℕ} {s : State} (h : Canon s) : OutCanon (execForcedSwitchStop part s) := by
  unfold Machine.execForcedSwitchStop
  extract_lets _ s1
  have h1 : Canon s1 := foldl_keeps (P := Canon) h.pauseCmds fun _ _ h1 => foldl_keeps (P := Canon) h1 fun _ _ h2 => h2.settleCtx
  split
  · exact h.next
  · exact ite_keeps h1.setPart.next h.next

/-! #### The cores of a partition under other numbers (R377, R378) -/

theorem CoreCanon.moveCore {f : Nat → Nat} {k : Core} (hk : CoreCanon k) : CoreCanon (moveCore f k) := (hk.same rfl rfl)

theorem Canon.moveClusters {p lo n dst : Nat} {s : State} (h : Canon s) : Canon (moveClusters p lo n dst s) := by
  unfold Machine.moveClusters
  extract_lets f stays
  have hc : CoresCanon (s.cores.filter stays) := h.cores.filter
  refine ⟨h.mem, foldl_keeps_of_mem (P := CoresCanon) coresCanon_nil fun l e he hl => hl.tset ?_⟩
  exact ite_keeps (hc e he) (hc e he).moveCore

theorem Canon.dropVmid {q : Part} {s : State} (h : Canon s) : Canon (dropVmid q s) :=
  h.same rfl rfl

theorem Canon.saveAreaThen {q : Part} {write : Bool} {s : State} {k : State → Out} (h : Canon s)
    (hk : ∀ (t : State), Canon t → OutCanon (k t)) : OutCanon (saveAreaThen q write s k) :=
  ite_keeps h.askPeers.next (hk _ h)

theorem Canon.execSaveDone {part : ℕ} {s : State} (h : Canon s) : OutCanon (execSaveDone part s) := by
  unfold Machine.execSaveDone
  extract_lets q
  refine ite_keeps (h.saveAreaThen fun t ht => ?_) h.next
  extract_lets s1 s2
  have h1 : Canon s1 := foldl_keeps ht fun _ _ hb => hb.flushL1
  have h2 : Canon s2 := h1.writeImage.dropVmid.moveClusters
  clear_value s2
  exact Canon.next (h2.same rfl rfl)

/-! #### RESTORE_DONE (R145, R378, R408) -/

theorem Canon.landSaved {p : ℕ} {s : State} (h : Canon s) : Canon (landSaved p s) :=
  foldl_keeps (P := Canon) h fun _ _ h1 => ite_keeps (Canon.landWord (h1.same rfl rfl)) h1

theorem Canon.wakeResumed {s : State} {c : CtxId} (h : Canon s) : Canon (wakeResumed s c) :=
  ite_keeps (ite_keeps h.draw.setCtx h.draw) h

theorem Canon.resumeCmds {p : ℕ} {s : State} (h : Canon s) : Canon (resumeCmds p s) :=
  h.same rfl rfl

theorem Canon.execRestoreDone {part : ℕ} {s : State} (h : Canon s) : OutCanon (execRestoreDone part s) := by
  unfold Machine.execRestoreDone
  extract_lets
  split
  · refine h.saveAreaThen fun _ h1 => ?_
    extract_lets _ s1
    have h2 : Canon s1 := h1.moveClusters.readImage
    exact Canon.next (foldl_keeps (P := Canon) h2.setPart.resumeCmds.landSaved fun _ _ h3 => foldl_keeps (P := Canon) h3 fun _ _ h4 =>
      h4.wakeResumed)
  · exact h.next

/-! ### Machine/Help -/

theorem Canon.startHelper {core i : ℕ} {t arg : Word} {s : State} (h : Canon s) : Canon (startHelper core i t arg s) :=
  h.setCore h.core.setCtx

theorem Canon.hstart {wait : Bool} {word : IWord} {d a b : Reg} {w : BitVec 3} {s : State} (h : Canon s) :
    OutCanon (hstart wait word d a b w s) := by
  unfold Machine.hstart
  refine h.ctx0Then fun _ h1 => ?_
  refine h1.issueThen fun _ h2 => ?_
  extract_lets
  refine h2.failThen fun _ h3 => ?_
  split
  · exact h3.completeWith
  · split
    · exact h3.destThen fun _ h4 => h4.startHelper.deliver.finish.next
    · exact ite_keeps (h3.destThen fun _ h4 => h4.hold) h3.completeWith

theorem Canon.execHexit {w : BitVec 3} {s : State} (h : Canon s) : OutCanon (execHexit w s) := by
  unfold Machine.execHexit
  split
  · exact h.trapAt
  · exact h.issueThen fun _ h1 => ite_keeps h1.hold (h1.releaseThen fun _ h2 => h2.retireAt.endHelper.next)

theorem Canon.execHjoin {d a : Reg} {w : BitVec 3} {s : State} (h : Canon s) : OutCanon (execHjoin d a w s) :=
  h.issueThen fun _ h1 => ite_keeps (ite_keeps (h1.destThen fun _ h2 => h2.hold) h1.completeWith) h1.completeWith

theorem Canon.execHkill {a : Reg} {w : BitVec 3} {s : State} (h : Canon s) : OutCanon (execHkill a w s) :=
  h.ctx0Then fun _ h1 => h1.issueThen fun _ h2 => ite_keeps (((h2.setMine h2.mine.setCtx).finish).next) h2.finish.next

/-! #### HELPER_START_TRIGGER (R259) -/

theorem CoreCanon.setHpend {on : Bool} {k : Core} (hk : CoreCanon k) : CoreCanon (setHpend on k) :=
  hk.same rfl rfl

theorem CoreCanon.setHlost {k : Core} (hk : CoreCanon k) : CoreCanon (setHlost k) :=
  hk.same rfl rfl

theorem Canon.execHelperStartTrigger {core : ℕ} {s : State} (h : Canon s) : OutCanon (execHelperStartTrigger core s) := by
  unfold Machine.execHelperStartTrigger
  extract_lets k0 d k s1
  have hk : CoreCanon k := h.core.strConsume.same rfl rfl
  have hs : Canon s1 := h.setCore hk
  clear_value k
  split
  · exact h.next
  · split
    · refine ite_keeps (hs.setCore hk.setHlost).next ?_
      split
      · exact hs.startHelper.next
      · exact Canon.next (hs.setCore ((hk.setHpend (on := true)).same rfl rfl))
    · refine ite_keeps ?_ h.next
      split
      · exact Canon.next (Canon.startHelper (h.setCore ((h.core.setHpend (on := false)).same rfl rfl)))
      · exact h.next

/-! ### Machine/Inject -/

theorem Canon.execSti {d a b : Reg} {z : BitVec 2} {st r : BitVec 1} {w : BitVec 3} {s : State} (h : Canon s) :
    OutCanon (execSti d a b z st r w s) := by
  unfold Machine.execSti
  refine h.issueThen fun _ h1 => ?_
  extract_lets
  refine h1.failThen fun _ h2 => ?_
  refine h2.failThen fun _ h3 => ?_
  refine h3.failThen fun _ h4 => ?_
  refine h4.failThen fun _ h5 => ?_
  split
  · exact h5.trapAt
  · exact h5.locThen fun _ _ h6 => ite_keeps (h6.destThen fun _ h7 => h7.addReq.finish.next) h6.addReq.finish.next

/-! ### Machine/Retry -/

theorem Canon.execRpop {d : Reg} {w : BitVec 3} {s : State} (h : Canon s) : OutCanon (execRpop d w s) :=
  h.privThen fun _ h1 => h1.issueThen fun _ h2 => h2.destThen fun _ h3 =>
    ite_keeps h3.deliver.finish.next h3.setPart.acquireAt.deliver.finish.next

theorem Canon.fixEntry {p : ℕ} {e : RingEntry} {v : Word} {s : State} (h : Canon s) : Canon (fixEntry p e v s) := by
  unfold Machine.fixEntry
  extract_lets s1
  have h1 : Canon s1 := by
    unfold s1
    split
    · split
      · exact h.writeResult
      · exact h
    · exact h
  exact h1.completeEntry

theorem Canon.execRfix {a b : Reg} {w : BitVec 3} {s : State} (h : Canon s) : OutCanon (execRfix a b w s) := by
  unfold Machine.execRfix
  refine h.privThen fun _ h1 => ?_
  refine h1.issueThen fun _ h2 => ?_
  split
  · exact h2.finish.next
  · exact ite_keeps h2.hold (h2.peersThen fun _ h3 => h3.fixEntry.savedRecord.finish.next)

/-! #### RREPLAY -/

theorem Canon.refault {e : RingEntry} {size : ℕ} {kind : BitVec 3} {s : State} (h : Canon s) : Canon (refault e size kind s) :=
  h.appendEntry.completeEntry

theorem Canon.countReplay {p : ℕ} {e : RingEntry} {s : State} (h : Canon s) : Canon (countReplay p e s) :=
  ite_keeps (h.setCore (CoreCanon.same h.core rfl rfl)) h

theorem Canon.replay {w : BitVec 3} {a : Reg} {p : ℕ} {e : RingEntry} {s : State} (h : Canon s) : OutCanon (replay w a p e s) := by
  unfold Machine.replay
  extract_lets
  split
  · next e1 =>
    exact ((((h.resolve.ofFst e1).countReplay).addReq).setMe).hold
  · next e1 =>
    split
    · exact Canon.peersThen (h.resolve.ofFst e1) fun _ h1 => h1.refault.finish.next
    · exact (h.resolve.ofFst e1).hold

theorem Canon.replaySaved {w : BitVec 3} {a : Reg} {p n : ℕ} {s : State} (h : Canon s) : OutCanon (replaySaved w a p n s) := by
  unfold Machine.replaySaved
  split
  · exact h.finish.next
  · exact ite_keeps h.replay h.setMe.hold

theorem Canon.execRreplay {a : Reg} {w : BitVec 3} {s : State} (h : Canon s) : OutCanon (execRreplay a w s) := by
  unfold Machine.execRreplay
  refine h.privThen fun _ h1 => ?_
  refine h1.issueThen fun _ h2 => ?_
  split
  · exact ite_keeps h2.hold h2.finish.next
  · exact h2.replaySaved
  · split
    · exact h2.finish.next
    · exact ite_keeps h2.replay h2.replaySaved

/-! #### RKILL -/

theorem Canon.killEntry {p : ℕ} {e : RingEntry} {s : State} (h : Canon s) : Canon (killEntry p e s) := by
  unfold Machine.killEntry
  extract_lets s1
  have h1 : Canon s1 := by
    unfold s1
    split
    · exact h
    · exact Canon.raiseDeferred (ite_keeps h.setCtx h)
  exact h1.completeEntry

theorem Canon.execRkill {a : Reg} {w : BitVec 3} {s : State} (h : Canon s) : OutCanon (execRkill a w s) := by
  unfold Machine.execRkill
  refine h.privThen fun _ h1 => ?_
  refine h1.issueThen fun _ h2 => ?_
  split
  · exact h2.finish.next
  · exact h2.peersThen fun _ h3 => h3.killEntry.savedRecord.finish.next

/-! ### Machine/Sched -/

/-! #### The launch descriptor (R32) and its checks (R364) -/

theorem Canon.appendLaunch {p : ℕ} {l : Launch} {s : State} (h : Canon s) : Canon (appendLaunch p l s) :=
  h.setPart

/-! #### LNCH (R363) -/

theorem Canon.readRun {fuel : ℕ} {va : Word} {n : ℕ} {s : State} (h : Canon s) : CtxReadCanon (readRun fuel va n s) := by
  induction fuel generalizing va n s with
  | zero =>
    exact h
  | succ fuel ih =>
    unfold Machine.readRun
    split
    · exact h
    · extract_lets
      split
      · next e =>
        split
        · next e1 =>
          exact (ih (h.ctxRead.ok e)).ok e1
        · exact ih (h.ctxRead.ok e)
      · exact h.ctxRead

theorem Canon.placeThen {s0 : State} {desc : ℕ} {l : Launch} {s : State} {k : Launch → State → Out} (h : Canon s) (hs0 : Canon s0)
    (hk : ∀ (x : Launch) (t : State), Canon t → OutCanon (k x t)) : OutCanon (placeThen s0 desc l s k) := by
  unfold Machine.placeThen
  split
  · split
    · exact hs0.holdRead
    · next e1 =>
      exact (h.readRun.trap e1).trap
    · next e1 =>
      exact hk _ _ (h.readRun.ok e1)
  · exact hk _ _ h

theorem Canon.badThen {code : Option ℕ} {s : State} {k : State → Out} (h : Canon s) (hk : ∀ (t : State), Canon t → OutCanon (k t)) :
    OutCanon (badThen code s k) :=
  h.failThen fun _ h1 => hk _ h1

theorem Canon.execLnch {d a : Reg} {w : BitVec 3} {s : State} (h : Canon s) : OutCanon (execLnch d a w s) := by
  unfold Machine.execLnch
  refine h.issueThen fun _ h1 => ?_
  extract_lets
  refine h1.failThen fun _ h2 => ?_
  extract_lets
  refine h2.readThen fun _ _ h3 => ?_
  extract_lets
  exact h3.badThen fun _ h4 => h4.placeThen h2 fun _ _ h5 => h5.badThen fun _ h6 => h6.destThen fun _ h7 =>
    ite_keeps h2.hold (h7.releaseThen fun _ h8 => h8.appendLaunch.deliver.finish.next)

/-! #### LWAIT, LQRY and LCANCEL (R367–R369) -/

theorem Canon.execLwait {a : Reg} {w : BitVec 3} {s : State} (h : Canon s) : OutCanon (execLwait a w s) := by
  unfold Machine.execLwait
  refine h.issueThen fun _ h1 => ?_
  split
  · exact h1.finish.next
  · exact ite_keeps h1.acquireAt.finish.next h1.hold

theorem Canon.cancelLaunch {p : ℕ} {l : Launch} {s : State} (h : Canon s) : Canon (cancelLaunch p l s) :=
  h.mapLaunch.discardWords

theorem Canon.execLcancel {d a : Reg} {w : BitVec 3} {s : State} (h : Canon s) : OutCanon (execLcancel d a w s) := by
  unfold Machine.execLcancel
  refine h.issueThen fun _ h1 => ?_
  refine h1.destThen fun _ h2 => ?_
  split
  · exact h2.completeWith
  · exact ite_keeps h2.completeWith h2.cancelLaunch.completeWith

/-! ### Machine/Sync -/

/-! #### SYNC and BAR (R289, R291) -/

theorem Canon.forwardSync {word : IWord} {s : State} (h : Canon s) : Canon (forwardSync word s) :=
  ite_keeps (foldl_keeps (P := Canon) h fun _ _ h1 => h1.forward) h

theorem Canon.sync {bar : Bool} {word : IWord} {l : BitVec 2} {w : BitVec 3} {s : State} (h : Canon s) : OutCanon (sync bar word l w s)
    := by
  unfold Machine.sync
  extract_lets
  split
  · exact h.trapAt
  · refine h.issueThen fun _ h1 => ?_
    split
    · exact h1.hold
    · exact h1.releaseThen fun _ h2 => h2.setMe.forwardSync.hold

/-! #### DJOIN, DLEAVE and DQRY (R289, R290, R294) -/

theorem CoreCanon.setLevel {level : ℕ} {v : Word} {k : Core} (hk : CoreCanon k) : CoreCanon (setLevel level v k) :=
  hk.same rfl rfl

/-! #### SYNC_DONE (R291, R293, R375) -/

theorem CoreCanon.nextPhase {level : ℕ} {k : Core} (hk : CoreCanon k) : CoreCanon (nextPhase level k) :=
  hk.same rfl rfl

theorem Canon.memberDone {scope : BitVec 3} {level : ℕ} {s : State} {core : ℕ} (h : Canon s) : Canon (memberDone scope level s core) := by
  unfold Machine.memberDone
  split
  · exact Canon.pulse (Canon.asCtx (h.acquireAt.setCore h.acquireAt.core.nextPhase) fun _ h1 => h1.finish)
  · exact h

theorem Canon.clearGone {m : Domain} {s : State} (h : Canon s) : Canon (clearGone m s) := by
  unfold Machine.clearGone
  split
  · exact h
  · exact h.mapLaunch

theorem Canon.stopPart {p : ℕ} {s : State} (h : Canon s) : Canon (stopPart p s) :=
  h.setPart

theorem Canon.yieldAt {m : Domain} {s : State} (h : Canon s) : Canon (yieldAt m s) :=
  ite_keeps h.setPart.stopPart h

theorem Canon.membersDone {m : Domain} {run : List ℕ} {s : State} (h : Canon s) : Canon (membersDone m run s) :=
  foldl_keeps (P := Canon) h fun _ _ h1 => h1.memberDone

theorem Canon.keepWaiting {r : ℕ × ℕ} {s : State} {core : ℕ} (h : Canon s) : Canon (keepWaiting r s core) := by
  unfold Machine.keepWaiting
  extract_lets
  split
  · exact h.setCtx
  · exact h

theorem Canon.syncStep {m : Domain} {s : State} (h : Canon s) : Canon (syncStep m s) := by
  unfold Machine.syncStep
  extract_lets
  split
  · exact ite_keeps h.membersDone.clearGone.yieldAt h
  · exact foldl_keeps (P := Canon) (ite_keeps h.membersDone h.membersDone.clearGone) fun _ _ h1 => h1.keepWaiting

theorem Canon.leftStep {m : Domain} {r : ℕ × ℕ} {s : State} (h : Canon s) : Canon (leftStep m r s) :=
  ite_keeps (Canon.yieldAt (foldl_keeps (P := Canon) h fun _ _ h1 => h1.memberDone)) h

theorem Canon.execSyncDone {core : ℕ} {s : State} (h : Canon s) : OutCanon (execSyncDone core s) := by
  unfold Machine.execSyncDone
  split
  · split
    · exact h.next
    · split
      · exact h.next
      · split
        · exact h.leftStep.next
        · exact ite_keeps h.syncStep.next h.next
  · exact h.next

/-! ### Machine/EvPcb -/

/-! #### Commands and their refusals (R392) -/

theorem Canon.refuse {p : ℕ} {code : BitVec 4} {s : State} (h : Canon s) : Canon (refuse p code s) :=
  h.setPart

/-! #### CREATE -/

theorem Canon.clearClusters {q : Part} {s : State} (h : Canon s) : Canon (clearClusters q s) :=
  ⟨h.mem, h.cores.filter⟩

theorem Canon.execCreate {part : ℕ} {s : State} (h : Canon s) : OutCanon (execCreate part s) := by
  unfold Machine.execCreate
  extract_lets
  split
  · exact h.refuse.next
  · exact ite_keeps h.refuse.next (ite_keeps h.refuse.next (ite_keeps h.refuse.next h.clearClusters.setPart.next))

/-! #### SWITCH, RESUME and CONT -/

theorem Canon.execSwitch {part : ℕ} {s : State} (h : Canon s) : OutCanon (execSwitch part s) :=
  ite_keeps h.refuse.next (ite_keeps h.setPart.next (ite_keeps h.stopPart.next h.refuse.next))

theorem Canon.execResume {part : ℕ} {s : State} (h : Canon s) : OutCanon (execResume part s) :=
  ite_keeps h.refuse.next (ite_keeps h.refuse.next (ite_keeps h.refuse.next h.clearClusters.setPart.next))

theorem Canon.raiseGangstop {reason : BitVec 2} {s : State} {core : ℕ} (h : Canon s) : Canon (raiseGangstop reason s core) :=
  ite_keeps (Canon.same h.draw.setCtx rfl rfl) h

theorem Canon.execCont {part : ℕ} {gs : Bool} {s : State} (h : Canon s) : OutCanon (execCont part gs s) := by
  unfold Machine.execCont
  extract_lets
  split
  · exact h.refuse.next
  · exact Canon.next (ite_keeps (foldl_keeps (P := Canon) h.setPart fun _ _ h1 => h1.raiseGangstop) h.setPart)

/-! #### KILL and DESTROY -/

theorem CoreCanon.killedCore {k : Core} (hk : CoreCanon k) : CoreCanon (killedCore k) :=
  hk.same rfl rfl

theorem Canon.killPart {p : ℕ} {s : State} (h : Canon s) : Canon (killPart p s) := by
  unfold Machine.killPart
  extract_lets s1 _ _ s2
  have h1 : Canon s1 := foldl_keeps (P := Canon) h fun _ _ h1 => h1.killEntry
  have h2 : Canon s2 := foldl_keeps (P := Canon) (h1.same rfl rfl) fun _ _ h2 => (h2.setCore h2.core.killedCore).setCluster
  exact h2.setPart

theorem Canon.execKill {part : ℕ} {s : State} (h : Canon s) : OutCanon (execKill part s) :=
  ite_keeps h.refuse.next (Canon.next (foldl_keeps (P := Canon) h.killPart fun _ _ h1 => h1.savedRegs))

theorem Canon.execDestroy {part : ℕ} {s : State} (h : Canon s) : OutCanon (execDestroy part s) := by
  unfold Machine.execDestroy
  extract_lets _ _ s1 s2 s3
  have h1 : Canon s1 := foldl_keeps (P := Canon) h fun _ _ h1 => h1.flushL1
  have h2 : Canon s2 := ⟨h1.mem, h1.cores.filter⟩
  have h3 : Canon s3 := ite_keeps h2 h2.clearClusters
  exact ite_keeps h.refuse.next (ite_keeps h.next h3.setPart.next)

/-! #### LAUNCH (R393) -/

theorem Canon.launchRead {p : ℕ} {s : State} {va : Word} {n : ℕ} (h : Canon s) : LaunchReadCanon (launchRead p s va n) := by
  unfold Machine.launchRead
  extract_lets
  split
  · exact trivial
  · split
    · exact trivial
    · exact trivial
    · next e =>
      split
      · exact trivial
      · next e1 =>
        exact ite_keeps trivial (((((h.resolve.ofFst e).askFirst).ofSnd e1).lateHome).deviceRead)
    · next e =>
      exact h.resolve.ofFst e
    · exact trivial

theorem Canon.launchRun {p fuel : ℕ} {va : Word} {n : ℕ} {s : State} (h : Canon s) : LaunchReadCanon (launchRun p fuel va n s) := by
  induction fuel generalizing va n s with
  | zero =>
    exact h
  | succ fuel ih =>
    unfold Machine.launchRun
    split
    · exact h
    · extract_lets
      split
      · next e =>
        split
        · next e1 =>
          exact (ih (h.launchRead.ok e)).ok e1
        · exact ih (h.launchRead.ok e)
      · exact h.launchRead

theorem Canon.launchRefused {p code fault : ℕ} {s : State} (h : Canon s) : Canon (launchRefused p code fault s) :=
  h.setPart

theorem Canon.launchQueue {p : ℕ} {l : Launch} {s : State} (h : Canon s) : Canon (launchQueue p l s) := by
  unfold Machine.launchQueue
  split
  · exact h.launchRefused
  · exact ite_keeps h.refuse h.appendLaunch.setPart

theorem Canon.launchWaits {part : ℕ} {a : Ask} {s : State} (h : Canon s) : Canon (launchWaits part a s) :=
  h.put.setPart

theorem Canon.execLaunch {part : ℕ} {s : State} (h : Canon s) : OutCanon (execLaunch part s) := by
  unfold Machine.execLaunch
  extract_lets
  split
  · exact h.setPart.refuse.next
  · split
    · exact h.setPart.launchRefused.next
    · split
      · exact h.launchWaits.next
      · exact h.setPart.launchRefused.next
      · next e =>
        extract_lets
        split
        · exact ((h.setPart.launchRead.ok e).launchRefused).next
        · split
          · split
            · exact h.launchWaits.next
            · exact ((h.setPart.launchRead.ok e).launchRefused).next
            · next e3 =>
              exact ((((h.setPart.launchRead.ok e).launchRun).ok e3).launchQueue).next
          · exact ((h.setPart.launchRead.ok e).launchQueue).next

/-! ### Machine/EvTurn -/

theorem Canon.execKaleidoscopeTurn {s : State} (h : Canon s) : OutCanon (execKaleidoscopeTurn s) := by
  unfold Machine.execKaleidoscopeTurn
  extract_lets
  split
  · exact Canon.next (h.same rfl rfl)
  · split
    · exact Canon.next (h.same rfl rfl)
    · exact Canon.next (h.same rfl rfl)

theorem Canon.dropFarLine {s : State} {line : ℕ} (h : Canon s) : Canon (dropFarLine s line) :=
  Canon.mapCores h.farClear fun _ _ h1 => h1.l1Drop

theorem Canon.execTurnRetrain {s : State} (h : Canon s) : OutCanon (execTurnRetrain s) :=
  ite_keeps (Canon.next (Canon.same (foldl_keeps (P := Canon) h fun _ _ h1 => h1.dropFarLine) rfl rfl)) h.next

/-! ### Machine/Waits -/

/-! #### Requests of peers (R433, R438) -/

theorem Canon.arrivePeer {s : State} {w : PeerWait} (h : Canon s) : Canon (arrivePeer s w) :=
  ite_keeps (h.same rfl rfl) h.servePeer

theorem Canon.servePeerWaits {s : State} (h : Canon s) : Canon (servePeerWaits s) :=
  foldl_keeps (P := Canon) (h.same rfl rfl) fun _ _ h1 => h1.arrivePeer

/-! #### Accesses of the host (R305, R399, R423, R426) -/

theorem Canon.hostWrite {pa size : ℕ} {value : Word} {s : State} (h : Canon s) : Canon (hostWrite pa size value s) :=
  foldl_keeps (P := Canon) h fun _ _ h1 => ite_keeps h1.deviceWrite h1

theorem Canon.hostReadAt {pa size : ℕ} {s : State} (h : Canon s) : Canon (hostReadAt pa size s).2 := by
  unfold Machine.hostReadAt
  refine foldl_keeps (P := fun r : Nat × State => Canon r.2) h fun r _ hr => ?_
  split
  · exact hr.deviceRead (n := 1)
  · exact hr.draw

/-! #### Messages that land (R443–R445) -/

theorem Canon.putWrites {l : List DevWrite} {s : State} (h : Canon s) : Canon (putWrites l s) :=
  foldl_keeps (P := Canon) h fun _ _ h1 => h1.deviceWrite

/-! #### What the host and the network wait for (R438) -/

theorem Canon.run {o : DevOp} {s : State} (h : Canon s) : Canon (o.run s) := by
  unfold Machine.DevOp.run
  split
  · exact h.hostWrite
  · exact Canon.same h.hostReadAt rfl rfl
  · exact ite_keeps h.hostWrite.pulse h.hostWrite
  · exact h.putWrites
  · exact h.deviceWrite

theorem Canon.arriveDev {s : State} {o : DevOp} (h : Canon s) : Canon (arriveDev s o) :=
  ite_keeps (h.same rfl rfl) h.run

theorem Canon.serveDevWaits {s : State} (h : Canon s) : Canon (serveDevWaits s) :=
  foldl_keeps (P := Canon) (h.same rfl rfl) fun _ _ h1 => h1.arriveDev

theorem Canon.serveWaits {s : State} (h : Canon s) : Canon (serveWaits s) :=
  h.servePeerWaits.serveDevWaits

/-! ### Machine/EvFabric -/

/-! #### Timeouts (R376, R428) -/

theorem Canon.execFabricTimeout {req : ℕ} {s : State} (h : Canon s) : OutCanon (execFabricTimeout req s) := by
  unfold Machine.execFabricTimeout
  split
  · exact h.next
  · split
    · split
      · exact h.answeredHere.next
      · exact h.performedReq.next
    · exact h.next

/-! #### Peers (R433, R438) -/

theorem Canon.giveUp {src exp ra : ℕ} {data : Option (BitVec 512)} {s : State} (h : Canon s) : Canon (giveUp src exp ra data s) := by
  unfold Machine.giveUp
  extract_lets
  split
  · exact h
  · refine Canon.serveWaits ?_
    split
    · exact ite_keeps (Canon.deviceWrite (h.same rfl rfl)) (h.same rfl rfl)
    · exact h.same rfl rfl

theorem Canon.execPeerRequest {src exp ra : ℕ} {op : PeerOp} {value expected : BitVec 64} {s : State} (h : Canon s) :
    OutCanon (execPeerRequest src exp ra op value expected s) := by
  unfold Machine.execPeerRequest
  split
  · exact h.giveUp.next
  · exact h.arrivePeer.next

theorem Canon.execFanoutTimeout {peer : ℕ} {s : State} (h : Canon s) : OutCanon (execFanoutTimeout peer s) := by
  refine ite_keeps (Canon.next (Canon.serveWaits ?_)) h.next
  exact h.same rfl rfl

/-! #### Function-level reset (R439) -/

theorem Canon.dropPeerReqs {p : ℕ} {s : State} (h : Canon s) : Canon (dropPeerReqs p s) :=
  foldl_keeps (P := Canon) h fun _ _ h1 => h1.answeredHere

theorem Canon.setTag {vf : ℕ} {d : List DeadTag} {s : State} (h : Canon s) : Canon (setTag vf d s) :=
  h.same rfl rfl

theorem Canon.execVfFlr {vf : ℕ} {s : State} (h : Canon s) : OutCanon (execVfFlr vf s) := by
  unfold Machine.execVfFlr
  split
  · exact h.next
  · exact Canon.next (Canon.setTag (ite_keeps h.killPart h))

theorem Canon.execTagRevive {vf : ℕ} {s : State} (h : Canon s) : OutCanon (execTagRevive vf s) := by
  unfold Machine.execTagRevive
  split
  · exact h.next
  · exact ite_keeps (ite_keeps h.dropPeerReqs.setTag.next h.next) (Canon.next (ite_keeps h.setTag h))

/-! ### Machine/EvWrite -/

theorem Canon.writePcb {p off : Nat} {v : Word} {s : State} (h : Canon s) : Canon (writePcb p off v s) := by
  unfold Machine.writePcb
  extract_lets
  refine ite_keeps (ite_keeps h.setPart h) ?_
  repeat refine ite_keeps (P := Canon) (h.same rfl rfl) ?_
  exact h

theorem Canon.writeDebug {rank off : ℕ} {v : Word} {s : State} (h : Canon s) : Canon (writeDebug rank off v s) :=
  ite_keeps h.setCluster h

theorem Canon.execRegisterWrite {pa : ℕ} {value : BitVec 64} {s : State} (h : Canon s) : OutCanon (execRegisterWrite pa value s) := by
  unfold Machine.execRegisterWrite
  extract_lets
  refine Canon.next ?_
  split
  · exact ite_keeps (h.same rfl rfl) h
  · exact h.writeDebug
  · exact h.writePcb
  · exact h.same rfl rfl
  · exact h.same rfl rfl
  · exact h

/-! ### Machine/EvHost -/

/-! #### The host (R398, R399, R413, R423) -/

theorem Canon.bar0Write {pa size : ℕ} {value : Word} {s : State} (h : Canon s) : Canon (bar0Write pa size value s) :=
  ite_keeps (Canon.mmioPut (ite_keeps h.mmioPut h)) (ite_keeps h.mmioPut h)

theorem Canon.bar0Byte {pa : ℕ} {s : State} (h : Canon s) : Canon (bar0Byte pa s).2 := by
  unfold Machine.bar0Byte
  split
  · exact h
  · exact h.draw

theorem Canon.bar0Read {n pa : ℕ} {s : State} (h : Canon s) : Canon (bar0Read n pa s).2 := by
  induction n generalizing pa s with
  | zero =>
    exact h
  | succ n ih =>
    exact ih h.bar0Byte

theorem Canon.debuggerAccess {pa : ℕ} {value : Option Word} {s : State} (h : Canon s) : Canon (debuggerAccess pa value s) := by
  unfold Machine.debuggerAccess
  split
  · exact ite_keeps (h.same rfl rfl) h
  · exact ite_keeps (h.same rfl rfl) (Canon.same h.draw rfl rfl)

theorem Canon.execHostBar4Read {addr : HostAddress} {size : ℕ} {s : State} (h : Canon s) : OutCanon (execHostBar4Read addr size s) := by
  unfold Machine.execHostBar4Read
  extract_lets bar offset give
  have hg (r : Nat × State) (hr : Canon r.2) : Canon (give r) := hr.same rfl rfl
  refine Canon.next (ite_keeps (hg _ (ite_keeps (P := fun r : Nat × State => Canon r.2) h.draw h)) (ite_keeps ?_ ?_))
  · split
    · exact hg _ h
    · exact ite_keeps (hg _ h) h.arriveDev
  · exact ite_keeps (hg _ h) (ite_keeps h.arriveDev (ite_keeps (hg _ h.bar0Read) (hg _ h)))

theorem Canon.execMailboxHostWrite {vf offset size : ℕ} {value : BitVec 64} {s : State} (h : Canon s) :
    OutCanon (execMailboxHostWrite vf offset size value s) := by
  unfold Machine.execMailboxHostWrite
  split
  · exact h.next
  · exact Canon.next (ite_keeps h h.arriveDev)

/-! #### POWER_GRANT_EPOCH (R410–R412) -/

theorem Canon.settlePower {mode : BitVec 3} {used : List (ℕ × List ℕ)} {hot ranks pools : List ℕ} {s : State} (h : Canon s) :
    Canon (settlePower mode used hot ranks pools s) := by
  induction ranks generalizing pools s with
  | nil =>
    exact h
  | cons a t ih =>
    exact ih (Canon.setCluster (h.same rfl rfl))

theorem Canon.execPowerGrantEpoch {used : List (ℕ × List ℕ)} {hot : List ℕ} {s : State} (h : Canon s) :
    OutCanon (execPowerGrantEpoch used hot s) :=
  ite_keeps h.next (Canon.next (Canon.same (foldl_keeps (P := Canon) h fun _ _ h1 => h1.settlePower) rfl rfl))

/-! ### Machine/EvMem -/

theorem Canon.arrive {q : Req} {s : State} (h : Canon s) : Canon (arrive q s) := by
  unfold Machine.arrive
  split
  · exact h
  · exact ite_keeps (foldl_keeps (P := Canon) h.revokeAt.askPeers fun _ _ h1 => h1.askPeers) h.revokeAt.askPeers

theorem Canon.leaveForHome {q : Req} {s : State} (h : Canon s) : Canon (leaveForHome q s) :=
  h.setReq

theorem Canon.execHomeRequest {req : ℕ} {s : State} (h : Canon s) : OutCanon (execHomeRequest req s) := by
  unfold Machine.execHomeRequest
  split
  · exact h.next
  · split
    · exact ite_keeps h.performReq.next h.next
    · exact ite_keeps h.arrive.next (ite_keeps h.arrive.leaveForHome.next h.arrive.performReq.next)

theorem Canon.execMemoryResponse {req : ℕ} {value : BitVec 64} {poisoned : Bool} {s : State} (h : Canon s) :
    OutCanon (execMemoryResponse req value poisoned s) := by
  unfold Machine.execMemoryResponse
  split
  · exact h.next
  · exact ite_keeps (Canon.next (ite_keeps h.askPeers h.respond)) h.next

theorem Canon.execPushArrival {push : ℕ} {s : State} (h : Canon s) : OutCanon (execPushArrival push s) := by
  unfold Machine.execPushArrival
  split
  · exact h.next
  · exact ite_keeps h.next h.pushArrive.next

theorem Canon.execTLineExpiry {core line : ℕ} {s : State} (h : Canon s) : OutCanon (execTLineExpiry core line s) := by
  unfold Machine.execTLineExpiry
  split
  · exact ite_keeps ((h.setCore h.core.l1Drop).next) h.next
  · exact h.next

theorem Canon.execFarHomeRequest {req : ℕ} {s : State} (h : Canon s) : OutCanon (execFarHomeRequest req s) := by
  unfold Machine.execFarHomeRequest
  split
  · exact h.next
  · split
    · exact ite_keeps h.next (Canon.next (ite_keeps h.bringOwned h.bring))
    · exact h.next

theorem Canon.execReplicaUpdate {update : ℕ} {s : State} (h : Canon s) : OutCanon (execReplicaUpdate update s) := by
  unfold Machine.execReplicaUpdate
  split
  · exact h.next
  · split
    · exact h.next
    · split
      · exact h.askPeers.next
      · exact Canon.next (Canon.doorbell (Canon.deviceWrite (foldl_keeps (P := Canon) (h.same rfl rfl) fun _ _ h1 => h1.dropOwnT)))

/-! ### Machine/Select -/

theorem Canon.samplePc {c : CtxId} {s : State} (h : Canon s) : Canon (samplePc c s) :=
  ite_keeps (h.setCore (CoreCanon.same h.core rfl rfl)) h

theorem Canon.ownFrame {s : State} (h : Canon s) : Canon (ownFrame s) := by
  unfold Machine.ownFrame
  split
  · exact ite_keeps h.setMe h
  · exact h

theorem Canon.select {c : CtxId} {s : State} (h : Canon s) : Canon (select c s) := by
  have h1 : Canon { s with cur := c, note := .none } := h.same rfl rfl
  exact h1.samplePc.settle.ownFrame

theorem Canon.takeDeferred {d : Deferred} {s : State} (h : Canon s) : Canon (takeDeferred d s) :=
  h.setMe.takeTrap.slotTaken

/-! ### Machine/VMem -/

/-! #### The parts of memory that an instruction accesses -/

theorem Canon.viewAll {size : ℕ} {need : Need} {l : List (ℕ × Word)} {s : State} (h : Canon s) : Canon (viewAll size need l s).2 := by
  induction l generalizing s with
  | nil =>
    exact h
  | cons a t ih =>
    unfold Machine.viewAll
    split
    · exact ih h
    · split
      · next e =>
        exact h.resolve.ofFst e
      · next e =>
        exact ih (h.resolve.ofFst e)

/-- Where one address is: translation keeps the memories canonical, and so does telling a loss. -/
theorem Canon.placeEach {size : Nat} {need : Need} {l : List (Nat × Word)} {s : State} (h : Canon s) :
    Canon (placeEach size need l s).2 := by
  induction l generalizing s with
  | nil => exact h
  | cons a t ih =>
    unfold Machine.placeEach
    extract_lets r
    have hr : Canon r.2 := by
      unfold r
      refine ite_keeps (P := fun r : (Trap ⊕ Loc) × State => Canon r.2) h ?_
      split
      · next e => exact h.resolve.ofFst e
      · next e => exact h.resolve.ofFst e
      · next e =>
        split
        · exact (h.resolve.ofFst e).tellLost
        · exact h.resolve.ofFst e
    clear_value r
    obtain ⟨x | loc, u⟩ := r
    · exact hr
    · have hu := ih hr
      dsimp only
      split
      · next e' => exact hu.ofSnd e'
      · next e' => exact hu.ofSnd e'

theorem Canon.placeAll {size : ℕ} {need : Need} {l : List (ℕ × Word)} {s : State} (h : Canon s) : Canon (placeAll size need l s).2 := by
  unfold Machine.placeAll
  split
  · next e =>
    exact h.viewAll.ofSnd e
  · next e =>
    exact (h.viewAll.ofSnd e).placeEach

theorem Canon.vmem {i : Instr} {v : VLines} {store : Bool} {rs : List Reg} {ga gb : Word} {size passes : ℕ} {parts : List (ℕ × Word × Loc)}
    {w : BitVec 3} {s : State} (h : Canon s) : OutCanon (vmem i v store rs ga gb size passes parts w s) :=
  ite_keeps h.hold h.pushVec.finish.next

/-! #### VLD and VST (R175) -/

theorem Canon.vline {i : Instr} {store : Bool} {d a : Reg} {w : BitVec 3} {s : State} (h : Canon s) : OutCanon (vline i store d a w s) := by
  unfold Machine.vline
  extract_lets
  refine h.holdThen fun _ h1 => ?_
  refine h1.issueThen fun _ h2 => ?_
  refine h2.failThen fun _ h3 => ?_
  extract_lets
  refine h3.failThen fun _ h4 => ?_
  split
  · split
    · next e1 =>
      exact (h4.placeAll.ofSnd e1).trap
    · next e1 =>
      exact (h4.placeAll.ofSnd e1).vmem
  · split
    · next e =>
      exact (h4.placeAll.ofSnd e).trap
    · next e =>
      exact (h4.placeAll.ofSnd e).vmem

/-! #### VLDS, VSTS, VGATH and VSCAT (R176, R177) -/

theorem Canon.velems {i : Instr} {v : VLines} {store : Bool} {a : Reg} {rs : List Reg} {ty : BitVec 3} {gb : State → Word}
    {addr : State → ℕ → Word} {w : BitVec 3} {s : State} (h : Canon s) : OutCanon (velems i v store a rs ty gb addr w s) := by
  unfold Machine.velems
  refine h.holdThen fun _ h1 => ?_
  refine h1.issueThen fun _ h2 => ?_
  refine h2.failThen fun _ h3 => ?_
  extract_lets
  refine h3.failThen fun _ h4 => ?_
  split
  · next e =>
    exact (h4.placeAll.ofSnd e).trap
  · next e =>
    exact (h4.placeAll.ofSnd e).vmem

/-! #### What they do when they run (R178) -/

theorem Canon.loadPart {c : CtxId} {n : ℕ} {r : ℕ × Option Word × State} {e : ℕ × Word × Loc} {pc : Word} {order : ℕ} (hr : Canon r.2.2) :
    Canon (loadPart c n r e pc order).2.2 :=
  ite_keeps hr.revokeAt.loadAt.raiseDeferred hr.revokeAt.loadAt

theorem Canon.runLoad {c : CtxId} {e : VEntry} {s : State} (h : Canon s) : Canon (runLoad c e s) := by
  unfold Machine.runLoad
  extract_lets r s1
  have h1 : Canon r.2.2 := foldl_keeps (P := fun r : ℕ × Option Word × State => Canon r.2.2) h fun _ _ hb => hb.loadPart
  have h2 : Canon s1 := h1.setCore h1.core.setSpadLine
  split
  · exact h2.raiseDeferred
  · exact h2

theorem Canon.runStore {c : CtxId} {e : VEntry} {s : State} (h : Canon s) : Canon (runStore c e s) :=
  foldl_keeps (P := Canon) h fun _ _ h1 => h1.revokeAt.storeAt

/-! ### Machine/EvPipe -/

/-! #### Results (R44, R103) -/

theorem Canon.execFixedResultVisible {core ctx : ℕ} {s : State} (h : Canon s) : OutCanon (execFixedResultVisible core ctx s) := by
  unfold Machine.execFixedResultVisible
  extract_lets
  split
  · exact h.showFixed.next
  · exact h.next

theorem Canon.execVariableResultWrite {core ctx : ℕ} {s : State} (h : Canon s) : OutCanon (execVariableResultWrite core ctx s) := by
  unfold Machine.execVariableResultWrite
  extract_lets
  split
  · exact h.showVar.next
  · exact h.next

/-! #### Traps -/

theorem Canon.execFpexcTrap {core ctx : ℕ} {s : State} (h : Canon s) : OutCanon (execFpexcTrap core ctx s) := by
  unfold Machine.execFpexcTrap
  extract_lets c
  have h1 : Canon { s with cur := c } := h.same rfl rfl
  split
  · exact ite_keeps h1.settle.setMe.takeTrap.next h.next
  · exact h.next

theorem Canon.execDeferredTrap {core ctx : ℕ} {s : State} (h : Canon s) : OutCanon (execDeferredTrap core ctx s) := by
  unfold Machine.execDeferredTrap
  extract_lets
  split
  · split
    · exact h.select.takeDeferred.next
    · exact h.next
  · exact h.next

/-! #### The vector unit -/

theorem Canon.putVRes {c : CtxId} {due : ℕ} {r : VRes} {s : State} (h : Canon s) : Canon (putVRes c due r s) :=
  Canon.accrueAt (h.setCore (CoreCanon.setCtx (foldl_keeps (P := CoreCanon) h.core fun _ _ h1 => h1.setSpadLine)))

theorem Canon.runEntry {c : CtxId} {e : VEntry} {s t : State} (h : Canon s) (he : runEntry c e s = some t) : Canon t := by
  unfold Machine.runEntry at he
  split at he
  · split at he
    · cases he
    · next e1 => cases he; exact ((h.appendAll fun _ ht => ht.accrueAt).ok e1).putVRes
    · next e1 => cases he; exact ((h.appendAll fun _ ht => ht.accrueAt).fail e1).putVRes.raiseDeferred
  · cases he
    exact ite_keeps h.runStore h.runLoad

theorem Canon.headRuns {s : State} {c : CtxId} {r : VEntry × State} (h : Canon s) (e : headRuns s c = some r) : Canon r.2 := by
  unfold Machine.headRuns at e
  split at e
  · cases e
  · split at e
    · cases e
    · obtain ⟨t, ht, rfl⟩ := Option.map_eq_some_iff.1 e
      exact h.setCtx.runEntry ht

theorem Canon.askHead {c : CtxId} {s : State} (h : Canon s) : Canon (askHead c s) := by
  unfold Machine.askHead
  split
  · exact h
  · exact ite_keeps h (foldl_keeps (P := Canon) h fun _ _ h1 => h1.revokeAt.askFor)

theorem Canon.bindLane {core lane : ℕ} {order : List ℕ} {s : State} (h : Canon s) : Canon (bindLane core lane order s) := by
  induction order generalizing s with
  | nil =>
    exact h
  | cons a t ih =>
    unfold Machine.bindLane
    extract_lets
    split
    · exact ih h.askHead
    · next e =>
      extract_lets _ _ _ t1 t2
      have h1 : CoreCanon t1 := (((h.headRuns e).setCtx).core).takeLane
      have h2 : Canon t2 := ((h.headRuns e).setCtx).setCore (h1.same rfl rfl)
      exact ite_keeps (ih h.setCtx) (ite_keeps (h2.pulse.setCore h2.pulse.core.strRaise) h2)

theorem Canon.execVectorPassBind {core : ℕ} {s : State} (h : Canon s) : OutCanon (execVectorPassBind core s) :=
  ite_keeps (Canon.next (foldl_keeps (P := Canon) h fun _ _ h1 => ite_keeps h1.bindLane h1)) h.next

/-! ### Machine/Fpu -/

theorem Canon.holdUntil {t : ℕ} {s : State} (h : Canon s) : Canon (holdUntil t s) :=
  h.setMe

theorem Canon.fpuEnd {lat : ℕ} {interlocked : Bool} {w : BitVec 3} {rs : List Reg} {d : Reg} {r : Word × BitVec 8} {s : State} (h : Canon s)
    : OutCanon (fpuEnd lat interlocked w rs d r s) := by
  unfold Machine.fpuEnd
  split
  · exact Canon.next (Canon.same h.setMe.spaced.slotTaken rfl rfl)
  · extract_lets _ _ s1
    have h1 : Canon s1 := Canon.finish (ite_keeps h.produceFpuLater h.produceFpu)
    exact Canon.next (ite_keeps h1.holdUntil h1)

theorem Canon.fpu {lat : ℕ} {interlocked : Bool} {rs : List Reg} {f : Ctx → List Word → Word × BitVec 8} {d : Reg} {w : BitVec 3}
    {s : State} (h : Canon s) : OutCanon (fpu lat interlocked rs f d w s) :=
  h.issueThen fun _ h1 => h1.destThen fun _ h2 => h2.fpuEnd

/-! ### Machine/Imm -/

theorem Canon.alu0 {f : State → Word} {d : Reg} {w : BitVec 3} {s : State} (h : Canon s) : OutCanon (alu0 f d w s) :=
  h.issueThen fun _ h1 => h1.destThen fun _ h2 => h2.produce.finish.next

/-! ### Machine/Lptr -/

theorem Canon.setPtr {d : Reg} {v : BitVec 16} {s : State} (h : Canon s) : Canon (setPtr d v s) :=
  h.setMe

/-! ### Machine/Troupe -/

/-! #### TR.FORM (R266) -/

theorem Canon.deliverNext {d : Reg} {v : Word} {s : State} (h : Canon s) : Canon (deliverNext d v s) :=
  ite_keeps h.deliver h.produceLater

theorem Canon.endForm {v : Word} {s : State} {core : ℕ} (h : Canon s) : Canon (endForm v s core) := by
  unfold Machine.endForm
  split
  · exact h.asCtx fun _ h1 => h1.deliverNext.finish
  · exact h

theorem Canon.formTroupe {rank : ℕ} {m : BitVec 16} {s : State} (h : Canon s) : Canon (formTroupe rank m s) :=
  h.setCluster

theorem Canon.waitForm {m : BitVec 16} {s : State} (h : Canon s) : OutCanon (waitForm m s) :=
  ite_keeps (Canon.next (Canon.formTroupe (foldl_keeps (P := Canon) h fun _ _ h1 => h1.endForm))) h.hold

theorem Canon.execTrForm {d a : Reg} {w : BitVec 3} {s : State} (h : Canon s) : OutCanon (execTrForm d a w s) := by
  unfold Machine.execTrForm
  refine h.ctx0Then fun _ h1 => ?_
  refine h1.issueThen fun _ h2 => ?_
  split
  · exact ite_keeps h2.endForm.next h2.waitForm
  · exact ite_keeps h2.completeWith (ite_keeps h2.completeWith (h2.destThen fun _ h3 => h3.setMe.waitForm))

theorem Canon.execTrFormTimeout {core : ℕ} {s : State} (h : Canon s) : OutCanon (execTrFormTimeout core s) := by
  unfold Machine.execTrFormTimeout
  split
  · exact ite_keeps h.endForm.next h.next
  · exact h.next

/-! #### TR.BREAK and TR.DETACH (R268, R270) -/

theorem Canon.leaveTroupe {core : ℕ} {s : State} (h : Canon s) : Canon (leaveTroupe core s) :=
  h.mapTroupe

theorem Canon.execTrBreak {w : BitVec 3} {s : State} (h : Canon s) : OutCanon (execTrBreak w s) :=
  h.ctx0Then fun _ h1 => h1.issueThen fun _ h2 =>
    ite_keeps h2.endStream.mapTroupe.finish.next (ite_keeps h2.leaveTroupe.finish.next h2.finish.next)

theorem Canon.execTrDetach {w : BitVec 3} {s : State} (h : Canon s) : OutCanon (execTrDetach w s) :=
  h.ctx0Then fun _ h1 => h1.issueThen fun _ h2 => ite_keeps h2.finish.detach.next h2.finish.next

/-! #### TR.REJOIN (R269) -/

theorem Canon.reattach {pc : Word} {s : State} {core : ℕ} (h : Canon s) : Canon (reattach pc s core) := by
  unfold Machine.reattach
  split
  · exact Canon.asCtx h.mapTroupe fun _ h1 => h1.retireAt
  · exact h

theorem Canon.reattachAll {s : State} (h : Canon s) : Canon (reattachAll s) :=
  foldl_keeps (P := Canon) h fun _ _ h1 => h1.reattach

theorem Canon.hang {s : State} (h : Canon s) : Canon (hang s) :=
  h.reattachAll.takeTrap

theorem Canon.leaderRejoin {w : BitVec 3} {since : ℕ} {s : State} (h : Canon s) : OutCanon (leaderRejoin w since s) :=
  ite_keeps h.reattachAll.finish.next (ite_keeps h.hang.next h.setMe.hold)

theorem Canon.execTrRejoin {w : BitVec 3} {s : State} (h : Canon s) : OutCanon (execTrRejoin w s) :=
  h.ctx0Then fun _ h1 => h1.issueThen fun _ h2 => ite_keeps h2.leaderRejoin (ite_keeps h2.setMe.hold h2.finish.next)

theorem Canon.execTroupehang {core : ℕ} {s : State} (h : Canon s) : OutCanon (execTroupehang core s) := by
  unfold Machine.execTroupehang
  split
  · exact ite_keeps (Canon.next (h.asCtx fun _ h1 => h1.hang)) h.next
  · exact h.next

/-! #### FORWARDED_INSTRUCTION (R267, R268) -/

theorem Canon.execForwardedInstruction {core : ℕ} {s : State} (h : Canon s) : OutCanon (execForwardedInstruction core s) := by
  unfold Machine.execForwardedInstruction
  extract_lets k x
  split
  · exact h.next
  · next e t _ =>
    have hk (y : Ctx) : CoreCanon ({ k with fwdBuf := t }.setCtx 0 y) := CoreCanon.setCtx (h.core.same rfl rfl)
    have hs (y : Ctx) : Canon (s.setCore core ({ k with fwdBuf := t }.setCtx 0 y)) := h.setCore (hk y)
    exact ite_keeps h.next (ite_keeps (hs _).next (ite_keeps h.next (Canon.next ((hs _).same rfl rfl))))

/-! ### Machine/Sys -/

theorem Canon.trapAfter {cause : BitVec 6} {tval : Word} {w : BitVec 3} {s : State} (h : Canon s) : OutCanon (trapAfter cause tval w s) :=
  h.issueThen fun _ h1 => h1.setMe.takeTrap.slotTaken.setMe.next

theorem Canon.noteHalt {core : ℕ} {cause : BitVec 3} {whole : Bool} {s : State} (h : Canon s) : Canon (noteHalt core cause whole s) :=
  h.setCluster

theorem Canon.execHalt {w : BitVec 3} {s : State} (h : Canon s) : OutCanon (execHalt w s) :=
  h.privThen fun _ h1 => h1.issueThen fun _ h2 =>
    Canon.next (Canon.noteHalt (Canon.setMine h2.finish (CoreCanon.same h2.finish.mine rfl rfl)))

theorem Canon.execGexit {w : BitVec 3} {s : State} (h : Canon s) : OutCanon (execGexit w s) := by
  unfold Machine.execGexit
  refine h.ctx0Then fun _ h1 => ?_
  refine h1.issueThen fun _ h2 => ?_
  split
  · exact h2.hold
  · exact h2.engineThen fun _ h3 => h3.releaseThen fun _ h4 =>
      Canon.next (Canon.coreEnds (Canon.setMe (Canon.dropResults (Canon.dropTenures (Canon.finish (ite_keeps h4.leaveTroupe h4))))))

/-! ### Machine/Tile -/

/-! #### Handles (R318) -/

theorem Canon.handleThen {v : Word} {s : State} {k : ℕ → State → Out} (h : Canon s) (hk : ∀ (n : ℕ) (t : State), Canon t → OutCanon (k n t))
    : OutCanon (handleThen v s k) := by
  unfold Machine.handleThen
  split
  · exact hk _ _ h
  · exact h.trapAt

/-! #### TILE.OPEN (R31, R317) -/

theorem Canon.openTile {t : Tile} {s : State} (h : Canon s) : Canon (openTile t s).2 := by
  unfold Machine.openTile
  extract_lets
  split
  · exact h
  · split
    · exact h
    · split
      · exact h
      · split
        · exact h
        · extract_lets
          split
          · exact h.tlbFill
          · split
            · exact h.tlbFill
            · split
              · exact h.tlbFill
              · exact h.tlbFill.draw.setPart

theorem Canon.execTileOpen {d a : Reg} {w : BitVec 3} {s : State} (h : Canon s) : OutCanon (execTileOpen d a w s) := by
  unfold Machine.execTileOpen
  refine h.issueThen fun _ h1 => ?_
  extract_lets
  refine h1.failThen fun _ h2 => ?_
  refine h2.failThen fun _ h3 => ?_
  refine h3.destThen fun _ h4 => ?_
  split
  · exact h4.hold
  · split
    · exact h4.deliver.finish.next
    · exact h4.openTile.deliver.finish.next

/-! #### TILE.CLOSE and TILE.QRY (R319) -/

theorem Canon.execTileClose {d a : Reg} {w : BitVec 3} {s : State} (h : Canon s) : OutCanon (execTileClose d a w s) :=
  h.issueThen fun _ h1 => h1.handleThen fun _ _ h2 => h2.destThen fun _ h3 =>
    ite_keeps h3.setPart.deliver.finish.next h3.deliver.finish.next

/-! #### Grants (R321–R323) -/

theorem Canon.grantLines {t : Tile} {write : Bool} {s : State} (h : Canon s) : Canon (grantLines t write s) :=
  foldl_keeps (P := Canon) h fun _ _ h1 => ite_keeps h1.flushPushes.invalidate h1.recallO

theorem Canon.grant {p i : ℕ} {c : CtxId} {write : Bool} {t : Tile} {s : State} (h : Canon s) : Canon (grant p i c write t s) := by
  unfold Machine.grant
  extract_lets s1 q kept
  have h1 : Canon s1 := h.grantLines.acquireAt
  exact h1.same rfl rfl

/-! #### The tenure instructions (R320) -/

theorem Canon.tenWait {write : Bool} {a : Reg} {w : BitVec 3} {s : State} (h : Canon s) : OutCanon (tenWait write a w s) := by
  unfold Machine.tenWait
  refine h.issueThen fun _ h1 => h1.handleThen fun i u h2 => ?_
  split
  · exact h2.hold
  · extract_lets q r _ s1
    have hs : Canon s1 := h2.same rfl rfl
    clear_value s1
    exact ite_keeps h2.finish.next (ite_keeps h2.grant.finish.next hs.setMe.hold)

theorem Canon.tenTry {write : Bool} {d a : Reg} {w : BitVec 3} {s : State} (h : Canon s) : OutCanon (tenTry write d a w s) :=
  h.issueThen fun _ h1 => h1.handleThen fun _ _ h2 => h2.destThen fun _ h3 =>
    ite_keeps h3.deliver.finish.next (ite_keeps h3.grant.deliver.finish.next h3.deliver.finish.next)

theorem Canon.execTenRel {d a : Reg} {w : BitVec 3} {s : State} (h : Canon s) : OutCanon (execTenRel d a w s) :=
  h.issueThen fun _ h1 => h1.handleThen fun _ _ h2 => h2.destThen fun _ h3 => h3.releaseThen fun _ h4 => h4.setPart.deliver.finish.next

theorem Canon.execTenDown {a : Reg} {w : BitVec 3} {s : State} (h : Canon s) : OutCanon (execTenDown a w s) :=
  h.issueThen fun _ h1 => h1.handleThen fun _ _ h2 => ite_keeps (h2.releaseThen fun _ h3 => h3.setPart.finish.next) h2.finish.next

/-! #### TILE.SPLIT (R328) -/

theorem Canon.deliver2 {d : Reg} {u v : Word} {s : State} (h : Canon s) : Canon (deliver2 d u v s) :=
  h.deliver.deliver

theorem Canon.execTileSplit {d a b : Reg} {w : BitVec 3} {s : State} (h : Canon s) : OutCanon (execTileSplit d a b w s) := by
  unfold Machine.execTileSplit
  refine h.issueThen fun _ h1 => ?_
  refine h1.handleThen fun _ _ h2 => ?_
  extract_lets
  split
  · exact h2.deliver2.finish.next
  · split
    · exact h2.deliver2.finish.next
    · extract_lets
      split
      · exact h2.deliver2.finish.next
      · exact Canon.next (Canon.finish (Canon.deliver2 (Canon.same h2.draw.draw rfl rfl)))

/-! #### TENURE_GRANT and LEASE_REVOKE (R322, R325) -/

theorem Canon.dropTenReq {p id : ℕ} {s : State} (h : Canon s) : Canon (dropTenReq p id s) :=
  h.setPart

theorem Canon.execTenureGrant {request : ℕ} {s : State} (h : Canon s) : OutCanon (execTenureGrant request s) := by
  unfold Machine.execTenureGrant
  split
  · exact h.next
  · split
    · split
      · exact h.dropTenReq.next
      · split
        · exact h.dropTenReq.next
        · exact ite_keeps (Canon.next (Canon.asCtx h.dropTenReq.grant fun _ h1 => h1.finish.forwardIssued)) h.next
    · exact h.dropTenReq.next

theorem Canon.execLeaseRevoke {tenure : ℕ} {s : State} (h : Canon s) : OutCanon (execLeaseRevoke tenure s) := by
  unfold Machine.execLeaseRevoke
  split
  · exact h.next
  · exact ite_keeps h.revoke.next h.next

/-! ### Machine/Vamo -/

theorem Canon.vamo {ty : BitVec 2} {a b : Reg} {w : BitVec 3} {s : State} (h : Canon s) : OutCanon (vamo ty a b w s) := by
  unfold Machine.vamo
  refine h.issueThen fun _ h1 => ?_
  extract_lets
  exact h1.failThen fun _ h2 => h2.failThen fun _ h3 => h3.failThen fun _ h4 => h4.failThen fun _ h5 =>
    ite_keeps h5.hold (h5.preciseLoc fun _ _ h6 => h6.addReq.finish.next)

/-! ### Machine/Dispatch -/

/-- Every row of the opcode table: the rows that share a form are proved by the rule of the form. -/
theorem Canon.exec {i : Instr} {s : State} (h : Canon s) : OutCanon (exec i s) := by
  unfold Machine.exec
  cases i with
  | add | sub | and | or | xor | andn | shl | shr | sar | rol | ror | slt | sltu | seq | min | max | minu | maxu | mul | mulh
    | mulhu | addw | subw | mulw => exact h.alu2
  | div | divu | rem | remu => exact h.aluDiv
  | clz | ctz | popc | brev | sextB | sextH | sextW | zextW | addi | andi | ori | xori | slti | sltiu | shli | shri | sari | roli
    | extu | exts => exact h.alu1
  | sel => exact h.alu3
  | lui | adr => exact h.alu0
  | ins | pget => exact h.issueThen fun _ h1 => h1.destThen fun _ h2 => h2.produce.finish.next
  | fadd | fsub | fmul | fma | fnma | fdiv | fsqrt | fmin | fmax | feq | flt | fle | fclass | fabs | fneg | cvtF32I64 | cvtI64F32
    | cvtF32N64 | cvtN64F32 | cvtBf16F32 | cvtF32Bf16 | cvtE4m3F32 | cvtF32E4m3 | cvtE5m2F32 | cvtF32E5m2 | frnd => exact h.fpu
  | beq | bne | blt | bge | bltu | bgeu => exact h.branch
  | j => exact h.issueThen fun _ h1 => h1.failThen fun _ h2 => h2.finishAt.next
  | call => exact h.issueThen fun _ h1 => h1.callTo
  | jr => exact h.execJr
  | jalr => exact h.execJalr
  | callr => exact h.issueThen fun _ h1 => h1.failThen fun _ h2 => h2.callTo
  | ret => exact h.execRet
  | fjmp => exact h.execFjmp
  | ld | ldu => exact h.load
  | st => exact h.execSt
  | lda | strl | swap | cas | atadd | atand | ator | atxor | atmin | atmax | atminn | atmaxn | atfadd | atfmax | ataddnr => exact h.amo
  | sti => exact h.execSti
  | fenceFull | fenceAcq | fenceRel => exact h.fence
  | fenceEng => exact h.issueThen fun _ h1 => ite_keeps h1.hold (h1.engineThen fun _ h2 => h2.finish.next)
  | vwpin | vwclr | vwget => exact h.issueThen fun _ h1 => h1.destThen fun _ h2 => h2.produceLater.finish.next
  | vwset => exact h.execVwset
  | tlbiL | tlbiB => exact h.privThen fun _ h1 => h1.issueThen fun _ h2 => h2.tlbi
  | publish => exact h.execPublish
  | probe => exact h.issueThen fun _ h1 => h1.destThen fun _ h2 => h2.probeRecord.deliver.finish.next
  | tileOpen => exact h.execTileOpen
  | tileClose => exact h.execTileClose
  | tenR | tenW => exact h.tenWait
  | tenTryr | tenTryw => exact h.tenTry
  | tenRel => exact h.execTenRel
  | tenDown => exact h.execTenDown
  | tileSplit => exact h.execTileSplit
  | tileQry => exact h.issueThen fun _ h1 => h1.handleThen fun _ _ h2 => h2.completeWith
  | vld | vst => exact h.vline
  | vlds | vsts | vgath | vscat => exact h.velems
  | vadd | vsub | vmul | vmulh | vmin | vmax | vminu | vmaxu | vadds | vsubs | vaddsn | vmac | vfadd | vfsub | vfmul | vfma
    | vfnma | vfmin | vfmax | vand | vor | vxor | vandn | vshl | vshr | vsar | vsel | vdqo4 | vperm | vzip | vunzip => exact h.vec3
  | vabs | vneg | vfabs | vfneg | vfexp2 | vflog2 | vfrcp | vfrsq | vmov => exact h.vec2
  | vwmul | vwmac | vfwmul | vfwma | vcmpeq | vcmplt | vcmple | vcmpltn | vfcmpeq | vfcmplt | vfcmple | vmand | vmor | vmxor
    | vmnot | vmset | vqo4 | vbcast | vslide | vins | vhad | viota => exact h.vec
  | vdot4 => exact ite_keeps h.vec3 h.vec
  | vmpop | vmfirst | vrsum | vrmax | vrmin | vdot | vext => exact h.vecG
  | vcvt => exact ite_keeps h.vec h.vec
  | vramax => exact h.vecGWith
  | accRd => exact h.execAccRd
  | accWr => exact h.execAccWr
  | accClr => exact h.execAccClr
  | mwait => exact h.issueThen fun _ h1 => h1.mfaultThen fun _ h2 => ite_keeps h2.finish.next h2.hold
  | mstat | hstat | trStat | dqry | cstat | evrd | cntrd | lqry | qstat => exact h.issueThen fun _ h1 => h1.completeWith
  | rpt => exact h.execRpt
  | xsend => exact h.execXsend
  | xwait => exact h.execXwait
  | xstat => exact h.execXstat
  | hstart | hstartNb => exact h.hstart
  | hexit => exact h.execHexit
  | hjoin => exact h.execHjoin
  | yield => exact h.issueThen fun _ h1 => h1.finish.setMe.next
  | hkill => exact h.execHkill
  | trForm => exact h.execTrForm
  | trBreak => exact h.execTrBreak
  | trDetach => exact h.execTrDetach
  | trRejoin => exact h.execTrRejoin
  | sync | bar => exact h.sync
  | djoin | dleave => exact ite_keeps h.trapAt (h.issueThen fun _ h1 => ((h1.setMine h1.mine.setLevel).finish).next)
  | cfetch => exact h.execCfetch
  | cwait => exact h.execCwait
  | cevict => exact h.execCevict
  | evwait => exact h.issueThen fun _ h1 => ite_keeps h1.hold (((h1.setMine h1.mine.setEv).finish).next)
  | evsig => exact h.issueThen fun _ h1 => h1.releaseThen fun _ h2 => h2.signalEvent.finish.next
  | evclr => exact h.issueThen fun _ h1 => ((h1.setMine h1.mine.setEv).finish).next
  | wfe => exact h.issueThen fun _ h1 => ite_keeps h1.setMe.finish.next h1.hold
  | crr | crw | crset | crclr => exact h.csr
  | trap | sysc | hcall => exact h.trapAfter
  | eret => exact h.privThen fun _ h1 => h1.issueThen fun _ h2 => h2.returnFrom
  | bkpt => exact ite_keeps (h.issueThen fun _ h1 => h1.finish.noteHalt.next) h.trapAfter
  | halt => exact h.execHalt
  | tsread => exact h.issueThen fun _ h1 => ite_keeps h1.completeWith (h1.destThen fun _ h2 => h2.hold)
  | gexit => exact h.execGexit
  | gang => exact h.privThen fun _ h1 => h1.issueThen fun _ h2 => h2.finish.curtainStop.next
  | rpop => exact h.execRpop
  | rfix => exact h.execRfix
  | rreplay => exact h.execRreplay
  | rkill => exact h.execRkill
  | vamoF32 | vamoBf16 | vamoI32 => exact h.vamo
  | lnch => exact h.execLnch
  | lwait => exact h.execLwait
  | lcancel => exact h.execLcancel
  | qpeek => exact h.execQpeek
  | qclr => exact h.issueThen fun _ h1 => ((h1.setMine h1.mine.clearPort).finish).next
  | pset | padd | paddi => exact h.issueThen fun _ h1 => h1.setPtr.finish.next
  | fixedResultVisible => exact h.execFixedResultVisible
  | variableResultWrite => exact h.execVariableResultWrite
  | fpexcTrap => exact h.execFpexcTrap
  | deferredTrap => exact h.execDeferredTrap
  | segmentFetchDone => exact h.execSegmentFetchDone
  | vectorPassBind => exact h.execVectorPassBind
  | scratchpadResize => exact h.execScratchpadResize
  | plane => exact h.goOn fun _ _ h1 => h1.runBlocks fun _ _ _ h2 => h2.planeStep
  | mma => exact h.goOn fun _ _ h1 => h1.runBlocks fun _ _ _ h2 => h2.mmaStep
  | mmaR => exact h.goOn fun _ _ h1 => h1.runRecords
  | had => exact h.goOn fun _ _ h1 => h1.runBlocks fun _ _ _ h2 => h2.hadStep
  | drain => exact h.execDrain
  | zero => exact h.execZero
  | mark => exact h.goOn fun _ _ h1 => ite_keeps h1 h1.setHead
  | matrixCommandDone => exact h.execMatrixCommandDone
  | copy | fill => exact h.moveCmd
  | allreduce | reducescatter | allgather => exact h.moveColl
  | abort => exact h.execAbort
  | engineCommandDone => exact h.execEngineCommandDone
  | portWordArrival => exact h.execPortWordArrival
  | forwardedInstruction => exact h.execForwardedInstruction
  | trFormTimeout => exact h.execTrFormTimeout
  | troupehang => exact h.execTroupehang
  | syncDone => exact h.execSyncDone
  | homeRequest => exact h.execHomeRequest
  | pushArrival => exact h.execPushArrival
  | tLineExpiry => exact h.execTLineExpiry
  | memoryResponse => exact h.execMemoryResponse
  | farHomeRequest => exact h.execFarHomeRequest
  | farInvalidationAck => exact Canon.next (Canon.same (ite_keeps h.dropFar h.farInvalidated) rfl rfl)
  | replicaUpdate => exact h.execReplicaUpdate
  | tenureGrant => exact h.execTenureGrant
  | leaseRevoke => exact h.execLeaseRevoke
  | stringsTimer => exact ite_keeps (Canon.next (Canon.pulse (h.setCore (CoreCanon.same h.core rfl rfl)))) h.next
  | wake => exact h.execWake
  | helperStartTrigger => exact h.execHelperStartTrigger
  | groupPlacement => exact h.execGroupPlacement
  | groupStart => exact h.execGroupStart
  | tsliceExpiry => exact ite_keeps h.setPart.next h.next
  | forcedSwitchStop => exact h.execForcedSwitchStop
  | saveDone => exact h.execSaveDone
  | restoreDone => exact h.execRestoreDone
  | softError => exact ite_keeps h.setCluster.curtainStop.next h.next
  | create => exact h.execCreate
  | switch => exact h.execSwitch
  | resume => exact h.execResume
  | cont => exact h.execCont
  | kill => exact h.execKill
  | destroy => exact h.execDestroy
  | svcstart => exact ite_keeps h.refuse.next h.setCtx.next
  | launch => exact h.execLaunch
  | registerWrite => exact h.execRegisterWrite
  | crossTriggerHalt => exact ite_keeps (Canon.next (ite_keeps h.curtainStop h)) h.draw.setCluster.next
  | debugResume => exact Canon.next (Canon.mapCores h.setCluster fun _ _ h1 => ite_keeps (h1.same rfl rfl) h1)
  | kaleidoscopeTurn => exact h.execKaleidoscopeTurn
  | turnDrain | boot | stageVerify | llcDramSoftError => exact Canon.next (ite_keeps (h.same rfl rfl) h)
  | turnRetrain => exact h.execTurnRetrain
  | turnMap | turnActive | attestationReportReady => exact ite_keeps (Canon.next (h.same rfl rfl)) h.next
  | fabricTimeout => exact h.execFabricTimeout
  | peerRequest => exact h.execPeerRequest
  | fanoutTimeout => exact h.execFanoutTimeout
  | severed => exact Canon.next ⟨h.mem, CoresCanon.map h.cores (fun _ h1 => (h1.same rfl rfl))⟩
  | flushed | attestationRequest | debugUnlockToken | linkDown | linkUp => exact Canon.next (h.same rfl rfl)
  | messageLanding => exact Canon.next (ite_keeps h h.arriveDev)
  | hostBar4Write => exact Canon.next (ite_keeps h (ite_keeps h.arriveDev (ite_keeps h.bar0Write h)))
  | hostBar4Read => exact h.execHostBar4Read
  | mailboxHostWrite => exact h.execMailboxHostWrite
  | vfFlr => exact h.execVfFlr
  | tagRevive => exact h.execTagRevive
  | powerGrantEpoch => exact h.execPowerGrantEpoch
  | routerAccept => exact h.execRouterAccept

/-! ### Machine/Issue -/

theorem Canon.afterIssue {w : IWord} {i : Instr} {s0 s : State} (h : Canon s) : Canon (afterIssue w i s0 s) := by
  unfold Machine.afterIssue
  split
  · split
    · exact ite_keeps h.detach h
    · exact h.forwardIssued
  · exact h

theorem Canon.issueWord {w : IWord} {s : State} (h : Canon s) : OutCanon (issueWord w s) := by
  unfold Machine.issueWord
  split
  · exact h.trapAt
  · split
    · next e1 =>
      exact ((h.exec.state e1).afterIssue).next
    · exact h.exec

theorem Canon.issuePoint {s : State} (h : Canon s) : OutCanon (issuePoint s) := by
  unfold Machine.issuePoint
  split
  · exact ite_keeps h.endHelperAll.slotTaken.next h.hold
  · split
    · exact h.takeDeferred.next
    · split
      · exact h.hold
      · split
        · exact h.takeTrap.slotTaken.next
        · exact h.issueWord

theorem Canon.issue {c : CtxId} {s : State} (h : Canon s) : OutCanon (issue c s) :=
  ite_keeps h.select.issuePoint h.next

/-! ### Machine/Next -/

/-! #### The end of a cycle (R146) -/

theorem Canon.mapCtxs {f : CtxId → Ctx → Ctx} {s : State} (h : Canon s) : Canon (mapCtxs f s) :=
  ⟨h.mem, CoresCanon.map h.cores (fun _ h1 => (h1.same rfl rfl))⟩

theorem Canon.tick {s : State} (h : Canon s) : Canon (tick s) := by
  unfold Machine.tick
  extract_lets t s1 s2
  have ht : Canon t := Canon.mapCores h.mapCtxs fun _ _ hk => hk.strEndCycle
  have h1 : Canon s1 := ht.same rfl rfl
  exact ite_keeps h1.mapCtxs h1.mapCtxs.serveWaits

/-! #### The next act -/

theorem Canon.afterAct {s : State} (h : Canon s) : Canon (afterAct s) :=
  h.same rfl rfl

/-- One act of the agenda. -/
theorem Canon.perform {a : Act} {s : State} (h : Canon s) : OutCanon (perform a s) := by
  have hlate : Canon { s with late := true } := h.same rfl rfl
  cases a with
  | issue c => exact h.issue
  | event i => exact ite_keeps (Canon.exec (ite_keeps h hlate)) h.next
  | write pa v =>
    unfold Machine.perform
    dsimp only
    split
    · next e => exact Canon.next ((hlate.exec.state e).same rfl rfl)
    · exact hlate.exec
  | pass n => exact Canon.next (ite_keeps h h.tick)
  | image core at_ bytes => exact h.spadImage.next
  | debugger pa value => exact h.debuggerAccess.next

/-! ### Machine/Step -/

theorem Canon.step {s : State} (h : Canon s) : OutCanon (step s) :=
  h.afterAct.perform

/-- Settles O17: the canonical form holds after every act, since each operation of the model keeps it. -/
theorem stepKeepsMemoriesCanonical : Obligations.StepKeepsMemoriesCanonical := by
  unfold Obligations.StepKeepsMemoriesCanonical
  intro s t hs ht
  rw [memSafe_iff] at hs ⊢
  exact hs.step.state ht

end Sys2Proof.Machine

end

section
/-!
Rounding is correct. A magnitude code has a value (`Fmt.value`), which rises strictly with it and agrees with `Fmt.decode` on the
finite codes. The value to be rounded lies at `Fmt.floorCode` or between it and the next code, and each mode takes one of the two
(`Fmt.magCode`); it overflows where the code taken lies past the largest finite one.
-/

namespace Sys2Proof.Machine

open Sys2Proof

/-! ### Codes of a float format and their values (R67) -/

/-- What the rounding proof needs of a format: it has fraction bits, its largest finite value is a normal one, and its codes leave the sign
bit free. -/
structure Fmt.Sound (f : Fmt) : Prop where
  fb_pos : 0 < f.fb
  normal_top : 2 ^ f.fb ≤ f.top
  top_lt : f.top < 2 ^ (f.eb + f.fb)

/-- The mantissa of a magnitude code, with the hidden bit of a normal value. -/
def Fmt.mant (f : Fmt) (c : Nat) : Nat := if c / 2 ^ f.fb = 0 then c else 2 ^ f.fb + c % 2 ^ f.fb

/-- The exponent of a magnitude code's quantum. -/
def Fmt.quantum (f : Fmt) (c : Nat) : Int := max ((c / 2 ^ f.fb : Nat) : Int) 1 - f.bias - f.fb

/-- The value of a magnitude code, of the finite ones and, by the same reading, of those past them. -/
def Fmt.value (f : Fmt) (c : Nat) : ℚ := (f.mant c : ℚ) * 2 ^ f.quantum c

/-- A mantissa that stands with the quantum 2^q as a code has it: normal, or subnormal at the smallest quantum. -/
structure Fmt.Fits (f : Fmt) (n : Nat) (q : Int) : Prop where
  lt : n < 2 ^ (f.fb + 1)
  le : f.emin - f.fb ≤ q
  normal : 2 ^ f.fb ≤ n ∨ q = f.emin - f.fb

section
variable {f : Fmt}

theorem Fmt.sign_mod (c : Nat) (hc : c < 2 ^ (f.eb + f.fb)) (neg : Bool) :
    (f.sign neg + c) % 2 ^ (f.eb + f.fb) = c := by
  cases neg <;> simp [Fmt.sign, Nat.mod_eq_of_lt hc]

theorem Fmt.sign_even (hf : f.Sound) (neg : Bool) (c : Nat) : (f.sign neg + c) % 2 = c % 2 := by
  have h2 : 2 ∣ 2 ^ (f.eb + f.fb) := dvd_pow_self 2 (by have := hf.fb_pos; omega)
  cases neg
  · simp [Fmt.sign]
  · simp only [Fmt.sign, if_true]
    omega

theorem Fmt.sign_eq (f : Fmt) (neg : Bool) : f.sign neg = 0 ∨ f.sign neg = 2 ^ (f.eb + f.fb) := by
  cases neg
  · exact .inl rfl
  · exact .inr rfl

/-- A code of a finite value and its sign bit decode to that value. -/
theorem Fmt.decode_finite (hf : f.Sound) (neg : Bool) (c : Nat) (hc : c ≤ f.top) :
    f.decode (f.sign neg + c) = .fin neg (f.mant c) (f.quantum c) := by
  have hlt : c < 2 ^ (f.eb + f.fb) := lt_of_le_of_lt hc hf.top_lt
  have hx : (f.sign neg + c) % 2 ^ f.width = f.sign neg + c := by
    have hw : 2 ^ f.width = 2 ^ (f.eb + f.fb) + 2 ^ (f.eb + f.fb) := by rw [Fmt.width, Nat.add_assoc, pow_add]; ring
    exact Nat.mod_eq_of_lt (by rcases f.sign_eq neg with h | h <;> omega)
  have hneg : decide (2 ^ (f.eb + f.fb) ≤ f.sign neg + c) = neg := by
    cases neg <;> simp [Fmt.sign, hlt]
  unfold Fmt.decode
  simp only [hx, hneg, Fmt.sign_mod c hlt, not_lt.2 hc, if_false]
  unfold Fmt.mant Fmt.quantum
  split
  · next h0 =>
    have hm : c % 2 ^ f.fb = c := Nat.mod_eq_of_lt ((Nat.div_eq_zero_iff_lt (by positivity)).1 h0)
    simp [h0, hm, Fmt.emin]
  · next h0 =>
    have h1 : (1 : Int) ≤ (c / 2 ^ f.fb : Nat) := by exact_mod_cast Nat.pos_of_ne_zero h0
    rw [max_eq_left h1]

/-- One code further, the mantissa is one larger, or at a binade's end half as large with a quantum twice as large. -/
theorem Fmt.mant_quantum_succ (c : Nat) :
    (f.mant (c + 1) = f.mant c + 1 ∧ f.quantum (c + 1) = f.quantum c) ∨
    (2 * f.mant (c + 1) = f.mant c + 1 ∧ f.quantum (c + 1) = f.quantum c + 1) := by
  obtain ⟨k, r, hr, rfl⟩ : ∃ k r, r < 2 ^ f.fb ∧ c = 2 ^ f.fb * k + r :=
    ⟨c / 2 ^ f.fb, c % 2 ^ f.fb, Nat.mod_lt _ (by positivity), (Nat.div_add_mod c _).symm⟩
  have hP : 0 < 2 ^ f.fb := by positivity
  have hdiv (k r : Nat) (h : r < 2 ^ f.fb) : (2 ^ f.fb * k + r) / 2 ^ f.fb = k := by
    rw [Nat.mul_add_div hP, Nat.div_eq_of_lt h, Nat.add_zero]
  have hmod (k r : Nat) (h : r < 2 ^ f.fb) : (2 ^ f.fb * k + r) % 2 ^ f.fb = r := by
    rw [Nat.mul_add_mod, Nat.mod_eq_of_lt h]
  rcases Nat.lt_or_ge (r + 1) (2 ^ f.fb) with h | h
  · -- within a binade
    rw [Nat.add_assoc, Fmt.mant, Fmt.mant, Fmt.quantum, Fmt.quantum, hdiv _ _ h, hdiv _ _ hr, hmod _ _ h, hmod _ _ hr]
    left
    split <;> omega
  · -- at its end
    have he : 2 ^ f.fb * k + r + 1 = 2 ^ f.fb * (k + 1) + 0 := by rw [Nat.mul_add]; omega
    rw [he, Fmt.mant, Fmt.mant, Fmt.quantum, Fmt.quantum, hdiv _ _ hP, hdiv _ _ hr, hmod _ _ hP, hmod _ _ hr]
    rcases Nat.eq_zero_or_pos k with rfl | hk
    · left
      simp
      omega
    · right
      rw [if_neg (Nat.succ_ne_zero k), if_neg hk.ne']
      omega

/-- The next code is one quantum further. -/
theorem Fmt.value_succ (c : Nat) : f.value (c + 1) = f.value c + 2 ^ f.quantum c := by
  rcases f.mant_quantum_succ c with ⟨hm, hq⟩ | ⟨hm, hq⟩
  · rw [Fmt.value, hm, hq, Fmt.value]
    push_cast
    ring
  · have hm' : 2 * (f.mant (c + 1) : ℚ) = f.mant c + 1 := by exact_mod_cast hm
    rw [Fmt.value, hq, zpow_add_one₀ two_ne_zero, Fmt.value]
    linear_combination 2 ^ f.quantum c * hm'

theorem Fmt.value_strictMono (f : Fmt) : StrictMono f.value :=
  strictMono_nat_of_lt_succ fun c => by
    rw [Fmt.value_succ]
    exact lt_add_of_pos_right _ (by positivity)

/-! #### The three cases of a code -/

theorem Fmt.code_subnormal {n : Nat} (q : Int) (h : n < 2 ^ f.fb) : f.code n q = n := if_pos h

theorem Fmt.code_normal {n : Nat} (q : Int) (h : 2 ^ f.fb ≤ n) (h' : n < 2 ^ (f.fb + 1)) :
    f.code n q = 2 ^ f.fb * (q + f.fb + f.bias).toNat + (n - 2 ^ f.fb) := by
  rw [Fmt.code, if_neg (not_lt.2 h), if_neg h'.ne, Nat.mul_comm]

theorem Fmt.code_carried (q : Int) : f.code (2 ^ (f.fb + 1)) q = 2 ^ f.fb * (q + 1 + f.fb + f.bias).toNat := by
  have h : ¬ 2 ^ (f.fb + 1) < 2 ^ f.fb := not_lt.2 (Nat.pow_le_pow_right (by decide) (Nat.le_succ _))
  rw [Fmt.code, if_neg h, if_pos rfl]
  dsimp only
  rw [Nat.sub_self, Nat.mul_comm, Nat.add_zero]

/-- A mantissa that fits its quantum has a code, which reads back as them. -/
theorem Fmt.mant_quantum_code {n : Nat} {q : Int} (h : f.Fits n q) : f.mant (f.code n q) = n ∧ f.quantum (f.code n q) = q := by
  obtain ⟨hlt, hle, hnorm⟩ := h
  have hP : 0 < 2 ^ f.fb := by positivity
  unfold Fmt.emin at hle hnorm
  rcases Nat.lt_or_ge n (2 ^ f.fb) with hn | hn
  · rw [Fmt.code_subnormal q hn, Fmt.mant, Fmt.quantum, Nat.div_eq_of_lt hn, if_pos rfl]
    omega
  · have hr : n - 2 ^ f.fb < 2 ^ f.fb := by rw [pow_succ] at hlt; omega
    rw [Fmt.code_normal q hn hlt, Fmt.mant, Fmt.quantum, Nat.mul_add_div hP, Nat.div_eq_of_lt hr, Nat.add_zero, Nat.mul_add_mod,
      Nat.mod_eq_of_lt hr, if_neg (by omega)]
    omega

theorem Fmt.value_code {n : Nat} {q : Int} (h : f.Fits n q) : f.value (f.code n q) = (n : ℚ) * 2 ^ q := by
  obtain ⟨hm, hq⟩ := Fmt.mant_quantum_code h
  rw [Fmt.value, hm, hq]

/-- The next mantissa has the next code. -/
theorem Fmt.code_succ {n : Nat} {q : Int} (h : f.Fits n q) : f.code (n + 1) q = f.code n q + 1 := by
  obtain ⟨hlt, hle, hnorm⟩ := h
  have hsucc : 2 ^ (f.fb + 1) = 2 ^ f.fb + 2 ^ f.fb := by ring
  unfold Fmt.emin at hle hnorm
  rcases Nat.lt_trichotomy (n + 1) (2 ^ f.fb) with hn | hn | hn
  · rw [Fmt.code_subnormal q hn, Fmt.code_subnormal q (by omega)]
  · have hj : (q + f.fb + f.bias).toNat = 1 := by omega
    rw [Fmt.code_subnormal q (show n < 2 ^ f.fb by omega), hn, Fmt.code_normal q le_rfl (by omega), hj]
    omega
  · rw [Fmt.code_normal (n := n) q (by omega) hlt]
    rcases Nat.lt_or_eq_of_le (show n + 1 ≤ 2 ^ (f.fb + 1) from hlt) with hl | hl
    · rw [Fmt.code_normal q hn.le hl]
      omega
    · have hj : (q + 1 + f.fb + f.bias).toNat = (q + f.fb + f.bias).toNat + 1 := by omega
      rw [hl, Fmt.code_carried, hj, Nat.mul_add]
      omega

/-- The parity of a code is that of its mantissa. -/
theorem Fmt.code_mod_two (hf : f.Sound) {n : Nat} {q : Int} (h : f.Fits n q) : f.code n q % 2 = n % 2 := by
  rcases Nat.lt_or_ge n (2 ^ f.fb) with hn | hn
  · rw [Fmt.code_subnormal q hn]
  · have h2 : 2 ∣ 2 ^ f.fb := dvd_pow_self 2 hf.fb_pos.ne'
    have h3 := h2.mul_right (q + f.fb + f.bias).toNat
    rw [Fmt.code_normal q hn h.lt]
    omega

end

/-! ### Cutting and rounding to an integer (R73) -/

/-- The integer part of a value and the relation of its rest to one half. -/
structure IsCut (x : ℚ) (c : Nat × Nat) : Prop where
  le : (c.1 : ℚ) ≤ x
  lt : x < c.1 + 1
  exact_iff : c.2 = 0 ↔ x = c.1
  tie_iff : c.2 = 2 ↔ 2 * (x - c.1) = 1
  above_iff : c.2 = 3 ↔ 1 < 2 * (x - c.1)

/-- The rest of a quotient, as `scaleCut` names it. -/
theorem isCut_div (m d : Nat) (hd : 0 < d) :
    IsCut ((m : ℚ) / d) (m / d, if m % d = 0 then 0 else if 2 * (m % d) < d then 1 else if 2 * (m % d) = d then 2 else 3) := by
  have hd' : (0 : ℚ) < d := by exact_mod_cast hd
  have hx : (m : ℚ) / d = (m / d : Nat) + (m % d : Nat) / d := by
    have : (m : ℚ) = d * (m / d : Nat) + (m % d : Nat) := by exact_mod_cast (Nat.div_add_mod m d).symm
    field_simp
    linarith
  have hr := Nat.mod_lt m hd
  rw [hx]
  generalize m / d = k at *
  generalize m % d = r at *
  have hr' : (r : ℚ) < d := by exact_mod_cast hr
  have h2 : 2 * ((k : ℚ) + r / d - k) = (2 * r : Nat) / d := by push_cast; ring
  refine ⟨by dsimp only; rw [le_add_iff_nonneg_right]; positivity, by dsimp only; gcongr; rwa [div_lt_one hd'], ?_, ?_, ?_⟩
  · have : (k : ℚ) + r / d = k ↔ r = 0 := by simp [hd.ne']
    rw [this]
    dsimp only
    split_ifs <;> simp_all
  · rw [h2, div_eq_one_iff_eq hd'.ne', Nat.cast_inj]
    dsimp only
    grind
  · rw [h2, one_lt_div hd', Nat.cast_lt]
    dsimp only
    grind

theorem isCut_scaleCut (m : Nat) (k : Int) : IsCut ((m : ℚ) * 2 ^ k) (scaleCut m k) := by
  unfold scaleCut
  split
  · next h =>
    obtain ⟨n, rfl⟩ := Int.eq_ofNat_of_zero_le h
    have hx : (m : ℚ) * 2 ^ (n : Int) = (m * 2 ^ n : Nat) := by push_cast; rfl
    rw [hx]
    constructor <;> simp
  · next h =>
    obtain ⟨n, hn⟩ : ∃ n : Nat, k = -n := ⟨(-k).toNat, by omega⟩
    have hx : (m : ℚ) * 2 ^ k = m / (2 ^ n : Nat) := by rw [hn, zpow_neg, zpow_natCast]; push_cast; rfl
    have hk : (-k).toNat = n := by omega
    rw [hx, hk]
    exact isCut_div m _ (by positivity)

/-- The mode rounds a value of this sign away from zero. -/
def RoundsAway (rm : BitVec 2) (neg : Bool) : Prop := (rm = 2 ∧ neg = false) ∨ (rm = 3 ∧ neg = true)

/-- The three ways to round: to the nearest, toward zero, and away from it. -/
inductive Direction (rm : BitVec 2) (neg : Bool) : Prop where
  | nearest (h : rm = 0)
  | inward (h : rm ≠ 0) (h' : ¬ RoundsAway rm neg)
  | outward (h : rm ≠ 0) (h' : RoundsAway rm neg)

theorem direction (rm : BitVec 2) (neg : Bool) : Direction rm neg := by
  by_cases h : rm = 0
  · exact .nearest h
  · by_cases h' : RoundsAway rm neg
    · exact .outward h h'
    · exact .inward h h'

theorem roundCut_nearest (neg : Bool) (c : Nat × Nat) :
    roundCut 0 neg c = if c.2 = 3 ∨ (c.2 = 2 ∧ c.1 % 2 = 1) then c.1 + 1 else c.1 := by
  simp [roundCut]

theorem roundCut_inward {rm : BitVec 2} {neg : Bool} (h : rm ≠ 0) (h' : ¬ RoundsAway rm neg) (c : Nat × Nat) :
    roundCut rm neg c = c.1 := by
  have key : ∀ (r : BitVec 2) (b : Bool), r ≠ 0 → ¬ ((r = 2 ∧ b = false) ∨ (r = 3 ∧ b = true)) →
      r = 1 ∨ (r = 2 ∧ b = true) ∨ (r = 3 ∧ b = false) := by decide
  rcases key rm neg h h' with rfl | ⟨rfl, rfl⟩ | ⟨rfl, rfl⟩ <;> simp [roundCut]

theorem roundCut_outward {rm : BitVec 2} {neg : Bool} (h' : RoundsAway rm neg) (c : Nat × Nat) :
    roundCut rm neg c = if c.2 = 0 then c.1 else c.1 + 1 := by
  rcases h' with ⟨rfl, rfl⟩ | ⟨rfl, rfl⟩ <;> simp [roundCut]

/-! ### One rounding, code by code (R68, R73) -/

/-- The exponent of the quantum that a value is rounded to. -/
def Fmt.ulpExp (f : Fmt) (m : Nat) (e : Int) : Int := max ((Nat.log2 m : Int) + e) f.emin - f.fb

/-- The value, cut to a number of quanta. -/
def Fmt.cut (f : Fmt) (m : Nat) (e : Int) : Nat × Nat := scaleCut m (e - f.ulpExp m e)

/-- The magnitude code next below the value, or at it. -/
def Fmt.floorCode (f : Fmt) (m : Nat) (e : Int) : Nat := f.code (f.cut m e).1 (f.ulpExp m e)

/-- The magnitude code that the value rounds to, which lies past the largest finite one where it overflows. -/
def Fmt.magCode (f : Fmt) (rm : BitVec 2) (neg : Bool) (m : Nat) (e : Int) : Nat :=
  f.code (roundCut rm neg (f.cut m e)) (f.ulpExp m e)

section
variable (f : Fmt) {m : Nat} (hm : m ≠ 0) (e : Int)

theorem Fmt.scaled_eq (m : Nat) : (m : ℚ) * 2 ^ e = m * 2 ^ (e - f.ulpExp m e) * 2 ^ f.ulpExp m e := by
  rw [mul_assoc, ← zpow_add₀ two_ne_zero, sub_add_cancel]

theorem Fmt.magCode_inward {rm : BitVec 2} {neg : Bool} (h : rm ≠ 0) (h' : ¬ RoundsAway rm neg) :
    f.magCode rm neg m e = f.floorCode m e := by
  rw [Fmt.magCode, roundCut_inward h h', Fmt.floorCode]

include hm

theorem Fmt.cut_fits : f.Fits (f.cut m e).1 (f.ulpExp m e) := by
  have hc := isCut_scaleCut m (e - f.ulpExp m e)
  have hle := hc.le
  have hlt := hc.lt
  have hlo : (2 : ℚ) ^ (Nat.log2 m : Int) ≤ m := by rw [zpow_natCast]; exact_mod_cast Nat.log2_self_le hm
  have hhi : (m : ℚ) < 2 ^ ((Nat.log2 m : Int) + 1) := by exact_mod_cast Nat.lt_log2_self (n := m)
  have hq : f.ulpExp m e = max ((Nat.log2 m : Int) + e) f.emin - f.fb := rfl
  have hpos : (0 : ℚ) < 2 ^ (e - f.ulpExp m e) := by positivity
  refine ⟨?_, by omega, ?_⟩
  · have : ((f.cut m e).1 : ℚ) < 2 ^ ((f.fb : Int) + 1) :=
      calc ((f.cut m e).1 : ℚ) ≤ m * 2 ^ (e - f.ulpExp m e) := hle
        _ < 2 ^ ((Nat.log2 m : Int) + 1) * 2 ^ (e - f.ulpExp m e) := by gcongr
        _ = 2 ^ ((Nat.log2 m : Int) + 1 + (e - f.ulpExp m e)) := (zpow_add₀ two_ne_zero _ _).symm
        _ ≤ 2 ^ ((f.fb : Int) + 1) := zpow_le_zpow_right₀ one_le_two (by omega)
    exact_mod_cast this
  · by_cases hn : f.ulpExp m e = f.emin - f.fb
    · exact .inr hn
    · left
      have : (2 : ℚ) ^ (f.fb : Int) < (f.cut m e).1 + 1 :=
        calc (2 : ℚ) ^ (f.fb : Int) = 2 ^ ((Nat.log2 m : Int) + (e - f.ulpExp m e)) := by congr 1; omega
          _ = 2 ^ (Nat.log2 m : Int) * 2 ^ (e - f.ulpExp m e) := zpow_add₀ two_ne_zero _ _
          _ ≤ m * 2 ^ (e - f.ulpExp m e) := by gcongr
          _ < (f.cut m e).1 + 1 := hlt
      have : 2 ^ f.fb < (f.cut m e).1 + 1 := by exact_mod_cast this
      omega

theorem Fmt.quantum_floorCode : f.quantum (f.floorCode m e) = f.ulpExp m e := (Fmt.mant_quantum_code (f.cut_fits hm e)).2

/-- How far the value lies above the code below it. -/
theorem Fmt.sub_value_floorCode :
    (m : ℚ) * 2 ^ e - f.value (f.floorCode m e) = (m * 2 ^ (e - f.ulpExp m e) - (f.cut m e).1) * 2 ^ f.ulpExp m e := by
  rw [Fmt.floorCode, Fmt.value_code (f.cut_fits hm e), f.scaled_eq e m]
  ring

theorem Fmt.value_floorCode_le : f.value (f.floorCode m e) ≤ (m : ℚ) * 2 ^ e := by
  have h := (isCut_scaleCut m (e - f.ulpExp m e)).le
  rw [← sub_nonneg, f.sub_value_floorCode hm e]
  exact mul_nonneg (sub_nonneg.2 h) (by positivity)

theorem Fmt.lt_value_floorCode_succ : (m : ℚ) * 2 ^ e < f.value (f.floorCode m e + 1) := by
  have h := (isCut_scaleCut m (e - f.ulpExp m e)).lt
  have hp : (0 : ℚ) < 2 ^ f.ulpExp m e := by positivity
  rw [Fmt.value_succ, f.quantum_floorCode hm e, ← sub_lt_iff_lt_add', f.sub_value_floorCode hm e]
  exact mul_lt_of_lt_one_left hp (sub_lt_iff_lt_add'.2 h)

theorem Fmt.cut_exact_iff : (f.cut m e).2 = 0 ↔ (m : ℚ) * 2 ^ e = f.value (f.floorCode m e) := by
  have hp : (2 : ℚ) ^ f.ulpExp m e ≠ 0 := by positivity
  rw [← sub_eq_zero (a := (m : ℚ) * 2 ^ e), f.sub_value_floorCode hm e, mul_eq_zero, or_iff_left hp, sub_eq_zero]
  exact (isCut_scaleCut m (e - f.ulpExp m e)).exact_iff

theorem Fmt.cut_tie_iff : (f.cut m e).2 = 2 ↔ 2 * ((m : ℚ) * 2 ^ e - f.value (f.floorCode m e)) = 2 ^ f.ulpExp m e := by
  have hp : (2 : ℚ) ^ f.ulpExp m e ≠ 0 := by positivity
  rw [f.sub_value_floorCode hm e, ← mul_assoc, mul_eq_right₀ hp]
  exact (isCut_scaleCut m (e - f.ulpExp m e)).tie_iff

theorem Fmt.cut_above_iff : (f.cut m e).2 = 3 ↔ 2 ^ f.ulpExp m e < 2 * ((m : ℚ) * 2 ^ e - f.value (f.floorCode m e)) := by
  have hp : (0 : ℚ) < 2 ^ f.ulpExp m e := by positivity
  rw [f.sub_value_floorCode hm e, ← mul_assoc, lt_mul_iff_one_lt_left hp]
  exact (isCut_scaleCut m (e - f.ulpExp m e)).above_iff

theorem Fmt.magCode_outward {rm : BitVec 2} {neg : Bool} (h' : RoundsAway rm neg) :
    f.magCode rm neg m e = if (m : ℚ) * 2 ^ e = f.value (f.floorCode m e) then f.floorCode m e else f.floorCode m e + 1 := by
  rw [Fmt.magCode, roundCut_outward h', apply_ite (fun n => f.code n _), Fmt.code_succ (f.cut_fits hm e)]
  exact if_congr (f.cut_exact_iff hm e) rfl rfl

theorem Fmt.magCode_nearest (hf : f.Sound) (neg : Bool) :
    f.magCode 0 neg m e =
      if 2 ^ f.ulpExp m e < 2 * ((m : ℚ) * 2 ^ e - f.value (f.floorCode m e)) ∨
        (2 * ((m : ℚ) * 2 ^ e - f.value (f.floorCode m e)) = 2 ^ f.ulpExp m e ∧ f.floorCode m e % 2 = 1)
      then f.floorCode m e + 1 else f.floorCode m e := by
  have hpar : f.floorCode m e % 2 = (f.cut m e).1 % 2 := Fmt.code_mod_two hf (f.cut_fits hm e)
  rw [Fmt.magCode, roundCut_nearest, apply_ite (fun n => f.code n _), Fmt.code_succ (f.cut_fits hm e)]
  exact if_congr (by rw [f.cut_above_iff hm e, f.cut_tie_iff hm e, hpar]) rfl rfl

end

/-! #### The direction and the size of the error -/

section
variable (f : Fmt) {m : Nat} (hm : m ≠ 0) (e : Int)
include hm

theorem Fmt.value_floorCode_succ : f.value (f.floorCode m e + 1) = f.value (f.floorCode m e) + 2 ^ f.ulpExp m e := by
  rw [Fmt.value_succ, f.quantum_floorCode hm e]

theorem Fmt.value_magCode_inward_le {rm : BitVec 2} {neg : Bool} (h : rm ≠ 0) (h' : ¬ RoundsAway rm neg) :
    f.value (f.magCode rm neg m e) ≤ (m : ℚ) * 2 ^ e := by
  rw [f.magCode_inward e h h']
  exact f.value_floorCode_le hm e

theorem Fmt.le_value_magCode_outward {rm : BitVec 2} {neg : Bool} (h : RoundsAway rm neg) :
    (m : ℚ) * 2 ^ e ≤ f.value (f.magCode rm neg m e) := by
  rw [f.magCode_outward hm e h]
  split
  · next he => exact he.le
  · exact (f.lt_value_floorCode_succ hm e).le

/-- To the nearest: the error is at most half a quantum, and where it is that, the code is even. -/
theorem Fmt.magCode_nearest_error (hf : f.Sound) (neg : Bool) :
    2 * |f.value (f.magCode 0 neg m e) - (m : ℚ) * 2 ^ e| ≤ 2 ^ f.ulpExp m e ∧
    (2 * |f.value (f.magCode 0 neg m e) - (m : ℚ) * 2 ^ e| = 2 ^ f.ulpExp m e → f.magCode 0 neg m e % 2 = 0) := by
  have hlo := f.value_floorCode_le hm e
  have hhi := f.lt_value_floorCode_succ hm e
  rw [f.value_floorCode_succ hm e] at hhi
  rw [f.magCode_nearest hm e hf]
  split
  · next h =>
    rw [f.value_floorCode_succ hm e, abs_of_nonneg (by linarith)]
    refine ⟨by rcases h with h | h <;> linarith, fun htie => ?_⟩
    rcases h with h | h
    · linarith
    · omega
  · next h =>
    push Not at h
    rw [abs_of_nonpos (by linarith)]
    refine ⟨by linarith [h.1], fun htie => ?_⟩
    have := h.2 (by linarith)
    omega

/-- In every mode the error is less than one quantum. -/
theorem Fmt.magCode_error_lt (hf : f.Sound) (rm : BitVec 2) (neg : Bool) :
    |f.value (f.magCode rm neg m e) - (m : ℚ) * 2 ^ e| < 2 ^ f.ulpExp m e := by
  have hlo := f.value_floorCode_le hm e
  have hhi := f.lt_value_floorCode_succ hm e
  have hp : (0 : ℚ) < 2 ^ f.ulpExp m e := by positivity
  rw [f.value_floorCode_succ hm e] at hhi
  cases direction rm neg with
  | nearest h =>
    subst h
    have := (f.magCode_nearest_error hm e hf neg).1
    linarith
  | inward h h' =>
    rw [f.magCode_inward e h h', abs_lt]
    constructor <;> linarith
  | outward h h' =>
    rw [f.magCode_outward hm e h', abs_lt]
    split
    · constructor <;> linarith
    · next hne =>
      have := lt_of_le_of_ne hlo (Ne.symm hne)
      rw [f.value_floorCode_succ hm e]
      constructor <;> linarith

/-- The result is the value itself exactly where nothing was cut off. -/
theorem Fmt.value_magCode_eq_iff (hf : f.Sound) (rm : BitVec 2) (neg : Bool) :
    f.value (f.magCode rm neg m e) = (m : ℚ) * 2 ^ e ↔ (f.cut m e).2 = 0 := by
  have hlo := f.value_floorCode_le hm e
  have hhi := f.lt_value_floorCode_succ hm e
  have hp : (0 : ℚ) < 2 ^ f.ulpExp m e := by positivity
  rw [f.cut_exact_iff hm e]
  cases direction rm neg with
  | nearest h =>
    subst h
    rw [f.magCode_nearest hm e hf]
    split
    · next h => exact ⟨fun h0 => absurd h0 hhi.ne', fun h0 => by rw [h0, sub_self] at h; rcases h with h | h <;> linarith⟩
    · exact eq_comm
  | inward h h' =>
    rw [f.magCode_inward e h h']
    exact eq_comm
  | outward h h' =>
    rw [f.magCode_outward hm e h']
    split
    · exact eq_comm
    · next hne => exact ⟨fun h0 => absurd h0 hhi.ne', fun h0 => absurd h0 hne⟩

/-! #### Where a value overflows -/

/-- A code lies below the value's floor exactly where the value reaches the next code. -/
theorem Fmt.lt_floorCode_iff (c : Nat) : c < f.floorCode m e ↔ f.value c + 2 ^ f.quantum c ≤ (m : ℚ) * 2 ^ e := by
  rw [← Fmt.value_succ]
  constructor
  · intro h
    exact le_trans (f.value_strictMono.monotone h) (f.value_floorCode_le hm e)
  · intro h
    have := f.value_strictMono.lt_iff_lt.1 (lt_of_le_of_lt h (f.lt_value_floorCode_succ hm e))
    omega

theorem Fmt.lt_magCode_inward_iff {rm : BitVec 2} {neg : Bool} (h : rm ≠ 0) (h' : ¬ RoundsAway rm neg) (c : Nat) :
    c < f.magCode rm neg m e ↔ f.value c + 2 ^ f.quantum c ≤ (m : ℚ) * 2 ^ e := by
  rw [f.magCode_inward e h h', f.lt_floorCode_iff hm e]

theorem Fmt.lt_magCode_outward_iff {rm : BitVec 2} {neg : Bool} (h : RoundsAway rm neg) (c : Nat) :
    c < f.magCode rm neg m e ↔ f.value c < (m : ℚ) * 2 ^ e := by
  rw [f.magCode_outward hm e h]
  split
  · next he => rw [he, f.value_strictMono.lt_iff_lt]
  · next hne =>
    have hlo := lt_of_le_of_ne (f.value_floorCode_le hm e) (Ne.symm hne)
    rw [Nat.lt_succ_iff]
    constructor
    · intro hc
      exact lt_of_le_of_lt (f.value_strictMono.monotone hc) hlo
    · intro hc
      exact Nat.lt_succ_iff.1 (f.value_strictMono.lt_iff_lt.1 (hc.trans (f.lt_value_floorCode_succ hm e)))

theorem Fmt.lt_magCode_nearest_iff (hf : f.Sound) (neg : Bool) (c : Nat) :
    c < f.magCode 0 neg m e ↔ f.value c + 2 ^ f.quantum c / 2 < (m : ℚ) * 2 ^ e ∨
      (c % 2 = 1 ∧ f.value c + 2 ^ f.quantum c / 2 = (m : ℚ) * 2 ^ e) := by
  have hp : (0 : ℚ) < 2 ^ f.quantum c := by positivity
  have hhi := f.lt_value_floorCode_succ hm e
  have hle : f.floorCode m e ≤ f.magCode 0 neg m e ∧ f.magCode 0 neg m e ≤ f.floorCode m e + 1 := by
    rw [f.magCode_nearest hm e hf]
    split <;> omega
  rcases Nat.lt_trichotomy c (f.floorCode m e) with h | rfl | h
  · -- the value is at the next code or past it
    have := (f.lt_floorCode_iff hm e c).1 h
    exact ⟨fun _ => .inl (by linarith), fun _ => by omega⟩
  · -- the value lies between this code and the next one
    rw [f.magCode_nearest hm e hf, f.quantum_floorCode hm e]
    split
    · next h =>
      refine ⟨fun _ => ?_, fun _ => Nat.lt_succ_self _⟩
      rcases h with h | ⟨h, hodd⟩
      · exact .inl (by linarith)
      · exact .inr ⟨hodd, by linarith⟩
    · next h =>
      refine ⟨fun h0 => absurd h0 (lt_irrefl _), fun h0 => absurd ?_ h⟩
      rcases h0 with h0 | ⟨hodd, h0⟩
      · exact .inl (by linarith)
      · exact .inr ⟨by linarith, hodd⟩
  · -- the value lies below this code
    have := f.value_strictMono.monotone (Nat.succ_le_of_lt h)
    exact ⟨fun h0 => by omega, fun h0 => by rcases h0 with h0 | h0 <;> linarith⟩

end

/-! #### What `round` answers -/

section
variable (f : Fmt) (rm : BitVec 2) (neg : Bool) (m : Nat) (e : Int)

theorem Fmt.round_fits (h : f.magCode rm neg m e ≤ f.top) : ∃ tiny : Bool,
    f.round rm false neg m e = (f.sign neg + f.magCode rm neg m e, flagIf ((f.cut m e).2 ≠ 0) fNX ||| flagIf tiny fUF) :=
  ⟨_, if_neg (not_lt.2 h)⟩

variable {f rm neg m e}

theorem Fmt.round_overflows_inward (h : f.top < f.magCode rm neg m e) (hrm : rm ≠ 0) (ha : ¬ RoundsAway rm neg) :
    f.round rm false neg m e = (f.sign neg + f.top, fOF ||| fNX) := by
  have hno : ¬ (rm = 0 ∨ (rm = 2 ∧ neg = false) ∨ (rm = 3 ∧ neg = true)) := fun h => h.elim hrm ha
  exact (if_pos h).trans (if_neg hno)

theorem Fmt.round_overflows_to_inf (h : f.top < f.magCode rm neg m e) (ha : rm = 0 ∨ RoundsAway rm neg) {i : Nat} (hi : f.inf = some i) :
    f.round rm false neg m e = (f.sign neg + i, fOF ||| fNX) := by
  refine ((if_pos h).trans (if_pos ha)).trans ?_
  rw [hi]

theorem Fmt.round_overflows_to_nan (h : f.top < f.magCode rm neg m e) (ha : rm = 0 ∨ RoundsAway rm neg) (hi : f.inf = none) :
    f.round rm false neg m e = (f.nan, fOF ||| fNX ||| fNV) := by
  refine ((if_pos h).trans (if_pos ha)).trans ?_
  rw [hi]

theorem fits_flags (inexact tiny : Bool) :
    (flagIf inexact fNX ||| flagIf tiny fUF) &&& fOF = 0 ∧
    ((flagIf inexact fNX ||| flagIf tiny fUF) &&& fNX = 0 ↔ inexact = false) := by
  revert inexact tiny
  decide

/-- OF is raised exactly where the code lies past the largest finite one. -/
theorem Fmt.round_overflow_iff : (f.round rm false neg m e).2 &&& fOF ≠ 0 ↔ f.top < f.magCode rm neg m e := by
  have hinf : (fOF ||| fNX) &&& fOF ≠ 0 := by decide
  have hnan : (fOF ||| fNX ||| fNV) &&& fOF ≠ 0 := by decide
  constructor
  · intro h
    by_contra hn
    obtain ⟨tiny, hr⟩ := f.round_fits rm neg m e (not_lt.1 hn)
    rw [hr] at h
    exact h (fits_flags _ _).1
  · intro h
    by_cases ha : rm = 0 ∨ RoundsAway rm neg
    · cases hi : f.inf with
      | some i => rwa [Fmt.round_overflows_to_inf h ha hi]
      | none => rwa [Fmt.round_overflows_to_nan h ha hi]
    · push Not at ha
      rwa [Fmt.round_overflows_inward h ha.1 ha.2]

/-- A value that does not overflow: its code decodes to a finite value of its sign, and NX tells where that is not the value itself. -/
theorem Fmt.round_finite (hf : f.Sound) (hm : m ≠ 0) (h : (f.round rm false neg m e).2 &&& fOF = 0) :
    f.decode (f.round rm false neg m e).1 = .fin neg (f.mant (f.magCode rm neg m e)) (f.quantum (f.magCode rm neg m e)) ∧
    (f.round rm false neg m e).1 % 2 = f.magCode rm neg m e % 2 ∧
    ((f.round rm false neg m e).2 &&& fNX = 0 ↔ f.value (f.magCode rm neg m e) = (m : ℚ) * 2 ^ e) := by
  have hle : f.magCode rm neg m e ≤ f.top := not_lt.1 fun hlt => Fmt.round_overflow_iff.2 hlt h
  obtain ⟨tiny, hr⟩ := f.round_fits rm neg m e hle
  rw [hr, f.value_magCode_eq_iff hm e hf]
  exact ⟨Fmt.decode_finite hf neg _ hle, Fmt.sign_even hf neg _, (fits_flags _ _).2.trans (by simp)⟩

end

/-! ### The four formats -/

theorem sound_of_mem {f : Fmt} (hf : f ∈ [f32, bf16, e4m3, e5m2]) : f.Sound := by
  simp only [List.mem_cons, List.not_mem_nil, or_false] at hf
  rcases hf with rfl | rfl | rfl | rfl <;> exact ⟨by decide, by decide, by decide⟩

/-- Only in E4M3 is the largest finite value's code even. -/
theorem top_odd_iff {f : Fmt} (hf : f ∈ [f32, bf16, e4m3, e5m2]) : f.top % 2 = 1 ↔ f ≠ e4m3 := by
  revert f
  decide

/-- Where a code lies past the largest finite one: the condition of the statement, in each direction. -/
theorem Fmt.top_lt_magCode_iff {f : Fmt} (hf : f ∈ [f32, bf16, e4m3, e5m2]) (rm : BitVec 2) (neg : Bool) {m : Nat} (hm : m ≠ 0) (e : Int) :
    f.top < f.magCode rm neg m e ↔
      (rm = 0 ∧ (f.value f.top + 2 ^ f.quantum f.top / 2 < (m : ℚ) * 2 ^ e ∨
        (f ≠ e4m3 ∧ f.value f.top + 2 ^ f.quantum f.top / 2 = (m : ℚ) * 2 ^ e))) ∨
      (RoundsAway rm neg ∧ f.value f.top < (m : ℚ) * 2 ^ e) ∨
      (rm ≠ 0 ∧ f.value f.top + 2 ^ f.quantum f.top ≤ (m : ℚ) * 2 ^ e) := by
  have hp : (0 : ℚ) < 2 ^ f.quantum f.top := by positivity
  cases direction rm neg with
  | nearest h =>
    subst h
    have ha : ¬ RoundsAway 0 neg := by simp [RoundsAway]
    rw [f.lt_magCode_nearest_iff hm e (sound_of_mem hf), top_odd_iff hf]
    simp only [ha, ne_eq, not_true_eq_false, false_and, or_false, true_and]
  | inward h h' =>
    rw [f.lt_magCode_inward_iff hm e h h']
    simp only [h, h', ne_eq, not_false_eq_true, false_and, false_or, true_and]
  | outward h h' =>
    rw [f.lt_magCode_outward_iff hm e h']
    simp only [h, h', false_and, false_or, true_and, ne_eq, not_false_eq_true]
    exact ⟨.inl, fun h => h.elim id fun h => by linarith⟩

/-- Settles O22: the value lies between two neighbouring codes, of which each mode takes the one it names; where that one is past the
largest finite code, the value overflows. -/
theorem roundingIsCorrect : Obligations.RoundingIsCorrect := by
  unfold Obligations.RoundingIsCorrect
  intro f hmem rm neg m e hm
  have hf := sound_of_mem hmem
  refine ⟨fun hfit => ?_, fun n q htop => ?_⟩
  · obtain ⟨hdec, hpar, hnx⟩ := Fmt.round_finite hf hm hfit
    have hin (h : rm ≠ 0) (h' : ¬ RoundsAway rm neg) := f.value_magCode_inward_le hm e h h'
    have hout (h' : RoundsAway rm neg) := f.le_value_magCode_outward hm e h'
    refine ⟨_, _, hdec, f.magCode_error_lt hm e hf rm neg, ?_, ?_, ?_, ?_, hnx⟩
    · rintro rfl
      rw [hpar]
      exact f.magCode_nearest_error hm e hf neg
    · rintro rfl
      exact hin (by decide) (by simp [RoundsAway])
    · rintro rfl
      cases neg
      · exact hout (.inl ⟨rfl, rfl⟩)
      · exact hin (by decide) (by simp [RoundsAway])
    · rintro rfl
      cases neg
      · exact hin (by decide) (by simp [RoundsAway])
      · exact hout (.inr ⟨rfl, rfl⟩)
  · have hd := Fmt.decode_finite hf false f.top le_rfl
    rw [show f.sign false + f.top = f.top from Nat.zero_add _, htop] at hd
    obtain ⟨-, rfl, rfl⟩ := Val.fin.inj hd
    have hover := f.top_lt_magCode_iff hmem rm neg hm e
    refine ⟨Fmt.round_overflow_iff.trans hover, fun hb hrm ha => Fmt.round_overflows_inward (hover.2 hb) hrm ha, fun hb ha => ?_⟩
    exact ⟨fun i hi => Fmt.round_overflows_to_inf (hover.2 hb) ha hi, Fmt.round_overflows_to_nan (hover.2 hb) ha⟩

end Sys2Proof.Machine

end

section
/-!
Encoding and decoding. A word is determined by the fields of any layout (`lay…_eq_iff`), and the decoder has read each of them before it
accepts; the other direction stands instruction by instruction in `Laws.DecodeEncode`.
-/

namespace Sys2Proof.Laws.DecodeEncode

open Sys2Proof

/-- The decoder reads every instruction's own word as that instruction. -/
theorem statement (i : Instr) : Statement i :=
  match i with
  | .add .. => add _ _ _ _
  | .sub .. => sub _ _ _ _
  | .and .. => and _ _ _ _
  | .or .. => or _ _ _ _
  | .xor .. => xor _ _ _ _
  | .andn .. => andn _ _ _ _
  | .shl .. => shl _ _ _ _
  | .shr .. => shr _ _ _ _
  | .sar .. => sar _ _ _ _
  | .rol .. => rol _ _ _ _
  | .ror .. => ror _ _ _ _
  | .slt .. => slt _ _ _ _
  | .sltu .. => sltu _ _ _ _
  | .seq .. => seq _ _ _ _
  | .min .. => min _ _ _ _
  | .max .. => max _ _ _ _
  | .minu .. => minu _ _ _ _
  | .maxu .. => maxu _ _ _ _
  | .mul .. => mul _ _ _ _
  | .mulh .. => mulh _ _ _ _
  | .mulhu .. => mulhu _ _ _ _
  | .div .. => div _ _ _ _
  | .divu .. => divu _ _ _ _
  | .rem .. => rem _ _ _ _
  | .remu .. => remu _ _ _ _
  | .clz .. => clz _ _ _
  | .ctz .. => ctz _ _ _
  | .popc .. => popc _ _ _
  | .brev .. => brev _ _ _
  | .sextB .. => sextB _ _ _
  | .sextH .. => sextH _ _ _
  | .sextW .. => sextW _ _ _
  | .zextW .. => zextW _ _ _
  | .sel .. => sel _ _ _ _
  | .addw .. => addw _ _ _ _
  | .subw .. => subw _ _ _ _
  | .mulw .. => mulw _ _ _ _
  | .addi .. => addi _ _ _ _
  | .andi .. => andi _ _ _ _
  | .ori .. => ori _ _ _ _
  | .xori .. => xori _ _ _ _
  | .slti .. => slti _ _ _ _
  | .sltiu .. => sltiu _ _ _ _
  | .shli .. => shli _ _ _ _
  | .shri .. => shri _ _ _ _
  | .sari .. => sari _ _ _ _
  | .roli .. => roli _ _ _ _
  | .lui .. => lui _ _ _
  | .adr .. => adr _ _ _
  | .extu .. => extu _ _ _ _ _
  | .exts .. => exts _ _ _ _ _
  | .ins .. => ins _ _ _ _ _
  | .fadd .. => fadd _ _ _ _
  | .fsub .. => fsub _ _ _ _
  | .fmul .. => fmul _ _ _ _
  | .fma .. => fma _ _ _ _
  | .fnma .. => fnma _ _ _ _
  | .fdiv .. => fdiv _ _ _ _
  | .fsqrt .. => fsqrt _ _ _
  | .fmin .. => fmin _ _ _ _
  | .fmax .. => fmax _ _ _ _
  | .feq .. => feq _ _ _ _
  | .flt .. => flt _ _ _ _
  | .fle .. => fle _ _ _ _
  | .fclass .. => fclass _ _ _
  | .fabs .. => fabs _ _ _
  | .fneg .. => fneg _ _ _
  | .cvtF32I64 .. => cvtF32I64 _ _ _
  | .cvtI64F32 .. => cvtI64F32 _ _ _
  | .cvtF32N64 .. => cvtF32N64 _ _ _
  | .cvtN64F32 .. => cvtN64F32 _ _ _
  | .cvtBf16F32 .. => cvtBf16F32 _ _ _
  | .cvtF32Bf16 .. => cvtF32Bf16 _ _ _
  | .cvtE4m3F32 .. => cvtE4m3F32 _ _ _
  | .cvtF32E4m3 .. => cvtF32E4m3 _ _ _
  | .cvtE5m2F32 .. => cvtE5m2F32 _ _ _
  | .cvtF32E5m2 .. => cvtF32E5m2 _ _ _
  | .frnd .. => frnd _ _ _
  | .beq .. => beq _ _ _ _
  | .bne .. => bne _ _ _ _
  | .blt .. => blt _ _ _ _
  | .bge .. => bge _ _ _ _
  | .bltu .. => bltu _ _ _ _
  | .bgeu .. => bgeu _ _ _ _
  | .j .. => j _ _
  | .call .. => call _ _
  | .jr .. => jr _ _
  | .jalr .. => jalr _ _ _
  | .callr .. => callr _ _
  | .ret .. => ret _
  | .fjmp .. => fjmp _ _
  | .ld .. => ld _ _ _ _ _ _
  | .ldu .. => ldu _ _ _ _ _ _
  | .st .. => st _ _ _ _ _ _
  | .lda .. => lda _ _ _ _ _
  | .strl .. => strl _ _ _ _ _
  | .swap .. => swap _ _ _ _ _ _
  | .cas .. => cas _ _ _ _ _ _
  | .atadd .. => atadd _ _ _ _ _ _
  | .atand .. => atand _ _ _ _ _ _
  | .ator .. => ator _ _ _ _ _ _
  | .atxor .. => atxor _ _ _ _ _ _
  | .atmin .. => atmin _ _ _ _ _ _
  | .atmax .. => atmax _ _ _ _ _ _
  | .atminn .. => atminn _ _ _ _ _ _
  | .atmaxn .. => atmaxn _ _ _ _ _ _
  | .atfadd .. => atfadd _ _ _ _ _
  | .atfmax .. => atfmax _ _ _ _ _
  | .ataddnr .. => ataddnr _ _ _ _ _
  | .sti .. => sti _ _ _ _ _ _ _
  | .fenceFull .. => fenceFull _ _ _ _ _
  | .fenceAcq .. => fenceAcq _ _ _ _ _
  | .fenceRel .. => fenceRel _ _ _ _ _
  | .fenceEng .. => fenceEng _
  | .vwpin .. => vwpin _ _ _
  | .vwset .. => vwset _ _ _ _
  | .vwclr .. => vwclr _ _ _
  | .vwget .. => vwget _ _ _
  | .tlbiL .. => tlbiL _ _
  | .tlbiB .. => tlbiB _ _ _
  | .publish .. => publish _ _
  | .probe .. => probe _ _ _
  | .tileOpen .. => tileOpen _ _ _
  | .tileClose .. => tileClose _ _ _
  | .tenR .. => tenR _ _
  | .tenW .. => tenW _ _
  | .tenTryr .. => tenTryr _ _ _
  | .tenTryw .. => tenTryw _ _ _
  | .tenRel .. => tenRel _ _ _
  | .tenDown .. => tenDown _ _
  | .tileSplit .. => tileSplit _ _ _ _
  | .tileQry .. => tileQry _ _ _
  | .vld .. => vld _ _ _
  | .vst .. => vst _ _ _
  | .vlds .. => vlds _ _ _ _ _
  | .vsts .. => vsts _ _ _ _ _
  | .vgath .. => vgath _ _ _ _ _
  | .vscat .. => vscat _ _ _ _ _
  | .vadd .. => vadd _ _ _ _ _
  | .vsub .. => vsub _ _ _ _ _
  | .vmul .. => vmul _ _ _ _ _
  | .vmulh .. => vmulh _ _ _ _ _
  | .vmin .. => vmin _ _ _ _ _
  | .vmax .. => vmax _ _ _ _ _
  | .vminu .. => vminu _ _ _ _ _
  | .vmaxu .. => vmaxu _ _ _ _ _
  | .vadds .. => vadds _ _ _ _ _
  | .vsubs .. => vsubs _ _ _ _ _
  | .vaddsn .. => vaddsn _ _ _ _ _
  | .vabs .. => vabs _ _ _ _
  | .vneg .. => vneg _ _ _ _
  | .vmac .. => vmac _ _ _ _ _
  | .vwmul .. => vwmul _ _ _ _ _
  | .vwmac .. => vwmac _ _ _ _ _
  | .vdot4 .. => vdot4 _ _ _ _ _
  | .vfadd .. => vfadd _ _ _ _ _
  | .vfsub .. => vfsub _ _ _ _ _
  | .vfmul .. => vfmul _ _ _ _ _
  | .vfma .. => vfma _ _ _ _ _
  | .vfnma .. => vfnma _ _ _ _ _
  | .vfmin .. => vfmin _ _ _ _ _
  | .vfmax .. => vfmax _ _ _ _ _
  | .vfabs .. => vfabs _ _ _ _
  | .vfneg .. => vfneg _ _ _ _
  | .vfwmul .. => vfwmul _ _ _ _ _
  | .vfwma .. => vfwma _ _ _ _ _
  | .vfexp2 .. => vfexp2 _ _ _ _
  | .vflog2 .. => vflog2 _ _ _ _
  | .vfrcp .. => vfrcp _ _ _ _
  | .vfrsq .. => vfrsq _ _ _ _
  | .vand .. => vand _ _ _ _ _
  | .vor .. => vor _ _ _ _ _
  | .vxor .. => vxor _ _ _ _ _
  | .vandn .. => vandn _ _ _ _ _
  | .vshl .. => vshl _ _ _ _ _
  | .vshr .. => vshr _ _ _ _ _
  | .vsar .. => vsar _ _ _ _ _
  | .vcmpeq .. => vcmpeq _ _ _ _ _
  | .vcmplt .. => vcmplt _ _ _ _ _
  | .vcmple .. => vcmple _ _ _ _ _
  | .vcmpltn .. => vcmpltn _ _ _ _ _
  | .vfcmpeq .. => vfcmpeq _ _ _ _ _
  | .vfcmplt .. => vfcmplt _ _ _ _ _
  | .vfcmple .. => vfcmple _ _ _ _ _
  | .vsel .. => vsel _ _ _ _ _
  | .vmand .. => vmand _ _ _ _ _
  | .vmor .. => vmor _ _ _ _ _
  | .vmxor .. => vmxor _ _ _ _ _
  | .vmnot .. => vmnot _ _ _ _
  | .vmpop .. => vmpop _ _ _ _
  | .vmfirst .. => vmfirst _ _ _ _
  | .vmset .. => vmset _ _ _ _
  | .vcvt .. => vcvt _ _ _ _ _
  | .vqo4 .. => vqo4 _ _ _ _ _
  | .vdqo4 .. => vdqo4 _ _ _ _ _
  | .vrsum .. => vrsum _ _ _ _
  | .vrmax .. => vrmax _ _ _ _
  | .vrmin .. => vrmin _ _ _ _
  | .vramax .. => vramax _ _ _ _
  | .vdot .. => vdot _ _ _ _ _
  | .vbcast .. => vbcast _ _ _ _
  | .vmov .. => vmov _ _ _ _
  | .vperm .. => vperm _ _ _ _ _
  | .vslide .. => vslide _ _ _ _ _
  | .vext .. => vext _ _ _ _ _
  | .vins .. => vins _ _ _ _ _
  | .vhad .. => vhad _ _ _ _ _
  | .viota .. => viota _ _ _
  | .vzip .. => vzip _ _ _ _ _
  | .vunzip .. => vunzip _ _ _ _ _
  | .accRd .. => accRd _ _ _
  | .accWr .. => accWr _ _ _
  | .accClr .. => accClr _ _
  | .mwait .. => mwait _ _
  | .mstat .. => mstat _ _
  | .rpt .. => rpt _ _ _ _ _ _ _ _
  | .xsend .. => xsend _ _ _ _
  | .xwait .. => xwait _ _
  | .xstat .. => xstat _ _ _ _
  | .hstart .. => hstart _ _ _ _
  | .hstartNb .. => hstartNb _ _ _ _
  | .hexit .. => hexit _
  | .hjoin .. => hjoin _ _ _
  | .hstat .. => hstat _ _ _
  | .yield .. => yield _
  | .hkill .. => hkill _ _
  | .trForm .. => trForm _ _ _
  | .trBreak .. => trBreak _
  | .trDetach .. => trDetach _
  | .trRejoin .. => trRejoin _
  | .trStat .. => trStat _ _
  | .sync .. => sync _ _
  | .djoin .. => djoin _ _ _
  | .dleave .. => dleave _ _
  | .dqry .. => dqry _ _ _
  | .bar .. => bar _ _
  | .cfetch .. => cfetch _ _ _
  | .cwait .. => cwait _ _
  | .cstat .. => cstat _ _ _
  | .cevict .. => cevict _ _
  | .evwait .. => evwait _ _
  | .evsig .. => evsig _ _
  | .evrd .. => evrd _ _ _
  | .evclr .. => evclr _ _
  | .wfe .. => wfe _
  | .crr .. => crr _ _ _
  | .crw .. => crw _ _ _ _
  | .crset .. => crset _ _ _ _
  | .crclr .. => crclr _ _ _ _
  | .trap .. => trap _ _
  | .sysc .. => sysc _
  | .hcall .. => hcall _
  | .eret .. => eret _
  | .bkpt .. => bkpt _
  | .halt .. => halt _
  | .tsread .. => tsread _ _
  | .gexit .. => gexit _
  | .cntrd .. => cntrd _ _ _
  | .gang .. => gang _
  | .rpop .. => rpop _ _
  | .rfix .. => rfix _ _ _
  | .rreplay .. => rreplay _ _
  | .rkill .. => rkill _ _
  | .vamoF32 .. => vamoF32 _ _ _
  | .vamoBf16 .. => vamoBf16 _ _ _
  | .vamoI32 .. => vamoI32 _ _ _
  | .lnch .. => lnch _ _ _
  | .lwait .. => lwait _ _
  | .lqry .. => lqry _ _ _
  | .lcancel .. => lcancel _ _ _
  | .qpeek .. => qpeek _ _ _
  | .qclr .. => qclr _ _
  | .qstat .. => qstat _ _ _
  | .pset .. => pset _ _ _
  | .pget .. => pget _ _ _
  | .padd .. => padd _ _ _ _
  | .paddi .. => paddi _ _ _ _
  | .fixedResultVisible .. => fixedResultVisible _ _
  | .variableResultWrite .. => variableResultWrite _ _
  | .fpexcTrap .. => fpexcTrap _ _
  | .deferredTrap .. => deferredTrap _ _
  | .segmentFetchDone .. => segmentFetchDone _ _
  | .vectorPassBind .. => vectorPassBind _
  | .scratchpadResize .. => scratchpadResize _
  | .plane .. => plane _ _
  | .mma .. => mma _ _
  | .mmaR .. => mmaR _ _
  | .had .. => had _ _
  | .drain .. => drain _
  | .zero .. => zero _
  | .mark .. => mark _
  | .matrixCommandDone .. => matrixCommandDone _
  | .copy .. => copy _ _ _
  | .fill .. => fill _ _ _
  | .allreduce .. => allreduce _ _
  | .reducescatter .. => reducescatter _ _
  | .allgather .. => allgather _ _
  | .abort .. => abort _ _
  | .engineCommandDone .. => engineCommandDone _ _
  | .portWordArrival .. => portWordArrival _
  | .forwardedInstruction .. => forwardedInstruction _
  | .trFormTimeout .. => trFormTimeout _
  | .troupehang .. => troupehang _
  | .syncDone .. => syncDone _
  | .homeRequest .. => homeRequest _
  | .pushArrival .. => pushArrival _
  | .tLineExpiry .. => tLineExpiry _ _
  | .memoryResponse .. => memoryResponse _ _ _
  | .farHomeRequest .. => farHomeRequest _
  | .farInvalidationAck .. => farInvalidationAck _ _
  | .replicaUpdate .. => replicaUpdate _
  | .tenureGrant .. => tenureGrant _
  | .leaseRevoke .. => leaseRevoke _
  | .stringsTimer .. => stringsTimer _
  | .wake .. => wake _
  | .helperStartTrigger .. => helperStartTrigger _
  | .groupPlacement .. => groupPlacement _
  | .groupStart .. => groupStart _
  | .tsliceExpiry .. => tsliceExpiry _
  | .forcedSwitchStop .. => forcedSwitchStop _
  | .saveDone .. => saveDone _
  | .restoreDone .. => restoreDone _
  | .softError .. => softError _
  | .create .. => create _
  | .switch .. => switch _
  | .resume .. => resume _
  | .cont .. => cont _ _
  | .kill .. => kill _
  | .destroy .. => destroy _
  | .svcstart .. => svcstart _
  | .launch .. => launch _
  | .registerWrite .. => registerWrite _ _
  | .crossTriggerHalt .. => crossTriggerHalt _
  | .debugResume .. => debugResume _
  | .kaleidoscopeTurn .. => kaleidoscopeTurn
  | .turnDrain .. => turnDrain
  | .turnRetrain .. => turnRetrain
  | .turnMap .. => turnMap _
  | .turnActive .. => turnActive
  | .fabricTimeout .. => fabricTimeout _
  | .peerRequest .. => peerRequest _ _ _ _ _ _
  | .fanoutTimeout .. => fanoutTimeout _
  | .severed .. => severed _
  | .flushed .. => flushed _
  | .messageLanding .. => messageLanding _ _ _ _ _
  | .hostBar4Write .. => hostBar4Write _ _ _
  | .hostBar4Read .. => hostBar4Read _ _
  | .mailboxHostWrite .. => mailboxHostWrite _ _ _ _
  | .vfFlr .. => vfFlr _
  | .tagRevive .. => tagRevive _
  | .powerGrantEpoch .. => powerGrantEpoch _ _
  | .boot .. => boot _ _
  | .stageVerify .. => stageVerify _ _
  | .attestationRequest .. => attestationRequest
  | .attestationReportReady .. => attestationReportReady
  | .debugUnlockToken .. => debugUnlockToken _
  | .routerAccept .. => routerAccept _ _
  | .linkDown .. => linkDown _
  | .linkUp .. => linkUp _
  | .llcDramSoftError .. => llcDramSoftError _

end Sys2Proof.Laws.DecodeEncode

namespace Sys2Proof

/-! ### Words and their fields (R39) -/

/-- Two adjacent fields of a word make one. -/
theorem fld_append {hi lo m n : Nat} (v : IWord) (h : lo + n = hi) : fld hi m v ++ fld lo n v = fld lo (m + n) v := by
  subst h
  exact BitVec.extractLsb'_append_extractLsb'_eq_extractLsb' rfl

/-- The whole word as a field. -/
theorem fld_whole (v : IWord) : fld 0 32 v = v := by simp [fld]

/-- The major opcode of a word as a number. -/
theorem toNat_major (v : IWord) : (fld 26 6 v).toNat = v.toNat / 2 ^ 26 := by
  have := v.isLt
  simp only [fld, BitVec.extractLsb'_toNat, Nat.shiftRight_eq_div_pow]
  omega

@[simp] theorem layR_eq_iff (v : IWord) (maj : BitVec 6) (d : BitVec 5) (a : BitVec 5) (b : BitVec 5) (fn : BitVec 8) (w : BitVec 3) :
    layR maj d a b fn w = v ↔ fld 26 6 v = maj ∧ fld 21 5 v = d ∧ fld 16 5 v = a ∧ fld 11 5 v = b ∧ fld 3 8 v = fn ∧ fld 0 3 v = w := by
  constructor
  · rintro rfl
    exact layR_fields ..
  · rintro ⟨rfl, rfl, rfl, rfl, rfl, rfl⟩
    simp only [layR, fld_append]
    exact fld_whole v

@[simp] theorem layI_eq_iff (v : IWord) (maj : BitVec 6) (d : BitVec 5) (a : BitVec 5) (imm : BitVec 13) (w : BitVec 3) :
    layI maj d a imm w = v ↔ fld 26 6 v = maj ∧ fld 21 5 v = d ∧ fld 16 5 v = a ∧ fld 3 13 v = imm ∧ fld 0 3 v = w := by
  constructor
  · rintro rfl
    exact layI_fields ..
  · rintro ⟨rfl, rfl, rfl, rfl, rfl⟩
    simp only [layI, fld_append]
    exact fld_whole v

@[simp] theorem layShi_eq_iff (v : IWord) (maj : BitVec 6) (d : BitVec 5) (a : BitVec 5) (sel : BitVec 2) (z : BitVec 5) (n : BitVec 6) (w :
    BitVec 3) :
    layShi maj d a sel z n w = v ↔
      fld 26 6 v = maj ∧ fld 21 5 v = d ∧ fld 16 5 v = a ∧ fld 14 2 v = sel ∧ fld 9 5 v = z ∧ fld 3 6 v = n ∧ fld 0 3 v = w := by
  constructor
  · rintro rfl
    exact layShi_fields ..
  · rintro ⟨rfl, rfl, rfl, rfl, rfl, rfl, rfl⟩
    simp only [layShi, fld_append]
    exact fld_whole v

@[simp] theorem layBitf_eq_iff (v : IWord) (maj : BitVec 6) (d : BitVec 5) (a : BitVec 5) (sel : BitVec 2) (pos : BitVec 6) (len : BitVec 5)
    (w : BitVec 3) :
    layBitf maj d a sel pos len w = v ↔
      fld 26 6 v = maj ∧ fld 21 5 v = d ∧ fld 16 5 v = a ∧ fld 14 2 v = sel ∧ fld 8 6 v = pos ∧ fld 3 5 v = len ∧ fld 0 3 v = w := by
  constructor
  · rintro rfl
    exact layBitf_fields ..
  · rintro ⟨rfl, rfl, rfl, rfl, rfl, rfl, rfl⟩
    simp only [layBitf, fld_append]
    exact fld_whole v

@[simp] theorem layU_eq_iff (v : IWord) (maj : BitVec 6) (d : BitVec 5) (imm : BitVec 18) (w : BitVec 3) :
    layU maj d imm w = v ↔ fld 26 6 v = maj ∧ fld 21 5 v = d ∧ fld 3 18 v = imm ∧ fld 0 3 v = w := by
  constructor
  · rintro rfl
    exact layU_fields ..
  · rintro ⟨rfl, rfl, rfl, rfl⟩
    simp only [layU, fld_append]
    exact fld_whole v

@[simp] theorem layB_eq_iff (v : IWord) (maj : BitVec 6) (a : BitVec 5) (b : BitVec 5) (cond : BitVec 3) (off : BitVec 10) (w : BitVec 3) :
    layB maj a b cond off w = v ↔ fld 26 6 v = maj ∧ fld 21 5 v = a ∧ fld 16 5 v = b ∧ fld 13 3 v = cond ∧ fld 3 10 v = off ∧ fld 0 3 v = w := by
  constructor
  · rintro rfl
    exact layB_fields ..
  · rintro ⟨rfl, rfl, rfl, rfl, rfl, rfl⟩
    simp only [layB, fld_append]
    exact fld_whole v

@[simp] theorem layJ_eq_iff (v : IWord) (maj : BitVec 6) (off : BitVec 23) (w : BitVec 3) :
    layJ maj off w = v ↔ fld 26 6 v = maj ∧ fld 3 23 v = off ∧ fld 0 3 v = w := by
  constructor
  · rintro rfl
    exact layJ_fields ..
  · rintro ⟨rfl, rfl, rfl⟩
    simp only [layJ, fld_append]
    exact fld_whole v

@[simp] theorem layM_eq_iff (v : IWord) (maj : BitVec 6) (d : BitVec 5) (a : BitVec 5) (off : BitVec 9) (sz : BitVec 2) (rt : BitVec 2) (w :
    BitVec 3) :
    layM maj d a off sz rt w = v ↔
      fld 26 6 v = maj ∧ fld 21 5 v = d ∧ fld 16 5 v = a ∧ fld 7 9 v = off ∧ fld 5 2 v = sz ∧ fld 3 2 v = rt ∧ fld 0 3 v = w := by
  constructor
  · rintro rfl
    exact layM_fields ..
  · rintro ⟨rfl, rfl, rfl, rfl, rfl, rfl, rfl⟩
    simp only [layM, fld_append]
    exact fld_whole v

@[simp] theorem layA_eq_iff (v : IWord) (maj : BitVec 6) (d : BitVec 5) (a : BitVec 5) (b : BitVec 5) (op : BitVec 4) (scope : BitVec 3) (sz
    : BitVec 1) (w : BitVec 3) :
    layA maj d a b op scope sz w = v ↔
      fld 26 6 v = maj ∧ fld 21 5 v = d ∧ fld 16 5 v = a ∧ fld 11 5 v = b ∧ fld 7 4 v = op ∧ fld 4 3 v = scope ∧ fld 3 1 v = sz ∧ fld 0 3 v
        = w := by
  constructor
  · rintro rfl
    exact layA_fields ..
  · rintro ⟨rfl, rfl, rfl, rfl, rfl, rfl, rfl, rfl⟩
    simp only [layA, fld_append]
    exact fld_whole v

@[simp] theorem layV_eq_iff (v : IWord) (maj : BitVec 6) (d : BitVec 5) (a : BitVec 5) (b : BitVec 5) (ty : BitVec 3) (fn : BitVec 5) (w : BitVec 3) :
    layV maj d a b ty fn w = v ↔
      fld 26 6 v = maj ∧ fld 21 5 v = d ∧ fld 16 5 v = a ∧ fld 11 5 v = b ∧ fld 8 3 v = ty ∧ fld 3 5 v = fn ∧ fld 0 3 v = w := by
  constructor
  · rintro rfl
    exact layV_fields ..
  · rintro ⟨rfl, rfl, rfl, rfl, rfl, rfl, rfl⟩
    simp only [layV, fld_append]
    exact fld_whole v

@[simp] theorem layS_eq_iff (v : IWord) (maj : BitVec 6) (d : BitVec 5) (a : BitVec 5) (csr : BitVec 11) (op : BitVec 2) (w : BitVec 3) :
    layS maj d a csr op w = v ↔ fld 26 6 v = maj ∧ fld 21 5 v = d ∧ fld 16 5 v = a ∧ fld 5 11 v = csr ∧ fld 3 2 v = op ∧ fld 0 3 v = w := by
  constructor
  · rintro rfl
    exact layS_fields ..
  · rintro ⟨rfl, rfl, rfl, rfl, rfl, rfl⟩
    simp only [layS, fld_append]
    exact fld_whole v

@[simp] theorem layRpt_eq_iff (v : IWord) (maj : BitVec 6) (c : BitVec 5) (icount : BitVec 6) (len : BitVec 4) (sd : BitVec 1) (sa : BitVec
    1) (sb : BitVec 1) (stride : BitVec 2) (z : BitVec 3) (w : BitVec 3) :
    layRpt maj c icount len sd sa sb stride z w = v ↔
      fld 26 6 v = maj ∧ fld 21 5 v = c ∧ fld 15 6 v = icount ∧ fld 11 4 v = len ∧ fld 10 1 v = sd ∧ fld 9 1 v = sa ∧ fld 8 1 v = sb ∧ fld 6
        2 v = stride ∧ fld 3 3 v = z ∧ fld 0 3 v = w := by
  constructor
  · rintro rfl
    exact layRpt_fields ..
  · rintro ⟨rfl, rfl, rfl, rfl, rfl, rfl, rfl, rfl, rfl, rfl⟩
    simp only [layRpt, fld_append]
    exact fld_whole v

@[simp] theorem laySti_eq_iff (v : IWord) (maj : BitVec 6) (d : BitVec 5) (a : BitVec 5) (b : BitVec 5) (sz : BitVec 2) (set : BitVec 1)
    (rep : BitVec 1) (z : BitVec 4) (w : BitVec 3) :
    laySti maj d a b sz set rep z w = v ↔
      fld 26 6 v = maj ∧ fld 21 5 v = d ∧ fld 16 5 v = a ∧ fld 11 5 v = b ∧ fld 9 2 v = sz ∧ fld 8 1 v = set ∧ fld 7 1 v = rep ∧ fld 3 4 v =
        z ∧ fld 0 3 v = w := by
  constructor
  · rintro rfl
    exact laySti_fields ..
  · rintro ⟨rfl, rfl, rfl, rfl, rfl, rfl, rfl, rfl, rfl⟩
    simp only [laySti, fld_append]
    exact fld_whole v

@[simp] theorem layFence_eq_iff (v : IWord) (maj : BitVec 6) (d : BitVec 5) (a : BitVec 5) (b : BitVec 5) (scope : BitVec 3) (kind : BitVec
    2) (rng : BitVec 1) (z : BitVec 2) (w : BitVec 3) :
    layFence maj d a b scope kind rng z w = v ↔
      fld 26 6 v = maj ∧ fld 21 5 v = d ∧ fld 16 5 v = a ∧ fld 11 5 v = b ∧ fld 8 3 v = scope ∧ fld 6 2 v = kind ∧ fld 5 1 v = rng ∧ fld 3 2
        v = z ∧ fld 0 3 v = w := by
  constructor
  · rintro rfl
    exact layFence_fields ..
  · rintro ⟨rfl, rfl, rfl, rfl, rfl, rfl, rfl, rfl, rfl⟩
    simp only [layFence, fld_append]
    exact fld_whole v

@[simp] theorem laySync_eq_iff (v : IWord) (maj : BitVec 6) (d : BitVec 5) (a : BitVec 5) (b : BitVec 5) (op : BitVec 3) (lev : BitVec 2) (z
    : BitVec 3) (w : BitVec 3) :
    laySync maj d a b op lev z w = v ↔
      fld 26 6 v = maj ∧ fld 21 5 v = d ∧ fld 16 5 v = a ∧ fld 11 5 v = b ∧ fld 8 3 v = op ∧ fld 6 2 v = lev ∧ fld 3 3 v = z ∧ fld 0 3 v = w
        := by
  constructor
  · rintro rfl
    exact laySync_fields ..
  · rintro ⟨rfl, rfl, rfl, rfl, rfl, rfl, rfl, rfl⟩
    simp only [laySync, fld_append]
    exact fld_whole v

@[simp] theorem layPort_eq_iff (v : IWord) (maj : BitVec 6) (d : BitVec 5) (hi : BitVec 3) (q : BitVec 2) (b : BitVec 5) (fn : BitVec 8) (w
    : BitVec 3) :
    layPort maj d hi q b fn w = v ↔
      fld 26 6 v = maj ∧ fld 21 5 v = d ∧ fld 18 3 v = hi ∧ fld 16 2 v = q ∧ fld 11 5 v = b ∧ fld 3 8 v = fn ∧ fld 0 3 v = w := by
  constructor
  · rintro rfl
    exact layPort_fields ..
  · rintro ⟨rfl, rfl, rfl, rfl, rfl, rfl, rfl⟩
    simp only [layPort, fld_append]
    exact fld_whole v

@[simp] theorem layTrap_eq_iff (v : IWord) (maj : BitVec 6) (k : BitVec 10) (b : BitVec 5) (fn : BitVec 8) (w : BitVec 3) :
    layTrap maj k b fn w = v ↔ fld 26 6 v = maj ∧ fld 16 10 v = k ∧ fld 11 5 v = b ∧ fld 3 8 v = fn ∧ fld 0 3 v = w := by
  constructor
  · rintro rfl
    exact layTrap_fields ..
  · rintro ⟨rfl, rfl, rfl, rfl, rfl⟩
    simp only [layTrap, fld_append]
    exact fld_whole v

/-! ### The decoder, branch by branch (R38) -/

/-- What a branch of the decoder answers for a word, if it is an instruction, is one that has this word. -/
def Reads (v : IWord) (r : Except Reject Instr) : Prop := ∀ i, r = .ok i → encode i = v

@[simp] theorem reads_error {v : IWord} {e : Reject} : Reads v (.error e) := fun _ h => nomatch h

@[simp] theorem reads_ok {v : IWord} {i : Instr} : Reads v (.ok i) ↔ encode i = v := by simp [Reads]

theorem Reads.ite {v : IWord} {c : Prop} [Decidable c] {r r' : Except Reject Instr} (h : c → Reads v r) (h' : Reads v r') :
    Reads v (if c then r else r') := by
  split
  · exact h ‹c›
  · exact h'

section
variable {v : IWord}

/-! In a branch of a major's decoder the fields that choose the instruction are known, and the others are its operands. -/

theorem reads_decodeAlu (hm : fld 26 6 v = 0x01#6) : Reads v (decodeAlu v) := by
  unfold decodeAlu
  repeat' refine Reads.ite (fun _ => ?_) ?_
  all_goals simp [encode, *]

theorem reads_decodeShi (hm : fld 26 6 v = 0x06#6) : Reads v (decodeShi v) := by
  unfold decodeShi
  repeat' refine Reads.ite (fun _ => ?_) ?_
  all_goals simp [encode, *]

theorem reads_decodeBitf (hm : fld 26 6 v = 0x0B#6) : Reads v (decodeBitf v) := by
  unfold decodeBitf
  repeat' refine Reads.ite (fun _ => ?_) ?_
  all_goals simp [encode, *]

theorem reads_decodeFpu (hm : fld 26 6 v = 0x0C#6) : Reads v (decodeFpu v) := by
  unfold decodeFpu
  repeat' refine Reads.ite (fun _ => ?_) ?_
  all_goals simp [encode, *]

theorem reads_decodeBr (hm : fld 26 6 v = 0x0D#6) : Reads v (decodeBr v) := by
  unfold decodeBr
  repeat' refine Reads.ite (fun _ => ?_) ?_
  all_goals simp [encode, *]

theorem reads_decodeJx (hm : fld 26 6 v = 0x10#6) : Reads v (decodeJx v) := by
  unfold decodeJx
  repeat' refine Reads.ite (fun _ => ?_) ?_
  all_goals simp [encode, *]

theorem reads_decodeAmo (hm : fld 26 6 v = 0x14#6) : Reads v (decodeAmo v) := by
  unfold decodeAmo
  repeat' refine Reads.ite (fun _ => ?_) ?_
  all_goals simp [encode, *]

theorem reads_decodeFence (hm : fld 26 6 v = 0x16#6) : Reads v (decodeFence v) := by
  unfold decodeFence
  repeat' refine Reads.ite (fun _ => ?_) ?_
  all_goals simp [encode, *]

theorem reads_decodeXlat (hm : fld 26 6 v = 0x17#6) : Reads v (decodeXlat v) := by
  unfold decodeXlat
  repeat' refine Reads.ite (fun _ => ?_) ?_
  all_goals simp [encode, *]

theorem reads_decodeTile (hm : fld 26 6 v = 0x18#6) : Reads v (decodeTile v) := by
  unfold decodeTile
  repeat' refine Reads.ite (fun _ => ?_) ?_
  all_goals simp [encode, *]

theorem reads_decodeVmem (hm : fld 26 6 v = 0x19#6) : Reads v (decodeVmem v) := by
  unfold decodeVmem
  repeat' refine Reads.ite (fun _ => ?_) ?_
  all_goals simp [encode, *]

theorem reads_decodeVint (hm : fld 26 6 v = 0x1A#6) : Reads v (decodeVint v) := by
  unfold decodeVint
  repeat' refine Reads.ite (fun _ => ?_) ?_
  all_goals simp [encode, *]

theorem reads_decodeVflt (hm : fld 26 6 v = 0x1B#6) : Reads v (decodeVflt v) := by
  unfold decodeVflt
  repeat' refine Reads.ite (fun _ => ?_) ?_
  all_goals simp [encode, *]

theorem reads_decodeVlog (hm : fld 26 6 v = 0x1C#6) : Reads v (decodeVlog v) := by
  unfold decodeVlog
  repeat' refine Reads.ite (fun _ => ?_) ?_
  all_goals simp [encode, *]

theorem reads_decodeVxf (hm : fld 26 6 v = 0x1D#6) : Reads v (decodeVxf v) := by
  unfold decodeVxf
  repeat' refine Reads.ite (fun _ => ?_) ?_
  all_goals simp [encode, *]

theorem reads_decodeAcc (hm : fld 26 6 v = 0x1E#6) : Reads v (decodeAcc v) := by
  unfold decodeAcc
  repeat' refine Reads.ite (fun _ => ?_) ?_
  all_goals simp [encode, *]

theorem reads_decodeXeng (hm : fld 26 6 v = 0x20#6) : Reads v (decodeXeng v) := by
  unfold decodeXeng
  repeat' refine Reads.ite (fun _ => ?_) ?_
  all_goals simp [encode, *]

theorem reads_decodeHelp (hm : fld 26 6 v = 0x21#6) : Reads v (decodeHelp v) := by
  unfold decodeHelp
  repeat' refine Reads.ite (fun _ => ?_) ?_
  all_goals simp [encode, *]

theorem reads_decodeTroupe (hm : fld 26 6 v = 0x22#6) : Reads v (decodeTroupe v) := by
  unfold decodeTroupe
  repeat' refine Reads.ite (fun _ => ?_) ?_
  all_goals simp [encode, *]

theorem reads_decodeSync (hm : fld 26 6 v = 0x23#6) : Reads v (decodeSync v) := by
  unfold decodeSync
  repeat' refine Reads.ite (fun _ => ?_) ?_
  all_goals simp [encode, *]

theorem reads_decodeCode (hm : fld 26 6 v = 0x24#6) : Reads v (decodeCode v) := by
  unfold decodeCode
  repeat' refine Reads.ite (fun _ => ?_) ?_
  all_goals simp [encode, *]

theorem reads_decodeEvt (hm : fld 26 6 v = 0x25#6) : Reads v (decodeEvt v) := by
  unfold decodeEvt
  repeat' refine Reads.ite (fun _ => ?_) ?_
  all_goals simp [encode, *]

theorem reads_decodeCsr (hm : fld 26 6 v = 0x26#6) : Reads v (decodeCsr v) := by
  unfold decodeCsr
  repeat' refine Reads.ite (fun _ => ?_) ?_
  all_goals simp [encode, *]

theorem reads_decodeSys (hm : fld 26 6 v = 0x27#6) : Reads v (decodeSys v) := by
  unfold decodeSys
  repeat' refine Reads.ite (fun _ => ?_) ?_
  all_goals simp [encode, *]

theorem reads_decodeRetry (hm : fld 26 6 v = 0x28#6) : Reads v (decodeRetry v) := by
  unfold decodeRetry
  repeat' refine Reads.ite (fun _ => ?_) ?_
  all_goals simp [encode, *]

theorem reads_decodeVamo (hm : fld 26 6 v = 0x29#6) : Reads v (decodeVamo v) := by
  unfold decodeVamo
  repeat' refine Reads.ite (fun _ => ?_) ?_
  all_goals simp [encode, *]

theorem reads_decodeSched (hm : fld 26 6 v = 0x2A#6) : Reads v (decodeSched v) := by
  unfold decodeSched
  repeat' refine Reads.ite (fun _ => ?_) ?_
  all_goals simp [encode, *]

theorem reads_decodePort (hm : fld 26 6 v = 0x2B#6) : Reads v (decodePort v) := by
  unfold decodePort
  repeat' refine Reads.ite (fun _ => ?_) ?_
  all_goals simp [encode, *]

theorem reads_decodeLptr (hm : fld 26 6 v = 0x2C#6) : Reads v (decodeLptr v) := by
  unfold decodeLptr
  repeat' refine Reads.ite (fun _ => ?_) ?_
  all_goals simp [encode, *]

end

/-- Every instruction that the decoder reads in a word has this word. -/
theorem reads_decodeFields (v : IWord) : Reads v (decodeFields v) := by
  unfold decodeFields
  refine .ite reads_decodeAlu <| .ite (fun _ => ?_) <| .ite (fun _ => ?_) <| .ite (fun _ => ?_) <| .ite (fun _ => ?_) <| .ite
    reads_decodeShi <| .ite (fun _ => ?_) <| .ite (fun _ => ?_) <| .ite (fun _ => ?_) <| .ite (fun _ => ?_) <| .ite reads_decodeBitf <| .ite
    reads_decodeFpu <| .ite reads_decodeBr <| .ite (fun _ => ?_) <| .ite (fun _ => ?_) <| .ite reads_decodeJx <| .ite (fun _ => ?_) <| .ite
    (fun _ => ?_) <| .ite (fun _ => ?_) <| .ite reads_decodeAmo <| .ite (fun _ => .ite (fun _ => ?_) reads_error) <| .ite reads_decodeFence
    <| .ite reads_decodeXlat <| .ite reads_decodeTile <| .ite reads_decodeVmem <| .ite reads_decodeVint <| .ite reads_decodeVflt <| .ite
    reads_decodeVlog <| .ite reads_decodeVxf <| .ite reads_decodeAcc <| .ite (fun _ => .ite (fun _ => ?_) reads_error) <| .ite
    reads_decodeXeng <| .ite reads_decodeHelp <| .ite reads_decodeTroupe <| .ite reads_decodeSync <| .ite reads_decodeCode <| .ite
    reads_decodeEvt <| .ite reads_decodeCsr <| .ite reads_decodeSys <| .ite reads_decodeRetry <| .ite reads_decodeVamo <| .ite
    reads_decodeSched <| .ite reads_decodePort <| .ite reads_decodeLptr <| .ite (fun _ => ?_) <| reads_error
  all_goals simp [encode, *]

theorem decode_eq_ok_iff (v : IWord) (i : Instr) : decode v = .ok i ↔ decodeFields v = .ok i ∧ i.wf = true := by
  unfold decode
  cases decodeFields v with
  | error e => simp
  | ok j =>
    dsimp only
    split
    next hj => exact ⟨fun e => ⟨e, Except.ok.inj e ▸ hj⟩, And.left⟩
    next hj => exact ⟨nofun, fun ⟨e, hi⟩ => absurd (Except.ok.inj e ▸ hi) hj⟩

/-- The decoder refuses a word whose fields it refuses. -/
theorem decode_error {v : IWord} {e : Reject} (h : decodeFields v = .error e) : decode v = .error e := by simp [decode, h]

/-- Majors 0x00 and from 0x2E on name no family (R38). -/
theorem decodeFields_major {v : IWord} (h : v.toNat / 2 ^ 26 = 0 ∨ 0x2E ≤ v.toNat / 2 ^ 26) : decodeFields v = .error .major := by
  rw [← toNat_major] at h
  have ne {k : BitVec 6} (hk : 0 < k.toNat ∧ k.toNat < 0x2E) : fld 26 6 v ≠ k := by
    rintro rfl
    omega
  simp [decodeFields, ne]

end Sys2Proof

namespace Sys2Proof.Machine

open Sys2Proof

/-- Settles O1, constructor by constructor. -/
theorem decodeEncode : Obligations.DecodeEncode := by
  unfold Obligations.DecodeEncode
  exact Laws.DecodeEncode.statement

/-- Settles O2: an accepted word has all of its fields in the instruction, and no branch of the decoder is for the other majors. -/
theorem decodeExact : Obligations.DecodeExact := by
  unfold Obligations.DecodeExact
  refine ⟨fun v i h => ?_, fun v h => ⟨.major, decode_error (decodeFields_major h)⟩⟩
  obtain ⟨hi, hwf⟩ := (decode_eq_ok_iff v i).1 h
  exact ⟨reads_decodeFields v i hi, hwf⟩

/-- Settles O3, word by word. -/
theorem decodeWords : Obligations.DecodeWords := by
  unfold Obligations.DecodeWords
  decide

end Sys2Proof.Machine

end

section
/-!
The results of the integer instructions. Each one is of a shared form, and its operation equals the one of the spec's table.
-/

namespace Sys2Proof.Machine

open Sys2Proof

/-! ### The shared forms with their value (R44, R45) -/

section
variable {lat : Nat} {d a b : Reg} {w : BitVec 3} {s : State} {v : Word}

theorem alu2_value {f : Word → Word → Word} (h : ReadyTo [a, b] d s) (hv : f (s.rdA a) (s.rdB a b) = v) :
    alu2 lat f d a b w s = resultOf w [a, b] lat d v s := hv ▸ alu2_ready h

theorem alu1_value {f : Word → Word} (h : ReadyTo [a] d s) (hv : f (s.rdA a) = v) :
    alu1 lat f d a w s = resultOf w [a] lat d v s := hv ▸ alu1_ready h

theorem alu0_value {f : State → Word} (h : ReadyTo [] d s) (hv : f s = v) :
    alu0 f d w s = resultOf w [] 1 d v s := hv ▸ alu0_ready h

theorem aluDiv_value {l : Word → Word → Nat} {f : Word → Word → Word} (h : ReadyTo [a, b] d s) (hl : l (s.rdA a) (s.rdB a b) = lat)
    (hv : f (s.rdA a) (s.rdB a b) = v) :
    aluDiv l f d a b w s = .next (finish w [a, b] (produceLater lat d v 0 s)) := hv ▸ hl ▸ aluDiv_ready h

end

/-! ### Operations of R104 that have no law yet -/

theorem beq_eq (x y : Word) : ofBool (x == y) = if x = y then 1 else 0 := by
  by_cases h : x = y <;> simp [ofBool, h]

theorem setWidth32_mul (x y : Word) : (x * y).setWidth 32 = x.setWidth 32 * y.setWidth 32 := by
  apply BitVec.eq_of_toNat_eq
  simp [Nat.mul_mod]

/-- The low bits of a word as a narrower one. -/
theorem extractLsb'_zero (n : Nat) (x : Word) : x.extractLsb' 0 n = x.setWidth n := by
  apply BitVec.eq_of_toNat_eq
  simp

theorem ctz64_eq (x : Word) (n : Nat) (hn : n ≤ 64) (h0 : ∀ i < n, x.getLsbD i = false) (h1 : n < 64 → x.getLsbD n = true) :
    BitVec.ofNat 64 (ctzFrom 64 x.toNat) = BitVec.ofNat 64 n :=
  congrArg _ (ctzFrom_eq 64 _ n hn h0 h1)

theorem popc64_eq (x : Word) :
    BitVec.ofNat 64 (popFrom 64 x.toNat) = BitVec.ofNat 64 (((List.range 64).filter (fun i => x.getLsbD i)).length) :=
  congrArg _ (popFrom_eq 64 _)

theorem brev64_getLsbD (x : Word) (i : Nat) (h : i < 64) :
    (BitVec.ofNat 64 (revFrom 64 x.toNat 0)).getLsbD i = x.getLsbD (63 - i) := by
  rw [BitVec.getLsbD_ofNat, revFrom_testBit, if_pos h]
  simp [h, BitVec.getLsbD]

/-! ### Latencies of divisions (R103) -/

theorem divLatS_eq {x y : Word} {n : Nat} (hy : y ≠ 0) (h1 : x.toInt.natAbs < 2 ^ n) (h2 : x ≠ 0 → 2 ^ n ≤ 2 * x.toInt.natAbs)
    (h3 : x = 0 → n = 0) : divLatS x y = 6 + (n + 3) / 4 := by
  have hx : x.toInt.natAbs = 0 ↔ x = 0 := by rw [Int.natAbs_eq_zero, ← BitVec.toInt_inj]; rfl
  rw [divLatS, if_neg hy, sigBits_eq _ n h1 (fun h => h2 (mt hx.2 h)) (fun h => h3 (hx.1 h))]

theorem divLatU_eq {x y : Word} {n : Nat} (hy : y ≠ 0) (h1 : x.toNat < 2 ^ n) (h2 : x ≠ 0 → 2 ^ n ≤ 2 * x.toNat)
    (h3 : x = 0 → n = 0) : divLatU x y = 6 + (n + 3) / 4 := by
  have hx : x.toNat = 0 ↔ x = 0 := by rw [← BitVec.toNat_inj]; rfl
  rw [divLatU, if_neg hy, sigBits_eq _ n h1 (fun h => h2 (mt hx.2 h)) (fun h => h3 (hx.1 h))]

/-- Settles O19: every instruction is of a shared form, and its operation is the one of R104's table. -/
theorem integerResults : Obligations.IntegerResults := by
  unfold Obligations.IntegerResults
  intro s d a b w
  refine ⟨fun h => ?two, fun h => (exec_sel ..).trans (alu3_ready h), fun h => ?one, fun h => ?division⟩
  case two =>
    have lt (y : Word) : y.toNat % 64 < 64 := Nat.mod_lt _ (by decide)
    refine ⟨(exec_add ..).trans (alu2_value h rfl),
      (exec_sub ..).trans (alu2_value h rfl),
      (exec_and ..).trans (alu2_value h rfl),
      (exec_or ..).trans (alu2_value h rfl),
      (exec_xor ..).trans (alu2_value h rfl),
      (exec_andn ..).trans (alu2_value h rfl),
      (exec_shl ..).trans (alu2_value h ?shl),
      (exec_shr ..).trans (alu2_value h ?shr),
      (exec_sar ..).trans (alu2_value h ?sar),
      (exec_rol ..).trans (alu2_value h ?rol),
      (exec_ror ..).trans (alu2_value h ?ror),
      (exec_slt ..).trans (alu2_value h (slt_eq _ _)),
      (exec_sltu ..).trans (alu2_value h (ult_eq _ _)),
      (exec_seq ..).trans (alu2_value h (beq_eq _ _)),
      (exec_min ..).trans (alu2_value h (min_eq _ _)),
      (exec_max ..).trans (alu2_value h (max_eq _ _)),
      (exec_minu ..).trans (alu2_value h (minu_eq _ _)),
      (exec_maxu ..).trans (alu2_value h (maxu_eq _ _)),
      (exec_mul ..).trans (alu2_value h (mul_eq _ _)),
      (exec_mulh ..).trans (alu2_value h (mulhS_eq _ _)),
      (exec_mulhu ..).trans (alu2_value h (mulhU_eq _ _)),
      (exec_addw ..).trans (alu2_value h (sextW32_eq _)),
      (exec_subw ..).trans (alu2_value h (sextW32_eq _)),
      (exec_mulw ..).trans (alu2_value h ?mulw)⟩
    case shl => rw [shAmt_eq, shl_eq]
    case shr => rw [shAmt_eq, shr_eq]
    case sar => rw [shAmt_eq, sar_eq]
    case rol => rw [shAmt_eq, rol_eq _ _ (lt _)]
    case ror => rw [shAmt_eq, ror_eq _ _ (lt _)]
    case mulw => rw [sextW32_eq, setWidth32_mul]
  case one =>
    exact ⟨fun n hn h1 h2 => (exec_clz ..).trans (alu1_value h (clz64_eq _ n hn h1 h2)),
      fun n hn h1 h2 => (exec_ctz ..).trans (alu1_value h (ctz64_eq _ n hn h1 h2)),
      (exec_popc ..).trans (alu1_value h (popc64_eq _)),
      ⟨_, brev64_getLsbD _, (exec_brev ..).trans (alu1_value h rfl)⟩,
      (exec_sextB ..).trans (alu1_value h (congrArg sext (extractLsb'_zero 8 _))),
      (exec_sextH ..).trans (alu1_value h (congrArg sext (extractLsb'_zero 16 _))),
      (exec_sextW ..).trans (alu1_value h (sextW32_eq _)),
      (exec_zextW ..).trans (alu1_value h (congrArg zext (extractLsb'_zero 32 _)))⟩
  case division =>
    refine ⟨fun hy => ⟨?_, ?_, ?_, ?_⟩, fun n hy h1 h2 h3 => ⟨?_, ?_⟩, fun n hy h1 h2 h3 => ⟨?_, ?_⟩⟩
    · exact (exec_div ..).trans (aluDiv_value h (if_pos hy) (if_pos hy))
    · exact (exec_divu ..).trans (aluDiv_value h (if_pos hy) (if_pos hy))
    · exact (exec_rem ..).trans (aluDiv_value h (if_pos hy) (if_pos hy))
    · exact (exec_remu ..).trans (aluDiv_value h (if_pos hy) (if_pos hy))
    · exact (exec_div ..).trans (aluDiv_value h (divLatS_eq hy h1 h2 h3) (divS_eq _ _ hy))
    · exact (exec_rem ..).trans (aluDiv_value h (divLatS_eq hy h1 h2 h3) (by rw [remS_eq _ _ hy, divS_eq _ _ hy]))
    · exact (exec_divu ..).trans (aluDiv_value h (divLatU_eq hy h1 h2 h3) (divU_eq _ _ hy))
    · exact (exec_remu ..).trans (aluDiv_value h (divLatU_eq hy h1 h2 h3) (by rw [remU_eq _ _ hy, divU_eq _ _ hy]))

end Sys2Proof.Machine

end

section
/-!
The immediate forms, the shifts by an immediate, LUI and ADR, and the bit fields.
-/

namespace Sys2Proof.Machine

open Sys2Proof

/-! ### Immediates (R105, R107) -/

theorem toInt_sext {n : Nat} (i : BitVec n) (h : n ≤ 64) : (sext i).toInt = i.toInt := BitVec.toInt_signExtend_of_le h

theorem sext_eq_ofInt {n : Nat} (i : BitVec n) (h : n ≤ 64) : sext i = BitVec.ofInt 64 i.toInt := by
  rw [← toInt_sext i h, BitVec.ofInt_toInt]

theorem slti_eq (x : Word) (i : BitVec 13) : ofBool (x.slt (sext i)) = if x.toInt < i.toInt then 1 else 0 := by
  rw [slt_eq, toInt_sext i (by decide)]

theorem lui_eq (u : BitVec 18) : sext u <<< 13 = BitVec.ofInt 64 (u.toInt * 2 ^ 13) := by
  rw [BitVec.ofInt_mul, ← sext_eq_ofInt u (by decide), BitVec.shiftLeft_eq_mul_twoPow]
  rfl

theorem adr_eq (pc : Word) (u : BitVec 18) : pc + sext u * 4 = BitVec.ofInt 64 (pc.toInt + u.toInt * 4) := by
  rw [BitVec.ofInt_add, BitVec.ofInt_mul, BitVec.ofInt_toInt, ← sext_eq_ofInt u (by decide)]
  rfl

/-! ### Bit fields (R108) -/

theorem lowBits_getLsbD (n : Nat) (x : Word) (hn : n ≤ 64) (j : Nat) : (lowBits n x).getLsbD j = (x.getLsbD j && decide (j < n)) := by
  simp only [lowBits, BitVec.getLsbD_and, BitVec.getLsbD_ushiftRight, BitVec.getLsbD_allOnes]
  congr 2
  exact propext (by omega)

theorem lowBits_eq (n : Nat) (x : Word) (hn : n ≤ 64) : lowBits n x = BitVec.ofNat 64 (x.toNat % 2 ^ n) := by
  apply BitVec.eq_of_getLsbD_eq
  intro j hj
  rw [lowBits_getLsbD n x hn, BitVec.getLsbD_ofNat, Nat.testBit_mod_two_pow]
  simp [hj, BitVec.getLsbD, Bool.and_comm]

theorem fieldU_eq (p : BitVec 6) (l : BitVec 5) (x : Word) :
    fieldU p l x = BitVec.ofNat 64 (x.toNat / 2 ^ p.toNat % 2 ^ (l.toNat + 1)) := by
  have := l.isLt
  rw [fieldU, lowBits_eq _ _ (by omega), BitVec.toNat_ushiftRight, Nat.shiftRight_eq_div_pow]

/-- A signed field is its bits sign-extended. -/
theorem fieldS_eq_sext (p : BitVec 6) (l : BitVec 5) (x : Word) : fieldS p l x = sext ((x >>> p.toNat).setWidth (l.toNat + 1)) := by
  have := l.isLt
  apply BitVec.eq_of_getLsbD_eq
  intro j hj
  simp only [fieldS, sext, BitVec.getLsbD_sshiftRight, BitVec.getLsbD_signExtend, BitVec.getLsbD_shiftLeft, BitVec.getLsbD_setWidth,
    BitVec.msb_eq_getLsbD_last, hj]
  by_cases hl : j < l.toNat + 1
  · simp [hl, show 63 - l.toNat + j < 64 by omega, show ¬ 64 ≤ j by omega]
  · simp [hl, show ¬ 63 - l.toNat + j < 64 by omega, show ¬ 64 ≤ j by omega, show ¬ 63 < 63 - l.toNat by omega,
      show 63 - (63 - l.toNat) = l.toNat by omega]

theorem fieldS_eq (p : BitVec 6) (l : BitVec 5) (x : Word) :
    let f := x.toNat / 2 ^ p.toNat % 2 ^ (l.toNat + 1)
    fieldS p l x = BitVec.ofInt 64 (if f < 2 ^ l.toNat then (f : Int) else (f : Int) - 2 ^ (l.toNat + 1)) := by
  have := l.isLt
  have hf : ((x >>> p.toNat).setWidth (l.toNat + 1)).toNat = x.toNat / 2 ^ p.toNat % 2 ^ (l.toNat + 1) := by
    rw [BitVec.toNat_setWidth, BitVec.toNat_ushiftRight, Nat.shiftRight_eq_div_pow]
  intro f
  rw [fieldS_eq_sext, sext_eq_ofInt _ (by omega), BitVec.toInt_eq_toNat_cond, hf]
  congr 1
  have h2 : 2 * f < 2 ^ (l.toNat + 1) ↔ f < 2 ^ l.toNat := by rw [Nat.pow_succ]; omega
  simp only [h2, f]
  push_cast
  rfl

theorem fieldIns_getLsbD (p : BitVec 6) (l : BitVec 5) (x v : Word) (j : Nat) (hj : j < 64) :
    (fieldIns p l x v).getLsbD j =
      if p.toNat ≤ j ∧ j < p.toNat + l.toNat + 1 then x.getLsbD (j - p.toNat) else v.getLsbD j := by
  have := l.isLt
  simp only [fieldIns, BitVec.getLsbD_or, BitVec.getLsbD_and, BitVec.getLsbD_not, BitVec.getLsbD_shiftLeft, hj,
    lowBits_getLsbD _ _ (show l.toNat + 1 ≤ 64 by omega), BitVec.getLsbD_allOnes]
  by_cases h1 : p.toNat ≤ j <;> by_cases h2 : j < p.toNat + l.toNat + 1
  · simp [h1, h2, Nat.not_lt.2 h1, show j - p.toNat < l.toNat + 1 by omega, show j - p.toNat < 64 by omega]
  · simp [h1, h2, Nat.not_lt.2 h1, show ¬ j - p.toNat < l.toNat + 1 by omega]
  · simp [h1, Nat.not_le.1 h1]
  · simp [h1, Nat.not_le.1 h1]

/-- Settles O20: the immediate forms are the shared ones with an immediate, and the fields are read bit by bit. -/
theorem immediateResults : Obligations.ImmediateResults := by
  unfold Obligations.ImmediateResults
  intro s d a i n pos len u w
  refine ⟨fun h => ?_, fun h _ => ?_, fun h => ?_⟩
  · exact ⟨(exec_addi ..).trans (alu1_value h rfl), (exec_andi ..).trans (alu1_value h rfl), (exec_ori ..).trans (alu1_value h rfl),
      (exec_xori ..).trans (alu1_value h rfl), (exec_slti ..).trans (alu1_value h (slti_eq _ i)),
      (exec_sltiu ..).trans (alu1_value h (ult_eq _ _)), (exec_shli ..).trans (alu1_value h (shl_eq _ _)),
      (exec_shri ..).trans (alu1_value h (shr_eq _ _)), (exec_sari ..).trans (alu1_value h (sar_eq _ _)),
      (exec_roli ..).trans (alu1_value h (by rw [rol_eq _ _ n.isLt]; simp [← BitVec.toNat_inj])),
      fun _ => ⟨(exec_extu ..).trans (alu1_value h (fieldU_eq pos len _)), (exec_exts ..).trans (alu1_value h (fieldS_eq pos len _))⟩⟩
  · refine ⟨fieldIns pos len (s.rdA a) (s.rdB a d), ?_, fieldIns_getLsbD pos len _ _⟩
    rw [exec_ins, execIns, issueThen_clear _ _ _ _ h.1, destThen_ok _ _ _ h.2, resultOf]
  · exact ⟨(exec_lui ..).trans (alu0_value h (lui_eq u)), (exec_adr ..).trans (alu0_value h (adr_eq _ u))⟩

end Sys2Proof.Machine

end

section
/-!
What comes before an instruction and what its end does: the cases of a hazard, the privilege checks, and the frame of a completed instruction.
-/

namespace Sys2Proof.Machine

open Sys2Proof

/-! ### Ports as registers (R41) -/

theorem isPort_iff (r : Reg) : isPort r = true ↔ 28 ≤ r.toNat := by simp [isPort]

theorem isPort_false_iff (r : Reg) : isPort r = false ↔ r.toNat < 28 := by simp [isPort]

theorem countReg_eq_count (rs : List Reg) (r : Reg) : countReg rs r = rs.count r := by
  simp [countReg, List.count, List.countP_eq_length_filter]

/-! ### The cases of a hazard (R46, R61, R95, R96) -/

theorem awaits_iff (s : State) (r : Reg) :
    s.awaits r = true ↔ r ≠ 0 ∧ r.toNat < 28 ∧
      ((∃ e ∈ s.me.varRes, e.reg = r) ∨ (∃ h ∈ s.me.ring, h.reg = r) ∨ (∃ q ∈ s.reqs, q.ctx = s.cur ∧ q.dest = r ∧ q.drop = false)) := by
  simp [State.awaits, isPort_false_iff, and_assoc, or_assoc]

theorem portsReady_false_iff (s : State) (rs : List Reg) :
    s.portsReady rs = false ↔ ∃ r ∈ rs, 28 ≤ r.toNat ∧ (s.mine.port (r.toNat - 28)).length < rs.count r := by
  simp [State.portsReady, isPort_iff, countReg_eq_count, portNo]

/-- An instruction is held where a register awaits its result or a port has too few words, and only there. -/
theorem hazard_hold_iff (rs ds : List Reg) (s : State) :
    hazard rs ds s = .hold ↔ (∃ r ∈ rs ++ ds, s.awaits r = true) ∨ s.portsReady rs = false := by
  rw [← List.any_eq_true]
  unfold hazard
  split
  next h => simp [h]
  next h =>
    cases hp : s.portsReady rs with
    | false => simp
    | true =>
      simp only [Bool.not_true, Bool.false_eq_true, if_false, h]
      split <;> [simp; (split <;> simp)]

/-- The result of a register that is in flight and visible first. -/
theorem stalled_eq_some {s : State} {r : Reg} {e : Inflight} (h : s.stalled r = some e) :
    (r ≠ 0 ∧ r.toNat < 28) ∧ e ∈ s.me.inflight ∧ e.reg = r := by
  unfold State.stalled at h
  split at h
  · cases h
  next hr =>
    rw [not_or, Bool.not_eq_true, isPort_false_iff] at hr
    exact ⟨hr, List.mem_of_find?_eq_some h, by simpa using List.find?_some h⟩

theorem stalled_eq_none_iff (s : State) (r : Reg) :
    s.stalled r = none ↔ ¬ (r ≠ 0 ∧ r.toNat < 28 ∧ ∃ e ∈ s.me.inflight, e.reg = r) := by
  unfold State.stalled
  split
  next hr =>
    have hr : r = 0 ∨ ¬ r.toNat < 28 := by simpa [isPort_iff] using hr
    simp only [true_iff]
    rintro ⟨h0, hp, -⟩
    exact hr.elim h0 (· hp)
  next hr =>
    rw [not_or, Bool.not_eq_true, isPort_false_iff] at hr
    simp [List.find?_eq_none, hr.2, show r ≠ 0#5 from hr.1]

/-- Past the holds, the first of the stalled registers traps STALLSHORT under the checking scoreboard, then the first of the poisoned sources
traps POISON. -/
theorem hazard_of_not_hold {rs ds : List Reg} {s : State} (h : hazard rs ds s ≠ .hold) :
    hazard rs ds s =
      match (if s.me.chk then (rs ++ ds).findSome? s.stalled else none) with
      | some e => .trap (.mk' cSTALLSHORT e.pc)
      | none =>
        match rs.find? (fun r => s.me.isPoisoned r && r != 0 && !isPort r) with
        | some r => .trap ⟨cPOISON, (s.me.prec[r.toNat]?.getD (0, 0)).2, some (s.me.prec[r.toNat]?.getD (0, 0)).1, false⟩
        | none => .clear := by
  rw [Ne, hazard_hold_iff, not_or, ← List.any_eq_true, Bool.not_eq_true, Bool.not_eq_false] at h
  obtain ⟨hw, hp⟩ := h
  simp only [hazard, hw, hp, Bool.not_true, Bool.false_eq_true, if_false] <;> rfl

/-- Settles O11: the cases of a hazard in their order. -/
theorem hazardCases : Obligations.HazardCases := by
  unfold Obligations.HazardCases
  intro rs ds s waits starved flying bad held_
  have hheld : held_ ↔ hazard rs ds s = .hold := by
    rw [hazard_hold_iff, portsReady_false_iff]
    simp only [awaits_iff]
    exact Iff.rfl
  have hfly (r : Reg) : flying r ↔ s.stalled r ≠ none := by
    rw [Ne, stalled_eq_none_iff, not_not]
  have hbad (r : Reg) : bad r ↔ (s.me.isPoisoned r && r != 0 && !isPort r) = true := by
    simp only [bad, Bool.and_eq_true, bne_iff_ne, Bool.not_eq_true', isPort_false_iff]
    tauto
  have hnone (h : s.me.chk = false ∨ ¬ ∃ r ∈ rs ++ ds, flying r) :
      (if s.me.chk then (rs ++ ds).findSome? s.stalled else none) = none := by
    split
    next hc =>
      simp only [hc, Bool.true_eq_false, false_or, hfly, not_exists, not_and, not_not] at h
      exact List.findSome?_eq_none_iff.2 h
    · rfl
  rw [hheld]
  refine ⟨Iff.rfl, fun hn hc hf => ?_, fun hn hc hb => ?_, fun hn hc hb => ?_⟩ <;> rw [hazard_of_not_hold hn]
  · obtain ⟨r, hr, hf⟩ := hf
    cases hs : (rs ++ ds).findSome? s.stalled with
    | none => exact absurd (List.findSome?_eq_none_iff.1 hs r hr) ((hfly r).1 hf)
    | some e =>
      obtain ⟨q, hq, hqe⟩ := List.exists_of_findSome?_eq_some hs
      obtain ⟨-, he, her⟩ := stalled_eq_some hqe
      refine ⟨q, hq, e, he, (hfly q).2 (by simp [hqe]), her, ?_⟩
      simp [hc]
  · rw [hnone hc]
    obtain ⟨r, hr, hb⟩ := hb
    cases hs : rs.find? (fun r => s.me.isPoisoned r && r != 0 && !isPort r) with
    | none => exact absurd ((hbad r).1 hb) (List.find?_eq_none.1 hs r hr)
    | some q => exact ⟨q, List.mem_of_find?_eq_some hs, (hbad q).2 (by simpa using List.find?_some hs), rfl⟩
  · rw [hnone hc, List.find?_eq_none.2 fun r hr h => hb ⟨r, hr, (hbad r).2 h⟩]

/-! ### Holds, traps and privileges (R38, R57, R61, R138, R261) -/

/-- A route that may not be used. -/
theorem portFault_bad {s : State} {d : Reg} (hd : 28 ≤ d.toNat)
    (hr : (s.mine.qroute[d.toNat - 28]?.getD 0).getLsbD 31 = false ∨
      16 * s.ptlen ≤ ((s.mine.qroute[d.toNat - 28]?.getD 0).extractLsb' 0 15).toNat) :
    portFault s d = some (.mk' cPORTFAULT (s.mine.qroute[d.toNat - 28]?.getD 0)) := by
  unfold portFault
  rw [if_pos ((isPort_iff d).2 hd)]
  refine if_neg fun ⟨h1, h2⟩ => hr.elim (fun h => ?_) (fun h => ?_)
  · exact absurd (h1.symm.trans h) (by decide)
  · exact absurd h2 (Nat.not_lt.2 h)

/-- Settles O12: the four forms start with the checks of `issueThen`, and ADD goes on with those of its destination. -/
theorem heldAndTrappedForms : Obligations.HeldAndTrappedForms := by
  unfold Obligations.HeldAndTrappedForms
  intro d a b o z t w s r
  have form {i : Instr} {rs ds : List Reg} {k : State → Out} (h : exec i s = issueThen rs ds s k) :
      (hazard rs ds s = .hold → exec i s = .next (held s)) ∧ (∀ e, hazard rs ds s = .trap e → exec i s = trap e s) :=
    ⟨fun hh => h.trans (issueThen_hold _ _ _ _ hh), fun e he => h.trans (issueThen_trap _ _ _ _ _ he)⟩
  refine ⟨?_, fun hc hd hr => ?_⟩
  · simp only [List.forall_mem_cons]
    exact ⟨form (by rw [exec_add, execAdd, alu2]), form (by rw [exec_fadd, execFadd, fpu]), form (by rw [exec_ld, execLd, load]), form (exec_st
      ..), List.forall_mem_nil _⟩
  · rw [exec_add, execAdd, alu2, issueThen_clear _ _ _ _ hc, destThen_bad _ _ _ _ (portFault_bad hd hr)]

/-- Settles O10: the check of the privilege, or of the context, comes first in each of these. -/
theorem privilegedInstructions : Obligations.PrivilegedInstructions := by
  unfold Obligations.PrivilegedInstructions
  intro d a b w s word
  refine ⟨fun hu => ?_, fun hc => ?_, fun hc => (exec_hexit ..).trans (if_pos hc)⟩
  · have low (v : IWord) (k : State → Out) : privThen 1 v s k = trapAt cPRIV (zext v) s := privThen_low 1 v s k (by simp [hu])
    simp only [List.forall_mem_cons]
    exact ⟨(exec_rpop ..).trans (low _ _), (exec_rfix ..).trans (low _ _), (exec_rreplay ..).trans (low _ _), (exec_rkill ..).trans (low _ _),
      (exec_eret ..).trans (low _ _), (exec_halt ..).trans (low _ _), (exec_gang ..).trans (low _ _), (exec_tlbiL ..).trans (low _ _),
      (exec_tlbiB ..).trans (low _ _), List.forall_mem_nil _⟩
  · have helper (v : IWord) (k : State → Out) : ctx0Then v s k = trapAt cILLEGAL (zext v) s := ctx0Then_helper v s k hc
    have start (wait : Bool) (v : IWord) : hstart wait v d a b w s = trapAt cILLEGAL (zext v) s := helper v _
    simp only [List.forall_mem_cons]
    exact ⟨(exec_hstart ..).trans (start _ _), (exec_hstartNb ..).trans (start _ _), (exec_hkill ..).trans (helper _ _), (exec_gexit ..).trans
      (helper _ _), (exec_trForm ..).trans (helper _ _), (exec_trBreak ..).trans (helper _ _), (exec_trDetach ..).trans (helper _ _),
      (exec_trRejoin ..).trans (helper _ _),
      List.forall_mem_nil _⟩

/-! ### What the end of an instruction leaves of its core (R44, R101, R142, R263) -/

@[simp] theorem Core.countRecv_port (k : Core) (w : PortWord) (q : Nat) : (k.countRecv w).port q = k.port q := rfl

/-- Popping a port takes the head of it and of no other. -/
theorem Core.pop_port (k : Core) (p q : Nat) (hp : p < 4) : (k.pop p).port q = if p = q then (k.port q).drop 1 else k.port q := by
  unfold Core.pop
  split
  next h => split <;> simp_all
  next w t h =>
    rw [Core.countRecv_port]
    split
    next hq =>
      rw [← hq, h]
      simp [Core.port, hp]
    next hq => simp [Core.port, Vector.getElem?_setIfInBounds_ne hq]

theorem Core.pop_frame (k : Core) (p : Nat) :
    k.pop p = { k with ports := (k.pop p).ports, msgrecv := (k.pop p).msgrecv, recv := (k.pop p).recv } := by
  unfold Core.pop
  split <;> rfl

/-- A word taken from a port counts as received. -/
theorem Core.pop_msgrecv (k : Core) (p : Nat) (h : k.port p ≠ []) : (k.pop p).msgrecv = k.msgrecv + 1 := by
  unfold Core.pop
  split
  next e => exact absurd e h
  · rfl

theorem popPorts_cons (r : Reg) (rs : List Reg) (s : State) :
    popPorts (r :: rs) s = popPorts rs (if isPort r then s.setMine (s.mine.pop (portNo r)) else s) := rfl

/-- Each port read loses its words from the head. -/
theorem popPorts_port (rs : List Reg) (s : State) (q : Nat) (hq : q < 4) :
    (popPorts rs s).mine.port q = (s.mine.port q).drop (rs.count (BitVec.ofNat 5 (28 + q))) := by
  induction rs generalizing s with
  | nil => rfl
  | cons r t ih =>
    have hr : (r == BitVec.ofNat 5 (28 + q)) = (isPort r && portNo r == q) := by
      rw [Bool.eq_iff_iff]
      simp only [beq_iff_eq, Bool.and_eq_true, isPort_iff, portNo, ← BitVec.toNat_inj, BitVec.toNat_ofNat]
      omega
    rw [popPorts_cons, ih, List.count_cons, hr]
    split
    next hp =>
      have hlt : portNo r < 4 := by
        have := r.isLt
        simp only [portNo]
        omega
      rw [State.mine_setMine, Core.pop_port _ _ _ hlt]
      by_cases hq : portNo r = q <;> simp [hp, hq, Nat.add_comm]
    next hp => simp [hp]

/-- Reading ports changes, of its core, what they hold and how many words were received. -/
theorem popPorts_mine (rs : List Reg) (s : State) :
    (popPorts rs s).mine = { s.mine with
      ports := (popPorts rs s).mine.ports, msgrecv := (popPorts rs s).mine.msgrecv, recv := (popPorts rs s).mine.recv } := by
  induction rs generalizing s with
  | nil => rfl
  | cons r t ih =>
    rw [popPorts_cons]
    split
    · rw [ih, State.mine_setMine, Core.pop_frame]
    · exact ih s

/-- The context set again in its core replaces the one set before. -/
theorem Core.setCtx_setCtx (k : Core) (i : Nat) (x y : Ctx) : (k.setCtx i x).setCtx i y = k.setCtx i y := by
  simp [Core.setCtx]

/-- A core as the issue of an instruction leaves it, but for the context that issues (R142). -/
def Core.afterIssue (k : Core) (cycle ctx : Nat) : Core :=
  { k with nextIssue := cycle + 1, rr := ctx, issueSeq := k.issueSeq + 1
           ctxs := k.ctxs.map (fun x => { x with yieldTo := x.yieldTo.filter (fun i => i != ctx) }) }

theorem slotTaken_mine (s : State) :
    (slotTaken s).mine = { s.mine with
      nextIssue := s.cycle + 1, rr := s.cur.ctx
      ctxs := s.mine.ctxs.map (fun x => { x with yieldTo := x.yieldTo.filter (fun i => i != s.cur.ctx) }) } := State.mine_setMine ..

theorem issued_mine (w : BitVec 3) (s : State) :
    ∃ x, (issued w s).mine = (s.mine.afterIssue s.cycle s.cur.ctx).setCtx s.cur.ctx x := by
  unfold issued
  rw [State.mine_setMe, State.mine_setMine, slotTaken_mine]
  exact ⟨_, rfl⟩

/-- The core of the executing context at the end of its instruction. -/
theorem retireAt_mine (w : BitVec 3) (f : Ctx → Ctx) (s : State) :
    ∃ x, (retireAt w f s).mine = (s.mine.afterIssue s.cycle s.cur.ctx).setCtx s.cur.ctx x := by
  obtain ⟨y, hy⟩ := issued_mine w s
  unfold retireAt
  show ∃ x, ((issued w s).setMe _).mine = _
  rw [State.mine_setMe, hy, issued_cur, Core.setCtx_setCtx]
  exact ⟨_, rfl⟩

theorem retireAt_core_ne (w : BitVec 3) (f : Ctx → Ctx) (s : State) (n : Nat) (h : n ≠ s.cur.core) : (retireAt w f s).core n = s.core n :=
  (State.core_setMe_ne _ _ _ (by simpa using h)).trans (issued_core_ne w s n h)

/-- Every other context of the core stays as it was, but that it waits no longer for the one that has issued. -/
theorem retireAt_ctx_ne (w : BitVec 3) (f : Ctx → Ctx) (s : State) (c : CtxId) (h : c ≠ s.cur) :
    { (retireAt w f s).ctx c with yieldTo := (s.ctx c).yieldTo } = s.ctx c := by
  by_cases hc : c.core = s.cur.core
  · have hi : c.ctx ≠ s.cur.ctx := fun g => h (by cases c; simp_all)
    obtain ⟨x, hx⟩ := retireAt_mine w f s
    have : (retireAt w f s).ctx c = ((s.mine.afterIssue s.cycle s.cur.ctx).setCtx s.cur.ctx x).ctx c.ctx := by
      rw [← hx, State.ctx, State.mine, retireAt_cur, hc]
    rw [this, Core.ctx_setCtx_ne _ _ _ _ hi]
    have : s.ctx c = s.mine.ctx c.ctx := by rw [State.ctx, State.mine, hc]
    rw [this]
    by_cases hlt : c.ctx < 11 <;> simp [Core.ctx, Core.afterIssue, hlt]
  · rw [State.ctx, retireAt_core_ne w f s _ hc]
    rfl

/-- Settles O13: what an issue, the ports that were read and the advance of the PC each change. -/
theorem retireEffect : Obligations.RetireEffect := by
  unfold Obligations.RetireEffect
  intro w rs s hlt t
  have hme := finish_me w rs s hlt
  obtain ⟨x, hx⟩ := retireAt_mine w Ctx.advance (popPorts rs s)
  rw [popPorts_cycle, popPorts_cur] at hx
  refine ⟨hme, fun hf => ?_, ?_, ?_, ?_, rfl, fun q hq => ?_, fun q hq hr hp => ?_, ?_, fun n hn => finish_core_ne w rs s n hn, ?_, fun c hc => ?_⟩
  · rw [hme]
    simp [Ctx.advance, hf]
  · exact congrArg Core.nextIssue hx
  · exact congrArg Core.rr hx
  · exact (congrArg Core.issueSeq hx).trans (by rw [popPorts_mine]; rfl)
  · exact (congrArg (Core.port · q) hx).trans (popPorts_port rs s q hq)
  · refine (congrArg Core.msgrecv hx).trans ?_
    subst hr
    have hq28 : isPort (BitVec.ofNat 5 (28 + q)) = true := by
      rw [isPort_iff, BitVec.toNat_ofNat]
      omega
    have hno : portNo (BitVec.ofNat 5 (28 + q)) = q := by
      rw [portNo, BitVec.toNat_ofNat]
      omega
    show (popPorts _ s).mine.msgrecv = _
    rw [popPorts_cons, if_pos hq28, hno]
    exact (congrArg Core.msgrecv (State.mine_setMine ..)).trans (Core.pop_msgrecv _ _ hp)
  · exact congrArg (fun u : State => { u with cores := s.cores, note := s.note }) (finish_frame w rs s)
  · refine (congrArg (fun k : Core => ({ k with
      ctxs := s.mine.ctxs, nextIssue := s.mine.nextIssue, rr := s.mine.rr, issueSeq := s.mine.issueSeq, ports := s.mine.ports
      msgrecv := s.mine.msgrecv, recv := s.mine.recv } : Core)) hx).trans ?_
    rw [popPorts_mine]
    rfl
  · have := retireAt_ctx_ne w Ctx.advance (popPorts rs s) c (by simpa using hc)
    rwa [popPorts_ctx] at this

end Sys2Proof.Machine
end

section
/-!
The machine right after reset: every partition, cluster, core and context reads as its reset value.
-/

namespace Sys2Proof.Machine

open Sys2Proof

theorem part_reset (p : Nat) : State.reset.part p = Part.reset := by
  by_cases h : p < 64 <;> simp [State.part, State.reset, h]

theorem core_reset (n : Nat) : State.reset.core n = Core.reset := rfl

theorem ctx_reset (c : CtxId) : State.reset.ctx c = Ctx.reset := by
  by_cases h : c.ctx < 11 <;> simp [State.ctx, core_reset, Core.ctx, Core.reset, h]

theorem reg_reset (r : Reg) : Ctx.reset.reg r = 0 := by
  have := r.isLt
  by_cases h : r = 0 <;> simp [Ctx.reg, Ctx.reset, this]

/-- Settles O16, value by value. -/
theorem resetState : Obligations.ResetState := by
  unfold Obligations.ResetState
  intro s
  refine ⟨fun p _ => ?_, fun c _ => ?_, fun n => ?_, fun r => ⟨rfl, rfl⟩, rfl, rfl, fun k hk => ?_, rfl, rfl, rfl, rfl, rfl, rfl⟩
  · rw [part_reset]
    exact ⟨rfl, rfl, rfl, rfl⟩
  · rw [ctx_reset]
    exact ⟨rfl, reg_reset, rfl, rfl, rfl, fun k hk => by simp [Ctx.reset, hk], rfl, rfl⟩
  · rw [core_reset]
    exact ⟨fun i hi => by simp [Core.slot, Core.reset, hi], rfl, rfl, rfl, rfl,
      fun q => by by_cases h : q < 4 <;> simp [Core.port, Core.reset, h], rfl, rfl⟩
  · simp [s, State.reset, Fabric.reset, hk]

end Sys2Proof.Machine

end

section
/-!
Results on their way to registers and ports: how they are ordered, what becomes of one that is written, and the events that write them.
-/

namespace Sys2Proof.Machine

open Sys2Proof

/-! ### The order of results in flight (R44, R46) -/

/-- A result is put behind those that become visible no later and before those that become visible later. -/
theorem insertInflight_split (l : List Inflight) (e : Inflight) (h : l.Pairwise (fun x y => x.visibleAt ≤ y.visibleAt)) :
    ∃ l₁ l₂, l = l₁ ++ l₂ ∧ insertInflight l e = l₁ ++ e :: l₂ ∧ (∀ x ∈ l₁, x.visibleAt ≤ e.visibleAt) ∧
      (∀ x ∈ l₂, e.visibleAt < x.visibleAt) := by
  induction l with
  | nil => exact ⟨[], [], rfl, rfl, nofun, nofun⟩
  | cons y t ih =>
    obtain ⟨hy, ht⟩ := List.pairwise_cons.1 h
    unfold insertInflight
    split
    next hlt =>
      refine ⟨[], y :: t, rfl, rfl, nofun, List.forall_mem_cons.2 ⟨hlt, fun x hx => ?_⟩⟩
      exact Nat.lt_of_lt_of_le hlt (hy x hx)
    next hle =>
      obtain ⟨l₁, l₂, rfl, he, h1, h2⟩ := ih ht
      exact ⟨y :: l₁, l₂, rfl, by rw [he]; rfl, List.forall_mem_cons.2 ⟨Nat.not_lt.1 hle, h1⟩, h2⟩

/-- The first element of an ordered list that meets a test comes before every other one that does. -/
theorem find?_pairwise {α : Type} {R : α → α → Prop} {p : α → Bool} {l : List α} (hR : l.Pairwise R) {a b : α}
    (ha : l.find? p = some a) (hb : b ∈ l) (hp : p b = true) : a = b ∨ R a b := by
  induction l with
  | nil => cases hb
  | cons x t ih =>
    obtain ⟨hx, ht⟩ := List.pairwise_cons.1 hR
    rw [List.find?_cons] at ha
    split at ha
    · obtain rfl := Option.some.inj ha
      exact (List.mem_cons.1 hb).imp Eq.symm (hx b)
    next hn =>
      refine ih ht ha ((List.mem_cons.1 hb).resolve_left ?_)
      rintro rfl
      rw [hp] at hn
      cases hn

/-! ### What becomes of a result that is written (R41, R75, R95, R96) -/

/-- The word that a context sends on a route of its core (R95, R260). -/
def sentWord (s : State) (c : CtxId) (q : Nat) (v : Word) (kept : Option Word) : PortWord :=
  let k := s.core c.core
  let route := kept.getD (k.qroute[q]?.getD 0)
  let p := s.partOfRank (rankOf c.core)
  ⟨s.nextId, c.core, q, (s.part p).coreNo (route.extractLsb' 0 15).toNat, (route.extractLsb' 16 2).toNat, k.launch.setWidth 32, p, v,
    k.doms, (64, 64), false⟩

/-- The word that is sent joins those of its context, and nothing else of the context changes. -/
theorem sendWord_ctx (s : State) (c : CtxId) (q : Nat) (v : Word) (kept : Option Word) (hc : c.ctx < 11) :
    (sendWord s c q v kept).ctx c = { s.ctx c with sends := (s.ctx c).sends ++ [sentWord s c q v kept] } := by
  have same (t : State) (k : Core) (hk : k.ctxs = (s.core c.core).ctxs) : (t.setCore c.core k).ctx c = s.ctx c := by
    simp [State.ctx, Core.ctx, hk]
  unfold sendWord
  dsimp only
  rw [State.ctx_setCtx _ _ _ hc, same]
  · rfl
  · rfl

theorem sentWord_setCtx (s : State) (c : CtxId) (x : Ctx) (q : Nat) (v : Word) (kept : Option Word) :
    sentWord (s.setCtx c x) c q v kept = sentWord s c q v kept := by
  have : (s.setCtx c x).core c.core = (s.core c.core).setCtx c.ctx x := State.core_setCore ..
  simp only [sentWord, this]
  rfl

theorem writeResult_ctx_reg (s : State) (c : CtxId) (r : Reg) (v : Word) (g : BitVec 8) (k : Option Word) (hc : c.ctx < 11)
    (hr : r.toNat < 28) :
    (writeResult s c r v g k).ctx c = ({ s.ctx c with fflags := (s.ctx c).fflags ||| g } : Ctx).setReg r v := by
  unfold writeResult
  rw [if_neg (by simpa [isPort_iff] using hr), State.ctx_setCtx _ _ _ hc, State.ctx_setCtx _ _ _ hc]

theorem writeResult_ctx_port (s : State) (c : CtxId) (r : Reg) (v : Word) (g : BitVec 8) (k : Option Word) (hc : c.ctx < 11)
    (hr : 28 ≤ r.toNat) :
    (writeResult s c r v g k).ctx c = { s.ctx c with
      fflags := (s.ctx c).fflags ||| g, sends := (s.ctx c).sends ++ [sentWord s c (r.toNat - 28) v k] } := by
  unfold writeResult
  dsimp only
  rw [if_pos ((isPort_iff r).2 hr), sendWord_ctx _ _ _ _ _ hc, sentWord_setCtx, State.ctx_setCtx _ _ _ hc]
  rfl

/-- A written result leaves at most one word of its context that no router has accepted, where the context may produce it. -/
theorem writeResult_sends_le (s : State) (c : CtxId) (r : Reg) (v : Word) (g : BitVec 8) (k : Option Word) (hc : c.ctx < 11)
    (hr : (s.ctx c).mayProduce r = true) (h : (s.ctx c).sends.length ≤ 1) : ((writeResult s c r v g k).ctx c).sends.length ≤ 1 := by
  by_cases hp : r.toNat < 28
  · rw [writeResult_ctx_reg s c r v g k hc hp, Ctx.setReg_sends]
    exact h
  · have hnil : (s.ctx c).sends = [] := by
      simpa [Ctx.mayProduce, (isPort_iff r).2 (Nat.not_lt.1 hp)] using hr
    rw [writeResult_ctx_port s c r v g k hc (Nat.not_lt.1 hp), hnil]
    exact Nat.le_refl 1

theorem writeResult_fflags (s : State) (c : CtxId) (r : Reg) (v : Word) (g : BitVec 8) (k : Option Word) (hc : c.ctx < 11) :
    ((writeResult s c r v g k).ctx c).fflags = (s.ctx c).fflags ||| g := by
  by_cases hp : r.toNat < 28
  · rw [writeResult_ctx_reg s c r v g k hc hp, Ctx.setReg_fflags]
  · rw [writeResult_ctx_port s c r v g k hc (Nat.not_lt.1 hp)]

/-- The other registers keep their values and their poison bits. -/
theorem Ctx.isPoisoned_setReg_ne (x : Ctx) (r u : Reg) (v : Word) (h : u ≠ r) : (x.setReg r v).isPoisoned u = x.isPoisoned u := by
  have : r.toNat ≠ u.toNat := fun e => h (BitVec.eq_of_toNat_eq e.symm)
  unfold Ctx.setReg
  split
  · rfl
  · have hu := u.isLt
    simp [Ctx.isPoisoned, hu]
    omega

/-! ### Results that are produced in their order (R44, R95, R103) -/

theorem mayProduce_iff (x : Ctx) (r : Reg) : x.mayProduce r = true ↔ r.toNat < 28 ∨ x.sends = [] := by
  simp [Ctx.mayProduce, isPort_false_iff]

theorem dueFixed_some {x : Ctx} {cycle : Nat} {e : Inflight} (h : x.dueFixed cycle = some e) :
    e ∈ x.inflight ∧ e.visibleAt ≤ cycle ∧ x.mayProduce e.reg = true :=
  ⟨List.mem_of_find?_eq_some h, by simpa using List.find?_some h⟩

theorem dueVar_some {x : Ctx} {cycle : Nat} {v : VarResult} (h : x.dueVar cycle = some v) :
    v ∈ x.varRes ∧ v.due ≤ cycle ∧ x.mayProduce v.reg = true :=
  ⟨List.mem_of_find?_eq_some h, by simpa using List.find?_some h⟩

theorem dueFixed_none_iff (x : Ctx) (cycle : Nat) :
    x.dueFixed cycle = none ↔ ∀ e ∈ x.inflight, e.visibleAt ≤ cycle → ¬ x.mayProduce e.reg = true := by
  simp [Ctx.dueFixed, List.find?_eq_none]

theorem dueVar_none_iff (x : Ctx) (cycle : Nat) :
    x.dueVar cycle = none ↔ ∀ v ∈ x.varRes, v.due ≤ cycle → ¬ x.mayProduce v.reg = true := by
  simp [Ctx.dueVar, List.find?_eq_none]

/-- Of a list in the order in which results become visible, no due one comes before the one that is next. -/
theorem dueFixed_first {x : Ctx} {cycle : Nat} {e e' : Inflight} (h : x.dueFixed cycle = some e)
    (ho : x.inflight.Pairwise (fun e e' => e.visibleAt ≤ e'.visibleAt)) (he : e' ∈ x.inflight) (hd : e'.visibleAt ≤ cycle)
    (hm : x.mayProduce e'.reg = true) : e.visibleAt ≤ e'.visibleAt :=
  (find?_pairwise ho h he (by simp [hd, hm])).elim (fun h => h ▸ Nat.le_refl _) id

theorem dueVar_first {x : Ctx} {cycle : Nat} {v v' : VarResult} (h : x.dueVar cycle = some v)
    (ho : x.varRes.Pairwise (fun v v' => v.due ≤ v'.due)) (hv : v' ∈ x.varRes) (hd : v'.due ≤ cycle)
    (hm : x.mayProduce v'.reg = true) : v.due ≤ v'.due :=
  (find?_pairwise ho h hv (by simp [hd, hm])).elim (fun h => h ▸ Nat.le_refl _) id

theorem fixedFirst_le {e : Inflight} {v : VarResult} (h : fixedFirst e v = true) : e.visibleAt ≤ v.due := by
  simp [fixedFirst] at h
  omega

theorem le_of_not_fixedFirst {e : Inflight} {v : VarResult} (h : fixedFirst e v ≠ true) : v.due ≤ e.visibleAt := by
  simp [fixedFirst] at h
  omega

/-- A fixed-latency result is next where it is the first of its kind and no variable-latency one comes before it. -/
theorem nextDue_fixed_iff (x : Ctx) (cycle : Nat) (e : Inflight) :
    x.nextDue cycle = some (.inl e) ↔ x.dueFixed cycle = some e ∧ ∀ v, x.dueVar cycle = some v → fixedFirst e v = true := by
  unfold Ctx.nextDue
  rcases x.dueFixed cycle with _ | f <;> rcases x.dueVar cycle with _ | u <;> simp
  split
  next h => exact ⟨fun he => by cases he; exact ⟨rfl, h⟩, fun ⟨he, _⟩ => by rw [he]⟩
  next h => exact ⟨nofun, fun ⟨he, hu⟩ => absurd hu (he ▸ h)⟩

theorem nextDue_var_iff (x : Ctx) (cycle : Nat) (v : VarResult) :
    x.nextDue cycle = some (.inr v) ↔ x.dueVar cycle = some v ∧ ∀ e, x.dueFixed cycle = some e → fixedFirst e v ≠ true := by
  unfold Ctx.nextDue
  rcases x.dueFixed cycle with _ | f <;> rcases x.dueVar cycle with _ | u <;> simp
  split
  next h => exact ⟨nofun, fun ⟨he, hu⟩ => absurd (he ▸ h) (by simp [hu])⟩
  next h => exact ⟨fun he => by cases he; exact ⟨rfl, by simpa using h⟩, fun ⟨he, _⟩ => by rw [he]⟩

theorem nextDue_none_iff (x : Ctx) (cycle : Nat) : x.nextDue cycle = none ↔ x.dueFixed cycle = none ∧ x.dueVar cycle = none := by
  unfold Ctx.nextDue
  cases x.dueFixed cycle <;> cases x.dueVar cycle <;> simp
  split <;> simp

/-! ### Settling keeps the bound of sends (R95) -/

@[simp] theorem accrueAt_sends (c : CtxId) (due : Nat) (f : BitVec 8) (s : State) (hc : c.ctx < 11) :
    ((accrueAt c due f s).ctx c).sends = (s.ctx c).sends := by
  unfold accrueAt
  split
  · rfl
  · rw [State.ctx_setCtx _ _ _ hc]

theorem showFixed_sends_le {c : CtxId} {e : Inflight} {s : State} (hc : c.ctx < 11) (he : (s.ctx c).mayProduce e.reg = true)
    (h : (s.ctx c).sends.length ≤ 1) : ((showFixed c e s).ctx c).sends.length ≤ 1 := by
  have hset := State.ctx_setCtx s c { s.ctx c with inflight := (s.ctx c).inflight.erase e } hc
  unfold showFixed
  dsimp only
  split
  · exact writeResult_sends_le _ _ _ _ _ _ hc (by rw [hset]; exact he) (by rw [hset]; exact h)
  · rw [accrueAt_sends _ _ _ _ hc]
    exact writeResult_sends_le _ _ _ _ _ _ hc (by rw [hset]; exact he) (by rw [hset]; exact h)

theorem showVar_sends_le {c : CtxId} {v : VarResult} {s : State} (hc : c.ctx < 11) (hv : (s.ctx c).mayProduce v.reg = true)
    (h : (s.ctx c).sends.length ≤ 1) : ((showVar c v s).ctx c).sends.length ≤ 1 := by
  have hset := State.ctx_setCtx s c { s.ctx c with varRes := (s.ctx c).varRes.erase v } hc
  exact writeResult_sends_le _ _ _ _ _ _ hc (by rw [hset]; exact hv) (by rw [hset]; exact h)

theorem settleDue_sends_le {c : CtxId} (hc : c.ctx < 11) (n : Nat) {s : State} (h : (s.ctx c).sends.length ≤ 1) :
    ((settleDue c n s).ctx c).sends.length ≤ 1 := by
  induction n generalizing s with
  | zero => exact h
  | succ n ih =>
    unfold settleDue
    split
    · exact h
    next e he =>
      obtain ⟨-, -, hm⟩ := dueFixed_some ((nextDue_fixed_iff _ _ _).1 he).1
      exact ih (showFixed_sends_le hc hm h)
    next v hv =>
      obtain ⟨-, -, hm⟩ := dueVar_some ((nextDue_var_iff _ _ _).1 hv).1
      exact ih (showVar_sends_le hc hm h)

/-- Settles O14: a result in flight, its place in the order, and what becomes of it when it is written. -/
theorem resultsInFlight : Obligations.ResultsInFlight := by
  unfold Obligations.ResultsInFlight
  intro s hc
  refine ⟨fun lat d v g hd => ?_, fun lat v => rfl, fun h => ?_, insertInflight_split, fun r v g k => ?_⟩
  · rw [produce_me _ _ _ _ _ hc hd]
    exact ⟨rfl, rfl, rfl⟩
  · rw [State.me, settle_cur]
    exact settleDue_sends_le hc _ h
  · have hcur : (writeResult s s.cur r v g k).me = (writeResult s s.cur r v g k).ctx s.cur := by rw [State.me, writeResult_cur]
    intro t
    have hframe : ({ t with cores := s.cores, nextId := s.nextId } : State) = s :=
      congrArg (fun u : State => { u with cores := s.cores, nextId := s.nextId }) (writeResult_frame s s.cur r v g k)
    refine ⟨hcur ▸ writeResult_fflags s s.cur r v g k hc, fun h0 hr => ?_, fun u hu => ?_, ?_, fun hr => ?_, hframe⟩
    · rw [hcur, writeResult_ctx_reg s s.cur r v g k hc hr]
      have hp := (isPort_false_iff r).2 hr
      exact ⟨Ctx.reg_setReg _ r v h0 hp, Ctx.isPoisoned_setReg _ r v h0 hp, Ctx.setReg_sends ..⟩
    · rw [hcur]
      by_cases hr : r.toNat < 28
      · rw [writeResult_ctx_reg s s.cur r v g k hc hr]
        exact ⟨Ctx.reg_setReg_ne _ r u v hu, Ctx.isPoisoned_setReg_ne _ r u v hu⟩
      · rw [writeResult_ctx_port s s.cur r v g k hc (Nat.not_lt.1 hr)]
        exact ⟨rfl, rfl⟩
    · rintro rfl
      rw [hcur, writeResult_ctx_reg s s.cur 0 v g k hc (by decide)]
      exact ⟨rfl, rfl, rfl⟩
    · rw [hcur, writeResult_ctx_port s s.cur r v g k hc hr]
      exact ⟨rfl, _, rfl, rfl, rfl, rfl, rfl, rfl⟩

/-! ### The events of results and of their traps (R76, R103, R110, R149) -/

theorem oldestDeferred_append {l : List Deferred} {e : Deferred} (d : Deferred) (h : oldestDeferred l = some e) :
    oldestDeferred (l ++ [d]) = some (if d.order < e.order then d else e) := by
  unfold oldestDeferred at h ⊢
  rw [List.foldl_append, h]
  exact (apply_ite some ..).symm

/-- The oldest deferred trap of a list is one of its traps, and none is older. -/
theorem oldestDeferred_spec (l : List Deferred) (h : l ≠ []) :
    ∃ d ∈ l, oldestDeferred l = some d ∧ ∀ e ∈ l, d.order ≤ e.order := by
  induction l using List.reverseRecOn with
  | nil => exact absurd rfl h
  | append_singleton l x ih =>
    by_cases hl : l = []
    · subst hl
      exact ⟨x, by simp, rfl, by simp⟩
    · obtain ⟨d, hd, ho, hmin⟩ := ih hl
      refine ⟨_, ?_, oldestDeferred_append x ho, fun e he => ?_⟩
      · split <;> simp [hd]
      · rcases List.mem_append.1 he with he | he
        · have := hmin e he
          split <;> omega
        · obtain rfl := List.mem_singleton.1 he
          split <;> omega

theorem oldestDeferred_eq {l : List Deferred} {d : Deferred} (hd : d ∈ l) (h : ∀ e ∈ l, e ≠ d → d.order < e.order) :
    oldestDeferred l = some d := by
  obtain ⟨m, hm, ho, hmin⟩ := oldestDeferred_spec l (List.ne_nil_of_mem hd)
  have : m = d := by
    by_contra hne
    exact absurd (hmin d hd) (Nat.not_le.2 (h m hm hne))
  rw [ho, this]

/-- Settles O15: which result is next, and what each event does with it or with a trap that is due. -/
theorem resultEvents : Obligations.ResultEvents := by
  unfold Obligations.ResultEvents
  intro core ctx s hctx c x may
  have hmay (r : Reg) : may r ↔ x.mayProduce r = true := (mayProduce_iff x r).symm
  refine ⟨fun e he => ?_, fun v hv => ?_, fun hn => ?_, fun h hh hd hl hr => ?_, fun d hd ho hi ht h0 ha hk => ?_⟩
  · obtain ⟨hf, hvar⟩ := (nextDue_fixed_iff x s.cycle e).1 he
    obtain ⟨hmem, hdue, hm⟩ := dueFixed_some hf
    have hex : exec (.fixedResultVisible core ctx) s = .next (showFixed c e s) := by
      rw [exec_fixedResultVisible, execFixedResultVisible]
      simp only [show (s.ctx ⟨core, ctx⟩).nextDue s.cycle = some (.inl e) from he]
      rfl
    refine ⟨fun hp => ?_, fun hp => ?_, hmem, hdue, (hmay _).2 hm, fun hord v hv hvd hvm => ?_⟩
    · simp only [hex, showFixed, hp, if_true]
      rfl
    · simp only [hex, showFixed, hp, Bool.false_eq_true, if_false]
      rfl
    · rw [hmay] at hvm
      cases hdv : x.dueVar s.cycle with
      | none => exact absurd hvm ((dueVar_none_iff x _).1 hdv v hv hvd)
      | some u => exact Nat.le_trans (fixedFirst_le (hvar u hdv)) (dueVar_first hdv hord hv hvd hvm)
  · obtain ⟨hf, hfix⟩ := (nextDue_var_iff x s.cycle v).1 hv
    obtain ⟨hmem, hdue, hm⟩ := dueVar_some hf
    refine ⟨?_, hmem, hdue, (hmay _).2 hm, fun hord e he hed hem => ?_⟩
    · rw [exec_variableResultWrite, execVariableResultWrite]
      simp only [show (s.ctx ⟨core, ctx⟩).nextDue s.cycle = some (.inr v) from hv]
      rfl
    · rw [hmay] at hem
      cases hde : x.dueFixed s.cycle with
      | none => exact absurd hem ((dueFixed_none_iff x _).1 hde e he hed)
      | some u => exact Nat.le_trans (le_of_not_fixedFirst (hfix u hde)) (dueFixed_first hde hord he hed hem)
  · obtain ⟨hf, hv⟩ := (nextDue_none_iff x s.cycle).1 hn
    simp only [hmay]
    refine ⟨(dueFixed_none_iff x _).1 hf, (dueVar_none_iff x _).1 hv, ?_, ?_⟩
    · rw [exec_fixedResultVisible, execFixedResultVisible]
      simp only [show (s.ctx ⟨core, ctx⟩).nextDue s.cycle = none from hn]
    · rw [exec_variableResultWrite, execVariableResultWrite]
      simp only [show (s.ctx ⟨core, ctx⟩).nextDue s.cycle = none from hn]
  · intro u
    rw [exec_fpexcTrap, execFpexcTrap]
    simp only [show (s.ctx ⟨core, ctx⟩).fpHold = some h from hh]
    exact if_pos ⟨hl, hd, hr⟩
  · intro u
    have hold : oldestDeferred x.deferred = some d := oldestDeferred_eq hd ho
    rw [exec_deferredTrap, execDeferredTrap]
    simp only [show oldestDeferred (s.ctx ⟨core, ctx⟩).deferred = some d from hold]
    exact if_pos ⟨hi, ht, h0, by simpa using ha, by simpa using hk⟩

end Sys2Proof.Machine

end

section
/-!
One step: what the agenda chooses, and what a selected context does with the word it fetches.
-/

namespace Sys2Proof.Machine

open Sys2Proof

/-! ### Fetching (R122, R127, R128) -/

theorem enterCheck_resident {k : Core} {t : Word} (h : k.isResident t = true) : enterCheck k t = none := if_pos h

theorem enterCheck_absent {k : Core} {t : Word} (h : k.isResident t = false) :
    enterCheck k t = some (.mk' (if k.isFailed t then cXLATE else cCODEABSENT) t) := by
  unfold enterCheck
  rw [if_neg (by simp [h])]
  split <;> rfl

theorem firstFetch_frameless {k : Core} {x : Ctx} (h : x.frame = none) : firstFetch k x = enterCheck k x.pc := by
  simp [firstFetch, h]

/-- Outside a frame and a stream, the word at a resident PC is next. -/
theorem nextWord_resident {s : State} (hw : s.me.fwd = none) (hf : s.me.frame = none) (hr : s.mine.isResident s.me.pc = true) :
    nextWord s = .inl (s.mine.fetch s.me.pc) := by
  have : (if s.me.enter then firstFetch s.mine s.me else none) = none := by
    rw [firstFetch_frameless hf, enterCheck_resident hr, ite_self]
  simp only [nextWord, hw, this, hf, hr, if_true]

/-- Outside a frame and a stream, a PC that is not resident traps: at the first own fetch as a target of a transfer does, else CODEEND. -/
theorem nextWord_absent {s : State} (hw : s.me.fwd = none) (hf : s.me.frame = none) (hr : s.mine.isResident s.me.pc = false) :
    nextWord s = .inr (.mk' (if !s.me.enter then cCODEEND else if s.mine.isFailed s.me.pc then cXLATE else cCODEABSENT) s.me.pc, s.me.pc) := by
  cases he : s.me.enter with
  | false => simp [nextWord, hw, hf, hr, he]
  | true => simp [nextWord, hw, hf, he, firstFetch_frameless hf, enterCheck_absent hr]

/-! ### The issue point of a selected context (R95, R141, R149, R267) -/

theorem issuePoint_next {u : State} (hk : u.me.killReq = false) (hd : u.me.deferred = [] ∨ u.me.defDepth ≠ 0 ∨ u.me.arrived = true)
    (hs : u.me.sends = []) (hf : streamFull u = false) :
    issuePoint u = match nextWord u with
      | .inr (t, pc) => .next (slotTaken (takeTrap t pc u))
      | .inl w => issueWord w u := by
  have : (if u.me.defDepth = 0 ∧ !u.me.arrived then oldestDeferred u.me.deferred else none) = none := by
    split
    next h => exact hd.elim (fun h' => by rw [h']; rfl) fun h' => absurd h (by simp; tauto)
    · rfl
  unfold issuePoint
  simp only [hk, this, hs, hf] <;> rfl

theorem issueWord_illegal {w : IWord} {e : Reject} (u : State) (h : decode w = .error e) : issueWord w u = trapAt cILLEGAL (zext w) u := by
  simp only [issueWord, h]

theorem issueWord_decoded {w : IWord} {i : Instr} (u : State) (h : decode w = .ok i) :
    issueWord w u = match exec i u with
      | .next t => .next (afterIssue w i u t)
      | .fault f => .fault f
      | .refused r => .refused r := by
  simp only [issueWord, h]
  cases exec i u <;> rfl

/-- What a context issues that leads no attached follower and follows no stream is not forwarded. -/
theorem afterIssue_alone (w : IWord) (i : Instr) {u : State} (t : State) (hw : u.me.fwd = none)
    (h : u.cur.ctx ≠ 0 ∨ followers u u.cur.core = []) : afterIssue w i u t = t := by
  unfold afterIssue
  split
  · rw [hw]
    show forwardIssued w _ u t = t
    unfold forwardIssued
    split
    next h0 => simp [h.resolve_left (not_not.2 h0)]
    · rfl
  · rfl

/-! ### The choice of the next act (R142) -/

/-- Where the act that comes next is known, so is the step. -/
theorem step_eq {s : State} {a : Act} {rest : List Act} (h : choose s = (a, rest)) : step s = perform a { s with agenda := rest } := by
  simp only [step, nextAct, afterAct, h]

theorem choose_issue {s : State} {c : CtxId} {rest : List Act} (ha : s.agenda = .issue c :: rest)
    (h : canIssue s c = false ∨ maySelect s c = true) : choose s = (.issue c, rest) := by
  have : (!canIssue s c || maySelect s c) = true := by rcases h with h | h <;> simp [h]
  unfold choose
  rw [ha]
  exact if_pos this

/-- A context that may be selected may issue. -/
theorem canIssue_of_maySelect {s : State} {c : CtxId} (h : maySelect s c = true) : canIssue s c = true := by
  simp only [maySelect, Bool.and_eq_true] at h
  exact h.1.1

/-- The step of a context that is selected is its issue point. -/
theorem step_issue {s : State} {c : CtxId} {rest : List Act} (ha : s.agenda = .issue c :: rest) (h : maySelect s c = true) :
    step s = issuePoint (select c { s with agenda := rest }) :=
  (step_eq (choose_issue ha (.inr h))).trans (if_pos (canIssue_of_maySelect h))

theorem choose_due {s : State} {b : Act} {rest : List Act} (h : dueAct s = some b)
    (ha : s.agenda = [] ∨ (∃ i, s.agenda = .event i :: rest) ∨ (∃ n, s.agenda = .pass n :: rest)) : choose s = (b, s.agenda) := by
  unfold choose
  rcases ha with ha | ⟨i, ha⟩ | ⟨n, ha⟩ <;> simp [ha, h]

theorem choose_head {s : State} {a : Act} {rest : List Act} (h : dueAct s = none) (ha : s.agenda = a :: rest)
    (hi : ∀ c, a ≠ .issue c) : choose s = (a, restOf a rest) := by
  unfold choose
  rw [ha]
  cases a with
  | issue c => exact absurd rfl (hi c)
  | _ => simp [h]

/-- Settles O4: the choice of the act for each head of the agenda, and for an issue the word that the context fetches. -/
theorem stepRunsDecoded : Obligations.StepRunsDecoded := by
  unfold Obligations.StepRunsDecoded
  intro s rest
  refine ⟨fun c i ha hm => ?_, fun c ha hc => ?_, fun b hb ha => ?_, fun hn =>
    ⟨fun i ha he => ?_, fun core at_ bytes ha => ?_, fun pa v ha => ?_, fun n ha => ?_, fun ha he => ?_⟩⟩
  · intro u word hk hd hs hf hw hfr hr hdec
    have hstep : step s = match exec i u with
        | .next t => .next (afterIssue word i u t)
        | .fault f => .fault f
        | .refused r => .refused r := by
      rw [step_issue ha hm, issuePoint_next hk hd hs hf, nextWord_resident hw hfr hr]
      exact issueWord_decoded u hdec
    refine ⟨hstep, fun h => ?_⟩
    rw [hstep]
    cases exec i u with
    | next t => simp only [afterIssue_alone word i t hw h]
    | fault f => rfl
    | refused r => rfl
  · exact (step_eq (choose_issue ha (.inl hc))).trans (if_neg (show ¬ canIssue s c = true by simp [hc]))
  · exact step_eq (choose_due hb ha)
  · rw [step_eq (choose_head hn ha nofun)]
    refine (if_pos he).trans ?_
    split <;> rfl
  · exact step_eq (choose_head hn ha nofun)
  · exact step_eq (choose_head hn ha nofun)
  · rw [step_eq (choose_head hn ha nofun)]
    rcases n with _ | n <;> rfl
  · have : choose s = (.pass 1, []) := by simp [choose, ha, hn, he]
    rw [step_eq this, ← ha]
    rfl

/-- Settles O5: an issue point takes the trap of the word or of the fetch. -/
theorem fetchAndIllegalWords : Obligations.FetchAndIllegalWords := by
  unfold Obligations.FetchAndIllegalWords
  intro s rest c ha hm u hk hd hs hf
  have hstep := (step_issue ha hm).trans (issuePoint_next hk hd hs hf)
  refine ⟨fun v e hv he => ?_, fun hw hfr hr => ?_⟩
  · rw [hstep, hv]
    exact issueWord_illegal u he
  · rw [hstep, nextWord_absent hw hfr hr]
    rfl

end Sys2Proof.Machine

end

section
/-!
Branches and jumps: their targets, and the check of a target where control enters it.
-/

namespace Sys2Proof.Machine

open Sys2Proof

/-! ### Targets (R51, R122, R123) -/

/-- The address that an offset in words names, from an instruction's own. -/
theorem target_eq {n : Nat} (pc : Word) (o : BitVec n) (h : n ≤ 64) : pc + sext o * 4 = BitVec.ofInt 64 (pc.toInt + 4 * o.toInt) := by
  rw [BitVec.ofInt_add, BitVec.ofInt_mul, BitVec.ofInt_toInt, ← sext_eq_ofInt o h, BitVec.mul_comm]
  rfl

theorem low2_eq_zero_iff (t : Word) : t.extractLsb' 0 2 = 0 ↔ t.toNat % 4 = 0 := by
  rw [← BitVec.toNat_inj, BitVec.extractLsb'_toNat]
  simp

theorem alignCheck_aligned {t : Word} (h : t.toNat % 4 = 0) : alignCheck t = none :=
  if_neg (not_not.2 ((low2_eq_zero_iff t).2 h))

theorem alignCheck_misaligned {t : Word} (h : t.toNat % 4 ≠ 0) : alignCheck t = some (.mk' cMISALIGN t) :=
  if_pos (mt (low2_eq_zero_iff t).1 h)

theorem enter_ok {s : State} {t : Word} (h : s.me.fwd.isSome = true ∨ s.mine.isResident t = true) : s.enter t = none := by
  unfold State.enter
  split
  · rfl
  next hw => exact enterCheck_resident (h.resolve_left hw)

theorem enter_absent {s : State} {t : Word} (hw : s.me.fwd = none) (hr : s.mine.isResident t = false) :
    s.enter t = some (.mk' (if s.mine.isFailed t then cXLATE else cCODEABSENT) t) := by
  unfold State.enter
  rw [if_neg (by simp [hw])]
  exact enterCheck_absent hr

/-- An instruction without registers meets nothing before its own checks. -/
@[simp] theorem hazard_nil (s : State) : hazard [] [] s = .clear := by simp [hazard_clear_iff, State.portsReady]

/-! ### Branches and jumps (R122, R123, R131) -/

theorem failThen_of_none {o : Option Trap} {s : State} {k : State → Out} (h : o = none) : failThen o s k = k s := by rw [h]; rfl

theorem failThen_of_some {o : Option Trap} {t : Trap} {s : State} {k : State → Out} (h : o = some t) : failThen o s k = trap t s := by rw [h]; rfl

section
variable {a b d : Reg} {w : BitVec 3} {s : State} {i : Instr}

/-- A branch goes to its target, traps there or goes on, as its condition on the operands holds or does not. -/
theorem branch_goes {cond : Word → Word → Bool} {o : BitVec 10} {p : Prop} (h : Ready [a, b] s) (hp : cond (s.rdA a) (s.rdB a b) = true ↔ p)
    (hi : exec i s = branch cond a b o w s) :
    let target : Word := BitVec.ofInt 64 (s.me.pc.toInt + 4 * o.toInt)
    (p → (s.me.fwd.isSome ∨ s.mine.isResident target = true) → exec i s = .next (finishAt w [a, b] target s)) ∧
      (p → s.me.fwd = none → s.mine.isResident target = false →
        exec i s = trap (.mk' (if s.mine.isFailed target then cXLATE else cCODEABSENT) target) s) ∧
      (¬ p → exec i s = .next (finish w [a, b] s)) := by
  rw [hi, branch, issueThen_clear _ _ _ _ h, target_eq _ o (by decide)]
  refine ⟨fun hc ho => ?_, fun hc hw hr => ?_, fun hc => if_neg (mt hp.1 hc)⟩
  · exact (if_pos (hp.2 hc)).trans (failThen_of_none (enter_ok ho))
  · exact (if_pos (hp.2 hc)).trans (failThen_of_some (enter_absent hw hr))

/-! A register jump past its hazards, at a word-aligned target: what is left is the check of the target. -/

theorem jr_aligned (h : Ready [a] s) (hm : (s.rdA a).toNat % 4 = 0) :
    exec (.jr a w) s = failThen (s.enter (s.rdA a)) s (fun t => .next (finishAt w [a] (s.rdA a) t)) := by
  rw [exec_jr, execJr, issueThen_clear _ _ _ _ h]
  dsimp only
  rw [failThen_of_none (alignCheck_aligned hm)]

theorem jalr_aligned (h : hazard [a] [d] s = .clear) (hm : (s.rdA a).toNat % 4 = 0) :
    exec (.jalr d a w) s = failThen (s.enter (s.rdA a)) s (fun t => destThen d t (fun u =>
      .next (finishAt w [a] (s.rdA a) (deliver d (u.me.pc + 4) u)))) := by
  rw [exec_jalr, execJalr, issueThen_clear _ _ _ _ h]
  dsimp only
  rw [failThen_of_none (alignCheck_aligned hm)]

theorem fjmp_aligned (h : Ready [a] s) (hm : (s.rdA a).toNat % 4 = 0) :
    exec (.fjmp a w) s =
      if s.me.fwd.isNone ∧ s.mine.isFetching (s.rdA a) then (if s.me.fjwait then hold s else trapAt cCODELATE (s.rdA a) s)
      else failThen (s.enter (s.rdA a)) s (fun t => .next (finishAt w [a] (s.rdA a) t)) := by
  rw [exec_fjmp, execFjmp, issueThen_clear _ _ _ _ h]
  dsimp only
  rw [failThen_of_none (alignCheck_aligned hm)]

end

/-- Settles O23: a branch by its condition, a jump by the checks of its target. -/
theorem branchesAndJumps : Obligations.BranchesAndJumps := by
  unfold Obligations.BranchesAndJumps
  refine ⟨fun a b o w s h => ?_, fun d a o w s => ?_⟩
  · intro x y target goes
    exact ⟨branch_goes h beq_iff_eq (exec_beq ..), branch_goes h bne_iff_ne (exec_bne ..),
      branch_goes h BitVec.slt_iff_toInt_lt (exec_blt ..),
      branch_goes h (by rw [Bool.not_eq_true', ← Bool.not_eq_true, BitVec.slt_iff_toInt_lt, Int.not_lt]) (exec_bge ..),
      branch_goes h BitVec.ult_iff_lt (exec_bltu ..),
      branch_goes h (by rw [Bool.not_eq_true', ← Bool.not_eq_true, BitVec.ult_iff_lt]; exact Nat.not_lt) (exec_bgeu ..)⟩
  · intro near far ok bad traps absent
    have hj : exec (.j o w) s = failThen (s.enter near) s (fun s => .next (finishAt w [] near s)) := by
      rw [exec_j, execJ, issueThen_clear _ _ _ _ (hazard_nil s), target_eq _ o (by decide)]
    refine ⟨fun ho => hj.trans (failThen_of_none (enter_ok ho)), fun ⟨hw, hr⟩ => hj.trans (failThen_of_some (enter_absent hw hr)),
      fun h => ⟨fun hm => ?_, fun hm => ⟨fun ho => ?_, fun ⟨hw, hr⟩ => ?_, fun ho hf => ?_, fun ⟨hw, hr⟩ hf => ?_, fun hw hf hj => ?_,
        fun hw hf hj => ?_⟩⟩, fun h => ⟨fun hm => ?_, fun hm ⟨hw, hr⟩ => ?_, fun hm ho hp => ?_⟩⟩
    · have hjr : exec (.jr a w) s = traps cMISALIGN far := by
        rw [exec_jr, execJr, issueThen_clear _ _ _ _ h]
        exact failThen_of_some (alignCheck_misaligned hm)
      have hfjmp : exec (.fjmp a w) s = traps cMISALIGN far := by
        rw [exec_fjmp, execFjmp, issueThen_clear _ _ _ _ h]
        exact failThen_of_some (alignCheck_misaligned hm)
      exact List.forall_mem_cons.2 ⟨hjr, List.forall_mem_singleton.2 hfjmp⟩
    · exact (jr_aligned h hm).trans (failThen_of_none (enter_ok ho))
    · exact (jr_aligned h hm).trans (failThen_of_some (enter_absent hw hr))
    · rw [fjmp_aligned h hm, if_neg (fun hn => Bool.false_ne_true (hf.symm.trans hn.2))]
      exact failThen_of_none (enter_ok ho)
    · rw [fjmp_aligned h hm, if_neg (fun hn => Bool.false_ne_true (hf.symm.trans hn.2))]
      exact failThen_of_some (enter_absent hw hr)
    · rw [fjmp_aligned h hm, if_pos ⟨by rw [hw]; rfl, hf⟩, if_pos hj]
      rfl
    · rw [fjmp_aligned h hm, if_pos ⟨by rw [hw]; rfl, hf⟩, if_neg (by simp [hj])]
      rfl
    · rw [exec_jalr, execJalr, issueThen_clear _ _ _ _ h]
      exact failThen_of_some (alignCheck_misaligned hm)
    · exact (jalr_aligned h hm).trans (failThen_of_some (enter_absent hw hr))
    · exact (jalr_aligned h hm).trans ((failThen_of_none (enter_ok ho)).trans (destThen_ok _ _ _ hp))

end Sys2Proof.Machine

end

section
/-!
What an access at a home leaves unchanged, and with it a trap: the bytes of memory and the copies of lines are all that it writes.
-/

namespace Sys2Proof.Machine

open Sys2Proof

/-! ### Accesses at a home (R230, R244, R333, R438)

Each rule says that one operation of the memory system keeps the frame that `AtHome` states, from the state `o` it started in. -/

/-- From `o` to `s` only memory, the copies of its lines, the pushes and what waits for peers have changed. -/
structure AtHome (o s : State) : Prop where
  state : { s with
    freeCtr := o.freeCtr, mem := o.mem, bad := o.bad, cores := o.cores, reqs := o.reqs, pushes := o.pushes, far := o.far
    farStamp := o.farStamp, peerDir := o.peerDir, devWaits := o.devWaits } = o
  core (n : Nat) : { s.core n with l1 := (o.core n).l1, prefused := (o.core n).prefused, pdenied := (o.core n).pdenied } = o.core n

section
variable {o s t : State}

theorem AtHome.refl (s : State) : AtHome s s := ⟨rfl, fun _ => rfl⟩

theorem AtHome.trans (h : AtHome o s) (g : AtHome s t) : AtHome o t := by
  obtain ⟨hs, hc⟩ := h
  obtain ⟨gs, gc⟩ := g
  refine ⟨?_, fun n => ?_⟩
  · rw [← hs, ← gs]
  · rw [← hc n, ← gc n]

/-- An operation on the fields of the frame alone, the cores not among them. -/
theorem AtHome.same (h : AtHome o s) (hc : t.cores = s.cores)
    (ht : { t with
      freeCtr := s.freeCtr, mem := s.mem, bad := s.bad, cores := s.cores, reqs := s.reqs, pushes := s.pushes, far := s.far
      farStamp := s.farStamp, peerDir := s.peerDir, devWaits := s.devWaits } = s) : AtHome o t :=
  h.trans ⟨ht, fun n => by rw [State.core, hc, ← State.core]⟩

theorem AtHome.setCore {n : Nat} {k : Core} (h : AtHome o s)
    (hk : { k with l1 := (s.core n).l1, prefused := (s.core n).prefused, pdenied := (s.core n).pdenied } = s.core n) :
    AtHome o (s.setCore n k) := by
  refine h.trans ⟨rfl, fun m => ?_⟩
  by_cases hm : m = n
  · subst hm
    rw [State.core_setCore, hk]
  · rw [State.core_setCore_ne _ _ _ _ hm]

theorem AtHome.mapCores {f : Nat → Core → Core} (h : AtHome o s)
    (hf : ∀ n k, { f n k with l1 := k.l1, prefused := k.prefused, pdenied := k.pdenied } = k) : AtHome o (s.mapCores f) := by
  refine h.trans ⟨rfl, fun n => ?_⟩
  unfold State.core State.mapCores
  dsimp only
  induction s.cores with
  | nil => rfl
  | cons c l ih =>
    simp only [List.map_cons, tget]
    split
    next hc => exact hc ▸ hf c.1 c.2
    · exact ih

theorem AtHome.rawWrite {pa n v : Nat} (h : AtHome o s) : AtHome o (rawWrite s pa n v) := h.same rfl rfl

theorem AtHome.setFar {c : FarCopy} (h : AtHome o s) : AtHome o (setFar s c) := h.same rfl rfl

theorem AtHome.setBacking {die line : Nat} {d : CLine} (h : AtHome o s) : AtHome o (setBacking s die line d) := by
  unfold Machine.setBacking
  split
  · exact h.setFar
  · exact h.rawWrite

theorem AtHome.cleanse {line off n : Nat} (h : AtHome o s) : AtHome o (cleanse s line off n) := h.same rfl rfl

theorem AtHome.writeBack {die line : Nat} {d : CLine} (h : AtHome o s) : AtHome o (writeBack s die line d) := h.setBacking.cleanse

theorem AtHome.recallO {die line : Nat} (h : AtHome o s) : AtHome o (recallO s die line) := by
  unfold Machine.recallO
  split
  · exact h
  · split
    · exact h
    · exact AtHome.setCore (ite_keeps h.writeBack h) rfl

theorem AtHome.invalidate {die line : Nat} {keep : Option Nat} (h : AtHome o s) : AtHome o (invalidate s die line keep) := by
  unfold Machine.invalidate
  refine h.recallO.mapCores fun _ _ => ?_
  split <;> rfl

theorem AtHome.dropFar {line die : Nat} (h : AtHome o s) : AtHome o (dropFar s line die) := h.invalidate.same rfl rfl

theorem AtHome.farRecall {line : Nat} (h : AtHome o s) : AtHome o (farRecall s line) := by
  unfold Machine.farRecall
  split
  · exact h
  · exact h.invalidate.dropFar.rawWrite

theorem AtHome.farEvict {line die : Nat} (h : AtHome o s) : AtHome o (farEvict s line die) := ite_keeps h.farRecall h.dropFar

theorem AtHome.farRoom {die line : Nat} (h : AtHome o s) : AtHome o (farRoom s die line) := ite_keeps h (elim_keeps h fun _ => h.farEvict)

theorem AtHome.farFetch {die line : Nat} (h : AtHome o s) : AtHome o (farFetch s die line) := by
  unfold Machine.farFetch
  split
  · exact h.setFar
  · exact h.farRecall.farRoom.setFar

theorem AtHome.farGrant {die line : Nat} {d : CLine} (h : AtHome o s) : AtHome o (farGrant s die line d) := by
  unfold Machine.farGrant
  exact AtHome.setFar (h.same rfl rfl)

theorem AtHome.freshen {die line : Nat} (h : AtHome o s) : AtHome o (freshen s die line) := ite_keeps h.invalidate h

theorem AtHome.farOwn {die line : Nat} (h : AtHome o s) : AtHome o (farOwn s die line) := by
  unfold Machine.farOwn
  split
  · exact h.setFar
  · exact AtHome.farGrant (ite_keeps h.freshen.farRecall h.freshen.farRecall.farRoom)

theorem AtHome.farInvalidated {line die : Nat} (h : AtHome o s) : AtHome o (farInvalidated s line die) := ite_keeps h.dropFar h

theorem AtHome.farClear {line : Nat} (h : AtHome o s) : AtHome o (farClear s line) :=
  foldl_keeps (AtHome.farRecall (foldl_keeps h fun _ _ h1 => h1.farInvalidated)) fun _ _ h1 => h1.dropFar

theorem AtHome.evictFor {core line : Nat} (h : AtHome o s) : AtHome o (evictFor s core line) := by
  unfold Machine.evictFor
  extract_lets _ k s1 inSet
  have h1 : AtHome o s1 := h.setCore rfl
  clear_value s1
  refine ite_keeps h1 ?_
  split
  · exact h1
  · exact AtHome.setCore (ite_keeps h1.writeBack h1) rfl

theorem AtHome.fillLine {core line : Nat} {st : L1State} {data : CLine} {va : Word} {bad : Bool} (h : AtHome o s) :
    AtHome o (fillLine s core line st data va bad) := by
  unfold Machine.fillLine
  extract_lets s1 s2
  have h1 : AtHome o s1 := h.setCore rfl
  have h2 : AtHome o s2 := h1.evictFor
  clear_value s2
  exact h2.setCore rfl

theorem AtHome.noteAccepted {p : Push} (h : AtHome o s) : AtHome o (noteAccepted s p) := h.same rfl rfl

theorem AtHome.pushArrive {p : Push} (h : AtHome o s) : AtHome o (pushArrive s p) := by
  unfold Machine.pushArrive
  extract_lets s1 k deny refuse
  have hp : AtHome o { s with pushes := s.pushes.filter (fun x => x.id != p.id) } := h.same rfl rfl
  have h1 : AtHome o s1 := hp.farInvalidated
  clear_value s1
  have hdeny {t : State} (ht : AtHome o t) : AtHome o (deny t) := ht.setCore rfl
  have hrefuse : AtHome o (refuse s1) := hdeny (h1.setCore rfl)
  refine ite_keeps (hdeny h1) (ite_keeps h1.noteAccepted (ite_keeps hrefuse (ite_keeps hrefuse (AtHome.noteAccepted (AtHome.fillLine ?_)))))
  exact ite_keeps h1.farFetch h1

theorem AtHome.flushPushes {line : Nat} (h : AtHome o s) : AtHome o (flushPushes s line) := foldl_keeps h fun _ _ h1 => h1.pushArrive

theorem AtHome.homeWrite {die pa n v : Nat} (h : AtHome o s) : AtHome o (homeWrite s die pa n v) :=
  AtHome.cleanse (AtHome.setBacking (AtHome.invalidate (ite_keeps h.flushPushes.farOwn h.flushPushes)))

theorem AtHome.drawLine {n : Nat} (h : AtHome o s) : AtHome o (drawLine n s).2 := by
  induction n generalizing s with
  | zero => exact h
  | succ n ih => exact ih (h.same rfl rfl)

theorem AtHome.takePeerCopies {line : Nat} {alone : Bool} (h : AtHome o s) : AtHome o (takePeerCopies line alone s) := by
  unfold Machine.takePeerCopies
  extract_lets written s1 r
  have h1 : AtHome o s1 := h.same rfl rfl
  exact ite_keeps (ite_keeps h1.drawLine.rawWrite.cleanse h1) h

/-- A write of the package's own waits for peers or is done at the home. -/
theorem AtHome.ownWrite {p pa n v : Nat} (h : AtHome o s) : AtHome o (ownWrite p pa n v s) :=
  ite_keeps (h.same rfl rfl)
    (ite_keeps h.takePeerCopies.flushPushes.farClear.rawWrite.cleanse h.takePeerCopies.homeWrite)

theorem AtHome.discloseCore {p core : Nat} (h : AtHome o s) : AtHome o (discloseCore p s core) :=
  foldl_keeps h.ownWrite.ownWrite fun _ _ h1 => h1.ownWrite

/-! ### The curtain stop (R386)

It writes clusters between the writes of the registers that it discloses, so its frame leaves them out. -/

theorem AtHome.withClusters {k : List (Nat × Cluster)} (h : AtHome o { s with clusters := k }) (g : AtHome s t) :
    AtHome o { t with clusters := k } :=
  h.trans ⟨congrArg (fun u : State => { u with clusters := k }) g.state, g.core⟩

/-- The part of the curtain stop that reaches the clusters of partition `p` and the registers of their cores. -/
def discloseAll (p : Nat) (q : Part) (s : State) : State :=
  (List.range q.len.toNat).foldl (fun s i =>
    let r := q.base.toNat + i
    let s := s.setCluster r { s.cluster r with cause := 4 }
    (List.range 16).foldl (fun s j => discloseCore p s (16 * r + j)) s) s

theorem AtHome.discloseAll {p : Nat} {q : Part} {k : List (Nat × Cluster)} (h : AtHome o { s with clusters := k }) :
    AtHome o { discloseAll p q s with clusters := k } :=
  foldl_keeps (P := fun t : State => AtHome o { t with clusters := k }) h fun _ _ ht =>
    foldl_keeps (P := fun t : State => AtHome o { t with clusters := k }) (ht.same rfl rfl) fun u _ hu =>
      hu.withClusters (AtHome.refl u).discloseCore

/-- A running partition as its stop begins: its state, its reason and the signal. -/
def stopping (p : Nat) (reason : BitVec 2) (s : State) : State :=
  { s.setPart p { s.part p with state := 5, reason := reason } with msi := s.msi ++ [(0, p)] }

theorem curtainStop_of_running {p : Nat} {reason : BitVec 2} {s : State} (h : (s.part p).state = 1) :
    curtainStop p reason s = ownWrite p (s.part p).save.toNat 8 reason.toNat (discloseAll p (s.part p) (stopping p reason s)) := if_pos h

theorem curtainStop_running {p : Nat} {reason : BitVec 2} {s : State} (h : (s.part p).state = 1) :
    AtHome (stopping p reason s) { curtainStop p reason s with clusters := s.clusters } := by
  rw [curtainStop_of_running h]
  exact AtHome.withClusters (AtHome.discloseAll (AtHome.refl (stopping p reason s))) (AtHome.refl _).ownWrite

theorem curtainStop_of_not_running {p : Nat} {reason : BitVec 2} {s : State} (h : (s.part p).state ≠ 1) : curtainStop p reason s = s :=
  if_neg h

/-- A curtain stop changes, besides what a write at a home may, clusters, partitions and the signals alone. -/
theorem curtainStop_atHome (p : Nat) (reason : BitVec 2) (s : State) :
    AtHome s { curtainStop p reason s with clusters := s.clusters, parts := s.parts, msi := s.msi } := by
  by_cases h : (s.part p).state = 1
  · have hr := curtainStop_running (reason := reason) h
    exact ⟨congrArg (fun u : State => { u with parts := s.parts, msi := s.msi }) hr.state, hr.core⟩
  · rw [curtainStop_of_not_running h]
    exact AtHome.refl s

theorem AtHome.ctx (h : AtHome o s) (c : CtxId) : s.ctx c = o.ctx c := by
  have := congrArg (Core.ctx · c.ctx) (h.core c.core)
  exact this

theorem AtHome.cur (h : AtHome o s) : s.cur = o.cur := by
  have := congrArg State.cur h.state
  exact this

theorem AtHome.note (h : AtHome o s) : s.note = o.note := by
  have := congrArg State.note h.state
  exact this

theorem AtHome.cycle (h : AtHome o s) : s.cycle = o.cycle := by
  have := congrArg State.cycle h.state
  exact this

@[simp] theorem curtainStop_ctx (p : Nat) (reason : BitVec 2) (s : State) (c : CtxId) : (curtainStop p reason s).ctx c = s.ctx c :=
  (curtainStop_atHome p reason s).ctx c

@[simp] theorem curtainStop_cur (p : Nat) (reason : BitVec 2) (s : State) : (curtainStop p reason s).cur = s.cur :=
  (curtainStop_atHome p reason s).cur

@[simp] theorem curtainStop_note (p : Nat) (reason : BitVec 2) (s : State) : (curtainStop p reason s).note = s.note :=
  (curtainStop_atHome p reason s).note

@[simp] theorem curtainStop_cycle (p : Nat) (reason : BitVec 2) (s : State) : (curtainStop p reason s).cycle = s.cycle :=
  (curtainStop_atHome p reason s).cycle

@[simp] theorem curtainStop_me (p : Nat) (reason : BitVec 2) (s : State) : (curtainStop p reason s).me = s.me := by
  rw [State.me, curtainStop_cur, curtainStop_ctx]
  rfl

end

end Sys2Proof.Machine
end

section
/-!
Trap entry: the results in flight that become visible before it, what it writes, and what it leaves unchanged.
-/

namespace Sys2Proof.Machine

open Sys2Proof

/-! ### What a change of one context alone leaves unchanged -/

/-- From `s` to `t` one context has changed, and nothing else. -/
structure OnlyCtx (c : CtxId) (s t : State) : Prop where
  state : { t with cores := s.cores } = s
  core (n : Nat) : n ≠ c.core → t.core n = s.core n
  mine : { t.core c.core with ctxs := (s.core c.core).ctxs } = s.core c.core
  ctx (d : CtxId) : d ≠ c → t.ctx d = s.ctx d

section
variable {c : CtxId} {s t u : State}

theorem OnlyCtx.refl (c : CtxId) (s : State) : OnlyCtx c s s := ⟨rfl, fun _ _ => rfl, rfl, fun _ _ => rfl⟩

/-- What the cores do not determine stays. -/
theorem OnlyCtx.keeps {α : Type} (h : OnlyCtx c s t) (f : State → α) (hf : f { t with cores := s.cores } = f t) : f t = f s :=
  hf.symm.trans (congrArg f h.state)

/-- What the contexts of the core do not determine stays. -/
theorem OnlyCtx.keepsMine {α : Type} (h : OnlyCtx c s t) (f : Core → α)
    (hf : f { t.core c.core with ctxs := (s.core c.core).ctxs } = f (t.core c.core)) : f (t.core c.core) = f (s.core c.core) :=
  hf.symm.trans (congrArg f h.mine)

theorem OnlyCtx.trans (h : OnlyCtx c s t) (g : OnlyCtx c t u) : OnlyCtx c s u where
  state := by rw [← h.state, ← g.state]
  core n hn := (g.core n hn).trans (h.core n hn)
  mine := by rw [← h.mine, ← g.mine]
  ctx d hd := (g.ctx d hd).trans (h.ctx d hd)

theorem OnlyCtx.setCtx (c : CtxId) (s : State) (x : Ctx) : OnlyCtx c s (s.setCtx c x) where
  state := rfl
  core n hn := State.core_setCore_ne _ _ _ _ hn
  mine := by rw [State.setCtx, State.core_setCore]; rfl
  ctx d hd := State.ctx_setCtx_ne _ _ _ _ hd

end

/-! ### Results that become visible early (R46, R147) -/

/-- A context after some of its results in flight have become visible: they write their registers, and a port's word is sent. -/
structure Shown (x y : Ctx) : Prop where
  frame : { y with g := x.g, poison := x.poison, fflags := x.fflags, vflags := x.vflags, inflight := x.inflight, sends := x.sends } = x
  reg (r : Reg) : (∀ e ∈ x.inflight, e.reg ≠ r) → y.reg r = x.reg r ∧ y.isPoisoned r = x.isPoisoned r
  left : ∀ e ∈ y.inflight, ∃ f ∈ x.inflight, f.reg = e.reg

theorem Shown.refl (x : Ctx) : Shown x x := ⟨rfl, fun _ _ => ⟨rfl, rfl⟩, fun e he => ⟨e, he, rfl⟩⟩

theorem Shown.trans {x y z : Ctx} (h : Shown x y) (g : Shown y z) : Shown x z where
  frame := by rw [← h.frame, ← g.frame]
  reg r hr := by
    have hy : ∀ e ∈ y.inflight, e.reg ≠ r := fun e he => by
      obtain ⟨f, hf, hfe⟩ := h.left e he
      exact hfe ▸ hr f hf
    exact ⟨(g.reg r hy).1.trans (h.reg r hr).1, (g.reg r hy).2.trans (h.reg r hr).2⟩
  left e he := by
    obtain ⟨f, hf, hfe⟩ := g.left e he
    obtain ⟨k, hk, hkf⟩ := h.left f hf
    exact ⟨k, hk, hkf.trans hfe⟩

/-- What the frame leaves out of a context aside, each of its fields stays. -/
theorem Shown.keeps {α : Type} {x y : Ctx} (h : Shown x y) (f : Ctx → α)
    (hf : f { y with g := x.g, poison := x.poison, fflags := x.fflags, vflags := x.vflags, inflight := x.inflight, sends := x.sends } = f y) :
    f y = f x :=
  hf.symm.trans (congrArg f h.frame)

theorem Ctx.setReg_eq (x : Ctx) (r : Reg) (v : Word) :
    x.setReg r v = { x with g := (x.setReg r v).g, poison := (x.setReg r v).poison } := by
  unfold Ctx.setReg
  split <;> rfl

section
variable {c : CtxId} {e : Inflight} {s : State}

/-- The context of a result that becomes visible, before its vector flags are noted: for a register and for a port. -/
theorem shown_of_writeResult (hc : c.ctx < 11) (he : e ∈ (s.ctx c).inflight) (g : BitVec 8) :
    Shown (s.ctx c) ((writeResult (s.setCtx c { s.ctx c with inflight := (s.ctx c).inflight.erase e }) c e.reg e.value g e.route).ctx c) := by
  have left (f : Inflight) (hf : f ∈ (s.ctx c).inflight.erase e) : ∃ k ∈ (s.ctx c).inflight, k.reg = f.reg :=
    ⟨f, List.mem_of_mem_erase hf, rfl⟩
  by_cases hp : e.reg.toNat < 28
  · rw [writeResult_ctx_reg _ _ _ _ _ _ hc hp, State.ctx_setCtx _ _ _ hc]
    refine ⟨?_, fun r hr => ?_, fun f hf => left f (by simpa using hf)⟩
    · rw [Ctx.setReg_eq]
    · have hne : r ≠ e.reg := (hr e he).symm
      exact ⟨Ctx.reg_setReg_ne _ _ _ _ hne, Ctx.isPoisoned_setReg_ne _ _ _ _ hne⟩
  · rw [writeResult_ctx_port _ _ _ _ _ _ hc (Nat.not_lt.1 hp), State.ctx_setCtx _ _ _ hc]
    exact ⟨rfl, fun _ _ => ⟨rfl, rfl⟩, left⟩

theorem writeResult_inflight (hc : c.ctx < 11) (r : Reg) (v : Word) (g : BitVec 8) (k : Option Word) :
    ((writeResult s c r v g k).ctx c).inflight = (s.ctx c).inflight := by
  by_cases hp : r.toNat < 28
  · rw [writeResult_ctx_reg _ _ _ _ _ _ hc hp, Ctx.setReg_inflight]
  · rw [writeResult_ctx_port _ _ _ _ _ _ hc (Nat.not_lt.1 hp)]

theorem shown_accrueAt (hc : c.ctx < 11) (due : Nat) (f : BitVec 8) (s : State) : Shown (s.ctx c) ((accrueAt c due f s).ctx c) := by
  unfold accrueAt
  split
  · exact Shown.refl _
  · rw [State.ctx_setCtx _ _ _ hc]
    exact ⟨rfl, fun _ _ => ⟨rfl, rfl⟩, fun e he => ⟨e, he, rfl⟩⟩

theorem accrueAt_inflight (hc : c.ctx < 11) (due : Nat) (f : BitVec 8) (s : State) :
    ((accrueAt c due f s).ctx c).inflight = (s.ctx c).inflight := by
  unfold accrueAt
  split
  · rfl
  · rw [State.ctx_setCtx _ _ _ hc]

theorem showFixed_shown (hc : c.ctx < 11) (he : e ∈ (s.ctx c).inflight) : Shown (s.ctx c) ((showFixed c e s).ctx c) := by
  unfold showFixed
  dsimp only
  split
  · exact shown_of_writeResult hc he _
  · exact (shown_of_writeResult hc he _).trans (shown_accrueAt hc _ _ _)

theorem showFixed_inflight (hc : c.ctx < 11) : ((showFixed c e s).ctx c).inflight = (s.ctx c).inflight.erase e := by
  unfold showFixed
  dsimp only
  split
  · rw [writeResult_inflight hc, State.ctx_setCtx _ _ _ hc]
  · rw [accrueAt_inflight hc, writeResult_inflight hc, State.ctx_setCtx _ _ _ hc]

/-- A result for a register changes its context alone. -/
theorem showFixed_onlyCtx (he : isPort e.reg = false) : OnlyCtx c s (showFixed c e s) := by
  have hw (g : BitVec 8) (u : State) : OnlyCtx c u (writeResult u c e.reg e.value g e.route) := by
    unfold writeResult
    rw [he]
    exact (OnlyCtx.setCtx ..).trans (OnlyCtx.setCtx ..)
  have ha (due : Nat) (f : BitVec 8) (u : State) : OnlyCtx c u (accrueAt c due f u) := by
    unfold accrueAt
    split
    · exact OnlyCtx.refl c u
    · exact OnlyCtx.setCtx ..
  unfold showFixed
  dsimp only
  split
  · exact (OnlyCtx.setCtx ..).trans (hw ..)
  · exact ((OnlyCtx.setCtx ..).trans (hw ..)).trans (ha ..)

end

section
variable {c : CtxId}

theorem settleFixed_shown (hc : c.ctx < 11) (n : Nat) (s : State) : Shown (s.ctx c) ((settleFixed c n s).ctx c) := by
  induction n generalizing s with
  | zero => exact Shown.refl _
  | succ n ih =>
    unfold settleFixed
    split
    · exact Shown.refl _
    next e he => exact (showFixed_shown hc (dueFixed_some he).1).trans (ih _)

/-- Where all results are due, only results for ports are left. -/
theorem settleFixed_left (hc : c.ctx < 11) (n : Nat) (s : State) (hn : (s.ctx c).inflight.length ≤ n)
    (hd : ∀ e ∈ (s.ctx c).inflight, e.visibleAt ≤ s.cycle) : ∀ e ∈ ((settleFixed c n s).ctx c).inflight, 28 ≤ e.reg.toNat := by
  induction n generalizing s with
  | zero =>
    intro e he
    rw [settleFixed, List.length_eq_zero_iff.1 (Nat.le_zero.1 hn)] at he
    cases he
  | succ n ih =>
    unfold settleFixed
    split
    next hnone =>
      intro e he
      have := (dueFixed_none_iff _ _).1 hnone e he (hd e he)
      rw [mayProduce_iff, not_or, Nat.not_lt] at this
      exact this.1
    next e he =>
      have hmem := (dueFixed_some he).1
      refine ih _ ?_ fun f hf => ?_
      · rw [showFixed_inflight hc, List.length_erase_of_mem hmem]
        omega
      · rw [showFixed_inflight hc] at hf
        rw [showFixed_frame]
        exact hd f (List.mem_of_mem_erase hf)

/-- Without results for ports, settling changes the context alone. -/
theorem settleFixed_onlyCtx (hc : c.ctx < 11) (n : Nat) (s : State) (h : ∀ e ∈ (s.ctx c).inflight, isPort e.reg = false) :
    OnlyCtx c s (settleFixed c n s) := by
  induction n generalizing s with
  | zero => exact OnlyCtx.refl c s
  | succ n ih =>
    unfold settleFixed
    split
    · exact OnlyCtx.refl c s
    next e he =>
      refine (showFixed_onlyCtx (h e (dueFixed_some he).1)).trans (ih _ fun f hf => ?_)
      rw [showFixed_inflight hc] at hf
      exact h f (List.mem_of_mem_erase hf)

variable (hc : c.ctx < 11) (s : State)
include hc

theorem settleAll_shown : Shown (s.ctx c) ((settleAll s c).ctx c) := by
  unfold settleAll
  refine Shown.trans ?_ (settleFixed_shown hc _ _)
  rw [State.ctx_setCtx _ _ _ hc]
  refine ⟨rfl, fun _ _ => ⟨rfl, rfl⟩, fun e he => ?_⟩
  obtain ⟨f, hf, rfl⟩ := List.mem_map.1 he
  exact ⟨f, hf, rfl⟩

theorem settleAll_left : ∀ e ∈ ((settleAll s c).ctx c).inflight, 28 ≤ e.reg.toNat := by
  refine settleFixed_left hc _ _ ?_ ?_ <;> rw [State.ctx_setCtx _ _ _ hc]
  · simp
  · intro e he
    obtain ⟨f, -, rfl⟩ := List.mem_map.1 he
    exact Nat.min_le_right ..

theorem settleAll_onlyCtx (h : ∀ e ∈ (s.ctx c).inflight, isPort e.reg = false) : OnlyCtx c s (settleAll s c) := by
  refine (OnlyCtx.setCtx ..).trans (settleFixed_onlyCtx hc _ _ fun e he => ?_)
  rw [State.ctx_setCtx _ _ _ hc] at he
  obtain ⟨f, hf, rfl⟩ := List.mem_map.1 he
  exact h f hf

end

/-! ### Trap entry (R147–R149) -/

/-- From `o` to `s` a context has left its troupe's stream: the troupes, the streams, and whether a context follows one. -/
structure StreamLeft (o s : State) : Prop where
  state : { s with cores := o.cores, clusters := o.clusters } = o
  ctx (c : CtxId) : { s.ctx c with enter := (o.ctx c).enter, fwd := (o.ctx c).fwd } = o.ctx c

section
variable {o s : State}

/-- What cores and clusters do not determine stays. -/
theorem StreamLeft.keeps {α : Type} (h : StreamLeft o s) (f : State → α) (hf : f { s with cores := o.cores, clusters := o.clusters } = f s) :
    f s = f o :=
  hf.symm.trans (congrArg f h.state)

theorem StreamLeft.forward {e : FwdEntry} {n : Nat} (h : StreamLeft o s) : StreamLeft o (forward e s n) := by
  refine ⟨h.state, fun c => ?_⟩
  rw [← h.ctx c]
  by_cases hn : c.core = n
  · subst hn
    simp only [State.ctx, Machine.forward, State.core_setCore]
    rfl
  · simp only [State.ctx, Machine.forward, State.core_setCore_ne _ _ _ _ hn]

theorem StreamLeft.markDetached {n : Nat} (h : StreamLeft o s) : StreamLeft o (markDetached n s) := ⟨h.state, h.ctx⟩

theorem StreamLeft.endStream {pc : Word} {frame : Option Frame} {mark : Bool} (h : StreamLeft o s) :
    StreamLeft o (endStream pc frame mark s) :=
  ite_keeps (foldl_keeps h fun _ _ h1 => ite_keeps h1.forward.markDetached h1.forward) h

theorem StreamLeft.detach {n : Nat} (h : StreamLeft o s) : StreamLeft o (detach n s) := by
  refine ⟨h.state, fun c => ?_⟩
  rw [← h.ctx c]
  by_cases hn : c.core = n
  · subst hn
    simp only [State.ctx, Machine.detach, State.core_setCore]
    by_cases h0 : c.ctx = 0
    · rw [h0, Core.ctx_setCtx _ _ _ (by decide)]
      rfl
    · rw [Core.ctx_setCtx_ne _ _ _ _ h0]
      rfl
  · simp only [State.ctx, Machine.detach, State.core_setCore_ne _ _ _ _ hn]
    rfl

end

/-- A context `y` as trap entry leaves it, from the state `s` in which its results have become visible. -/
def enterTrap (t : Trap) (tpc : Word) (s : State) (y : Ctx) : Ctx :=
  let level := trapLevel s.me.priv t.cause
  let vec := trapVector s.myPart s.me level t.cause
  { y with
    tpc := tpc, tcause := t.cause, tval := t.tval
    fpc := t.fpc.getD s.me.fpc, deff := t.fpc.isSome
    rptst := frameWord s.me.frame, frame := none
    sprv := s.me.priv, priv := level, pc := vec
    fwd := none, wait := .none, enter := false
    defDepth := if t.isDeferred then 1 else if s.me.defDepth = 0 then 0 else s.me.defDepth + 1
    nextIssue := Nat.max s.me.nextIssue (s.cycle + 1), missed := !s.mine.isResident vec }

theorem takeTrap_me (t : Trap) (tpc : Word) {s : State} (hc : s.cur.ctx < 11) :
    (takeTrap t tpc s).me = enterTrap t tpc (settleAll s s.cur) (settleAll s s.cur).me := by
  unfold takeTrap
  extract_lets u x level vec resident u1 u2 y u3 u4 cl
  have h1 : StreamLeft u u1 := StreamLeft.endStream ⟨rfl, fun _ => rfl⟩
  have h2 : StreamLeft u u2 := ite_keeps h1.detach h1
  have hu : u.cur.ctx < 11 := by rwa [settleAll_cur]
  change _ = enterTrap t tpc u u.me
  clear_value u1 u2
  have hcur : u2.cur = u.cur := by rw [← h2.state]
  have hcycle : u2.cycle = u.cycle := by rw [← h2.state]
  have hy : enterTrap t tpc u u2.me = enterTrap t tpc u u.me := by
    have := congrArg (enterTrap t tpc u) (h2.ctx u.cur)
    rw [State.me, hcur]
    exact this
  have h3 : u4.me = enterTrap t tpc u u.me := by
    refine (State.me_setMe u2 _ (hcur ▸ hu)).trans (Eq.trans ?_ hy)
    rw [enterTrap, ← hcycle]
  split
  · exact h3
  · rw [curtainStop_me]
    exact h3

theorem takeTrap_note (t : Trap) (tpc : Word) (s : State) : (takeTrap t tpc s).note = .trapped :=
  ite_keeps (P := fun u : State => u.note = .trapped) rfl (curtainStop_note ..)

/-- What of the state trap entry keeps even where it leaves a troupe and stops the partition. -/
theorem takeTrap_cur_cycle (t : Trap) (tpc : Word) (s : State) : (takeTrap t tpc s).cur = s.cur ∧ (takeTrap t tpc s).cycle = s.cycle := by
  unfold takeTrap
  extract_lets u x level vec resident u1 u2 y u3 u4 cl
  have h1 : StreamLeft u u1 := StreamLeft.endStream ⟨rfl, fun _ => rfl⟩
  have h2 : StreamLeft u u2 := ite_keeps h1.detach h1
  have hcur : u4.cur = s.cur := by
    rw [← settleAll_cur s s.cur]
    exact h2.keeps State.cur rfl
  have hcycle : u4.cycle = s.cycle := by
    rw [← settleAll_cycle s s.cur]
    exact h2.keeps State.cycle rfl
  split
  · exact ⟨hcur, hcycle⟩
  · rw [curtainStop_cur, curtainStop_cycle]
    exact ⟨hcur, hcycle⟩

@[simp] theorem settleAll_myPart (s : State) (c : CtxId) : (settleAll s c).myPart = s.myPart := by
  rw [settleAll_frame]
  rfl

/-- Settled results and then trap entry are all there is to a trap of a context outside of any stream, where its vector is resident. -/
theorem takeTrap_alone {t : Trap} {tpc : Word} {s : State} (hc : s.cur.ctx < 11) (hw : s.me.fwd = none)
    (hf : s.cur.ctx ≠ 0 ∨ followers s s.cur.core = []) (hp : ∀ e ∈ s.me.inflight, isPort e.reg = false)
    (hr : s.mine.isResident (trapVector s.myPart s.me (trapLevel s.me.priv t.cause) t.cause) = true) :
    let u := settleAll s s.cur
    takeTrap t tpc s = { u.setMe (enterTrap t tpc u u.me) with note := .trapped } := by
  unfold takeTrap
  extract_lets u x level vec resident u1 u2 y u3 u4 cl
  have hme : u.me = u.ctx s.cur := by rw [State.me, settleAll_cur]
  have hs : Shown s.me u.me := hme ▸ settleAll_shown hc s
  have hres : resident = true := by
    have hvec : vec = trapVector s.myPart s.me (trapLevel s.me.priv t.cause) t.cause := by
      simp only [vec, level, x, trapVector, hs.keeps Ctx.priv rfl, hs.keeps Ctx.tvec rfl, u, settleAll_myPart]
    have hmine : resident = s.mine.isResident vec :=
      (congrArg (fun c : CtxId => (u.core c.core).isResident vec) (settleAll_cur s s.cur)).trans
        ((settleAll_onlyCtx hc s hp).keepsMine (Core.isResident · vec) rfl)
    rw [hmine, hvec, hr]
  have h1 : u1 = u := by
    have hfol : followers u u.cur.core = followers s s.cur.core := by
      simp only [u, settleAll_cur]
      rw [settleAll_frame]
      rfl
    rcases hf with h0 | hf
    · exact if_neg (by rwa [settleAll_cur])
    · simp [u1, endStream, hfol, hf]
  have h2 : u2 = u := (if_neg (by simp [x, hs.keeps Ctx.fwd rfl, hw])).trans h1
  rw [if_pos hres]
  clear_value u2
  subst h2
  rfl

theorem takeTrap_onlyCtx {t : Trap} {tpc : Word} {s : State} (hc : s.cur.ctx < 11) (hw : s.me.fwd = none)
    (hf : s.cur.ctx ≠ 0 ∨ followers s s.cur.core = []) (hp : ∀ e ∈ s.me.inflight, isPort e.reg = false)
    (hr : s.mine.isResident (trapVector s.myPart s.me (trapLevel s.me.priv t.cause) t.cause) = true) :
    OnlyCtx s.cur s { takeTrap t tpc s with note := s.note } := by
  rw [takeTrap_alone hc hw hf hp hr]
  have h : OnlyCtx s.cur s ((settleAll s s.cur).setMe (enterTrap t tpc (settleAll s s.cur) (settleAll s s.cur).me)) := by
    refine (settleAll_onlyCtx hc s hp).trans ?_
    rw [State.setMe, settleAll_cur]
    exact OnlyCtx.setCtx ..
  exact ⟨congrArg (fun v : State => { v with note := s.note }) h.state, h.core, h.mine, h.ctx⟩

/-- Settles O6: the results that become visible, and the entry. -/
theorem trapEntry : Obligations.TrapEntry := by
  unfold Obligations.TrapEntry
  intro t tpc s hc
  have hme : (settleAll s s.cur).me = (settleAll s s.cur).ctx s.cur := by rw [State.me, settleAll_cur]
  have hs : Shown s.me (settleAll s s.cur).me := hme ▸ settleAll_shown hc s
  have hleft : ∀ e ∈ (settleAll s s.cur).me.inflight, 28 ≤ e.reg.toNat := hme ▸ settleAll_left hc s
  have hpart : (settleAll s s.cur).myPart = s.myPart := settleAll_myPart s s.cur
  have hy : (takeTrap t tpc s).me = enterTrap t tpc (settleAll s s.cur) (settleAll s s.cur).me := takeTrap_me t tpc hc
  clear hme
  generalize settleAll s s.cur = v at hs hleft hpart hy ⊢
  have hpriv := hs.keeps Ctx.priv rfl
  have htvec := hs.keeps Ctx.tvec rfl
  rw [hy]
  refine ⟨?_, fun hw hf hp hr => ?_⟩
  · intro x level y
    have hlevel : trapLevel v.me.priv t.cause = level := by
      rw [hpriv]
      rfl
    refine ⟨rfl, rfl, rfl, ?_, rfl, ?_, hpriv, hlevel, ?_, rfl, hleft, fun hreg => ?_, hs.keeps Ctx.varRes rfl, hs.keeps Ctx.icount rfl, rfl, rfl,
      takeTrap_note ..⟩
    · exact congrArg t.fpc.getD (hs.keeps Ctx.fpc rfl)
    · exact congrArg frameWord (hs.keeps Ctx.frame rfl)
    · simp only [y, x, enterTrap, hlevel, trapVector, hpart, htvec]
    · refine List.eq_nil_iff_forall_not_mem.2 fun e he => ?_
      obtain ⟨f, hf, hfe⟩ := hs.left e he
      have h1 := hleft e he
      have h2 := hreg f hf
      rw [hfe] at h2
      omega
  · intro u
    have h : OnlyCtx s.cur s { u with note := s.note } := takeTrap_onlyCtx hc hw hf hp hr
    have hume : u.me = enterTrap t tpc v v.me := hy
    have hmine : u.mine = u.core s.cur.core := by rw [State.mine, (takeTrap_cur_cycle t tpc s).1]
    clear_value u
    refine ⟨h.state, ?_, h.core, h.ctx, fun a => ?_, fun a => ?_, fun r hreg => ?_, ?_⟩
    · rw [hmine]
      exact congrArg (fun k : Core => { k with nextIssue := s.mine.nextIssue }) h.mine
    · exact congrArg (getByte · a) (h.keeps State.mem rfl)
    · rw [hmine]
      exact congrArg (getByte · a) (h.keepsMine Core.spad rfl)
    · rw [hume]
      exact hs.reg r hreg
    · rw [hume]
      exact ⟨hs.keeps Ctx.p rfl, hs.keeps Ctx.m rfl, hs.keeps Ctx.frm rfl, hs.keeps Ctx.chk rfl, hs.keeps Ctx.sbase rfl, hs.keeps Ctx.slim rfl,
        htvec, hs.keeps Ctx.vq rfl, hs.keeps Ctx.stage rfl, hs.keeps Ctx.live rfl⟩

end Sys2Proof.Machine
end

section
/-!
The traps that software takes, and the return from a trap.
-/

namespace Sys2Proof.Machine

open Sys2Proof

/-! ### Software traps (R44, R101, R146, R295) -/

/-- Settles O9: an instruction without operands issues at once, and its trap keeps the cycle in which its handler's delay is counted. -/
theorem softwareTraps : Obligations.SoftwareTraps := by
  unfold Obligations.SoftwareTraps
  intro k w s counted entry
  have after (cause : BitVec 6) (tval : Word) : trapAfter cause tval w s = entry cause tval := by
    have hcycle : (slotTaken (takeTrap (.mk' cause tval) (s.me.pc + 4) counted)).cycle = s.cycle :=
      (slotTaken_cycle _).trans (takeTrap_cur_cycle ..).2
    rw [trapAfter, issueThen_clear _ _ _ _ (hazard_nil s)]
    dsimp only [entry]
    rw [← hcycle]
  refine ⟨(exec_trap ..).trans (after ..), (exec_sysc ..).trans (after ..), (exec_hcall ..).trans (after ..), fun h => ?_, fun h => ?_⟩
  · rw [exec_bkpt, execBkpt, h]
    exact after ..
  · refine ⟨noteHalt s.cur.core 2 true (finish w [] s), ?_, ?_, ?_, ?_, rfl⟩
    · rw [exec_bkpt, execBkpt, if_pos h, issueThen_clear _ _ _ _ (hazard_nil s)]
    all_goals simp [noteHalt]

/-- A privilege other than U is at least S. -/
theorem one_le_of_ne_zero {v : BitVec 2} (h : v ≠ 0) : (1 : BitVec 2).toNat ≤ v.toNat :=
  Nat.one_le_iff_ne_zero.2 fun h0 => h (BitVec.eq_of_toNat_eq h0)

/-! ### The return from a trap (R137, R152) -/

/-- The context as ERET restores it, in the frame `f` or in none. -/
def returned (s : State) (f : Option Frame) : State :=
  s.setMe { s.me with priv := s.me.sprv, sprv := 0, defDepth := s.me.defDepth - 1, frame := f }

theorem enter_returned {s : State} (hc : s.cur.ctx < 11) (f : Option Frame) (t : Word) : (returned s f).enter t = s.enter t := by
  have hfwd : (returned s f).me.fwd = s.me.fwd := by rw [returned, State.me_setMe _ _ hc]
  have hcheck : enterCheck (returned s f).mine t = enterCheck s.mine t := by
    rw [returned, State.mine_setMe]
    rfl
  rw [State.enter, State.enter, hfwd, hcheck]

theorem frameResident_returned (s : State) (f : Option Frame) (g : Frame) : frameResident (returned s f).mine g = frameResident s.mine g := by
  rw [returned, State.mine_setMe]
  rfl

theorem returnFrom_of_inactive {w : BitVec 3} {s : State} (h : s.me.rptst.getLsbD 63 = false) :
    returnFrom w s =
      match (returned s none).enter s.me.tpc with
      | some e => .next (slotTaken (takeTrap e s.me.tpc (spaced w (returned s none))))
      | none => .next (retireAt w (fun x => { x with pc := s.me.tpc }) (returned s none)) := by
  unfold returnFrom
  simp only [h]
  rfl

theorem returnFrom_of_active {w : BitVec 3} {s : State} (h : s.me.rptst.getLsbD 63 = true) :
    let f := frameOf s.mine s.me.rptst s.me.tpc
    returnFrom w s =
      if frameResident (returned s (some f)).mine f then .next (retireAt w (fun x => { x with pc := s.me.tpc }) (returned s (some f)))
      else .next (slotTaken (takeTrap (.mk' cCODEABSENT s.me.tpc) s.me.tpc (spaced w (returned s (some f))))) := by
  unfold returnFrom
  simp only [h]
  rfl

/-- Settles O8: the privilege, and then the two ways back with their checks. -/
theorem eretReturns : Obligations.EretReturns := by
  unfold Obligations.EretReturns
  intro w s
  refine ⟨fun hu => (exec_eret ..).trans (privThen_low _ _ _ _ (by simp [hu])), fun hs => ?_⟩
  have hexec : exec (.eret w) s = returnFrom w s := by
    rw [exec_eret, execEret, privThen_ok _ _ _ _ (one_le_of_ne_zero hs), issueThen_clear _ _ _ _ (hazard_nil s)]
  intro x target back f
  rw [hexec]
  refine ⟨fun ha => ?_, fun hc ha hf => ?_, fun hc ha hf => ?_⟩
  · rw [returnFrom_of_inactive ha]
    refine ⟨fun ⟨hc, ho⟩ => ?_, fun hc hw hr => ?_⟩
    · rw [enter_returned hc, enter_ok ho]
      rfl
    · rw [enter_returned hc, enter_absent hw hr]
      rfl
  · rw [returnFrom_of_active ha, frameResident_returned, if_pos hf]
    rfl
  · rw [returnFrom_of_active ha, frameResident_returned, if_neg (by rw [hf]; exact Bool.false_ne_true)]
    rfl

end Sys2Proof.Machine
end

section
/-!
HALT, GANG, TSREAD, CNTRD and GEXIT, and what the curtain stop leaves in the partition.
-/

namespace Sys2Proof.Machine

open Sys2Proof

/-! ### The partition of a curtain stop (R386) -/

theorem curtainStop_parts {p : Nat} {reason : BitVec 2} {s : State} (h : (s.part p).state = 1) :
    (curtainStop p reason s).parts = (s.setPart p { s.part p with state := 5, reason := reason }).parts := by
  have := congrArg State.parts (curtainStop_running (reason := reason) h).state
  exact this

theorem curtainStop_msi {p : Nat} {reason : BitVec 2} {s : State} (h : (s.part p).state = 1) :
    (curtainStop p reason s).msi = s.msi ++ [(0, p)] := by
  have := congrArg State.msi (curtainStop_running (reason := reason) h).state
  exact this

theorem curtainStop_part {p : Nat} {reason : BitVec 2} {s : State} (hp : p < 64) (h : (s.part p).state = 1) :
    (curtainStop p reason s).part p = { s.part p with state := 5, reason := reason } := by
  rw [State.part, curtainStop_parts h]
  exact State.part_setPart s p _ hp

/-! ### The end of a group's ctx0 (R168, R407) -/

/-- No engine command of the context has a fault to report. -/
theorem engineThen_quiet {s : State} {k : State → Out} (hp : enginePending s = false)
    (hr : ∀ x ∈ s.engine, x.ctx = s.cur → x.unreported = false) : engineThen s k = k s := by
  have hfind : s.engine.find? (fun c => c.ctx == s.cur && c.unreported) = none :=
    List.find?_eq_none.2 fun x hx h => by
      rw [Bool.and_eq_true, beq_iff_eq] at h
      exact Bool.false_ne_true ((hr x hx h.1).symm.trans h.2)
  rw [engineThen, hp, hfind]
  rfl

theorem engineThen_pending {s : State} {k : State → Out} (hp : enginePending s = true) : engineThen s k = hold s := if_pos hp

/-- A release that holds nothing back and that no failed write meets. -/
theorem releaseThen_done {scope : BitVec 3} {s : State} {k : State → Out} (hh : releaseHolds s.me = false)
    (hr : released s s.cur scope = true) (hf : fabStore s scope = none) : releaseThen scope s k = k s := by
  rw [releaseThen, hf]
  simp [releaseWaits, hh, hr]

/-- A helper of the group lives, or vector work is left. -/
theorem gexitWaits_iff (s : State) :
    ((List.range 10).any (fun i => (s.mine.ctx (i + 1)).live && !(s.mine.ctx (i + 1)).service) = true ∨ (!s.me.vq.isEmpty) = true) ↔
      ((∃ i, 1 ≤ i ∧ i ≤ 10 ∧ (s.mine.ctx i).live = true ∧ (s.mine.ctx i).service = false) ∨ s.me.vq ≠ []) := by
  refine or_congr ?_ (by simp)
  simp only [List.any_eq_true, List.mem_range, Bool.and_eq_true, Bool.not_eq_true']
  refine ⟨fun ⟨i, hi, hl, hv⟩ => ⟨i + 1, by omega, by omega, hl, hv⟩, fun ⟨i, h1, h10, hl, hv⟩ => ⟨i - 1, by omega, ?_⟩⟩
  rw [Nat.sub_add_cancel h1]
  exact ⟨hl, hv⟩

theorem counterOf_of_le {s : State} {n : Nat} (h : 8 ≤ n) : counterOf s n = 0 := by
  simp only [counterOf]
  repeat rw [if_neg (by omega)]

/-- Settles O56: each instruction past its privilege and its hazards. -/
theorem systemInstructions : Obligations.SystemInstructions := by
  unfold Obligations.SystemInstructions
  intro d a w s _ c u
  refine ⟨fun hp h => ⟨?_, ?_⟩, fun core cause whole => State.cluster_setCluster .., fun p r hp => ⟨fun h => ?_, curtainStop_of_not_running⟩,
    fun ⟨h, hd⟩ => ⟨fun ha => ?_, fun ha => ?_⟩, BitVec.toNat_ofNat .., fun h hd => ?_, fun h0 h => ?_⟩
  · rw [exec_halt, execHalt, privThen_ok _ _ _ _ (one_le_of_ne_zero hp), issueThen_clear _ _ _ _ h]
    dsimp only
    rw [finish_cur]
  · rw [exec_gang, execGang, privThen_ok _ _ _ _ (one_le_of_ne_zero hp), issueThen_clear _ _ _ _ h]
  · rw [curtainStop_part hp h, curtainStop_msi h]
    exact ⟨rfl, rfl, rfl⟩
  · rw [exec_tsread, execTsread, issueThen_clear _ _ _ _ h, if_pos ha]
    exact completeWith_ok _ _ _ _ _ hd
  · rw [exec_tsread, execTsread, issueThen_clear _ _ _ _ h, if_neg (by simp [ha]), destThen_ok _ _ _ hd]
    rfl
  · have hexec : exec (.cntrd d a w) s = writes w [a] d (counterOf s (s.rdA a).toNat) s := by
      rw [exec_cntrd, execCntrd, issueThen_clear _ _ _ _ h]
      exact completeWith_ok _ _ _ _ _ hd
    exact ⟨hexec, fun h8 => by rw [hexec, counterOf_of_le h8]⟩
  · intro helpers
    have hexec : exec (.gexit w) s = _ := (exec_gexit ..).trans ((ctx0Then_ok _ _ _ h0).trans (issueThen_clear _ _ _ _ h))
    rw [hexec]
    refine ⟨fun hw => if_pos ((gexitWaits_iff s).2 hw), fun hn hv he => ?_, fun hn hv he hr hh hd hf => ?_⟩
    · rw [if_neg (mt (gexitWaits_iff s).1 (not_or.2 ⟨hn, not_not.2 hv⟩)), engineThen_pending he]
      rfl
    · rw [if_neg (mt (gexitWaits_iff s).1 (not_or.2 ⟨hn, not_not.2 hv⟩)), engineThen_quiet he hr, releaseThen_done hh hd hf]
      have hcur : (if amDetached s then leaveTroupe s.cur.core s else s).cur = s.cur := by split <;> rfl
      have hend (v : State) (hv : v.cur = s.cur) :
          coreEnds (dropResults v.cur (dropTenures v.cur (finish w [] v))).cur.core = coreEnds s.cur.core := by
        rw [← hv]
        exact congrArg (fun e : CtxId => coreEnds e.core) (finish_cur w [] v)
      dsimp only
      rw [hend _ hcur, hcur]

end Sys2Proof.Machine
end

section
/-!
The frame of the scalar instructions: what arithmetic, floating-point, branch, jump and stack instructions leave unchanged.
-/

namespace Sys2Proof.Machine

open Sys2Proof

/-! ### Contexts and states that differ by a scalar instruction (R41, R44, R94) -/

/-- From `x` to `y` a context has gone on by an instruction that gives its results to the register `d`. -/
structure CtxStep (d : Reg) (x y : Ctx) : Prop where
  reg (r : Reg) : r ≠ d → y.reg r = x.reg r ∧ y.isPoisoned r = x.isPoisoned r
  flying : ∀ e ∈ x.inflight, e ∈ y.inflight
  newFlying : ∀ e ∈ y.inflight, e ∈ x.inflight ∨ e.reg = d
  later : ∀ e ∈ x.varRes, e ∈ y.varRes
  newLater : ∀ e ∈ y.varRes, e ∈ x.varRes ∨ e.reg = d
  rest : { y with
    g := x.g, poison := x.poison, pc := x.pc, icount := x.icount, nextIssue := x.nextIssue, yieldTo := x.yieldTo, fwd := x.fwd, wait := x.wait
    frame := x.frame, inflight := x.inflight, varRes := x.varRes, sends := x.sends, fpHold := x.fpHold, enter := x.enter } = x

/-- From `s` to `t` the executing context has gone on by such an instruction. -/
structure ScalarStep (d : Reg) (s t : State) : Prop where
  state : { t with cores := s.cores, note := s.note, nextId := s.nextId } = s
  core (n : Nat) : n ≠ s.cur.core → t.core n = s.core n
  mine : { t.core s.cur.core with
    ctxs := s.mine.ctxs, nextIssue := s.mine.nextIssue, rr := s.mine.rr, issueSeq := s.mine.issueSeq, ports := s.mine.ports
    msgrecv := s.mine.msgrecv, recv := s.mine.recv, sent := s.mine.sent } = s.mine
  ctx (c : CtxId) : c ≠ s.cur → { t.ctx c with yieldTo := (s.ctx c).yieldTo } = s.ctx c
  me : CtxStep d s.me (t.ctx s.cur)

section
variable {d : Reg} {x y z : Ctx} {s t u : State}

theorem CtxStep.trans (h : CtxStep d x y) (g : CtxStep d y z) : CtxStep d x z where
  reg r hr := ⟨(g.reg r hr).1.trans (h.reg r hr).1, (g.reg r hr).2.trans (h.reg r hr).2⟩
  flying e he := g.flying e (h.flying e he)
  newFlying e he := (g.newFlying e he).elim (h.newFlying e) .inr
  later e he := g.later e (h.later e he)
  newLater e he := (g.newLater e he).elim (h.newLater e) .inr
  rest := by rw [← h.rest, ← g.rest]

/-- A context whose registers, results and flags stay. -/
theorem CtxStep.same (hg : y.g = x.g) (hp : y.poison = x.poison) (hi : y.inflight = x.inflight) (hv : y.varRes = x.varRes)
    (hr : { y with
      g := x.g, poison := x.poison, pc := x.pc, icount := x.icount, nextIssue := x.nextIssue, yieldTo := x.yieldTo, fwd := x.fwd, wait := x.wait
      frame := x.frame, inflight := x.inflight, varRes := x.varRes, sends := x.sends, fpHold := x.fpHold, enter := x.enter } = x) :
    CtxStep d x y where
  reg r _ := ⟨by rw [Ctx.reg, hg]; rfl, by rw [Ctx.isPoisoned, hp]; rfl⟩
  flying e he := hi ▸ he
  newFlying e he := .inl (hi ▸ he)
  later e he := hv ▸ he
  newLater e he := .inl (hv ▸ he)
  rest := hr

theorem CtxStep.refl (x : Ctx) : CtxStep d x x := CtxStep.same rfl rfl rfl rfl rfl

theorem ScalarStep.refl (s : State) : ScalarStep d s s := ⟨rfl, fun _ _ => rfl, rfl, fun _ _ => rfl, CtxStep.refl _⟩

theorem ScalarStep.cur (h : ScalarStep d s t) : t.cur = s.cur := by
  have := congrArg State.cur h.state
  exact this

theorem ScalarStep.trans (h : ScalarStep d s t) (g : ScalarStep d t u) : ScalarStep d s u where
  state := by rw [← h.state, ← g.state]
  core n hn := (g.core n (by rwa [h.cur])).trans (h.core n hn)
  mine := by
    have hg := g.mine
    rw [State.mine, h.cur] at hg
    rw [← h.mine, ← hg]
  ctx c hc := by rw [← h.ctx c hc, ← g.ctx c (by rwa [h.cur])]
  me := by
    have hg := g.me
    rw [State.me, h.cur] at hg
    exact h.me.trans hg

theorem ScalarStep.mem (h : ScalarStep d s t) : t.mem = s.mem := by
  have := congrArg State.mem h.state
  exact this

theorem ScalarStep.spad (h : ScalarStep d s t) : t.mine.spad = s.mine.spad := by
  have := congrArg Core.spad h.mine
  rw [State.mine, h.cur]
  exact this

/-- The relation says what `onlyRegister` asks for. -/
theorem ScalarStep.onlyRegister (h : ScalarStep d s t) : onlyRegister d s t := by
  have hcur := h.cur
  have hme : t.me = t.ctx s.cur := by rw [State.me, hcur]
  have hmine : t.mine = t.core s.cur.core := by rw [State.mine, hcur]
  unfold Sys2Proof.onlyRegister
  rw [h.spad, hmine, hme]
  exact ⟨h.state, fun a => congrArg (getByte · a) h.mem, fun _ => rfl, h.core, h.mine, h.ctx, h.me.reg, h.me.flying, h.me.newFlying, h.me.later,
    h.me.newLater, h.me.rest⟩

/-! Each rule says that one operation on the state is such a step. -/

theorem ScalarStep.setMe (hc : s.cur.ctx < 11) (h : CtxStep d s.me x) : ScalarStep d s (s.setMe x) where
  state := rfl
  core n hn := State.core_setMe_ne s x n hn
  mine := by
    rw [State.setMe, State.setCtx, State.core_setCore]
    rfl
  ctx c hn := by
    rw [State.setMe, State.ctx_setCtx_ne _ _ _ _ hn]
  me := by
    rw [State.setMe, State.ctx_setCtx _ _ _ hc]
    exact h

theorem ScalarStep.popPorts (rs : List Reg) (s : State) : ScalarStep d s (popPorts rs s) where
  state := congrArg (fun v : State => { v with cores := s.cores, note := s.note, nextId := s.nextId }) (popPorts_frame rs s)
  core n hn := popPorts_core_ne rs s n hn
  mine := by
    have h := popPorts_mine rs s
    rw [State.mine, popPorts_cur] at h
    rw [h]
  ctx c hn := by rw [popPorts_ctx]
  me := by
    rw [popPorts_ctx]
    exact CtxStep.refl _

theorem ScalarStep.retireAt {w : BitVec 3} {f : Ctx → Ctx} (hc : s.cur.ctx < 11) (hf : ∀ x, CtxStep d x (f x)) :
    ScalarStep d s (retireAt w f s) where
  state := congrArg (fun v : State => { v with cores := s.cores, note := s.note, nextId := s.nextId }) (retireAt_frame w f s)
  core n hn := retireAt_core_ne w f s n hn
  mine := by
    obtain ⟨y, h⟩ := retireAt_mine w f s
    rw [State.mine, retireAt_cur] at h
    rw [h]
    rfl
  ctx c hn := retireAt_ctx_ne w f s c hn
  me := by
    have h := retireAt_me w f s hc
    rw [issued_me w s hc, State.me, retireAt_cur] at h
    rw [h]
    refine CtxStep.trans ?_ (hf _)
    exact CtxStep.same rfl rfl rfl rfl rfl

theorem CtxStep.advance (x : Ctx) : CtxStep d x x.advance := by
  unfold Ctx.advance
  split
  · exact CtxStep.same rfl rfl rfl rfl rfl
  · split
    · exact CtxStep.same rfl rfl rfl rfl rfl
    · exact CtxStep.same rfl rfl rfl rfl rfl

theorem ScalarStep.finish {w : BitVec 3} {rs : List Reg} (hc : t.cur.ctx < 11) (h : ScalarStep d s t) : ScalarStep d s (finish w rs t) :=
  h.trans ((ScalarStep.popPorts rs t).trans (ScalarStep.retireAt (by rwa [popPorts_cur]) CtxStep.advance))

theorem ScalarStep.finishAt {w : BitVec 3} {rs : List Reg} {a : Word} (hc : t.cur.ctx < 11) (h : ScalarStep d s t) :
    ScalarStep d s (finishAt w rs a t) :=
  h.trans ((ScalarStep.popPorts rs t).trans (ScalarStep.retireAt (by rwa [popPorts_cur]) fun _ => CtxStep.same rfl rfl rfl rfl rfl))

/-- Contexts that wait no longer for others to issue. -/
theorem ScalarStep.mapYield (hc : s.cur.ctx < 11) (f : Ctx → List Nat) :
    ScalarStep d s (s.setMine { s.mine with ctxs := s.mine.ctxs.map (fun x => { x with yieldTo := f x }) }) := by
  have hctx (c : CtxId) (hi : c.core = s.cur.core) (hlt : c.ctx < 11) :
      (s.setMine { s.mine with ctxs := s.mine.ctxs.map (fun x => { x with yieldTo := f x }) }).ctx c = { s.ctx c with yieldTo := f (s.ctx c) } := by
    have hs : s.ctx c = s.mine.ctx c.ctx := by rw [State.ctx, State.mine, hi]
    rw [hs, State.ctx, hi, State.setMine, State.core_setCore]
    simp [Core.ctx, hlt]
  refine ⟨rfl, fun n hn => State.core_setMine_ne _ _ _ hn, ?_, fun c _ => ?_, ?_⟩
  · rw [State.setMine, State.core_setCore]
  · by_cases hi : c.core = s.cur.core
    · by_cases hlt : c.ctx < 11
      · rw [hctx c hi hlt]
      · simp [State.ctx, Core.ctx, hlt]
    · rw [State.ctx, State.core_setMine_ne _ _ _ hi]
      rfl
  · rw [hctx s.cur rfl hc]
    exact CtxStep.same rfl rfl rfl rfl rfl

theorem ScalarStep.note {n : Note} (h : ScalarStep d s t) : ScalarStep d s { t with note := n } := ⟨h.state, h.core, h.mine, h.ctx, h.me⟩

theorem ScalarStep.held (hc : s.cur.ctx < 11) : ScalarStep d s (held s) := by
  unfold Machine.held
  refine ScalarStep.note ((ScalarStep.mapYield hc _).trans (ScalarStep.setMe hc ?_))
  exact CtxStep.same rfl rfl rfl rfl rfl

/-! Results: in flight, interlocked, and delivered at once. -/

theorem CtxStep.insertInflight (e : Inflight) (x : Ctx) : CtxStep e.reg x { x with inflight := insertInflight x.inflight e } where
  reg _ _ := ⟨rfl, rfl⟩
  flying _ hf := (mem_insertInflight _ _ _).2 (.inr hf)
  newFlying _ hf := ((mem_insertInflight _ _ _).1 hf).elim (fun h => .inr (h ▸ rfl)) .inl
  later _ h := h
  newLater _ h := .inl h
  rest := rfl

theorem mem_insertVar (l : List VarResult) (e x : VarResult) : x ∈ insertVar l e ↔ x = e ∨ x ∈ l := by
  induction l with
  | nil => simp [insertVar]
  | cons y t ih =>
    simp only [insertVar]
    split
    · simp
    · simp only [List.mem_cons, ih]
      tauto

theorem CtxStep.insertVar (e : VarResult) (x : Ctx) : CtxStep e.reg x { x with varRes := insertVar x.varRes e } where
  reg _ _ := ⟨rfl, rfl⟩
  flying _ h := h
  newFlying _ h := .inl h
  later _ hf := (mem_insertVar _ _ _).2 (.inr hf)
  newLater _ hf := ((mem_insertVar _ _ _).1 hf).elim (fun h => .inr (h ▸ rfl)) .inl
  rest := rfl

theorem ScalarStep.produce {l : Nat} {v : Word} {g : BitVec 8} (hc : s.cur.ctx < 11) : ScalarStep d s (produce l d v g s) :=
  ite_keeps (ScalarStep.refl s) (ScalarStep.setMe hc (CtxStep.insertInflight ⟨d, v, s.cycle + l, s.me.pc, g, s.mine.issueSeq, false, none⟩ s.me))

theorem ScalarStep.produceFpu {l : Nat} {v : Word} {g : BitVec 8} (hc : s.cur.ctx < 11) : ScalarStep d s (produceFpu l d v g s) :=
  ScalarStep.setMe hc (CtxStep.insertInflight ⟨d, v, s.cycle + l, s.me.pc, g, s.mine.issueSeq, true, none⟩ s.me)

theorem ScalarStep.produceLater {l : Nat} {v : Word} {g : BitVec 8} (hc : s.cur.ctx < 11) : ScalarStep d s (produceLater l d v g s) :=
  ScalarStep.setMe hc (CtxStep.insertVar ⟨d, v, s.cycle + l, g, s.mine.issueSeq, false, none⟩ s.me)

theorem ScalarStep.produceFpuLater {l : Nat} {v : Word} {g : BitVec 8} (hc : s.cur.ctx < 11) : ScalarStep d s (produceFpuLater l d v g s) :=
  ScalarStep.setMe hc (CtxStep.insertVar ⟨d, v, s.cycle + l, g, s.mine.issueSeq, true, none⟩ s.me)

theorem CtxStep.setReg (x : Ctx) (r : Reg) (v : Word) : CtxStep r x (x.setReg r v) where
  reg u hu := ⟨Ctx.reg_setReg_ne _ _ _ _ hu, Ctx.isPoisoned_setReg_ne _ _ _ _ hu⟩
  flying e he := by simpa using he
  newFlying e he := .inl (by simpa using he)
  later e he := by simpa using he
  newLater e he := .inl (by simpa using he)
  rest := by
    rw [Ctx.setReg_eq]

/-- A core whose contexts stay leaves every context as it was. -/
theorem State.ctx_setCore_of_ctxs (s : State) (n : Nat) (k : Core) (c : CtxId) (hk : k.ctxs = (s.core n).ctxs) :
    (s.setCore n k).ctx c = s.ctx c := by
  by_cases hc : c.core = n
  · subst hc
    simp [State.ctx, Core.ctx, hk]
  · rw [State.ctx, State.core_setCore_ne _ _ _ _ hc]
    rfl

theorem ScalarStep.sendWord {q : Nat} {v : Word} {k : Option Word} (hc : s.cur.ctx < 11) : ScalarStep d s (sendWord s s.cur q v k) where
  state := rfl
  core n hn := by
    unfold Machine.sendWord
    simp only [State.setCtx]
    rw [State.core_setCore_ne _ _ _ _ hn]
    exact State.core_setCore_ne _ _ _ _ hn
  mine := by
    unfold Machine.sendWord
    simp only [State.setCtx, State.core_setCore]
    rfl
  ctx c hn := by
    unfold Machine.sendWord
    dsimp only
    rw [State.ctx_setCtx_ne _ _ _ _ hn, State.ctx_setCore_of_ctxs _ _ _ _ (by rfl)]
    rfl
  me := by
    rw [sendWord_ctx _ _ _ _ _ hc]
    exact CtxStep.same rfl rfl rfl rfl rfl

theorem ScalarStep.deliver {v : Word} (hc : s.cur.ctx < 11) : ScalarStep d s (deliver d v s) := by
  unfold Machine.deliver writeResult
  have h1 : ScalarStep d s (s.setCtx s.cur { s.ctx s.cur with fflags := (s.ctx s.cur).fflags ||| 0 }) := by
    have h0 : (s.ctx s.cur).fflags ||| 0 = (s.ctx s.cur).fflags := BitVec.or_zero
    rw [h0]
    exact ScalarStep.setMe hc (CtxStep.refl s.me)
  refine ite_keeps (h1.trans (ScalarStep.sendWord hc)) (h1.trans (ScalarStep.setMe hc ?_))
  exact CtxStep.setReg ..

end

/-! ### Outcomes of scalar instructions -/

/-- An outcome that, unless it is a trap, is a state with the property `P`. -/
def Untrapped (P : State → Prop) (o : Out) : Prop := ∀ t, o = .next t → t.note ≠ .trapped → P t

section
variable {P : State → Prop} {s t : State}

theorem Untrapped.next (h : P t) : Untrapped P (.next t) := by
  rintro u ⟨⟩ -
  exact h

theorem Untrapped.trapped (h : t.note = .trapped) : Untrapped P (.next t) := by
  rintro u ⟨⟩ hn
  exact absurd h hn

theorem Untrapped.trap (e : Trap) (s : State) : Untrapped P (trap e s) :=
  Untrapped.trapped ((slotTaken_note _).trans (takeTrap_note ..))

theorem Untrapped.issueThen {rs ds : List Reg} {k : State → Out} (hh : P (held s)) (h : Untrapped P (k s)) :
    Untrapped P (issueThen rs ds s k) := by
  unfold Machine.issueThen
  split
  · exact Untrapped.next hh
  · exact Untrapped.trap _ _
  · exact h

theorem Untrapped.destThen {d : Reg} {k : State → Out} (h : Untrapped P (k s)) : Untrapped P (destThen d s k) := by
  unfold Machine.destThen
  split
  · exact Untrapped.trap _ _
  · exact h

theorem Untrapped.failThen {e : Option Trap} {k : State → Out} (h : Untrapped P (k s)) : Untrapped P (failThen e s k) := by
  unfold Machine.failThen
  split
  · exact Untrapped.trap _ _
  · exact h

end

/-- An outcome that, unless it is a trap, is a step from `s` that gives its results to the register `d`. -/
def Scalar (d : Reg) (s : State) (o : Out) : Prop := Untrapped (ScalarStep d s) o

section
variable {d a b : Reg} {w : BitVec 3} {s : State} {i : Instr}

theorem Scalar.issueThen {rs ds : List Reg} {k : State → Out} (hc : s.cur.ctx < 11) (h : Scalar d s (k s)) :
    Scalar d s (issueThen rs ds s k) :=
  Untrapped.issueThen (ScalarStep.held hc) h

theorem Scalar.hold (hc : s.cur.ctx < 11) : Scalar d s (hold s) := Untrapped.next (ScalarStep.held hc)

theorem Scalar.failThen {e : Option Trap} {k : State → Out} (h : Scalar d s (k s)) : Scalar d s (failThen e s k) := Untrapped.failThen h

theorem Scalar.destThen {k : State → Out} (h : Scalar d s (k s)) : Scalar d s (destThen d s k) := Untrapped.destThen h

/-- An instruction whose result is in flight. -/
theorem Scalar.produce {rs : List Reg} {l : Nat} {v : Word} (hc : s.cur.ctx < 11) :
    Scalar d s (.next (finish w rs (produce l d v 0 s))) :=
  Untrapped.next (ScalarStep.finish (by simpa using hc) (ScalarStep.produce hc))

/-! The shared forms. -/

theorem Scalar.alu0 {f : State → Word} (hc : s.cur.ctx < 11) (h : exec i s = alu0 f d w s) : Scalar d s (exec i s) :=
  h ▸ Scalar.issueThen hc (Scalar.destThen (Scalar.produce hc))

theorem Scalar.alu1 {l : Nat} {f : Word → Word} (hc : s.cur.ctx < 11) (h : exec i s = alu1 l f d a w s) : Scalar d s (exec i s) :=
  h ▸ Scalar.issueThen hc (Scalar.destThen (Scalar.produce hc))

theorem Scalar.alu2 {l : Nat} {f : Word → Word → Word} (hc : s.cur.ctx < 11) (h : exec i s = alu2 l f d a b w s) : Scalar d s (exec i s) :=
  h ▸ Scalar.issueThen hc (Scalar.destThen (Scalar.produce hc))

theorem Scalar.alu3 {l : Nat} {f : Word → Word → Word → Word} (hc : s.cur.ctx < 11) (h : exec i s = alu3 l f d a b w s) :
    Scalar d s (exec i s) :=
  h ▸ Scalar.issueThen hc (Scalar.destThen (Scalar.produce hc))

theorem Scalar.aluDiv {l : Word → Word → Nat} {f : Word → Word → Word} (hc : s.cur.ctx < 11) (h : exec i s = aluDiv l f d a b w s) :
    Scalar d s (exec i s) :=
  h ▸ Scalar.issueThen hc (Scalar.destThen (Untrapped.next (ScalarStep.finish (by simpa using hc) (ScalarStep.produceLater hc))))

theorem ScalarStep.holdUntil {n : Nat} (hc : t.cur.ctx < 11) (h : ScalarStep d s t) : ScalarStep d s (holdUntil n t) := by
  refine h.trans (ScalarStep.setMe hc ?_)
  exact CtxStep.same rfl rfl rfl rfl rfl

theorem Scalar.fpuEnd {l : Nat} {interlocked : Bool} {rs : List Reg} {r : Word × BitVec 8} (hc : s.cur.ctx < 11) :
    Scalar d s (fpuEnd l interlocked w rs d r s) := by
  unfold Machine.fpuEnd
  split
  · exact Untrapped.trapped rfl
  · have hp : ScalarStep d s (if interlocked then produceFpuLater l d r.1 r.2 s else produceFpu l d r.1 r.2 s) :=
      ite_keeps (ScalarStep.produceFpuLater hc) (ScalarStep.produceFpu hc)
    have hf := ScalarStep.finish (w := w) (rs := rs) (by rwa [hp.cur]) hp
    exact Untrapped.next (ite_keeps (ScalarStep.holdUntil (by rwa [hf.cur]) hf) hf)

theorem Scalar.fpu {l : Nat} {interlocked : Bool} {rs : List Reg} {f : Ctx → List Word → Word × BitVec 8} (hc : s.cur.ctx < 11)
    (h : exec i s = fpu l interlocked rs f d w s) : Scalar d s (exec i s) :=
  h ▸ Scalar.issueThen hc (Scalar.destThen (Scalar.fpuEnd hc))

theorem Scalar.finishAt {rs : List Reg} {p : Word} (hc : s.cur.ctx < 11) : Scalar d s (.next (finishAt w rs p s)) :=
  Untrapped.next (ScalarStep.finishAt hc (ScalarStep.refl s))

theorem Scalar.finishAt_deliver {rs : List Reg} {p v : Word} (hc : s.cur.ctx < 11) : Scalar d s (.next (Machine.finishAt w rs p (deliver d v s))) :=
  Untrapped.next (ScalarStep.finishAt (by simpa using hc) (ScalarStep.deliver hc))

theorem Scalar.branch {cond : Word → Word → Bool} {o : BitVec 10} (hc : s.cur.ctx < 11) (h : exec i s = branch cond a b o w s) :
    Scalar d s (exec i s) :=
  h ▸ Scalar.issueThen hc (ite_keeps (Scalar.failThen (Scalar.finishAt hc)) (Untrapped.next (ScalarStep.finish hc (ScalarStep.refl s))))

theorem Scalar.jump {o : BitVec 23} (hc : s.cur.ctx < 11) : Scalar d s (exec (.j o w) s) :=
  exec_j .. ▸ Scalar.issueThen hc (Scalar.failThen (Scalar.finishAt hc))

theorem Scalar.jumpReg (hc : s.cur.ctx < 11) : Scalar d s (exec (.jr a w) s) :=
  exec_jr .. ▸ Scalar.issueThen hc (Scalar.failThen (Scalar.failThen (Scalar.finishAt hc)))

theorem Scalar.jumpLink (hc : s.cur.ctx < 11) : Scalar d s (exec (.jalr d a w) s) :=
  exec_jalr .. ▸ Scalar.issueThen hc (Scalar.failThen (Scalar.failThen (Scalar.destThen (Scalar.finishAt_deliver hc))))

theorem Scalar.farJump (hc : s.cur.ctx < 11) : Scalar d s (exec (.fjmp a w) s) :=
  exec_fjmp .. ▸ Scalar.issueThen hc (Scalar.failThen (ite_keeps (ite_keeps (Scalar.hold hc) (Untrapped.trap _ _))
    (Scalar.failThen (Scalar.finishAt hc))))

theorem Scalar.ret (hc : s.cur.ctx < 11) : Scalar 27 s (exec (.ret w) s) :=
  exec_ret .. ▸ Scalar.issueThen hc (Scalar.failThen (ite_keeps (Scalar.hold hc) (Scalar.failThen (Scalar.failThen
    (Scalar.finishAt_deliver hc)))))

theorem Scalar.ins {p : BitVec 6} {l : BitVec 5} (hc : s.cur.ctx < 11) : Scalar d s (exec (.ins d a p l w) s) :=
  exec_ins .. ▸ Scalar.issueThen hc (Scalar.destThen (Scalar.produce hc))

end

/-! ### Calls (R124) -/

/-- From `s` to `t` only bytes of the core's scratchpad have changed. -/
structure Stored (s t : State) : Prop where
  state : { t with cores := s.cores } = s
  core (n : Nat) : n ≠ s.cur.core → t.core n = s.core n
  mine : { t.core s.cur.core with spad := s.mine.spad } = s.mine

section
variable {d : Reg} {s t u : State}

theorem Stored.refl (s : State) : Stored s s := ⟨rfl, fun _ _ => rfl, rfl⟩

theorem Stored.setSpad (s : State) (m : Memory) : Stored s (s.setMine { s.mine with spad := m }) where
  state := rfl
  core n hn := State.core_setMine_ne _ _ _ hn
  mine := by
    rw [State.setMine, State.core_setCore]

theorem Stored.cur (h : Stored s t) : t.cur = s.cur := by
  have := congrArg State.cur h.state
  exact this

theorem Stored.ctx (h : Stored s t) (c : CtxId) : t.ctx c = s.ctx c := by
  by_cases hc : c.core = s.cur.core
  · have := congrArg (Core.ctx · c.ctx) h.mine
    rw [State.ctx, State.ctx, hc]
    exact this
  · rw [State.ctx, h.core _ hc]
    rfl

/-- A step from a state whose scratchpad was written is, but for the scratchpad, a step from before. -/
theorem ScalarStep.unstore (h : Stored s u) (g : ScalarStep d u t) : ScalarStep d s (t.setMine { t.mine with spad := s.mine.spad }) := by
  have hcur : t.cur = s.cur := g.cur.trans h.cur
  have hctx (c : CtxId) : (t.setMine { t.mine with spad := s.mine.spad }).ctx c = t.ctx c := State.ctx_setCore_of_ctxs _ _ _ _ rfl
  refine ⟨?_, fun n hn => ?_, ?_, fun c hn => ?_, ?_⟩
  · rw [← h.state, ← g.state]
    rfl
  · rw [State.core_setMine_ne _ _ _ (by rwa [hcur]), g.core _ (by rwa [h.cur]), h.core _ hn]
  · have hg := g.mine
    rw [State.mine, h.cur] at hg
    rw [State.setMine, hcur, State.core_setCore, State.mine, hcur, ← h.mine, ← hg]
  · rw [hctx, ← h.ctx c]
    exact g.ctx c (by rwa [h.cur])
  · have := g.me
    rw [State.me, h.cur, h.ctx] at this
    rw [hctx]
    exact this

end

/-- What a call comes to: a trap, a hold, or the return address in scratchpad and then the jump. -/
theorem callTo_cases (w : BitVec 3) (rs : List Reg) (p : Word) (s : State) :
    (∃ e, callTo w rs p s = trap e s) ∨ callTo w rs p s = hold s ∨
      callTo w rs p s = .next (finishAt w rs p (deliver 27 (s.me.reg 27 - 8) (s.setMine
        { s.mine with spad := writeLe s.mine.spad (s.me.reg 27 - 8).toNat 8 (s.me.pc + 4).toNat }))) := by
  unfold callTo
  dsimp only
  cases slotCheck s (s.me.reg spReg - 8) with
  | some e => exact .inl ⟨e, rfl⟩
  | none =>
    simp only [failThen]
    cases s.enter p with
    | some e => exact .inl ⟨e, rfl⟩
    | none =>
      dsimp only
      split
      · exact .inr (.inl rfl)
      · exact .inr (.inr rfl)

/-- What a call leaves unchanged from `s` to `t`: all but its slot of scratchpad and the registers of a scalar step. -/
structure CallStep (s t : State) : Prop where
  only : onlyRegister 27 s (t.setMine { t.mine with spad := s.mine.spad })
  spad (n : Nat) : n < (s.me.reg 27 - 8).toNat ∨ (s.me.reg 27 - 8).toNat + 8 ≤ n → getByte t.mine.spad n = getByte s.mine.spad n
  mem (n : Nat) : getByte t.mem n = getByte s.mem n

theorem CallStep.of_stored {s t u : State} (h : Stored s u) (g : ScalarStep 27 u t)
    (hm : ∀ n, n < (s.me.reg 27 - 8).toNat ∨ (s.me.reg 27 - 8).toNat + 8 ≤ n → getByte u.mine.spad n = getByte s.mine.spad n) :
    CallStep s t where
  only := (ScalarStep.unstore h g).onlyRegister
  spad n hn := by rw [g.spad, hm n hn]
  mem n := by
    have := congrArg State.mem h.state
    rw [g.mem]
    exact congrArg (getByte · n) this

section
variable {w : BitVec 3} {s : State}

theorem CallStep.held (hc : s.cur.ctx < 11) : CallStep s (held s) := CallStep.of_stored (Stored.refl s) (ScalarStep.held hc) fun _ _ => rfl

theorem callTo_step {rs : List Reg} {p : Word} (hc : s.cur.ctx < 11) : Untrapped (CallStep s) (callTo w rs p s) := by
  rcases callTo_cases w rs p s with ⟨e, h⟩ | h | h <;> rw [h]
  · exact Untrapped.trap _ _
  · exact Untrapped.next (CallStep.held hc)
  · refine Untrapped.next (CallStep.of_stored (Stored.setSpad s _) (ScalarStep.finishAt (by simpa using hc) (ScalarStep.deliver hc)) fun n hn => ?_)
    rw [State.mine_setMine]
    exact getByte_writeLe_outside _ _ _ _ _ hn

theorem call_step {o : BitVec 23} (hc : s.cur.ctx < 11) : Untrapped (CallStep s) (exec (.call o w) s) :=
  exec_call .. ▸ Untrapped.issueThen (CallStep.held hc) (callTo_step hc)

theorem callr_step {a : Reg} (hc : s.cur.ctx < 11) : Untrapped (CallStep s) (exec (.callr a w) s) :=
  exec_callr .. ▸ Untrapped.issueThen (CallStep.held hc) (Untrapped.failThen (callTo_step hc))

end

/-- Settles O25: each instruction is of one of the shared forms, or a jump, a call or a return. -/
theorem scalarFrame : Obligations.ScalarFrame := by
  unfold Obligations.ScalarFrame
  intro d a b i o l u n pos len w s t hc
  have lift {r : Reg} {js : List Instr} (h : ∀ x ∈ js, Scalar r s (exec x s)) :
      ∀ x ∈ js, exec x s = .next t → t.note ≠ .trapped → onlyRegister r s t := fun x hx ht hn => (h x hx t ht hn).onlyRegister
  have hcall {js : List Instr} (h : ∀ x ∈ js, Untrapped (CallStep s) (exec x s)) (x : Instr) (hx : x ∈ js) (ht : exec x s = .next t)
      (hn : t.note ≠ .trapped) : CallStep s t := h x hx t ht hn
  refine ⟨lift ?_, lift ?_, fun x hx ht hn => ?_, fun ht hn => (Scalar.ret hc t ht hn).onlyRegister⟩
  · simp only [List.forall_mem_cons]
    exact ⟨Scalar.alu2 hc (exec_add ..), Scalar.alu2 hc (exec_sub ..), Scalar.alu2 hc (exec_and ..), Scalar.alu2 hc (exec_or ..),
      Scalar.alu2 hc (exec_xor ..),
      Scalar.alu2 hc (exec_andn ..), Scalar.alu2 hc (exec_shl ..), Scalar.alu2 hc (exec_shr ..), Scalar.alu2 hc (exec_sar ..),
      Scalar.alu2 hc (exec_rol ..), Scalar.alu2 hc (exec_ror ..), Scalar.alu2 hc (exec_slt ..), Scalar.alu2 hc (exec_sltu ..),
      Scalar.alu2 hc (exec_seq ..), Scalar.alu2 hc (exec_min ..), Scalar.alu2 hc (exec_max ..), Scalar.alu2 hc (exec_minu ..),
      Scalar.alu2 hc (exec_maxu ..), Scalar.alu2 hc (exec_mul ..), Scalar.alu2 hc (exec_mulh ..), Scalar.alu2 hc (exec_mulhu ..),
      Scalar.aluDiv hc (exec_div ..), Scalar.aluDiv hc (exec_divu ..), Scalar.aluDiv hc (exec_rem ..), Scalar.aluDiv hc (exec_remu ..),
      Scalar.alu1 hc (exec_clz ..), Scalar.alu1 hc (exec_ctz ..), Scalar.alu1 hc (exec_popc ..), Scalar.alu1 hc (exec_brev ..),
      Scalar.alu1 hc (exec_sextB ..), Scalar.alu1 hc (exec_sextH ..), Scalar.alu1 hc (exec_sextW ..), Scalar.alu1 hc (exec_zextW ..),
      Scalar.alu3 hc (exec_sel ..), Scalar.alu2 hc (exec_addw ..), Scalar.alu2 hc (exec_subw ..), Scalar.alu2 hc (exec_mulw ..),
      Scalar.alu1 hc (exec_addi ..), Scalar.alu1 hc (exec_andi ..), Scalar.alu1 hc (exec_ori ..), Scalar.alu1 hc (exec_xori ..),
      Scalar.alu1 hc (exec_slti ..), Scalar.alu1 hc (exec_sltiu ..), Scalar.alu1 hc (exec_shli ..), Scalar.alu1 hc (exec_shri ..),
      Scalar.alu1 hc (exec_sari ..), Scalar.alu1 hc (exec_roli ..), Scalar.alu0 hc (exec_lui ..), Scalar.alu0 hc (exec_adr ..),
      Scalar.alu1 hc (exec_extu ..), Scalar.alu1 hc (exec_exts ..), Scalar.ins hc, Scalar.fpu hc (exec_fadd ..), Scalar.fpu hc (exec_fsub ..),
      Scalar.fpu hc (exec_fmul ..), Scalar.fpu hc (exec_fma ..), Scalar.fpu hc (exec_fnma ..), Scalar.fpu hc (exec_fdiv ..),
      Scalar.fpu hc (exec_fsqrt ..), Scalar.fpu hc (exec_fmin ..), Scalar.fpu hc (exec_fmax ..), Scalar.fpu hc (exec_feq ..),
      Scalar.fpu hc (exec_flt ..), Scalar.fpu hc (exec_fle ..), Scalar.fpu hc (exec_fclass ..), Scalar.fpu hc (exec_fabs ..),
      Scalar.fpu hc (exec_fneg ..), Scalar.fpu hc (exec_cvtF32I64 ..), Scalar.fpu hc (exec_cvtI64F32 ..), Scalar.fpu hc (exec_cvtF32N64 ..),
      Scalar.fpu hc (exec_cvtN64F32 ..), Scalar.fpu hc (exec_cvtBf16F32 ..), Scalar.fpu hc (exec_cvtF32Bf16 ..),
      Scalar.fpu hc (exec_cvtE4m3F32 ..), Scalar.fpu hc (exec_cvtF32E4m3 ..), Scalar.fpu hc (exec_cvtE5m2F32 ..),
      Scalar.fpu hc (exec_cvtF32E5m2 ..), Scalar.fpu hc (exec_frnd ..), Scalar.jumpLink hc,
      List.forall_mem_nil _⟩
  · simp only [List.forall_mem_cons]
    exact ⟨Scalar.branch hc (exec_beq ..), Scalar.branch hc (exec_bne ..), Scalar.branch hc (exec_blt ..), Scalar.branch hc (exec_bge ..),
      Scalar.branch hc (exec_bltu ..), Scalar.branch hc (exec_bgeu ..), Scalar.jump hc, Scalar.jumpReg hc, Scalar.farJump hc,
      List.forall_mem_nil _⟩
  · have hs : CallStep s t := hcall (List.forall_mem_cons.2 ⟨call_step hc, List.forall_mem_singleton.2 (callr_step hc)⟩) x hx ht hn
    exact ⟨hs.only, hs.spad, hs.mem⟩

end Sys2Proof.Machine
end

section
/-!
Line pointers, and the element adds of VAMO.
-/

namespace Sys2Proof.Machine

open Sys2Proof

/-! ### Reaching a place -/

/-- An access that reaches its place goes on there. -/
theorem preciseLoc_reaches {addr : Word} {n : Nat} {need : Need} {s u : State} {l : Loc} {k : Loc → State → Out}
    (h : reaches 3 addr n need s u l) : preciseLoc addr n need s k = k l u := by
  obtain ⟨hring, hres, hplace, hloss⟩ := h
  unfold preciseLoc
  rw [hring, hres, if_neg Bool.false_ne_true]
  dsimp only
  rw [placedThen, hplace, if_neg Bool.false_ne_true, hloss]

theorem lineCheck_single {k : Core} {l : Nat} (h : l < spLines k.spsize) : lineCheck k [l] = none := by
  simp [lineCheck, h]

/-! ### Line pointers (R169) -/

theorem setWidth_eq_ofNat (v : Word) : v.setWidth 16 = BitVec.ofNat 16 (v.toNat % 2 ^ 16) := by
  apply BitVec.eq_of_toNat_eq
  simp

theorem ptr_add_eq (p : BitVec 16) (v : Word) : p + v.setWidth 16 = BitVec.ofNat 16 ((p.toNat + v.toNat) % 2 ^ 16) := by
  apply BitVec.eq_of_toNat_eq
  simp

theorem ptr_addi_eq (p : BitVec 16) (i : BitVec 13) : p + i.signExtend 16 = BitVec.ofNat 16 (((p.toNat : Int) + i.toInt) % 2 ^ 16).toNat := by
  apply BitVec.eq_of_toNat_eq
  rw [BitVec.toNat_add, BitVec.signExtend, BitVec.toNat_ofInt, BitVec.toNat_ofNat]
  omega

theorem zext_ptr_eq (x : Ctx) (r : Reg) : (zext (x.ptr r) : Word) = BitVec.ofNat 64 (x.p[r.toNat]?.getD 0).toNat := by
  apply BitVec.eq_of_toNat_eq
  simp [zext, Ctx.ptr]

/-! ### VAMO (R436) -/

section
variable {a b : Reg} {w : BitVec 3} {s u : State} {ty : BitVec 2} {i : Instr}

theorem vamo_misaligned (h : Ready [a] s) (hi : exec i s = vamo ty a b w s) (hf : formCheck s.ptlen (s.rdA a) = none)
    (hm : (s.rdA a).toNat % 128 ≠ 0) : exec i s = trap (.mk' cMISALIGN (s.rdA a)) s := by
  rw [hi, vamo, issueThen_clear _ _ _ _ h]
  dsimp only
  rw [failThen_of_none hf, failThen_of_some (if_pos hm)]

theorem vamoAll_eq (ty : BitVec 2) : vamoAll ty = if ty = 1 then 2 ^ 64 - 1 else 2 ^ 32 - 1 := by
  have h64 : (2 : BitVec 64) ^ 64 = 0 := (pow_mul 2 8 8).trans rfl
  rw [vamoAll, h64]
  split
  · rfl
  · rfl

/-- Where the quarter of the line begins in the scratchpad. -/
theorem quarter_eq (v : Word) : (v.extractLsb' 7 2).toNat = v.toNat / 128 % 4 := by
  rw [BitVec.extractLsb'_toNat, Nat.shiftRight_eq_div_pow]

theorem vamo_queued (h : Ready [a] s) (hi : exec i s = vamo ty a b w s) (hf : formCheck s.ptlen (s.rdA a) = none)
    (hm : (s.rdA a).toNat % 128 = 0) (hl : isLocal (s.rdA a) = false) (hb : s.me.lineNo b < spLines s.mine.spsize) :
    let off := 512 * s.me.lineNo b + 128 * ((s.rdA a).toNat / 128 % 4)
    spadBusy s.mine off 128 false = false → orderHolds s (BitVec.ofNat 64 off) 128 false = false →
      ∀ loc, reaches 3 (s.rdA a) 128 needRW s u loc →
        exec i s = .next (finish w [a] (addReq (mkReq u (s.rdA a) loc 128
          (.vamo ty (BitVec.ofNat 1024 (readLe u.mine.spad off 128)) (if ty = 1 then 2 ^ 64 - 1 else 2 ^ 32 - 1))) u)) := by
  intro off hbusy hord loc hr
  rw [hi, vamo, issueThen_clear _ _ _ _ h]
  dsimp only
  rw [failThen_of_none hf, failThen_of_none (if_neg (not_not.2 hm)), failThen_of_none (by rw [hl]; rfl),
    failThen_of_none (lineCheck_single hb), quarter_eq, if_neg (by rw [hbusy, hord]; decide), preciseLoc_reaches hr, readRange_eq, vamoAll_eq]

end

/-- Settles O44: the value that each line-pointer instruction writes, and VAMO's checks and its request. -/
theorem linePointersAndVamo : Obligations.LinePointersAndVamo := by
  unfold Obligations.LinePointersAndVamo
  intro d a b i w s put p
  refine ⟨fun h => ?_, fun h => ?_, ?_, fun ⟨h, hd⟩ => ?_, fun h => ?_⟩
  · rw [exec_pset, execPset, issueThen_clear _ _ _ _ h, setWidth_eq_ofNat]
    rfl
  · rw [exec_padd, execPadd, issueThen_clear _ _ _ _ h, ptr_add_eq]
    rfl
  · rw [exec_paddi, execPaddi, issueThen_clear _ _ _ _ (hazard_nil s), ptr_addi_eq]
    rfl
  · rw [exec_pget, execPget, issueThen_clear _ _ _ _ h, destThen_ok _ _ _ hd, zext_ptr_eq]
    rfl
  · intro addr l off
    refine ⟨fun hf hm => ?_, fun hf hm hl hb hbusy hord u loc hr => ?_⟩
    · simp only [List.forall_mem_cons]
      exact ⟨vamo_misaligned h (exec_vamoF32 ..) hf hm, vamo_misaligned h (exec_vamoBf16 ..) hf hm, vamo_misaligned h (exec_vamoI32 ..) hf hm,
        List.forall_mem_nil _⟩
    · simp only [List.forall_mem_cons]
      exact ⟨vamo_queued h (exec_vamoF32 ..) hf hm hl hb hbusy hord loc hr, vamo_queued h (exec_vamoBf16 ..) hf hm hl hb hbusy hord loc hr,
        vamo_queued h (exec_vamoI32 ..) hf hm hl hb hbusy hord loc hr, List.forall_mem_nil _⟩

end Sys2Proof.Machine
end

section
/-!
Event counters, WFE, the strings, the control registers, and writes of the pages' registers.
-/

namespace Sys2Proof.Machine

open Sys2Proof

/-! ### Event counters (R144, R254) -/

theorem setEv_same {k : Core} {n : Nat} (v : Word) (h : n < 8) : (setEv k n v).evcnt[n]?.getD 0 = v := by simp [setEv, h]

theorem setEv_ne {k : Core} {n m : Nat} (v : Word) (h : m ≠ n) : (setEv k n v).evcnt[m]? = k.evcnt[m]? :=
  Vector.getElem?_setIfInBounds_ne (Ne.symm h)

theorem signalEvent_evcnt (core n : Nat) (s : State) :
    ((signalEvent core n s).core core).evcnt = (setEv (s.core core) n ((s.core core).evcnt[n]?.getD 0 + 1)).evcnt := by
  unfold signalEvent pulse
  rw [State.core_setCore, State.core_setCore]
  rfl

/-! ### The end of a cycle in the strings (R120, R254, R258) -/

/-- A counter counts one event of a source where it is enabled for it. -/
def countOne (src : Nat) (v : Word) : Word := if v.getLsbD 4 ∧ (v.extractLsb' 0 4).toNat = src then v + 0x100000000#64 else v

theorem strCount_strcnt (k : Core) (src i : Nat) (hi : i < 8) : (strCount k src).strcnt[i]?.getD 0 = countOne src (k.strcnt[i]?.getD 0) := by
  simp [strCount, countOne, hi]

/-- Counting changes neither the source of a counter nor whether it is enabled. -/
theorem getLsbD_add_event (v : Word) {j : Nat} (hj : j < 32) : (v + 0x100000000#64).getLsbD j = v.getLsbD j := by
  have h : (v + 0x100000000#64).toNat = (2 ^ 32 + v.toNat) % 2 ^ 64 := by
    rw [BitVec.toNat_add, Nat.add_comm]
    rfl
  rw [BitVec.getLsbD, BitVec.getLsbD, h, Nat.testBit_mod_two_pow, Nat.testBit_two_pow_add_gt hj]
  simp [show j < 64 by omega]

theorem source_add_event (v : Word) : (v + 0x100000000#64).extractLsb' 0 4 = v.extractLsb' 0 4 := by
  refine BitVec.eq_of_getLsbD_eq fun i hi => ?_
  simp only [BitVec.getLsbD_extractLsb', Nat.zero_add, getLsbD_add_event v (show i < 32 by omega)]

/-- Sources that are counted one after the other reach a counter at most once. -/
theorem foldl_strCount (i : Nat) (hi : i < 8) (l : List Nat) (hl : l.Nodup) (k : Core) :
    let v := k.strcnt[i]?.getD 0
    (l.foldl strCount k).strcnt[i]?.getD 0 =
      if v.getLsbD 4 = true ∧ (v.extractLsb' 0 4).toNat ∈ l then v + 0x100000000#64 else v := by
  induction l generalizing k with
  | nil => simp
  | cons src t ih =>
    obtain ⟨hsrc, ht⟩ := List.nodup_cons.1 hl
    intro v
    rw [List.foldl_cons, ih ht, strCount_strcnt k src i hi]
    by_cases he : v.getLsbD 4 = true ∧ (v.extractLsb' 0 4).toNat = src
    · have hone : countOne src v = v + 0x100000000#64 := if_pos he
      rw [hone, getLsbD_add_event v (by decide), source_add_event, he.2, if_neg (fun h => hsrc h.2), if_pos ⟨he.1, by simp⟩]
    · have hone : countOne src v = v := if_neg he
      rw [hone]
      refine if_congr ?_ rfl rfl
      rw [List.mem_cons]
      tauto

theorem strEndCycle_strcnt (m : Core) (i : Nat) (hi : i < 8) :
    let v := m.strcnt[i]?.getD 0
    (strEndCycle m).strcnt[i]?.getD 0 =
      if v.getLsbD 4 = true ∧ m.strNext.getLsbD (v.extractLsb' 0 4).toNat = true then v + 0x100000000#64 else v := by
  intro v
  unfold strEndCycle
  split
  next h => simp [h.2, v]
  next h =>
    refine (foldl_strCount i hi _ (List.nodup_range.filter _) m).trans (if_congr (and_congr_right fun _ => ?_) rfl rfl)
    have hlt : (v.extractLsb' 0 4).toNat < 16 := BitVec.isLt _
    rw [List.mem_filter, List.mem_range]
    exact and_iff_right hlt

theorem strEndCycle_pulses (m : Core) : (strEndCycle m).strNext = m.strPulse ∧ (strEndCycle m).strPulse = 0 := by
  unfold strEndCycle
  split
  next h => exact ⟨h.2.trans h.1.symm, h.1⟩
  next h => exact ⟨rfl, rfl⟩

/-! ### Access to control registers (R62, R63, R111, R119) -/

section
variable {op : BitVec 2} {word : IWord} {d a : Reg} {c : BitVec 11} {w : BitVec 3} {s : State} {i : Instr}

/-! Each of the four is `csr` with its operation and its own word. -/

theorem exec_crr_eq : exec (.crr d c w) s = csr 0 (encode (.crr d c w)) d 0 c w s := exec_crr ..

theorem exec_crw_eq : exec (.crw d a c w) s = csr 1 (encode (.crw d a c w)) d a c w s := exec_crw ..

theorem exec_crset_eq : exec (.crset d a c w) s = csr 2 (encode (.crset d a c w)) d a c w s := exec_crset ..

theorem exec_crclr_eq : exec (.crclr d a c w) s = csr 3 (encode (.crclr d a c w)) d a c w s := exec_crclr ..

theorem csr_undefined (h : csrDefined c.toNat = false) (hi : exec i s = csr op word d a c w s) :
    exec i s = trap (.mk' cILLEGAL (BitVec.setWidth 64 word)) s := by
  rw [hi, csr]
  exact if_pos (by rw [h]; rfl)

variable (h : csrDefined c.toNat = true)
include h

theorem csr_denied {writes : Bool} (hi : exec i s = csr op word d a c w s) (hw : (op != 0) = writes)
    (hd : csrDenied s.me.priv c.toNat writes = true) :
    exec i s = trap (.mk' cPRIV (BitVec.setWidth 64 word)) s := by
  rw [hi, csr]
  dsimp only
  rw [h, hw, if_neg (by decide), if_pos hd]
  rfl

theorem csr_flagsPending {writes : Bool} (hi : exec i s = csr op word d a c w s) (hw : (op != 0) = writes)
    (hd : csrDenied s.me.priv c.toNat writes = false) (h2 : c.toNat = 2) (hf : flagsPending s.me = true) : exec i s = .next (held s) := by
  rw [hi, csr]
  dsimp only
  rw [h, hw, hd, if_neg (by decide), if_neg (by decide), if_pos ⟨h2, hf⟩]
  rfl

variable (hf : c.toNat = 2 → flagsPending s.me = false)
include hf

/-- Past the checks of the register, a read gives its value and leaves it. -/
theorem csr_read (hd : csrDenied s.me.priv c.toNat false = false) (hr : ReadyTo [] d s) (hi : exec i s = csr 0 word d a c w s) :
    exec i s = resultOf w [] 1 d (csrRead s s.cur c.toNat) s := by
  have hp : ¬ (c.toNat = 2 ∧ flagsPending s.me = true) := fun ⟨h2, hp⟩ => Bool.false_ne_true ((hf h2).symm.trans hp)
  have hw : ((0 : BitVec 2) != 0) = false := rfl
  rw [hi, csr]
  dsimp only
  rw [h, hw, if_neg (by decide), if_neg (ne_true_of_eq_false hd), if_neg hp]
  exact (issueThen_clear _ _ _ _ hr.1).trans (destThen_ok _ _ _ hr.2)

/-- Past those checks, a write gives the old value and goes on to store the new one. -/
theorem csr_write (hop : op ≠ 0) (hd : csrDenied s.me.priv c.toNat true = false) (hr : ReadyTo [a] d s)
    (hi : exec i s = csr op word d a c w s) :
    let old := csrRead s s.cur c.toNat
    let new := csrNew op old (s.rdA a)
    exec i s =
      if c.toNat = 0x045 then
        match s.me.wait with
        | .resized z => resultOf w [a] 1 d (zext z) s
        | _ => resizeThen (new.extractLsb' 0 2) s (fun s => resultOf w [a] 1 d old s)
      else .next (finish w [a] (csrWrite c.toNat new (produce 1 d old 0 s))) := by
  have hp : ¬ (c.toNat = 2 ∧ flagsPending s.me = true) := fun ⟨h2, hp⟩ => Bool.false_ne_true ((hf h2).symm.trans hp)
  have hw : (op != 0) = true := bne_iff_ne.2 hop
  rw [hi, csr]
  dsimp only
  rw [h, hw, if_neg (by decide), if_neg (ne_true_of_eq_false hd), if_neg hp, if_neg hop, issueThen_clear _ _ _ _ hr.1, destThen_ok _ _ _ hr.2,
    if_neg hop]
  rfl

/-- The three ends of such a write: the register, and for cr.spsize the wait for a resize and what comes after it. -/
theorem csr_write_cases {new : Word} (hi : exec i s = csr op word d a c w s) (hop : op ≠ 0)
    (hnew : csrNew op (csrRead s s.cur c.toNat) (s.rdA a) = new) (hd : csrDenied s.me.priv c.toNat true = false) (hr : ReadyTo [a] d s) :
    let old := csrRead s s.cur c.toNat
    (c.toNat ≠ 0x045 → exec i s = .next (finish w [a] (csrWrite c.toNat new (produce 1 d old 0 s)))) ∧
      (c.toNat = 0x045 → s.me.wait = .none →
        (new.extractLsb' 0 2 = s.mine.spsize → exec i s = resultOf w [a] 1 d old s) ∧
        (new.extractLsb' 0 2 ≠ s.mine.spsize → exec i s = .next (held (s.setMe { s.me with wait := .resize (new.extractLsb' 0 2) })))) ∧
      (∀ z, c.toNat = 0x045 → s.me.wait = .resized z → exec i s = resultOf w [a] 1 d (z.setWidth 64) s) := by
  intro old
  rw [csr_write h hf hop hd hr hi, hnew]
  refine ⟨fun hn => if_neg hn, fun hn hwait => ?_, fun z hn hwait => ?_⟩ <;> rw [if_pos hn, hwait]
  · have hresize (k : State → Out) : resizeThen (new.extractLsb' 0 2) s k =
        if s.mine.spsize = new.extractLsb' 0 2 then k s else hold (s.setMe { s.me with wait := .resize (new.extractLsb' 0 2) }) := by
      rw [resizeThen, hwait]
    exact ⟨fun hz => (hresize _).trans (if_pos hz.symm), fun hz => (hresize _).trans (if_neg (Ne.symm hz))⟩
  · rfl

end

/-! ### What a control register reads after a write (R62, R63) -/

section
variable {n : Nat} {v r : Word} {s : State}

/-- A context register after a write that every privilege may make reads what its field stores. -/
theorem csrRead_csrWrite_ctx (hc : s.cur.ctx < 11) (hn : n < 0x040) (ho : csrReadOnly n = false)
    (hv : csrReadCtx (csrWriteCtx s.me n v) n = r) : csrRead (csrWrite n v s) s.cur n = r := by
  have hw : csrWrite n v s = s.setMe (csrWriteCtx s.me n v) := by
    rw [csrWrite, ho, if_neg (by simp; omega), if_neg (by omega), if_pos hn]
  rw [hw, csrRead, if_pos hn, State.setMe, State.ctx_setCtx _ _ _ hc, hv]

/-- A register of the core after a write reads what its field `f` stores. -/
theorem csrRead_csrWrite_core (f : Core → Word) (hn : 0x040 ≤ n ∧ n ≠ 0x402 ∧ ¬ (0x04C ≤ n ∧ n ≤ 0x04F)) (ho : csrReadOnly n = false)
    (hp : csrOfPart n = false) (hf : ∀ t : State, csrRead t s.cur n = f (t.core s.cur.core))
    (hv : f (csrWriteCore s.cycle s.mine n v) = r) : csrRead (csrWrite n v s) s.cur n = r := by
  obtain ⟨h40, h402, hq⟩ := hn
  have hw : csrWrite n v s = s.setMine (csrWriteCore s.cycle s.mine n v) := by
    rw [csrWrite, ho, if_neg (by simp [h402]), if_neg hq, if_neg (Nat.not_lt.2 h40), hp, if_neg Bool.false_ne_true]
  rw [hw, hf, State.setMine, State.core_setCore, hv]

end

/-- A register whose field is as wide as the word reads what was written. -/
theorem csrRead_csrWrite_whole {s : State} (hc : s.cur.ctx < 11) (v : Word) :
    ∀ i ∈ [4, 5, 0xA, 0xB, 0x52, 0x53, 0x86, 0x88, 0x8A, 0xD0, 0xD7, 0x200, 0x27F], csrRead (csrWrite i v s) s.cur i = v := by
  have ctx {i : Nat} (hi : i < 0x40) (ho : csrReadOnly i = false) (hv : csrReadCtx (csrWriteCtx s.me i v) i = v) :
      csrRead (csrWrite i v s) s.cur i = v := csrRead_csrWrite_ctx hc hi ho hv
  simp only [List.forall_mem_cons]
  refine ⟨ctx (by decide) rfl rfl, ctx (by decide) rfl rfl, ctx (by decide) rfl rfl, ctx (by decide) rfl rfl,
    csrRead_csrWrite_core Core.hstk (by decide) rfl rfl (fun _ => rfl) rfl, csrRead_csrWrite_core Core.hstksz (by decide) rfl rfl (fun _ => rfl) rfl,
    csrRead_csrWrite_core Core.amaxp (by decide) rfl rfl (fun _ => rfl) rfl, csrRead_csrWrite_core Core.olist (by decide) rfl rfl (fun _ => rfl) rfl,
    csrRead_csrWrite_core Core.ocnt (by decide) rfl rfl (fun _ => rfl) rfl,
    csrRead_csrWrite_core (fun k => k.evcnt[0]?.getD 0) (by decide) rfl rfl (fun _ => rfl) ?_,
    csrRead_csrWrite_core (fun k => k.evcnt[7]?.getD 0) (by decide) rfl rfl (fun _ => rfl) ?_,
    csrRead_csrWrite_core (fun k => k.dly[0]?.getD 0) (by decide) rfl rfl (fun _ => rfl) ?_,
    csrRead_csrWrite_core (fun k => k.dlyn[63]?.getD 0) (by decide) rfl rfl (fun _ => rfl) ?_, List.forall_mem_nil _⟩
  all_goals simp [csrWriteCore]

/-- The range of a partition is for H alone. -/
theorem csrDenied_partition (q : BitVec 2) {n : Nat} (u : Bool) (h : n = 0x300 ∨ n = 0x301) : csrDenied q n u = true ↔ q.toNat < 2 := by
  rcases h with rfl | rfl
  · simp [csrDenied, csrReadLevel, csrWriteLevel]
  · simp [csrDenied, csrReadLevel, csrWriteLevel]

theorem ofBool_getLsbD_zero (v : Word) : ofBool (v.getLsbD 0) = v &&& 1 := by
  refine BitVec.eq_of_toNat_eq ?_
  have h1 : (v &&& 1).toNat = v.toNat % 2 := (BitVec.toNat_and ..).trans (Nat.and_one_is_mod _)
  rw [h1, BitVec.getLsbD, Nat.testBit_zero, ofBool]
  split
  next h => simpa using (of_decide_eq_true h).symm
  next h =>
    have : v.toNat % 2 ≠ 1 := fun h1 => h (decide_eq_true h1)
    simp only [BitVec.toNat_ofNat, Nat.zero_mod]
    omega

theorem zext_low_byte (v : Word) : (zext (v.extractLsb' 0 8) : Word) = v &&& 0xFF := by
  refine BitVec.eq_of_toNat_eq ?_
  rw [zext, BitVec.toNat_setWidth, BitVec.extractLsb'_toNat, BitVec.toNat_and]
  exact (Nat.mod_eq_of_lt (by omega)).trans (Nat.and_two_pow_sub_one_eq_mod v.toNat 8).symm

/-! ### SCRATCHPAD_RESIZE (R157) -/

theorem flushL1_atHome (core : Nat) (s : State) : AtHome s (flushL1 core s) := by
  unfold flushL1
  have h : AtHome s ((s.core core).l1.foldl (fun s e => if e.st == .O && e.dirty then writeBack s (dieOfCore core) e.line e.data else s) s) :=
    foldl_keeps (AtHome.refl s) fun _ _ h1 => ite_keeps h1.writeBack h1
  exact h.setCore rfl

theorem flushL1_l1 (core : Nat) (s : State) : ((flushL1 core s).core core).l1 = [] := by
  unfold flushL1
  dsimp only
  rw [State.core_setCore]

theorem resizer_lt {k : Core} {i : Nat} {z : BitVec 2} (h : resizer k = some (i, z)) : i < 11 := by
  obtain ⟨j, hj, hz⟩ := List.exists_of_findSome?_eq_some h
  have hi : j = i := by
    split at hz
    · cases hz
      rfl
    · cases hz
  exact hi ▸ List.mem_range.1 hj

/-- The scratchpad keeps the bytes below both sizes. -/
theorem getByte_resizeTo (z : BitVec 2) (k : Core) (e : Nat) :
    getByte (resizeTo z k).spad e = if e < spBytes k.spsize ∧ e < spBytes z then getByte k.spad e else 0 := by
  unfold resizeTo
  dsimp only
  split
  next h => exact getByte_filter _ _ _ fun c _ hce => by simp [hce, h]
  next h => exact getByte_absent _ _ fun c hc hce => by simp [hce] at hc; omega

/-! ### Events and registers in the statement's order -/

/-- A property of each of three things. -/
theorem forall_mem_three {α : Type} {P : α → Prop} {x y z : α} (hx : P x) (hy : P y) (hz : P z) : ∀ p ∈ [x, y, z], P p :=
  List.forall_mem_cons.2 ⟨hx, List.forall_mem_cons.2 ⟨hy, List.forall_mem_singleton.2 hz⟩⟩

theorem wake_wakes {core : Nat} {s : State} (hc : core < 25600) (hd : (s.core core).strDue.getLsbD 0 = true) :
    ∃ t, exec (.wake core) s = .next t ∧ (∀ i < 11, ((t.core core).ctx i).wake = true) ∧ (t.core core).strDue.getLsbD 0 = false := by
  have hcond : isCore core = true ∧ (s.core core).strDue.getLsbD 0 = true := ⟨decide_eq_true hc, hd⟩
  refine ⟨_, (exec_wake ..).trans (if_pos hcond), fun i hi => ?_, ?_⟩ <;> rw [State.core_setCore]
  · simp [Core.ctx, hi]
  · simp

theorem scratchpadResize_sets {core i : Nat} {z : BitVec 2} {s : State} (hc : core < 25600) (hz : resizer (s.core core) = some (i, z))
    (hr : resizeReady (s.core core) = true) :
    ∃ t, exec (.scratchpadResize core) s = .next t ∧ (t.core core).spsize = z ∧ (t.core core).l1 = [] ∧
      ((t.core core).ctx i).wait = .resized (s.core core).spsize ∧
      (∀ e, getByte (t.core core).spad e = if e < spBytes (s.core core).spsize ∧ e < spBytes z then getByte (s.core core).spad e else 0) := by
  have hexec : exec (.scratchpadResize core) s = .next ((flushL1 core s).setCore core
      ((resizeTo z ((flushL1 core s).core core)).setCtx i
        { ((flushL1 core s).core core).ctx i with wait := .resized ((flushL1 core s).core core).spsize })) := by
    rw [exec_scratchpadResize, execScratchpadResize, hz]
    exact if_pos ⟨decide_eq_true hc, hr⟩
  have hflush := (flushL1_atHome core s).core core
  have hsize : ((flushL1 core s).core core).spsize = (s.core core).spsize := by
    have := congrArg Core.spsize hflush
    exact this
  have hspad : ((flushL1 core s).core core).spad = (s.core core).spad := by
    have := congrArg Core.spad hflush
    exact this
  refine ⟨_, hexec, ?_, ?_, ?_, fun e => ?_⟩ <;> rw [State.core_setCore]
  · rfl
  · exact flushL1_l1 core s
  · rw [Core.ctx_setCtx _ _ _ (resizer_lt hz), hsize]
  · rw [← hsize, ← hspad]
    exact getByte_resizeTo z _ e

/-- Settles O54: events, strings and registers, each by the lemmas about its own operation. -/
theorem eventsStringsAndRegisters : Obligations.EventsStringsAndRegisters := by
  unfold Obligations.EventsStringsAndRegisters
  intro d a c w s hc x ev k n old all news
  refine ⟨fun h => ⟨fun hv => ?_, fun hv => ?_, fun hh hr hf => ?_, ?_⟩, fun core i hi => ?_, fun h hd => ?_,
    fun h => ⟨fun hw => ?_, fun hw => ?_⟩, fun core hcore hdue => wake_wakes hcore hdue, fun core hcore hp ht => ?_, fun _ _ => rfl,
    fun m i hi => ⟨strEndCycle_strcnt m i hi, strEndCycle_pulses m⟩, fun h => ?_, fun h hd => ?_, fun h hd => ?_,
    fun h h2 hf => ⟨fun hd => ?_, fun hd => ?_⟩,
    fun q at_ hat u => ?_, fun h hf => ⟨fun hd hr => ?_, fun hd hr => ?_⟩, fun v ho => ?_, fun v => ?_, fun v => ?_,
    fun core i z hcore hz hr => scratchpadResize_sets hcore hz hr, fun pa v => ?_⟩
  · rw [exec_evwait, execEvwait, issueThen_clear _ _ _ _ h]
    exact if_pos hv
  · rw [exec_evwait, execEvwait, issueThen_clear _ _ _ _ h]
    exact if_neg hv
  · rw [exec_evsig, execEvsig, issueThen_clear _ _ _ _ h, releaseThen_done hh hr hf]
    rfl
  · rw [exec_evclr, execEvclr, issueThen_clear _ _ _ _ h]
    rfl
  · intro t
    have ht : t.evcnt = _ := signalEvent_evcnt core i s
    rw [ht]
    exact ⟨setEv_same _ hi, fun j _ hj => by rw [setEv_ne _ hj]⟩
  · rw [exec_evrd, execEvrd, issueThen_clear _ _ _ _ h]
    exact completeWith_ok _ _ _ _ _ hd
  · rw [exec_wfe, execWfe, issueThen_clear _ _ _ _ h]
    exact if_pos hw
  · rw [exec_wfe, execWfe, issueThen_clear _ _ _ _ h]
    exact if_neg (ne_true_of_eq_false hw)
  · have hp0 : ((s.core core).strtgt.extractLsb' 20 4).toNat ≠ 0 := fun h0 => hp (BitVec.eq_of_toNat_eq h0)
    exact (exec_stringsTimer ..).trans (if_pos ⟨decide_eq_true hcore, hp0, ht⟩)
  · exact List.forall_mem_cons.2 ⟨csr_undefined h exec_crr_eq,
      forall_mem_three (csr_undefined h exec_crw_eq) (csr_undefined h exec_crset_eq) (csr_undefined h exec_crclr_eq)⟩
  · exact csr_denied h exec_crr_eq rfl hd
  · exact forall_mem_three (csr_denied h exec_crw_eq rfl hd) (csr_denied h exec_crset_eq rfl hd) (csr_denied h exec_crclr_eq rfl hd)
  · exact csr_flagsPending h exec_crr_eq rfl hd h2 hf
  · exact forall_mem_three (csr_flagsPending h exec_crw_eq rfl hd h2 hf) (csr_flagsPending h exec_crset_eq rfl hd h2 hf)
      (csr_flagsPending h exec_crclr_eq rfl hd h2 hf)
  · exact csrDenied_partition q u hat
  · exact csr_read h hf hd hr exec_crr_eq
  · exact forall_mem_three (csr_write_cases h hf exec_crw_eq (by decide) rfl hd hr) (csr_write_cases h hf exec_crset_eq (by decide) rfl hd hr)
      (csr_write_cases h hf exec_crclr_eq (by decide) rfl hd hr)
  · exact if_pos (.inl ho)
  · exact csrRead_csrWrite_whole hc v
  · exact ⟨csrRead_csrWrite_ctx hc (by decide) rfl rfl, csrRead_csrWrite_ctx hc (by decide) rfl rfl, csrRead_csrWrite_ctx hc (by decide) rfl rfl,
      csrRead_csrWrite_ctx hc (by decide) rfl (zext_low_byte v), csrRead_csrWrite_ctx hc (by decide) rfl (ofBool_getLsbD_zero v),
      csrRead_csrWrite_core Core.ttab (by decide) rfl rfl (fun _ => rfl) rfl⟩
  · have hexec : exec (.registerWrite pa v) s = execRegisterWrite pa v s := exec_registerWrite ..
    rw [hexec, execRegisterWrite]
    refine ⟨fun p hp => by rw [hp], fun r hr => by rw [hr], fun hf => by rw [hf], fun p hp => ?_, fun hn => by rw [hn]⟩
    rw [hp]
    exact ⟨_, rfl, fun h64 => by simp [h64]⟩

end Sys2Proof.Machine
end

section
/-!
The scalar FPU: how its instructions end, and each of them with the result of its operation.
-/

namespace Sys2Proof.Machine

open Sys2Proof

/-! ### The end of an FPU instruction (R44, R75, R76, R110) -/

/-- What a scalar FPU instruction with a result and flags comes to: it completes, or it waits for its trap. -/
def FpuEnds (s : State) (d : Reg) (w : BitVec 3) (lat : Nat) (interlocked : Bool) (rs : List Reg) (o : Out) (r : Word × BitVec 8) : Prop :=
  (s.me.te &&& r.2.extractLsb' 0 5 = 0 →
    let t := finish w rs (if interlocked then produceFpuLater lat d r.1 r.2 s else produceFpu lat d r.1 r.2 s)
    o = .next (if s.me.te = 0 then t else t.setMe { t.me with nextIssue := max t.me.nextIssue (s.cycle + lat) })) ∧
  (s.me.te &&& r.2.extractLsb' 0 5 ≠ 0 → s.cur.ctx < 11 →
    ∃ t, o = .next t ∧ t.me = { s.me with
        fpHold := some ⟨s.cycle + lat, r.2⟩, nextIssue := s.cycle + 1 + w.toNat, yieldTo := s.me.yieldTo.filter (fun i => i != s.cur.ctx) } ∧
      t.mine.nextIssue = s.cycle + 1 ∧ t.note = .trapped ∧
      { t with cores := s.cores, note := s.note } = s)

theorem fpTraps_iff (x : Ctx) (f : BitVec 8) : x.fpTraps f = true ↔ x.te &&& f.extractLsb' 0 5 ≠ 0 := bne_iff_ne

section
variable {s : State} {d : Reg} {w : BitVec 3} {lat : Nat} {il : Bool} {rs : List Reg} {r : Word × BitVec 8}

theorem fpuEnd_completes (h : s.me.te &&& r.2.extractLsb' 0 5 = 0) :
    fpuEnd lat il w rs d r s =
      (let t := finish w rs (if il then produceFpuLater lat d r.1 r.2 s else produceFpu lat d r.1 r.2 s)
       .next (if s.me.te = 0 then t else t.setMe { t.me with nextIssue := max t.me.nextIssue (s.cycle + lat) })) := by
  have hno : ¬ s.me.fpTraps r.2 = true := fun ht => (fpTraps_iff _ _).1 ht h
  rw [fpuEnd, if_neg hno]
  dsimp only
  rw [ite_not]
  rfl

/-- The state in which an instruction waits for the trap of its flags. -/
theorem fpuEnd_traps (h : s.me.te &&& r.2.extractLsb' 0 5 ≠ 0) :
    fpuEnd lat il w rs d r s =
      .next { slotTaken (spaced w (s.setMe { s.me with fpHold := some ⟨s.cycle + lat, r.2⟩ })) with note := .trapped } := by
  rw [fpuEnd, if_pos ((fpTraps_iff _ _).2 h)]

theorem spaced_me (w : BitVec 3) (s : State) (h : s.cur.ctx < 11) : (spaced w s).me = { s.me with nextIssue := s.cycle + 1 + w.toNat } :=
  State.me_setMe _ _ h

theorem fpuEnds_fpuEnd : FpuEnds s d w lat il rs (fpuEnd lat il w rs d r s) r := by
  refine ⟨fpuEnd_completes, fun h hc => ⟨_, fpuEnd_traps h, ?_, ?_, rfl, rfl⟩⟩
  · show (slotTaken _).me = _
    refine (slotTaken_me _ (by exact hc)).trans ?_
    rw [spaced_me _ _ (by exact hc), State.me_setMe _ _ hc]
    rfl
  · show (slotTaken _).mine.nextIssue = _
    rw [slotTaken, State.mine_setMine]
    rfl

/-- An FPU instruction past its hazards ends with the result of its operation. -/
theorem fpu_ends {o : Out} {f : Ctx → List Word → Word × BitVec 8} (h : ReadyTo rs d s) (ho : o = fpu lat il rs f d w s)
    (hr : f s.me (s.srcs rs) = r) : FpuEnds s d w lat il rs o r := by
  obtain ⟨hhaz, hport⟩ := h
  rw [ho, fpu, issueThen_clear _ _ _ _ hhaz, destThen_ok _ _ _ hport, hr]
  exact fpuEnds_fpuEnd

end

/-- A bit below which a number lies is set by turning it. -/
theorem xor_two_pow_of_lt {n y : Nat} (h : y < 2 ^ n) : y ^^^ 2 ^ n = y + 2 ^ n := by
  have hor := Nat.two_pow_add_eq_or_of_lt h 1
  rw [Nat.mul_one, Nat.add_comm] at hor
  rw [hor]
  apply Nat.eq_of_testBit_eq
  intro i
  rw [Nat.testBit_xor, Nat.testBit_or, Nat.testBit_two_pow]
  by_cases hi : n = i
  · subst hi
    simp [Nat.testBit_lt_two_pow h]
  · simp [hi]

/-- FNEG turns the sign bit (R116). -/
theorem xor_sign_eq (x : Nat) : (x % 2 ^ 32) ^^^ 2 ^ 31 = if x / 2 ^ 31 % 2 = 0 then x % 2 ^ 31 + 2 ^ 31 else x % 2 ^ 31 := by
  have hlow : x % 2 ^ 31 < 2 ^ 31 := Nat.mod_lt _ (by decide)
  split
  · next h => rw [show x % 2 ^ 32 = x % 2 ^ 31 by omega, xor_two_pow_of_lt hlow]
  · next h => rw [show x % 2 ^ 32 = x % 2 ^ 31 + 2 ^ 31 by omega, ← xor_two_pow_of_lt hlow, Nat.xor_assoc, Nat.xor_self, Nat.xor_zero]

/-- Settles O21: each instruction is of the one shared form, with its latency and its operation. -/
theorem fpuResults : Obligations.FpuResults := by
  unfold Obligations.FpuResults
  intro s d a b w rm ends
  refine ⟨fun h => ?_, fun h => ?_, fun h => ?_⟩
  · exact ⟨fpu_ends h (exec_fadd ..) rfl, fpu_ends h (exec_fsub ..) rfl, fpu_ends h (exec_fmul ..) rfl, fpu_ends h (exec_fmin ..) rfl,
      fpu_ends h (exec_fmax ..) rfl, fpu_ends h (exec_feq ..) rfl, fpu_ends h (exec_flt ..) rfl, fpu_ends h (exec_fle ..) rfl,
      fpu_ends h (exec_fdiv ..) rfl⟩
  · exact ⟨fpu_ends h (exec_fma ..) rfl, fpu_ends h (exec_fnma ..) rfl⟩
  · exact ⟨fpu_ends h (exec_fclass ..) rfl, fpu_ends h (exec_fabs ..) rfl,
      fpu_ends h (exec_fneg ..) (congrArg (fun n => (BitVec.ofNat 64 n, (0 : BitVec 8))) (xor_sign_eq _)),
      fpu_ends h (exec_cvtF32I64 ..) rfl, fpu_ends h (exec_cvtI64F32 ..) rfl, fpu_ends h (exec_cvtF32N64 ..) rfl,
      fpu_ends h (exec_cvtN64F32 ..) rfl, fpu_ends h (exec_cvtBf16F32 ..) rfl, fpu_ends h (exec_cvtF32Bf16 ..) rfl,
      fpu_ends h (exec_cvtE4m3F32 ..) rfl, fpu_ends h (exec_cvtF32E4m3 ..) rfl, fpu_ends h (exec_cvtE5m2F32 ..) rfl,
      fpu_ends h (exec_cvtF32E5m2 ..) rfl, fpu_ends h (exec_frnd ..) rfl, fpu_ends h (exec_fsqrt ..) rfl⟩

end Sys2Proof.Machine
end

section
/-!
Vector instructions with a result for a g register: their hold, their checks, the lane group they take, and their results.
-/

namespace Sys2Proof.Machine

open Sys2Proof

/-! ### The lane group and the count of slips (R161, R162, R166) -/

/-- The state in which the result of a vector instruction for a g register is produced: the slip is counted, the lane group taken, and free values
are drawn. -/
def laneTaken (v : VLines) (n draws : Nat) (s : State) : State :=
  let t := countSlip v s
  let u := t.setMine (takeLane n t.cycle (frames (v.slips s.me) 1) t.mine)
  { u with freeCtr := u.freeCtr + draws }

/-- A core set with the contexts that it had leaves the executing context as it was. -/
theorem State.me_setMine_of_ctxs {s : State} {k : Core} (h : k.ctxs = s.mine.ctxs) : (s.setMine k).me = s.me :=
  State.ctx_setCore_of_ctxs s s.cur.core k s.cur h

theorem countSlip_eq (v : VLines) (s : State) :
    countSlip v s = s ∨ countSlip v s = s.setMine { s.mine with bankslip := s.mine.bankslip + 1 } := by
  unfold countSlip
  split
  · exact .inr rfl
  · exact .inl rfl

@[simp] theorem countSlip_cycle (v : VLines) (s : State) : (countSlip v s).cycle = s.cycle := by
  rcases countSlip_eq v s with h | h
  · rw [h]
  · rw [h]
    rfl

@[simp] theorem countSlip_cur (v : VLines) (s : State) : (countSlip v s).cur = s.cur := by
  rcases countSlip_eq v s with h | h
  · rw [h]
  · rw [h]
    rfl

@[simp] theorem countSlip_mem (v : VLines) (s : State) : (countSlip v s).mem = s.mem := by
  rcases countSlip_eq v s with h | h
  · rw [h]
  · rw [h]
    rfl

@[simp] theorem countSlip_me (v : VLines) (s : State) : (countSlip v s).me = s.me := by
  rcases countSlip_eq v s with h | h <;> rw [h]
  exact State.me_setMine_of_ctxs rfl

/-- A counted slip changes the core's count alone. -/
theorem countSlip_mine (v : VLines) (s : State) : { (countSlip v s).mine with bankslip := s.mine.bankslip } = s.mine := by
  rcases countSlip_eq v s with h | h <;> rw [h]
  rw [State.mine_setMine]

theorem countSlip_spad (v : VLines) (s : State) : (countSlip v s).mine.spad = s.mine.spad := by
  have h := congrArg Core.spad (countSlip_mine v s)
  exact h

section
variable (v : VLines) (n draws : Nat) (s : State)

theorem laneTaken_me : (laneTaken v n draws s).me = s.me := by
  refine (State.me_setMine_of_ctxs (s := countSlip v s) ?_).trans (countSlip_me v s)
  rfl

theorem laneTaken_mem : (laneTaken v n draws s).mem = s.mem := countSlip_mem v s

theorem laneTaken_mine :
    (laneTaken v n draws s).mine = takeLane n s.cycle (frames (v.slips s.me) 1) (countSlip v s).mine := by
  refine (State.mine_setMine (countSlip v s) _).trans ?_
  rw [countSlip_cycle]

theorem laneTaken_spad : (laneTaken v n draws s).mine.spad = s.mine.spad := by
  rw [laneTaken_mine]
  exact countSlip_spad v s

/-- A slip takes the lane group for two frames of five cycles (R162, R164). -/
theorem laneTaken_lanes (h : n < 4) : (laneTaken v n draws s).mine.lanes[n]? =
    some (s.cycle + (if s.me.chk = false ∧ banksOk (v.banked s.me) = false then 10 else 5)) := by
  have hslip : v.slips s.me = true ↔ s.me.chk = false ∧ banksOk (v.banked s.me) = false := by simp [VLines.slips]
  rw [laneTaken_mine, takeLane, Vector.getElem?_setIfInBounds_self_of_lt h, frames, ← if_congr hslip rfl rfl]
  split <;> rfl

end

/-! ### Issue (R166) -/

/-- A vector instruction for a g register, with its lines, its g source and its result: it takes a free lane group, or is held. -/
def GivesReg (s : State) (d : Reg) (w : BitVec 3) (i : Instr) (v : VLines) (gb : Option Reg) (r : Word × BitVec 8) : Prop :=
  (ReadyTo gb.toList d s → ∀ n, freeLane s.mine s.cycle = some n → s.me.vq = [] → vecWaits v s = false →
    linesBusy s.mine (v.reads s.me) = false → (∀ e, vecCheck v s = some e → exec i s = trap e s) ∧
    (vecCheck v s = none → ∃ u, exec i s = .next (finish w gb.toList (produce 8 d r.1 r.2 u)) ∧ u.me = s.me ∧ u.mem = s.mem ∧
        u.mine.spad = s.mine.spad ∧
        (n < 4 → u.mine.lanes[n]? = some (s.cycle + (if s.me.chk = false ∧ banksOk (v.banked s.me) = false then 10 else 5))))) ∧
  ((freeLane s.mine s.cycle = none ∨ s.me.vq ≠ [] ∨ vecWaits v s = true ∨ linesBusy s.mine (v.reads s.me) = true) →
    exec i s = .next (held s))

/-- The hold of `drainHolds` in terms of what stands before the instruction. -/
theorem drainHolds_iff (v : VLines) (s : State) :
    drainHolds v s = true ↔ s.me.vq ≠ [] ∨ vecWaits v s = true ∨ linesBusy s.mine (v.reads s.me) = true := by
  simp [drainHolds, or_assoc]

section
variable {draws : Nat} {v : VLines} {gb : Option Reg} {d : Reg} {f : State → Word → Word × BitVec 8} {w : BitVec 3} {s : State}

theorem vecGWith_held (h : freeLane s.mine s.cycle = none ∨ drainHolds v s = true) : vecGWith draws v gb d f w s = .next (held s) := by
  unfold vecGWith
  cases hl : freeLane s.mine s.cycle with
  | none => rfl
  | some n =>
    have hd := h.resolve_left (by rw [hl]; nofun)
    exact if_pos hd

/-- Past its hold and its hazards a vector instruction for a g register makes its checks, and then gives its result. -/
theorem vecGWith_issues {n : Nat} (hr : ReadyTo gb.toList d s) (hl : freeLane s.mine s.cycle = some n) (hd : drainHolds v s = false) :
    vecGWith draws v gb d f w s = failThen (vecCheck v s) s (fun s =>
      let r := f s (gb.elim 0 s.rdA)
      .next (finish w gb.toList (produce 8 d r.1 r.2 (laneTaken v n draws s)))) := by
  obtain ⟨hhaz, hport⟩ := hr
  unfold vecGWith
  rw [hl]
  dsimp only
  rw [holdThen, hd, if_neg Bool.false_ne_true, issueThen_clear _ _ _ _ hhaz]
  cases vecCheck v s with
  | some e => rfl
  | none =>
    rw [failThen_none, failThen_none, destThen_ok _ _ _ hport]
    rfl

theorem vecGWith_gives {i : Instr} {r : Word × BitVec 8} (hi : exec i s = vecGWith draws v gb d f w s) (hr : f s (gb.elim 0 s.rdA) = r) :
    GivesReg s d w i v gb r := by
  refine ⟨fun hready n hlane hq hwaits hbusy => ?_, fun hhold => ?_⟩
  · have hd : drainHolds v s = false := by
      rw [← Bool.not_eq_true, drainHolds_iff]
      simp [hq, hwaits, hbusy]
    rw [hi, vecGWith_issues hready hlane hd]
    refine ⟨fun e he => by rw [he]; rfl, fun hnone => ⟨laneTaken v n draws s, ?_, ?_⟩⟩
    · rw [hnone, failThen_none, hr]
    · exact ⟨laneTaken_me .., laneTaken_mem .., laneTaken_spad .., laneTaken_lanes v n draws s⟩
  · rw [hi, vecGWith_held (hhold.imp_right (drainHolds_iff v s).2)]

theorem vecG_gives {i : Instr} {r : Word × BitVec 8} (hi : exec i s = vecG v gb d f w s) (hr : f s (gb.elim 0 s.rdA) = r) :
    GivesReg s d w i v gb r := vecGWith_gives (draws := 0) hi hr

end

/-- Settles O39: each instruction is of the one form, with its lines and its value. -/
theorem vectorResultsForRegisters : Obligations.VectorResultsForRegisters := by
  unfold Obligations.VectorResultsForRegisters
  intro d a b t w s m xs ys gives
  have hg : gives = GivesReg s d w := rfl
  rw [hg]
  exact ⟨vecG_gives ((exec_vmpop ..).trans (execVmpop.eq_1 ..)) rfl, vecG_gives ((exec_vmfirst ..).trans (execVmfirst.eq_1 ..)) rfl,
    vecG_gives ((exec_vrsum ..).trans (execVrsum.eq_1 ..)) rfl, vecG_gives ((exec_vrmax ..).trans (execVrmax.eq_1 ..)) rfl,
    vecG_gives ((exec_vrmin ..).trans (execVrmin.eq_1 ..)) rfl, vecGWith_gives ((exec_vramax ..).trans (execVramax.eq_1 ..)) rfl,
    vecG_gives ((exec_vdot ..).trans (execVdot.eq_1 ..)) rfl, vecG_gives ((exec_vext ..).trans (execVext.eq_1 ..)) rfl⟩

end Sys2Proof.Machine
end

section
/-!
The commands of the matrix unit: the head of the queue going on, a bad head, and completion.
-/

namespace Sys2Proof.Machine

open Sys2Proof

/-! ### The head of the queue -/

/-- A command that its unit has found bad on reaching the head of the queue. -/
def MCmd.foundBad (c : MCmd) (kind : BitVec 4) : MCmd := { c with started := true, bad := some kind, performed := true }

theorem setHead_mq (core : Nat) (c : MCmd) (s : State) : ((setHead core c s).core core).mq = c :: (s.core core).mq.tail := by
  rw [setHead, State.core_setCore]

theorem setHead_head (core : Nat) (c : MCmd) (s : State) : ((setHead core c s).core core).mq.head? = some c := by
  rw [setHead_mq, List.head?_cons]

theorem setHead_accs (core : Nat) (c : MCmd) (s : State) : ((setHead core c s).core core).accs = (s.core core).accs := by
  rw [setHead, State.core_setCore]

theorem setHead_spad (core : Nat) (c : MCmd) (s : State) : ((setHead core c s).core core).spad = (s.core core).spad := by
  rw [setHead, State.core_setCore]

theorem matWorks_of_moves {core : Nat} {s : State} (hm : matMoves s core = true) (c : MCmd) : matWorks s core c = true := by
  rw [matWorks, hm, Bool.true_or]

theorem setHead_ctx (core : Nat) (c : MCmd) (s : State) (x : CtxId) : (setHead core c s).ctx x = s.ctx x :=
  State.ctx_setCore_of_ctxs _ _ _ _ rfl

section
variable {core : Nat} {c : MCmd} {rest : List MCmd} {s : State} (hq : (s.core core).mq = c :: rest) (hm : matMoves s core = true)
include hq hm

/-- A started head is the command that goes on (R199). -/
theorem headNow_started (hs : c.started = true) : headNow core s = some (c, s) := by
  unfold headNow
  rw [hq]
  dsimp only
  rw [matWorks_of_moves hm, hs]
  rfl

/-- A bad command ends at once, whatever its gate (R200, R206). -/
theorem headNow_bad {kind : BitVec 4} (hs : c.started = false) (hb : badNow (s.core core) c = some kind) :
    headNow core s = some (c.foundBad kind, setHead core (c.foundBad kind) s) := by
  unfold headNow
  rw [hq]
  dsimp only
  rw [matWorks_of_moves hm, hs, hb]
  rfl

/-- A started head of the code goes on by the step of its instruction. -/
theorem goOn_started {code : Nat} {f : MCmd → State → State} (hs : c.started = true) (hp : c.performed = false) (hc : c.code = code) :
    goOn code core s f = .next (f c s) := by
  have hhead : ((s.core core).mq.head?).any (fun d => d.code == code) = true := by
    rw [hq]
    exact beq_iff_eq.2 hc
  rw [goOn, if_pos hhead, headNow_started hq hm hs]
  dsimp only
  rw [hp, if_neg Bool.false_ne_true]

end

/-- The KIND of a bad head, which for MMA.R is found once its records are written (R206). -/
theorem badNow_eq {k : Core} {c : MCmd} (h : c.code = 3 → writesDone k c = true) : badNow k c = checkCmd k (c.shadow.getD k.active) c := by
  have hno : ¬ (c.code = 3 ∧ !reservedBad c ∧ !fieldBad (c.setOf k) c ∧ !addressBad (matSize k) (c.setOf k) c ∧ !writesDone k c) := by
    rintro ⟨h3, -, -, -, hw⟩
    simp [h h3] at hw
  rw [badNow, if_neg hno]
  rfl

/-! ### One step of a command -/

theorem runBlocks_one (core : Nat) (span : MCmd → Nat → Nat) (f : MCmd → Nat → Core → Core × BitVec 8) (c : MCmd) (s : State) :
    runBlocks core span f 1 c s = setHead core
      { c with kb := c.kb + span c c.kb, fflags := c.fflags ||| (f c c.kb (s.core core)).2, performed := decide (c.k32 ≤ c.kb + span c c.kb) }
      (s.setCore core (f c c.kb (s.core core)).1) :=
  ite_self _

theorem runRecords_one {core : Nat} {c d : MCmd} {s u : State} (h : recordStep core c s = some (d, u)) :
    runRecords core 1 c s = setHead core d u := by
  unfold runRecords
  rw [h]
  exact ite_self _

/-! ### Accumulators (R217) -/

theorem Core.acc_setAcc {k : Core} {n m : Nat} (v : Acc) (h : m < 8) : (k.setAcc n v).acc m = if m = n then v else k.acc m := by
  rw [Core.acc, Core.setAcc]
  split
  · next e =>
    subst e
    exact congrArg (Option.getD · 0) (Vector.getElem?_setIfInBounds_self_of_lt h)
  · next e => rw [Vector.getElem?_setIfInBounds_ne (Ne.symm e), Core.acc]

/-- A core with the accumulators of a list zeroed that a mask names. -/
def zeroAccs (mask : Nat) (l : List Nat) (k : Core) : Core := l.foldl (fun k n => if mask.testBit n then k.setAcc n 0 else k) k

theorem zeroAccs_acc (mask : Nat) (l : List Nat) (k : Core) {m : Nat} (h : m < 8) :
    (zeroAccs mask l k).acc m = if m ∈ l ∧ mask.testBit m = true then 0 else k.acc m := by
  induction l generalizing k with
  | nil => exact (if_neg (by simp)).symm
  | cons n l ih =>
    rw [zeroAccs, List.foldl_cons]
    refine (ih _).trans ?_
    have hstep : (if mask.testBit n = true then k.setAcc n 0 else k).acc m = if m = n ∧ mask.testBit m = true then 0 else k.acc m := by
      by_cases hb : mask.testBit n = true
      · rw [if_pos hb, Core.acc_setAcc _ h]
        exact if_congr ⟨fun e => ⟨e, e ▸ hb⟩, And.left⟩ rfl rfl
      · rw [if_neg hb, if_neg]
        rintro ⟨rfl, h⟩
        exact hb h
    rw [hstep]
    grind

theorem zeroAccs_spad (mask : Nat) (l : List Nat) (k : Core) : (zeroAccs mask l k).spad = k.spad := by
  induction l generalizing k with
  | nil => rfl
  | cons n l ih =>
    rw [zeroAccs, List.foldl_cons]
    refine (ih _).trans ?_
    split <;> rfl

/-! ### What the parts of a completion leave of the matrix unit (R75, R200, R222) -/

/-- From `s` to `t` a core's matrix queue, its accumulators, its scratchpad and memory have stayed. -/
structure KeepsMatrix (core : Nat) (s t : State) : Prop where
  mem : t.mem = s.mem
  mq : (t.core core).mq = (s.core core).mq
  mdone : (t.core core).mdone = (s.core core).mdone
  accs : (t.core core).accs = (s.core core).accs
  spad : (t.core core).spad = (s.core core).spad
  cntMatrix : (t.core core).cntMatrix = (s.core core).cntMatrix

theorem KeepsMatrix.refl (core : Nat) (s : State) : KeepsMatrix core s s := ⟨rfl, rfl, rfl, rfl, rfl, rfl⟩

theorem KeepsMatrix.trans {core : Nat} {s t u : State} (h : KeepsMatrix core s t) (h' : KeepsMatrix core t u) : KeepsMatrix core s u :=
  ⟨h'.mem.trans h.mem, h'.mq.trans h.mq, h'.mdone.trans h.mdone, h'.accs.trans h.accs, h'.spad.trans h.spad, h'.cntMatrix.trans h.cntMatrix⟩

section
variable (core : Nat) (s : State)

theorem setCore_keepsMatrix {k : Core} (hmq : k.mq = (s.core core).mq) (hdone : k.mdone = (s.core core).mdone)
    (haccs : k.accs = (s.core core).accs) (hspad : k.spad = (s.core core).spad) (hcnt : k.cntMatrix = (s.core core).cntMatrix) :
    KeepsMatrix core s (s.setCore core k) := by
  have e := State.core_setCore s core k
  exact ⟨rfl, by rw [e, hmq], by rw [e, hdone], by rw [e, haccs], by rw [e, hspad], by rw [e, hcnt]⟩

theorem setCtx_keepsMatrix (i : Nat) (x : Ctx) : KeepsMatrix core s (s.setCtx ⟨core, i⟩ x) := setCore_keepsMatrix core s rfl rfl rfl rfl rfl

theorem pulse_keepsMatrix (src : Nat) : KeepsMatrix core s (pulse core src s) := setCore_keepsMatrix core s rfl rfl rfl rfl rfl

theorem pulse_ctx (src : Nat) (x : CtxId) : (pulse core src s).ctx x = s.ctx x := State.ctx_setCore_of_ctxs _ _ _ _ rfl

theorem signalEvent_keepsMatrix (n : Nat) : KeepsMatrix core s (signalEvent core n s) :=
  (setCore_keepsMatrix core s (k := setEv (s.core core) n _) rfl rfl rfl rfl rfl).trans (pulse_keepsMatrix core _ _)

theorem signalEvent_ctx (n : Nat) (x : CtxId) : (signalEvent core n s).ctx x = s.ctx x :=
  (pulse_ctx core _ _ x).trans (State.ctx_setCore_of_ctxs _ _ _ _ rfl)

theorem cmdAccrue_keepsMatrix (c : MCmd) (f : BitVec 8) : KeepsMatrix core s (cmdAccrue core c f s) := by
  unfold cmdAccrue
  split
  · exact KeepsMatrix.refl core s
  · exact setCtx_keepsMatrix core s _ _

theorem recordFault_keepsMatrix (i : Nat) (lost : Bool) (f : MFault) (r why : Nat) : KeepsMatrix core s (recordFault core i lost f r why s) := by
  unfold recordFault
  cases lost
  · exact (setCtx_keepsMatrix core s i _).trans (setCore_keepsMatrix core _ rfl rfl rfl rfl rfl)
  · exact setCore_keepsMatrix core s rfl rfl rfl rfl rfl

end

/-- A fault changes nothing of the context of its command but the fault that is pending there, and is that one where none was (R222). -/
theorem recordFault_ctx {core i : Nat} (hi : i < 11) (f : MFault) (r why : Nat) (s : State) :
    ∃ m, (recordFault core i false f r why s).ctx ⟨core, i⟩ = { s.ctx ⟨core, i⟩ with mfault := m } ∧
      ((s.ctx ⟨core, i⟩).mfault = none → m = some f) := by
  refine ⟨_, (State.ctx_setCore_of_ctxs _ _ _ _ ?_).trans (State.ctx_setCtx s ⟨core, i⟩ _ hi), fun h => by rw [h]⟩
  rfl

/-! ### Completion -/

/-- The performed head has left the queue, and its number and its time in the unit count. -/
def headLeft (core : Nat) (c : MCmd) (s : State) : State :=
  let k := s.core core
  s.setCore core { k with
    mq := k.mq.tail, mdone := c.seq, cntMatrix := k.cntMatrix + (if c.bad.isNone then BitVec.ofNat 64 (cmdCycles k.active c) else 0) }

/-- The flags of a command that is not bad have accrued. -/
def cmdFlagged (core : Nat) (c : MCmd) (s : State) : State := if c.bad.isSome then s else cmdAccrue core c (c.fflags &&& matFlags) s

/-- The fault that a command ends with is recorded. -/
def cmdFaulted (core : Nat) (c : MCmd) (lost : Bool) (s : State) : State :=
  match cmdFault c with
  | some (f, r, why) => recordFault core c.ctx lost f r why s
  | none => s

/-- The strings source and the event counter of a command have fired. -/
def cmdSignalled (core : Nat) (c : MCmd) (s : State) : State :=
  let mark := c.code == 7 && c.bad.isNone
  let s := if (c.flag 1 ∧ c.bad.isNone) ∨ mark then pulse core 0 s else s
  if mark ∧ c.flag 2 then signalEvent core c.acc s else s

theorem completeCmd_eq (core : Nat) (c : MCmd) (s : State) :
    completeCmd core c s = cmdSignalled core c (cmdFaulted core c (cmdLost core c s) (cmdFlagged core c (headLeft core c s))) := rfl

section
variable (core : Nat) (c : MCmd) (s : State)

theorem headLeft_core : (headLeft core c s).core core = { s.core core with
    mq := (s.core core).mq.tail, mdone := c.seq
    cntMatrix := (s.core core).cntMatrix + (if c.bad.isNone then BitVec.ofNat 64 (cmdCycles (s.core core).active c) else 0) } :=
  State.core_setCore s core _

theorem headLeft_ctx (x : CtxId) : (headLeft core c s).ctx x = s.ctx x := State.ctx_setCore_of_ctxs _ _ _ _ rfl

theorem cmdFlagged_keepsMatrix : KeepsMatrix core s (cmdFlagged core c s) := by
  unfold cmdFlagged
  split
  · exact KeepsMatrix.refl core s
  · exact cmdAccrue_keepsMatrix core s c _

theorem cmdFaulted_keepsMatrix (lost : Bool) : KeepsMatrix core s (cmdFaulted core c lost s) := by
  unfold cmdFaulted
  split
  · exact recordFault_keepsMatrix core s _ _ _ _ _
  · exact KeepsMatrix.refl core s

theorem cmdSignalled_keepsMatrix : KeepsMatrix core s (cmdSignalled core c s) := by
  have hpulse : KeepsMatrix core s (if (c.flag 1 ∧ c.bad.isNone) ∨ (c.code == 7 && c.bad.isNone) then pulse core 0 s else s) := by
    split
    · exact pulse_keepsMatrix core s 0
    · exact KeepsMatrix.refl core s
  unfold cmdSignalled
  dsimp only
  split
  · exact hpulse.trans (signalEvent_keepsMatrix core _ _)
  · exact hpulse

theorem cmdSignalled_ctx (x : CtxId) : (cmdSignalled core c s).ctx x = s.ctx x := by
  have hpulse : (if (c.flag 1 ∧ c.bad.isNone) ∨ (c.code == 7 && c.bad.isNone) then pulse core 0 s else s).ctx x = s.ctx x := by
    split
    · exact pulse_ctx core s 0 x
    · rfl
  unfold cmdSignalled
  dsimp only
  split
  · exact (signalEvent_ctx core _ _ x).trans hpulse
  · exact hpulse

/-- After the head has left the queue, the rest of its completion leaves the matrix unit as it is. -/
theorem completeCmd_keepsMatrix : KeepsMatrix core (headLeft core c s) (completeCmd core c s) :=
  ((cmdFlagged_keepsMatrix core c _).trans (cmdFaulted_keepsMatrix core c _ _)).trans (cmdSignalled_keepsMatrix core c _)

end

section
variable {core : Nat} {c : MCmd} {s : State}

theorem cmdLost_of_live (ho : c.orphan = false) (hl : ((s.core core).ctx c.ctx).live = true) : cmdLost core c s = false := by
  rw [cmdLost, ho, hl]
  rfl

/-- A bad command leaves its fault pending, and no flag (R75, R222). -/
theorem completeCmd_bad_ctx {kind : BitVec 4} (hb : c.bad = some kind) (hi : c.ctx < 11) (ho : c.orphan = false)
    (hl : ((s.core core).ctx c.ctx).live = true) :
    ∃ m, (completeCmd core c s).ctx ⟨core, c.ctx⟩ = { s.ctx ⟨core, c.ctx⟩ with mfault := m } ∧
      ((s.ctx ⟨core, c.ctx⟩).mfault = none → m = some ⟨c.seq.setWidth 32, kind, BitVec.ofNat 3 c.acc, false, 0⟩) := by
  have hflag (t : State) : cmdFlagged core c t = t := by rw [cmdFlagged, hb]; rfl
  have hfault (t : State) : cmdFaulted core c false t =
      recordFault core c.ctx false ⟨c.seq.setWidth 32, kind, BitVec.ofNat 3 c.acc, false, 0⟩ 0 0 t := by rw [cmdFaulted, cmdFault, hb]
  rw [completeCmd_eq, cmdSignalled_ctx, cmdLost_of_live ho hl, hfault, hflag, ← headLeft_ctx core c s]
  exact recordFault_ctx hi _ _ _ _

/-- The flags of a command that is not bad accrue in its context (R75). -/
theorem completeCmd_fflags (hb : c.bad = none) (hi : c.ctx < 11) (ho : c.orphan = false) (hl : ((s.core core).ctx c.ctx).live = true) :
    ((completeCmd core c s).ctx ⟨core, c.ctx⟩).fflags = (s.ctx ⟨core, c.ctx⟩).fflags ||| (c.fflags &&& 0xF4) := by
  have hlost : cmdLost core c (headLeft core c s) = false := by
    have hlive : ((headLeft core c s).core core).ctx c.ctx = (s.core core).ctx c.ctx := headLeft_ctx core c s ⟨core, c.ctx⟩
    exact cmdLost_of_live ho (by rw [hlive, hl])
  have hflag : cmdFlagged core c (headLeft core c s) = accrue ⟨core, c.ctx⟩ (c.fflags &&& 0xF4) (headLeft core c s) := by
    rw [cmdFlagged, hb, cmdAccrue, hlost]
    rfl
  have hfault (t : State) : ((cmdFaulted core c false t).ctx ⟨core, c.ctx⟩).fflags = (t.ctx ⟨core, c.ctx⟩).fflags := by
    unfold cmdFaulted
    split
    · obtain ⟨m, hm, -⟩ := recordFault_ctx (core := core) hi _ _ _ t
      rw [hm]
    · rfl
  rw [completeCmd_eq, cmdSignalled_ctx, cmdLost_of_live ho hl, hfault, hflag, accrue, State.ctx_setCtx _ _ _ hi, headLeft_ctx]

end

/-! ### The statement's parts -/

section
variable {core : Nat} {c : MCmd} {rest : List MCmd} {s : State}

/-- A performed command has left the queue, its number is cr.mdone, and the matrix unit is otherwise as it was. -/
theorem completeCmd_leaves (hq : (s.core core).mq = c :: rest) :
    ((completeCmd core c s).core core).mq = rest ∧ ((completeCmd core c s).core core).mdone = c.seq ∧
    ((completeCmd core c s).core core).accs = (s.core core).accs ∧ ((completeCmd core c s).core core).spad = (s.core core).spad ∧
    (completeCmd core c s).mem = s.mem ∧
    (c.bad.isNone = false → ((completeCmd core c s).core core).cntMatrix = (s.core core).cntMatrix) := by
  obtain ⟨hmem, hmq, hdone, haccs, hspad, hcnt⟩ := completeCmd_keepsMatrix core c s
  rw [hmq, hdone, haccs, hspad, hmem, hcnt, headLeft_core, hq]
  exact ⟨rfl, rfl, rfl, rfl, rfl, fun hb => by rw [hb]; exact BitVec.add_zero _⟩

/-- DRAIN takes one step: its rows, its accesses, and the accumulator cleared where it asks for that (R216). -/
theorem drain_started (hq : (s.core core).mq = c :: rest) (hm : matMoves s core = true) (hs : c.started = true) (hp : c.performed = false)
    (hc : c.code = 5) {failed dropped : Bool} {u : State}
    (hu : drainAccesses core c (drainOut (s.core core).active c (s.core core)).2.1 (drainOut (s.core core).active c (s.core core)).2.2.1
      (s.setCore core (drainOut (s.core core).active c (s.core core)).1) = some (failed, dropped, u)) :
    exec (.drain core) s = .next (setHead core
      { c with performed := true, memFail := failed
               fflags := c.fflags ||| (drainOut (s.core core).active c (s.core core)).2.2.2 ||| (if dropped then fOL else 0) }
      (u.setCore core (if c.flag 2 then (u.core core).setAcc c.acc 0 else u.core core))) := by
  rw [exec_drain, execDrain, goOn_started hq hm hs hp hc]
  dsimp only
  rw [hu]

/-- A bad head completes at once (R200, R206). -/
theorem matrixCommandDone_bad (hq : (s.core core).mq = c :: rest) (hm : matMoves s core = true) (hs : c.started = false)
    (hp : c.performed = false) {kind : BitVec 4} (hb : badNow (s.core core) c = some kind) :
    exec (.matrixCommandDone core) s = .next (completeCmd core (c.foundBad kind) (setHead core (c.foundBad kind) s)) := by
  rw [exec_matrixCommandDone]
  unfold execMatrixCommandDone
  rw [hq]
  dsimp only
  rw [hp, if_neg Bool.false_ne_true, headNow_bad hq hm hs hb]
  rfl

theorem matrixCommandDone_performed (hq : (s.core core).mq = c :: rest) (hp : c.performed = true) :
    exec (.matrixCommandDone core) s = .next (completeCmd core c s) := by
  rw [exec_matrixCommandDone]
  unfold execMatrixCommandDone
  rw [hq]
  exact if_pos hp

end

/-- Settles O47: a started head takes its step, a bad one ends with its fault, and a performed one leaves with its flags. -/
theorem matrixCommands : Obligations.MatrixCommands := by
  unfold Obligations.MatrixCommands
  intro core c rest s hq hm k head
  have next {code : Nat} {f : MCmd → State → State} (hs : c.started = true) (hp : c.performed = false) (hc : c.code = code) :
      goOn code core s f = .next (f c s) := goOn_started hq hm hs hp hc
  refine ⟨fun hs hp => ⟨fun hc => ?plane, fun hc => ?mma, fun hc => ?had, fun hc d u hd => ?mmaR, fun hc => ?drain, fun hc => ?zero, fun hc => ?mark⟩,
    fun hs hp hw kind hkind => ?bad, fun hp => ?done⟩
  case plane => rw [exec_plane, execPlane, next hs hp hc]; exact congrArg _ (runBlocks_one ..)
  case mma => rw [exec_mma, execMma, next hs hp hc]; exact congrArg _ (runBlocks_one ..)
  case had => rw [exec_had, execHad, next hs hp hc]; exact congrArg _ (runBlocks_one ..)
  case mmaR => rw [exec_mmaR, execMmaR, next hs hp hc]; exact congrArg _ (runRecords_one hd)
  case drain =>
    intro r failed dropped u hu
    refine ⟨_, _, drain_started hq hm hs hp hc hu, setHead_head .., rfl, rfl, ?_⟩
    rw [setHead_accs, State.core_setCore]
    exact apply_ite Core.accs _ _ _
  case zero =>
    rw [exec_zero, execZero, next hs hp hc]
    refine ⟨_, rfl, setHead_head .., fun n hn => ?_, rfl, ?_⟩
    · rw [Core.acc, setHead_accs, State.core_setCore]
      refine (zeroAccs_acc (c.num 2 1) (List.range 8) k hn).trans ?_
      simp only [List.mem_range, hn, true_and]
    · rw [setHead_spad, State.core_setCore]
      exact zeroAccs_spad (c.num 2 1) (List.range 8) k
  case mark =>
    rw [exec_mark, execMark, next hs hp hc]
    refine ⟨fun h => congrArg _ (if_neg ?_), fun hsig hrel => congrArg _ (if_pos ⟨hsig, by rw [hrel]; rfl⟩)⟩
    rintro ⟨hsig, hrel⟩
    rcases h with h | h
    · exact Bool.false_ne_true (h.symm.trans hsig)
    · rw [h] at hrel
      exact Bool.false_ne_true hrel
  case bad =>
    have hb : badNow (s.core core) c = some kind := (badNow_eq hw).trans hkind
    have hq' : ((setHead core (c.foundBad kind) s).core core).mq = c.foundBad kind :: rest := by rw [setHead_mq, hq, List.tail_cons]
    obtain ⟨hmq, hdone, haccs, hspad, hmem, hcnt⟩ := completeCmd_leaves hq'
    refine ⟨_, matrixCommandDone_bad hq hm hs hp hb, hmq, hdone, haccs.trans (setHead_accs ..), hspad.trans (setHead_spad ..), hmem,
      (hcnt rfl).trans (by rw [setHead, State.core_setCore]), fun hi ho hl => ?_⟩
    have hlive : (((setHead core (c.foundBad kind) s).core core).ctx c.ctx).live = true := by
      rw [show ((setHead core (c.foundBad kind) s).core core).ctx c.ctx = k.ctx c.ctx from setHead_ctx core (c.foundBad kind) s ⟨core, c.ctx⟩, hl]
    obtain ⟨m, hctx, hfault⟩ := completeCmd_bad_ctx (c := c.foundBad kind) (s := setHead core (c.foundBad kind) s) rfl hi ho hlive
    rw [setHead_ctx] at hctx hfault
    have hf := congrArg Ctx.fflags hctx
    have hm := congrArg Ctx.mfault hctx
    exact ⟨hf, fun hnone => hm.trans (hfault hnone)⟩
  case done =>
    obtain ⟨hmq, hdone, haccs, hspad, hmem, -⟩ := completeCmd_leaves hq
    exact ⟨_, matrixCommandDone_performed hq hp, hmq, hdone, haccs, hspad, hmem, fun hi ho hl hb => completeCmd_fflags hb hi ho hl⟩

end Sys2Proof.Machine
end

section
/-!
The elements of a number, as `elems`, `ofElems` and `elemAt` read and write them (R66): what each element is, and how elements nest.
-/

namespace Sys2Proof.Machine

open Sys2Proof

/-! ### Reading elements -/

theorem elemAt_zero (w v : Nat) : elemAt w v 0 = v % 2 ^ w := by simp [elemAt]

theorem elemAt_succ (w v i : Nat) : elemAt w v (i + 1) = elemAt w (v / 2 ^ w) i := by
  rw [elemAt, elemAt, Nat.div_div_eq_div_mul, ← pow_add, Nat.mul_succ, Nat.add_comm]

theorem elemAt_lt (w v i : Nat) : elemAt w v i < 2 ^ w := Nat.mod_lt _ (by positivity)

@[simp] theorem length_elems (w n v : Nat) : (elems w n v).length = n := by
  induction n generalizing v with
  | zero => rfl
  | succ n ih => simp [elems, ih]

theorem getElem?_elems (w : Nat) {n i : Nat} (v : Nat) (h : i < n) : (elems w n v)[i]? = some (elemAt w v i) := by
  induction n generalizing v i with
  | zero => omega
  | succ n ih =>
    cases i with
    | zero => simp [elems, elemAt_zero]
    | succ i => rw [elems, List.getElem?_cons_succ, ih _ (by omega), elemAt_succ]

/-- The elements of a number are its elements in order. -/
theorem elems_eq_map (w n v : Nat) : elems w n v = (List.range n).map (elemAt w v) := by
  apply List.ext_getElem?
  intro i
  by_cases h : i < n
  · rw [getElem?_elems w v h, List.getElem?_map, List.getElem?_range h, Option.map_some]
  · rw [List.getElem?_eq_none (by simp; omega), List.getElem?_eq_none (by simp; omega)]

theorem lt_of_mem_elems {w n v x : Nat} (h : x ∈ elems w n v) : x < 2 ^ w := by
  rw [elems_eq_map] at h
  obtain ⟨i, -, rfl⟩ := List.mem_map.1 h
  exact elemAt_lt w v i

/-- An element of a group of m elements is an element of the whole number. -/
theorem elemAt_elemAt (w v i : Nat) {m j : Nat} (h : j < m) : elemAt w (elemAt (w * m) v i) j = elemAt w v (m * i + j) := by
  obtain ⟨d, rfl⟩ : ∃ d, m = j + d + 1 := ⟨m - j - 1, by omega⟩
  have hp : 2 ^ (w * (j + d + 1)) = 2 ^ (w * j) * 2 ^ (w * (d + 1)) := by rw [← pow_add]; ring_nf
  rw [elemAt, elemAt, hp, Nat.mod_mul_right_div_self, Nat.mod_mod_of_dvd _ (by rw [Nat.mul_succ, pow_add]; exact dvd_mul_left _ _),
    Nat.div_div_eq_div_mul, ← pow_add, elemAt]
  ring_nf

/-! ### Building a number from elements -/

theorem ofElems_lt (w : Nat) (l : List Nat) : ofElems w l < 2 ^ (w * l.length) := by
  induction l with
  | nil => simp [ofElems]
  | cons x l ih =>
    have hx : x % 2 ^ w < 2 ^ w := Nat.mod_lt _ (by positivity)
    rw [ofElems, List.length_cons, Nat.mul_succ, Nat.add_comm (w * l.length), pow_add]
    calc x % 2 ^ w + 2 ^ w * ofElems w l < 2 ^ w * (ofElems w l + 1) := by rw [Nat.mul_succ]; omega
      _ ≤ 2 ^ w * 2 ^ (w * l.length) := Nat.mul_le_mul_left _ ih

theorem ofElems_cons_div (w x : Nat) (l : List Nat) : ofElems w (x :: l) / 2 ^ w = ofElems w l := by
  rw [ofElems, Nat.add_mul_div_left _ _ (by positivity), Nat.div_eq_of_lt (Nat.mod_lt _ (by positivity)), Nat.zero_add]

theorem elemAt_ofElems (w : Nat) (l : List Nat) (i : Nat) : elemAt w (ofElems w l) i = l[i]?.getD 0 % 2 ^ w := by
  induction l generalizing i with
  | nil => simp [ofElems, elemAt]
  | cons x l ih =>
    cases i with
    | zero => simp [elemAt_zero, ofElems]
    | succ i => rw [elemAt_succ, ofElems_cons_div, ih, List.getElem?_cons_succ]

/-- An element of the number built of a list, where the list's entry fits the width. -/
theorem elemAt_ofElems_of {w : Nat} {l : List Nat} {i x : Nat} (h : l[i]? = some x) (hx : x < 2 ^ w) : elemAt w (ofElems w l) i = x := by
  rw [elemAt_ofElems, h, Option.getD_some, Nat.mod_eq_of_lt hx]

/-- The number of the elements of a number is its low part. -/
theorem ofElems_elems (w n v : Nat) : ofElems w (elems w n v) = v % 2 ^ (w * n) := by
  induction n generalizing v with
  | zero => simp [elems, ofElems, Nat.mod_one]
  | succ n ih => rw [elems, ofElems, ih, Nat.mod_mod, Nat.mul_succ, Nat.add_comm (w * n), pow_add, Nat.mod_mul]

/-- Elements of one bit are the bits. -/
theorem testBit_eq_elemAt (v i : Nat) : v.testBit i = decide (elemAt 1 v i = 1) := by
  rw [Nat.testBit_eq_decide_div_mod_eq, elemAt, Nat.one_mul, pow_one]

theorem testBit_ofElems_one (l : List Nat) (i : Nat) : (ofElems 1 l).testBit i = (l[i]?.getD 0).testBit 0 := by
  rw [testBit_eq_elemAt, elemAt_ofElems, Nat.testBit_zero, pow_one]

/-- The number of a list of bits is the sum of the powers of the bits that are set. -/
theorem ofElems_one_eq_sum (l : List Nat) :
    ofElems 1 l = ((List.range l.length).map (fun j => if (l[j]?.getD 0).testBit 0 = true then 2 ^ j else 0)).sum := by
  induction l with
  | nil => rfl
  | cons x l ih =>
    have htail : ((List.range l.length).map (fun j => if (l[j]?.getD 0).testBit 0 = true then 2 ^ (j + 1) else 0)).sum = 2 * ofElems 1 l := by
      rw [ih, ← List.sum_map_mul_left]
      congr 1
      apply List.map_congr_left
      intro j _
      split <;> simp [pow_succ, Nat.mul_comm]
    rw [ofElems, List.length_cons, List.range_succ_eq_map, List.map_cons, List.map_map, List.sum_cons]
    simp only [Function.comp_def, List.getElem?_cons_succ, List.getElem?_cons_zero, Option.getD_some, Nat.succ_eq_add_one, htail, pow_one]
    rcases Nat.mod_two_eq_zero_or_one x with hx | hx <;> simp [hx]

/-- Groups of n elements joined are the number of all their elements. -/
theorem elemAt_ofElems_groups {w m : Nat} {l : List Nat} {i j g : Nat} (h : l[i]? = some g) (hj : j < m) :
    elemAt w (ofElems (w * m) l) (m * i + j) = elemAt w g j := by
  rw [← elemAt_elemAt w _ i hj, elemAt_ofElems, h, Option.getD_some]
  have := elemAt_elemAt w g 0 hj
  rwa [elemAt_zero, Nat.mul_zero, Nat.zero_add] at this

end Sys2Proof.Machine
end

section
/-!
Matrix space (R195): what a list of writes leaves in it, where no two of them share a byte.
-/

namespace Sys2Proof.Machine

open Sys2Proof

/-! ### One write -/

theorem matByte_injective {x y : Nat} (h : matByte x = matByte y) : x = y := by
  unfold matByte at h
  omega

/-- The n bytes from a matrix address hold a number. -/
def Holds (m : Memory) (y n v : Nat) : Prop := ∀ i < n, getByte m (matByte (y + i)) = BitVec.ofNat 8 (v / 256 ^ i)

theorem matRead_of_holds {k : Core} {y n v : Nat} (h : Holds k.spad y n v) : matRead k y n = v % 256 ^ n := by
  induction n generalizing y v with
  | zero => simp [matRead, Nat.mod_one]
  | succ n ih =>
    have h0 := h 0 (by omega)
    have ht : Holds k.spad (y + 1) n (v / 256) := fun i hi => by
      rw [Nat.add_assoc, h (1 + i) (by omega), Nat.div_div_eq_div_mul, Nat.add_comm 1 i, pow_succ, Nat.mul_comm 256]
    rw [Nat.add_zero, Nat.pow_zero, Nat.div_one] at h0
    rw [matRead, h0, ih ht, BitVec.toNat_ofNat, show 256 ^ (n + 1) = 256 * 256 ^ n by rw [pow_succ, Nat.mul_comm], Nat.mod_mul]

theorem getByte_matWrite_outside (m : Memory) {y n : Nat} (v : Nat) {x : Nat} (h : ¬ (y ≤ x ∧ x < y + n)) :
    getByte (matWrite m y n v) (matByte x) = getByte m (matByte x) := by
  induction n generalizing m y v with
  | zero => rfl
  | succ n ih =>
    have hne : matByte x ≠ matByte y := fun e => by have := matByte_injective e; omega
    rw [matWrite, ih _ _ (by omega), getByte_writeLe_outside _ _ _ _ _ (by omega)]

theorem holds_matWrite (m : Memory) (y n v : Nat) : Holds (matWrite m y n v) y n v := by
  induction n generalizing m y v with
  | zero => exact fun i hi => by omega
  | succ n ih =>
    intro i hi
    cases i with
    | zero =>
      rw [matWrite, getByte_matWrite_outside _ _ (by omega)]
      have := getByte_writeLe m (matByte y) 1 (v % 256) 0 (by omega)
      rw [Nat.add_zero] at this
      rw [Nat.add_zero, this]
      apply BitVec.eq_of_toNat_eq
      simp
    | succ i =>
      rw [matWrite, show y + (i + 1) = y + 1 + i by omega, ih _ _ _ i (by omega), Nat.div_div_eq_div_mul, pow_succ, Nat.mul_comm 256]

/-! ### A list of writes -/

/-- A write to matrix space: its address, its length and its number. -/
structure MatWrite where
  at_ : Nat
  len : Nat
  val : Nat

/-- A byte that a write covers. -/
def MatWrite.Covers (w : MatWrite) (x : Nat) : Prop := w.at_ ≤ x ∧ x < w.at_ + w.len

/-- A scratchpad after writes in turn. -/
def matWrites (m : Memory) (ws : List MatWrite) : Memory := ws.foldl (fun m w => matWrite m w.at_ w.len w.val) m

theorem matWrites_append (m : Memory) (us ws : List MatWrite) : matWrites m (us ++ ws) = matWrites (matWrites m us) ws :=
  List.foldl_append

/-- A byte that no write covers is as it was. -/
theorem getByte_matWrites_outside {m : Memory} {ws : List MatWrite} {x : Nat} (h : ∀ w ∈ ws, ¬ w.Covers x) :
    getByte (matWrites m ws) (matByte x) = getByte m (matByte x) := by
  induction ws generalizing m with
  | nil => rfl
  | cons w ws ih =>
    rw [matWrites, List.foldl_cons]
    exact (ih fun u hu => h u (.tail _ hu)).trans (getByte_matWrite_outside m w.val (h w (.head _)))

/-- A write stands where it is apart from all the others. -/
theorem holds_matWrites {m : Memory} {ws : List MatWrite} {w : MatWrite} (hw : w ∈ ws)
    (h : ∀ u ∈ ws, u = w ∨ ∀ x, u.Covers x → ¬ w.Covers x) : Holds (matWrites m ws) w.at_ w.len w.val := by
  induction ws generalizing m with
  | nil => cases hw
  | cons u ws ih =>
    rw [matWrites, List.foldl_cons]
    by_cases hin : w ∈ ws
    · exact ih hin fun v hv => h v (.tail _ hv)
    · obtain rfl : w = u := (List.mem_cons.1 hw).resolve_right hin
      intro i hi
      refine (getByte_matWrites_outside fun v hv hc => ?_).trans (holds_matWrite m _ _ _ i hi)
      rcases h v (.tail _ hv) with rfl | hd
      · exact hin hv
      · exact hd _ hc ⟨by omega, by omega⟩

/-- What is read where a write stands is its number. -/
theorem matRead_matWrites {k : Core} {m : Memory} {ws : List MatWrite} {w : MatWrite} (hk : k.spad = matWrites m ws) (hw : w ∈ ws)
    (hlt : w.val < 256 ^ w.len) (h : ∀ u ∈ ws, u = w ∨ ∀ x, u.Covers x → ¬ w.Covers x) : matRead k w.at_ w.len = w.val := by
  rw [matRead_of_holds (hk ▸ holds_matWrites hw h), Nat.mod_eq_of_lt hlt]

/-! ### Reading -/

theorem matRead_testBit (k : Core) (y n i : Nat) (h : i < 8 * n) :
    (matRead k y n).testBit i = (matRead k (y + i / 8) 1).testBit (i % 8) := by
  induction n generalizing y i with
  | zero => omega
  | succ n ih =>
    have hb : (getByte k.spad (matByte y)).toNat < 2 ^ 8 := (getByte k.spad (matByte y)).isLt
    rw [matRead, show (256 : Nat) = 2 ^ 8 by rfl, Nat.add_comm, Nat.testBit_two_pow_mul_add _ hb]
    split
    · next hi => simp [matRead, Nat.div_eq_of_lt hi, Nat.mod_eq_of_lt hi]
    · next hi => rw [ih (y + 1) (i - 8) (by omega), show y + 1 + (i - 8) / 8 = y + i / 8 by omega, show (i - 8) % 8 = i % 8 by omega]

theorem matRead_lt (k : Core) (y n : Nat) : matRead k y n < 2 ^ (8 * n) := by
  induction n generalizing y with
  | zero => simp [matRead]
  | succ n ih =>
    have hb := (getByte k.spad (matByte y)).isLt
    have := ih (y + 1)
    rw [matRead, show 8 * (n + 1) = 8 + 8 * n by omega, pow_add]
    omega

/-- A part of what is read, by its bytes. -/
theorem matRead_part (k : Core) (y n a l : Nat) (h : a + l ≤ n) : matRead k y n / 2 ^ (8 * a) % 2 ^ (8 * l) = matRead k (y + a) l := by
  apply Nat.eq_of_testBit_eq
  intro i
  rw [Nat.testBit_mod_two_pow, Nat.testBit_div_two_pow]
  by_cases hi : i < 8 * l
  · rw [matRead_testBit k y n _ (by omega), matRead_testBit k (y + a) l i hi, show (i + 8 * a) / 8 = a + i / 8 by omega, show (i + 8 * a) % 8 = i % 8 by omega,
      ← Nat.add_assoc, decide_eq_true hi, Bool.true_and]
  · rw [decide_eq_false hi, Bool.false_and, Nat.testBit_lt_two_pow]
    exact lt_of_lt_of_le (matRead_lt k _ _) (Nat.pow_le_pow_right (by decide) (by omega))

end Sys2Proof.Machine
end

section
/-!
PLANE and DRAIN write their blocks to matrix space as writes that share no byte (R208, R216).
-/

namespace Sys2Proof.Machine

open Sys2Proof

/-! ### Lists of equal pieces -/

theorem getElem?_flatMap_of_length {α β : Type} {f : α → List β} {n : Nat} {l : List α} (hf : ∀ x ∈ l, (f x).length = n) (i : Nat) {j : Nat}
    (hj : j < n) : (l.flatMap f)[n * i + j]? = l[i]?.bind (fun x => (f x)[j]?) := by
  induction l generalizing i with
  | nil => rfl
  | cons x l ih =>
    have hx : (f x).length = n := hf x (.head _)
    have ht := ih fun y hy => hf y (.tail _ hy)
    cases i with
    | zero => rw [List.flatMap_cons, Nat.mul_zero, Nat.zero_add, List.getElem?_append_left (by omega)]; rfl
    | succ i =>
      rw [List.flatMap_cons, List.getElem?_append_right (by rw [hx, Nat.mul_succ]; omega), hx, Nat.mul_succ,
        show n * i + n + j - n = n * i + j by omega, ht, List.getElem?_cons_succ]

/-- A list in groups of n, where it is g groups long. -/
theorem groupsOf_eq_map {α : Type} {n g fuel : Nat} {l : List α} (hn : 0 < n) (hf : g ≤ fuel) (hl : l.length = g * n) :
    groupsOf fuel n l = (List.range g).map (fun i => (l.drop (n * i)).take n) := by
  induction g generalizing l fuel with
  | zero =>
    obtain rfl : l = [] := List.eq_nil_of_length_eq_zero (by omega)
    cases fuel <;> rfl
  | succ g ih =>
    obtain ⟨fuel, rfl⟩ : ∃ m, fuel = m + 1 := ⟨fuel - 1, by omega⟩
    rw [Nat.succ_mul] at hl
    have hne : l.isEmpty = false := by
      cases l with
      | nil => simp at hl; omega
      | cons => rfl
    rw [groupsOf, hne, List.range_succ_eq_map, List.map_cons, List.map_map, ih (l := l.drop n) (by omega) (by rw [List.length_drop]; omega)]
    simp only [Bool.false_eq_true, if_false, Nat.mul_zero, List.drop_zero]
    congr 1
    refine List.map_congr_left fun i _ => ?_
    rw [Function.comp_apply, List.drop_drop, Nat.mul_succ, Nat.add_comm n]

theorem length_groupsOf {α : Type} {n g fuel : Nat} {l : List α} (hn : 0 < n) (hf : g ≤ fuel) (hl : l.length = g * n) : (groupsOf fuel n l).length = g := by
  rw [groupsOf_eq_map hn hf hl, List.length_map, List.length_range]

/-- Entry j of group i is entry n i + j of the list. -/
theorem getElem?_group {α : Type} (l : List α) (n i : Nat) {j : Nat} (hj : j < n) : ((l.drop (n * i)).take n)[j]? = l[n * i + j]? := by
  rw [List.getElem?_take_of_lt hj, List.getElem?_drop]

/-! ### A block's quads (R71) -/

/-- Group g of a block's elements, four of them. -/
def quadOf (xs : List Nat) (g : Nat) : List Nat := (xs.drop (4 * g)).take 4

/-- The quad of a block as O4 stores it: as it is, or zeros where it is invalid. -/
def storedQuad (l : List Nat) : List Nat := if (decodeQuad (ofElems 4 l)).isSome then l else [0, 0, 0, 0]

theorem getElem?_quadOf (xs : List Nat) (g : Nat) {j : Nat} (hj : j < 4) : (quadOf xs g)[j]? = xs[4 * g + j]? := getElem?_group xs 4 g hj

theorem groupsOf_quads {xs : List Nat} (hxs : xs.length = 32) : groupsOf 8 4 xs = (List.range 8).map (quadOf xs) :=
  groupsOf_eq_map (by decide) le_rfl hxs

theorem length_quadOf {xs : List Nat} (hxs : xs.length = 32) {g : Nat} (hg : g < 8) : (quadOf xs g).length = 4 := by
  rw [quadOf, List.length_take, List.length_drop]
  omega

theorem length_storedQuad {l : List Nat} (h : l.length = 4) : (storedQuad l).length = 4 := by
  rw [storedQuad]
  split
  · exact h
  · rfl

/-- The slots that a block of O4 has in the planes. -/
def slotsOf (xs : List Nat) : List Nat := (List.range 8).flatMap (fun g => storedQuad (quadOf xs g))

theorem planeBlock_o4 {xs : List Nat} (hxs : xs.length = 32) (w sc : Nat) :
    planeBlock 2 w xs sc = (slotsOf xs, (slotsOf xs).map (fun x => x == 8), if sc = 0xFF then none else some (e8m0Exp sc),
      flagIf ((List.range 8).any (fun g => !(decodeQuad (ofElems 4 (quadOf xs g))).isSome)) fOQ) := by
  have hs : ((groupsOf 8 4 xs).zip ((groupsOf 8 4 xs).map (fun l => (decodeQuad (ofElems 4 l)).isSome))).flatMap
      (fun e => if e.2 then e.1 else [0, 0, 0, 0]) = slotsOf xs := by
    rw [groupsOf_quads hxs]
    simp [slotsOf, storedQuad, List.flatMap_map, List.zip_eq_zipWith, List.zipWith_map, List.zipWith_self]
  rw [planeBlock, if_neg (by decide), if_pos rfl]
  dsimp only
  rw [hs, groupsOf_quads hxs, List.map_map, List.any_map]
  rfl

theorem getElem?_slotsOf {xs : List Nat} (hxs : xs.length = 32) {g j : Nat} (hg : g < 8) (hj : j < 4) :
    (slotsOf xs)[4 * g + j]? = (storedQuad (quadOf xs g))[j]? := by
  rw [slotsOf, getElem?_flatMap_of_length (n := 4) (fun x hx => length_storedQuad (length_quadOf hxs (List.mem_range.1 hx))) g hj, List.getElem?_range hg]
  rfl

theorem length_slotsOf {xs : List Nat} (hxs : xs.length = 32) : (slotsOf xs).length = 32 := by
  rw [slotsOf, List.length_flatMap, List.map_congr_left fun g hg => length_storedQuad (length_quadOf hxs (List.mem_range.1 hg))]
  decide

/-! ### A block of each kind -/

theorem planeBlock_int {t : Nat} (ht : t ≤ 1) (w sc : Nat) (xs : List Nat) :
    planeBlock t w xs sc = (xs, List.replicate 32 false, if sc = 0xFF then none else some (e8m0Exp sc), 0) := by
  rw [planeBlock, if_pos (by omega)]

theorem planeBlock_nonFinite {t : Nat} (ht : 3 ≤ t) (w : Nat) {sc : Nat} {xs : List Nat}
    (h : nonFinite (xs.map (matFmt t).decode) = true ∨ sc = 0xFF) :
    planeBlock t w xs sc = (List.replicate 32 0, List.replicate 32 false, none, 0) := by
  rw [planeBlock, if_neg (by omega), if_neg (by omega)]
  exact if_pos h

theorem planeBlock_finite {t : Nat} (ht : 3 ≤ t) (w : Nat) {sc : Nat} {xs : List Nat}
    (h : ¬ (nonFinite (xs.map (matFmt t).decode) = true ∨ sc = 0xFF)) :
    planeBlock t w xs sc =
      (xs.map (fun x => wrap w (toBlock w (blockEmax (matFmt t) (xs.map (matFmt t).decode)) ((matFmt t).decode x))), List.replicate 32 false,
        some (blockEmax (matFmt t) (xs.map (matFmt t).decode) - w + 2 + e8m0Exp sc), 0) := by
  rw [planeBlock, if_neg (by omega), if_neg (by omega)]
  refine (if_neg h).trans ?_
  dsimp only
  rw [List.map_map]
  rfl

theorem length_planeBlock {xs : List Nat} (hxs : xs.length = 32) (t w sc : Nat) :
    (planeBlock t w xs sc).1.length = 32 ∧ (planeBlock t w xs sc).2.1.length = 32 := by
  obtain ht | rfl | ht : t ≤ 1 ∨ t = 2 ∨ 3 ≤ t := by omega
  · rw [planeBlock_int ht]
    exact ⟨hxs, List.length_replicate⟩
  · rw [planeBlock_o4 hxs]
    exact ⟨length_slotsOf hxs, by rw [List.length_map, length_slotsOf hxs]⟩
  · by_cases h : nonFinite (xs.map (matFmt t).decode) = true ∨ sc = 0xFF
    · rw [planeBlock_nonFinite ht w h]
      exact ⟨List.length_replicate, List.length_replicate⟩
    · rw [planeBlock_finite ht w h]
      exact ⟨by rw [List.length_map, hxs], List.length_replicate⟩

/-! ### The words of the planes -/

theorem length_planeWords (t w : Nat) (v : List Nat × List Bool) : (planeWords t w v).length = planesOf t w := by
  unfold planeWords planesOf
  split <;> simp

/-- The word of plane j: the bits of the elements, or of the marks in the last plane of O4. -/
theorem getElem?_planeWords {t w j : Nat} (v : List Nat × List Bool) (hj : j < planesOf t w) :
    (planeWords t w v)[j]? =
      some (if t = 2 ∧ j = 4 then ofElems 1 (v.2.map (fun m => if m then 1 else 0)) else planeWord j v.1) := by
  unfold planesOf at hj
  unfold planeWords
  by_cases ht : t = 2
  · rw [if_pos ht] at hj
    by_cases h4 : j = 4
    · simp [ht, h4]
    · have : j < 4 := by omega
      simp [ht, h4, this, List.getElem?_append_left]
  · rw [if_neg ht] at hj
    simp [ht, hj]

theorem testBit_planeWord (j : Nat) (xs : List Nat) (i : Nat) : (planeWord j xs).testBit i = (xs[i]?.getD 0).testBit j := by
  rw [planeWord, testBit_ofElems_one, List.getElem?_map]
  cases xs[i]? with
  | none => simp
  | some x => simp [Nat.testBit_eq_decide_div_mod_eq]

theorem testBit_markWord (ms : List Bool) (i : Nat) : (ofElems 1 (ms.map (fun m => if m then 1 else 0))).testBit i = ms[i]?.getD false := by
  rw [testBit_ofElems_one, List.getElem?_map]
  cases ms[i]? with
  | none => rfl
  | some m => cases m <;> rfl

theorem planeWords_lt {t w x : Nat} {v : List Nat × List Bool} (h1 : v.1.length = 32) (h2 : v.2.length = 32) (hx : x ∈ planeWords t w v) : x < 256 ^ 4 := by
  have hlt (l : List Nat) (hl : l.length = 32) : ofElems 1 l < 256 ^ 4 := by
    have := ofElems_lt 1 l
    rwa [hl] at this
  unfold planeWords at hx
  rcases List.mem_append.1 hx with hx | hx
  · obtain ⟨b, -, rfl⟩ := List.mem_map.1 hx
    exact hlt _ (by rw [List.length_map, h1])
  · split at hx
    · rw [List.mem_singleton.1 hx]
      exact hlt _ (by rw [List.length_map, h2])
    · cases hx

theorem expCode_lt (e : Option Int) : expCode e < 256 ^ 2 := by
  cases e with
  | none => decide
  | some e =>
    have h1 : 0 ≤ e % 2 ^ 16 := Int.emod_nonneg _ (by decide)
    have h2 : e % 2 ^ 16 < 2 ^ 16 := Int.emod_lt_of_pos _ (by decide)
    change (e % 2 ^ 16).toNat < 256 ^ 2
    omega

/-! ### The writes of one K-block of PLANE -/

/-- Vector v of K-block kb as PLANE computes it. -/
def planeVector (m : MSet) (c : MCmd) (kb : Nat) (k : Core) (v : Nat) : List Nat × List Bool × Option Int × BitVec 8 :=
  let f := planeFmt m c
  planeBlock (fmtType f.1) (fmtWidth f.1)
    (elems (typeBits (fmtType f.1)) 32 (matRead k (c.num 8 4 + v * c.num 12 4 + kb * 4 * typeBits (fmtType f.1)) (4 * typeBits (fmtType f.1))))
    (if fmtScaled f.1 then matRead k (scaleAddr f.2 + 32 * kb + v) 1 else 127)

/-- The word of plane j of vector v, written. -/
def wordWrite (pl kb p v j x : Nat) : MatWrite := ⟨pl + (kb * p + j) * 128 + 4 * v, 4, x⟩

/-- The exponent of vector v, written. -/
def expWrite (ex kb v : Nat) (e : Option Int) : MatWrite := ⟨ex + (kb * 32 + v) * 2, 2, expCode e⟩

/-- The writes of one K-block: each vector's planes and then its exponent. -/
def planeWrites (m : MSet) (c : MCmd) (kb : Nat) (k : Core) : List MatWrite :=
  let f := (planeFmt m c).1
  (List.range 32).flatMap (fun v =>
    let b := planeVector m c kb k v
    (planeWords (fmtType f) (fmtWidth f) (b.1, b.2.1)).zipIdx.map
      (fun x => wordWrite (c.num 16 4) kb (planesOf (fmtType f) (fmtWidth f)) v x.2 x.1) ++ [expWrite (c.num 20 4) kb v b.2.2.1])

theorem matWrites_flatMap {α : Type} (m : Memory) (l : List α) (g : α → List MatWrite) :
    matWrites m (l.flatMap g) = l.foldl (fun m x => matWrites m (g x)) m := by
  induction l generalizing m with
  | nil => rfl
  | cons x l ih => rw [List.flatMap_cons, matWrites_append, ih, List.foldl_cons]

theorem zipIdx_map_range {α : Type} (f : Nat → α) (n : Nat) : ((List.range n).map f).zipIdx = (List.range n).map (fun i => (f i, i)) := by
  apply List.ext_getElem?
  intro i
  by_cases h : i < n <;> simp [h]

theorem planeStep_eq (m : MSet) (c : MCmd) (kb : Nat) (k : Core) :
    (planeStep m c kb k).1 = { k with spad := matWrites k.spad (planeWrites m c kb k) } := by
  rw [planeWrites, matWrites_flatMap, planeStep]
  simp only [zipIdx_map_range, List.foldl_map, matWrites, List.foldl_append, List.foldl_cons, List.foldl_nil]
  rfl

section
variable {m : MSet} {c : MCmd} {kb : Nat} {k : Core}

theorem length_planeVector (m : MSet) (c : MCmd) (kb : Nat) (k : Core) (v : Nat) :
    (planeVector m c kb k v).1.length = 32 ∧ (planeVector m c kb k v).2.1.length = 32 :=
  length_planeBlock (length_elems _ _ _) _ _ _

/-- The word that plane j of vector v holds. -/
def planeWordOf (m : MSet) (c : MCmd) (kb : Nat) (k : Core) (v j : Nat) : Nat :=
  let b := planeVector m c kb k v
  if fmtType (planeFmt m c).1 = 2 ∧ j = 4 then ofElems 1 (b.2.1.map (fun m => if m then 1 else 0)) else planeWord j b.1

/-- The writes of a K-block are the words of its planes and its exponents, one for each vector. -/
theorem mem_planeWrites (w : MatWrite) :
    w ∈ planeWrites m c kb k ↔ ∃ v < 32,
      (∃ j < planesOf (fmtType (planeFmt m c).1) (fmtWidth (planeFmt m c).1),
        w = wordWrite (c.num 16 4) kb (planesOf (fmtType (planeFmt m c).1) (fmtWidth (planeFmt m c).1)) v j (planeWordOf m c kb k v j)) ∨
      w = expWrite (c.num 20 4) kb v (planeVector m c kb k v).2.2.1 := by
  simp only [planeWrites, List.mem_flatMap, List.mem_range, List.mem_append, List.mem_map, List.mem_singleton, Prod.exists,
    List.mem_zipIdx_iff_getElem?]
  refine exists_congr fun v => and_congr_right fun _ => or_congr_left ⟨?_, ?_⟩
  · rintro ⟨x, j, hx, rfl⟩
    have hj := (List.getElem?_eq_some_iff.1 hx).1
    rw [length_planeWords] at hj
    rw [getElem?_planeWords _ hj] at hx
    exact ⟨j, hj, by rw [← Option.some.inj hx]; rfl⟩
  · rintro ⟨j, hj, rfl⟩
    exact ⟨_, j, getElem?_planeWords _ hj, rfl⟩

theorem planeWordOf_lt (v : Nat) {j : Nat} (hj : j < planesOf (fmtType (planeFmt m c).1) (fmtWidth (planeFmt m c).1)) :
    planeWordOf m c kb k v j < 256 ^ 4 := by
  obtain ⟨h1, h2⟩ := length_planeVector m c kb k v
  exact planeWords_lt (v := ((planeVector m c kb k v).1, (planeVector m c kb k v).2.1)) h1 h2
    (List.mem_of_getElem? (getElem?_planeWords _ hj))

/-- The bits of the word of a plane: those of the elements, or the marks. -/
theorem testBit_planeWordOf (v j i : Nat) : (planeWordOf m c kb k v j).testBit i =
    if fmtType (planeFmt m c).1 = 2 ∧ j = 4 then (planeVector m c kb k v).2.1[i]?.getD false
    else ((planeVector m c kb k v).1[i]?.getD 0).testBit j := by
  unfold planeWordOf
  split
  · exact testBit_markWord _ _
  · exact testBit_planeWord _ _ _

end

/-! ### Where the writes lie -/

section
variable {pl ex kb p n : Nat}

/-- The bytes of a plane's word lie among those of the K-block. -/
theorem covers_wordWrite {v j x y : Nat} (hv : v < 32) (hj : j < p) (h : (wordWrite pl kb p v j x).Covers y) :
    pl + kb * p * 128 ≤ y ∧ y < pl + (kb + 1) * p * 128 := by
  obtain ⟨h1, h2⟩ := h
  simp only [wordWrite] at h1 h2
  rw [Nat.succ_mul]
  omega

theorem covers_expWrite {v y : Nat} {e : Option Int} (hv : v < 32) (h : (expWrite ex kb v e).Covers y) :
    ex + kb * 64 ≤ y ∧ y < ex + (kb + 1) * 64 := by
  obtain ⟨h1, h2⟩ := h
  simp only [expWrite] at h1 h2
  omega

theorem wordWrite_apart {v j v' j' x x' y : Nat} (hv : v < 32) (hv' : v' < 32) (hne : ¬ (v = v' ∧ j = j'))
    (h : (wordWrite pl kb p v j x).Covers y) : ¬ (wordWrite pl kb p v' j' x').Covers y := by
  rintro ⟨h1', h2'⟩
  obtain ⟨h1, h2⟩ := h
  simp only [wordWrite] at h1 h2 h1' h2'
  omega

theorem expWrite_apart {v v' y : Nat} {e e' : Option Int} (hne : v ≠ v') (h : (expWrite ex kb v e).Covers y) :
    ¬ (expWrite ex kb v' e').Covers y := by
  rintro ⟨h1', h2'⟩
  obtain ⟨h1, h2⟩ := h
  simp only [expWrite] at h1 h2 h1' h2'
  omega

/-- The planes of a K-block share no byte with its exponents, where the planes of the whole command do not with its exponents. -/
theorem word_apart_exp {v j v' x y : Nat} {e : Option Int} (hkb : kb < n) (hpe : pl + 128 * p * n ≤ ex ∨ ex + 64 * n ≤ pl) (hv : v < 32) (hj : j < p)
    (hv' : v' < 32) (h : (wordWrite pl kb p v j x).Covers y) : ¬ (expWrite ex kb v' e).Covers y := by
  intro h'
  have hn : (kb + 1) * p ≤ p * n := by rw [Nat.mul_comm p]; exact Nat.mul_le_mul_right p hkb
  have := covers_wordWrite hv hj h
  have := covers_expWrite hv' h'
  have : 128 * p * n = 128 * (p * n) := Nat.mul_assoc _ _ _
  omega

end

/-- One K-block of PLANE: the planes' words and the exponents are in place, and no other byte changed. -/
theorem planeStep_writes {m : MSet} {c : MCmd} {kb : Nat} {k : Core}
    (hkb : kb < c.k32)
    (hpe : c.num 16 4 + 128 * planesOf (fmtType (planeFmt m c).1) (fmtWidth (planeFmt m c).1) * c.k32 ≤ c.num 20 4 ∨ c.num 20 4 + 64 * c.k32 ≤ c.num 16 4) :
    let p := planesOf (fmtType (planeFmt m c).1) (fmtWidth (planeFmt m c).1)
    let u := (planeStep m c kb k).1
    (∀ v < 32, (∀ j < p, matRead u (c.num 16 4 + (kb * p + j) * 128 + 4 * v) 4 = planeWordOf m c kb k v j) ∧
      matRead u (c.num 20 4 + (kb * 32 + v) * 2) 2 = expCode (planeVector m c kb k v).2.2.1) ∧
    (∀ y, ¬ (c.num 16 4 + kb * p * 128 ≤ y ∧ y < c.num 16 4 + (kb + 1) * p * 128) → ¬ (c.num 20 4 + kb * 64 ≤ y ∧ y < c.num 20 4 + (kb + 1) * 64) →
      getByte u.spad (matByte y) = getByte k.spad (matByte y)) ∧
    { u with spad := k.spad } = k := by
  intro p u
  have hu : u = { k with spad := matWrites k.spad (planeWrites m c kb k) } := planeStep_eq m c kb k
  have hs : u.spad = matWrites k.spad (planeWrites m c kb k) := by rw [hu]
  refine ⟨fun v hv => ⟨fun j hj => ?_, ?_⟩, fun y hy hy' => ?_, by rw [hu]⟩
  · refine matRead_matWrites (w := wordWrite (c.num 16 4) kb p v j (planeWordOf m c kb k v j)) hs
      ((mem_planeWrites _).2 ⟨v, hv, .inl ⟨j, hj, rfl⟩⟩) (planeWordOf_lt v hj) fun w hw => ?_
    obtain ⟨v', hv', ⟨j', hj', rfl⟩ | rfl⟩ := (mem_planeWrites w).1 hw
    · by_cases he : v' = v ∧ j' = j
      · exact .inl (by rw [he.1, he.2])
      · exact .inr fun x hx => wordWrite_apart hv' hv he hx
    · exact .inr fun x hx hx' => word_apart_exp hkb hpe hv hj hv' hx' hx
  · refine matRead_matWrites (w := expWrite (c.num 20 4) kb v (planeVector m c kb k v).2.2.1) hs
      ((mem_planeWrites _).2 ⟨v, hv, .inr rfl⟩) (expCode_lt _) fun w hw => ?_
    obtain ⟨v', hv', ⟨j', hj', rfl⟩ | rfl⟩ := (mem_planeWrites w).1 hw
    · exact .inr fun x hx => word_apart_exp hkb hpe hv' hj' hv hx
    · by_cases he : v' = v
      · exact .inl (by rw [he])
      · exact .inr fun x hx => expWrite_apart he hx
  · rw [hs]
    refine getByte_matWrites_outside fun w hw hc => ?_
    obtain ⟨v', hv', ⟨j', hj', rfl⟩ | rfl⟩ := (mem_planeWrites w).1 hw
    · exact hy (covers_wordWrite hv' hj' hc)
    · exact hy' (covers_expWrite hv' hc)

end Sys2Proof.Machine
end

section
/-!
The numbers of a block of PLANE (R71, R90, R208): what `planeBlock` answers for integers, for O4 and for floats.
-/

namespace Sys2Proof.Machine

open Sys2Proof

/-! ### Scales -/

theorem e8m0Exp_of_lt {sc : Nat} (h : sc < 256) : e8m0Exp sc = (sc : Int) - 127 := by rw [e8m0Exp, Nat.mod_eq_of_lt h]

/-- The scale byte as an exponent, or none for NaN (R70). -/
theorem scale_of_byte {sc : Nat} (h : sc < 256) :
    (if sc = 0xFF then none else some (e8m0Exp sc)) = (if sc = 255 then none else some ((sc : Int) - 127)) := by rw [e8m0Exp_of_lt h]

/-! ### O4 -/

theorem quadOf_eq_map {xs : List Nat} (hxs : xs.length = 32) {i : Nat} (hi : i < 32) :
    quadOf xs (i / 4) = (List.range 4).map (fun j => xs[i / 4 * 4 + j]?.getD 0) := by
  apply List.ext_getElem?
  intro j
  by_cases hj : j < 4
  · have hlt : 4 * (i / 4) + j < xs.length := by omega
    rw [getElem?_quadOf xs _ hj, List.getElem?_map, List.getElem?_range hj, Option.map_some, Nat.mul_comm (i / 4), List.getElem?_eq_getElem hlt,
      Option.getD_some]
  · rw [List.getElem?_eq_none (by rw [length_quadOf hxs (by omega)]; omega), List.getElem?_eq_none (by simp; omega)]

/-- A slot of a block of O4: 0 in an invalid quad, else as it is. -/
theorem getElem?_slotsOf_eq {xs : List Nat} (hxs : xs.length = 32) {i : Nat} (hi : i < 32) :
    (slotsOf xs)[i]? = if decodeQuad (ofElems 4 (quadOf xs (i / 4))) = none then some 0 else xs[i]? := by
  have he : i = 4 * (i / 4) + i % 4 := by omega
  have hm : i % 4 < 4 := by omega
  conv_lhs => rw [he]
  rw [getElem?_slotsOf hxs (by omega) hm, storedQuad]
  cases hq : decodeQuad (ofElems 4 (quadOf xs (i / 4))) with
  | none =>
    obtain h | h | h | h : i % 4 = 0 ∨ i % 4 = 1 ∨ i % 4 = 2 ∨ i % 4 = 3 := by omega
    all_goals rw [h]; rfl
  | some l =>
    rw [Option.isSome_some, if_pos rfl, getElem?_quadOf xs _ hm, ← he]
    rfl

theorem planeBlock_o4_spec {xs : List Nat} (hxs : xs.length = 32) (w : Nat) {sc : Nat} (hsc : sc < 256) :
    let b := planeBlock 2 w xs sc
    let quad := fun (i : Nat) => ofElems 4 ((List.range 4).map (fun j => xs[i / 4 * 4 + j]?.getD 0))
    (∀ i < 32, b.1[i]? = (if decodeQuad (quad i) = none then some 0 else xs[i]?) ∧ b.2.1[i]? = some (decide (b.1[i]? = some 8))) ∧
    b.2.2.1 = (if sc = 255 then none else some ((sc : Int) - 127)) ∧ ((∃ i < 32, decodeQuad (quad i) = none) → b.2.2.2 = fOQ) ∧
    ((∀ i < 32, decodeQuad (quad i) ≠ none) → b.2.2.2 = 0) := by
  intro b quad
  have hb : b = _ := planeBlock_o4 hxs w sc
  have hquad (i : Nat) (hi : i < 32) : quad i = ofElems 4 (quadOf xs (i / 4)) := by rw [quadOf_eq_map hxs hi]
  rw [hb]
  refine ⟨fun i hi => ⟨?_, ?_⟩, scale_of_byte hsc, fun ⟨i, hi, hn⟩ => ?_, fun h => ?_⟩
  · rw [hquad i hi]
    exact getElem?_slotsOf_eq hxs hi
  · have hlt : i < (slotsOf xs).length := by rw [length_slotsOf hxs]; exact hi
    dsimp only
    rw [List.getElem?_map, List.getElem?_eq_getElem hlt]
    simp [beq_eq_decide]
  · have : (List.range 8).any (fun g => !(decodeQuad (ofElems 4 (quadOf xs g))).isSome) = true :=
      List.any_eq_true.2 ⟨i / 4, List.mem_range.2 (by omega), by rw [← hquad i hi, hn]; rfl⟩
    dsimp only
    rw [this]
    rfl
  · have : (List.range 8).any (fun g => !(decodeQuad (ofElems 4 (quadOf xs g))).isSome) = false :=
      List.any_eq_false.2 fun g hg => by
        have hg := List.mem_range.1 hg
        have hne := h (4 * g) (by omega)
        rw [hquad _ (by omega), show 4 * g / 4 = g by omega] at hne
        simpa [Option.isSome_iff_ne_none] using hne
    dsimp only
    rw [this]
    rfl

/-! ### Floats: the largest exponent and the cut (R90) -/

/-- A list of values holds none but finite ones. -/
theorem nonFinite_eq_true {l : List Val} : nonFinite l = true ↔ ∃ v ∈ l, ∀ neg m e, v ≠ .fin neg m e := by
  rw [nonFinite, List.any_eq_true]
  refine exists_congr fun v => and_congr_right fun _ => ?_
  cases v <;> simp

/-- The largest exponent met so far, with one more value seen. -/
def seeExp (f : Fmt) (o : Option Int) (v : Val) : Option Int :=
  match v with
  | .fin _ m e => if m = 0 then o else some (match o with
    | some x => max x (blockElemExp f m e)
    | none => blockElemExp f m e)
  | _ => o

theorem blockEmax_eq (f : Fmt) (l : List Val) : blockEmax f l = (l.foldl (seeExp f) none).getD 0 := rfl

/-- What the exponents of a list make of a start: at least the start and each of them, and one of these. -/
structure MaxExp (f : Fmt) (l : List Val) (o r : Option Int) : Prop where
  start_le : ∀ x, o = some x → ∃ y, r = some y ∧ x ≤ y
  le : ∀ neg m e, .fin neg m e ∈ l → m ≠ 0 → ∃ y, r = some y ∧ blockElemExp f m e ≤ y
  attained : r = o ∨ ∃ neg m e, .fin neg m e ∈ l ∧ m ≠ 0 ∧ r = some (blockElemExp f m e)

theorem seeExp_spec (f : Fmt) (o : Option Int) (v : Val) : MaxExp f [v] o (seeExp f o v) := by
  have hid (h : seeExp f o v = o) (hz : ∀ neg m e, v = .fin neg m e → m = 0) : MaxExp f [v] o (seeExp f o v) :=
    ⟨fun x hx => ⟨x, h.trans hx, le_rfl⟩, fun neg m e hv hm => absurd (hz neg m e (List.mem_singleton.1 hv).symm) hm, .inl h⟩
  cases v with
  | nan s => exact hid rfl fun _ _ _ h => nomatch h
  | inf n => exact hid rfl fun _ _ _ h => nomatch h
  | fin neg m e =>
    by_cases hm : m = 0
    · exact hid (if_pos hm) fun _ _ _ h => by cases h; exact hm
    · have hmem : Val.fin neg m e ∈ [Val.fin neg m e] := .head _
      cases o with
      | none =>
        have hs : seeExp f none (.fin neg m e) = some (blockElemExp f m e) := if_neg hm
        exact ⟨nofun, fun n' m' e' hv _ => ⟨_, hs, by cases List.mem_singleton.1 hv; exact le_rfl⟩, .inr ⟨neg, m, e, hmem, hm, hs⟩⟩
      | some x =>
        have hs : seeExp f (some x) (.fin neg m e) = some (max x (blockElemExp f m e)) := if_neg hm
        refine ⟨fun y hy => ⟨_, hs, by cases hy; exact le_max_left _ _⟩,
          fun n' m' e' hv _ => ⟨_, hs, by cases List.mem_singleton.1 hv; exact le_max_right _ _⟩, ?_⟩
        rcases le_total x (blockElemExp f m e) with h | h
        · exact .inr ⟨neg, m, e, hmem, hm, by rw [hs, max_eq_right h]⟩
        · exact .inl (by rw [hs, max_eq_left h])

theorem foldl_seeExp_spec (f : Fmt) (l : List Val) (o : Option Int) : MaxExp f l o (l.foldl (seeExp f) o) := by
  induction l generalizing o with
  | nil => exact ⟨fun x hx => ⟨x, hx, le_rfl⟩, nofun, .inl rfl⟩
  | cons v l ih =>
    have h1 := seeExp_spec f o v
    have h2 := ih (seeExp f o v)
    have hv {n m e} (h : Val.fin n m e ∈ [v]) : Val.fin n m e ∈ v :: l := by rw [List.mem_singleton.1 h]; exact .head _
    have hup {x : Int} (h : ∃ y, seeExp f o v = some y ∧ x ≤ y) : ∃ y, l.foldl (seeExp f) (seeExp f o v) = some y ∧ x ≤ y := by
      obtain ⟨y, hy, hxy⟩ := h
      obtain ⟨z, hz, hyz⟩ := h2.start_le y hy
      exact ⟨z, hz, hxy.trans hyz⟩
    refine ⟨fun x hx => hup (h1.start_le x hx), fun n m e hm h0 => ?_, ?_⟩
    · rcases List.mem_cons.1 hm with h | h
      · exact hup (h1.le n m e (by rw [h]; exact .head _) h0)
      · exact h2.le n m e h h0
    · rcases h2.attained with h | ⟨n, m, e, hm, h0, h⟩
      · rcases h1.attained with h' | ⟨n, m, e, hm, h0, h'⟩
        · exact .inl (h.trans h')
        · exact .inr ⟨n, m, e, hv hm, h0, h.trans h'⟩
      · exact .inr ⟨n, m, e, .tail _ hm, h0, h⟩

/-- The exponent of a block is the largest of its elements that are not zero, or 0 where all are. -/
theorem blockEmax_spec (f : Fmt) (l : List Val) :
    (∀ neg m e, .fin neg m e ∈ l → m ≠ 0 → blockElemExp f m e ≤ blockEmax f l) ∧
    ((∃ neg m e, .fin neg m e ∈ l ∧ m ≠ 0 ∧ blockElemExp f m e = blockEmax f l) ∨
      ((∀ neg m e, .fin neg m e ∈ l → m = 0) ∧ blockEmax f l = 0)) := by
  obtain ⟨-, hle, hat⟩ := foldl_seeExp_spec f l none
  rw [blockEmax_eq]
  refine ⟨fun n m e hm h0 => ?_, ?_⟩
  · obtain ⟨y, hy, h⟩ := hle n m e hm h0
    rwa [hy]
  · rcases hat with h | ⟨n, m, e, hm, h0, h⟩
    · refine .inr ⟨fun n m e hm => ?_, by rw [h]; rfl⟩
      by_contra h0
      obtain ⟨y, hy, -⟩ := hle n m e hm h0
      rw [h] at hy
      cases hy
    · exact .inl ⟨n, m, e, hm, h0, by rw [h]; rfl⟩

/-- An element in block fixed point: the element over the block's quantum, cut toward zero, with its sign. -/
theorem toBlock_spec (w : Nat) (top : Int) (neg : Bool) (m : Nat) (e : Int) :
    let q := toBlock w top (.fin neg m e)
    ((q.natAbs : ℚ) ≤ (m : ℚ) * (2 : ℚ) ^ (e + w - 2 - top) ∧ (m : ℚ) * (2 : ℚ) ^ (e + w - 2 - top) < (q.natAbs : ℚ) + 1) ∧
    (0 < q → neg = false) ∧ (q < 0 → neg = true) := by
  intro q
  have hcut := isCut_scaleCut m (e + w - 2 - top)
  have hq : q = if neg then -((scaleCut m (e + w - 2 - top)).1 : Int) else (scaleCut m (e + w - 2 - top)).1 := rfl
  have habs : q.natAbs = (scaleCut m (e + w - 2 - top)).1 := by rw [hq]; cases neg <;> simp
  rw [habs]
  refine ⟨⟨hcut.le, hcut.lt⟩, fun h => ?_, fun h => ?_⟩
  · cases neg with
    | false => rfl
    | true => rw [hq, if_pos rfl] at h; omega
  · cases neg with
    | true => rfl
    | false => rw [hq, if_neg (by decide)] at h; omega

/-- A block of a float type: all zeros without an exponent where it is not finite or its scale is NaN. -/
theorem planeBlock_float_nonFinite {t : Nat} (ht : 3 ≤ t) (w : Nat) {sc : Nat} {xs : List Nat}
    (h : sc = 255 ∨ ∃ x ∈ xs, ∀ neg m e, (matFmt t).decode x ≠ .fin neg m e) :
    (planeBlock t w xs sc).1 = List.replicate 32 0 ∧ (planeBlock t w xs sc).2.2.1 = none := by
  rw [planeBlock_nonFinite ht w ?_]
  · exact ⟨rfl, rfl⟩
  · rcases h with h | ⟨x, hx, hne⟩
    · exact .inr h
    · exact .inl (nonFinite_eq_true.2 ⟨_, List.mem_map_of_mem hx, hne⟩)

/-- A finite block of a float type: its elements over the largest exponent, cut toward zero, and the block's total exponent. -/
theorem planeBlock_float_finite {t : Nat} (ht : 3 ≤ t) (w : Nat) {sc : Nat} (hlt : sc < 256) {xs : List Nat} (hsc : sc ≠ 255)
    (hfin : ∀ x ∈ xs, ∃ neg m e, (matFmt t).decode x = .fin neg m e) :
    let f := matFmt t
    let b := planeBlock t w xs sc
    let exp := fun (m : Nat) (e : Int) => max ((Nat.log2 m : Int) + e) f.emin
    ∃ top : Int, b.2.2.1 = some (top - w + 2 + (sc - 127)) ∧
      (∀ x ∈ xs, ∀ neg m e, f.decode x = .fin neg m e → m ≠ 0 → exp m e ≤ top) ∧
      ((∃ x ∈ xs, ∃ neg m e, f.decode x = .fin neg m e ∧ m ≠ 0 ∧ exp m e = top) ∨
        ((∀ x ∈ xs, ∃ neg e, f.decode x = .fin neg 0 e) ∧ top = 0)) ∧
      (∀ (i x : Nat) (neg : Bool) (m : Nat) (e : Int), xs[i]? = some x → f.decode x = .fin neg m e → ∃ q : Int, b.1[i]? = some (q % 2 ^ w).toNat ∧
        ((q.natAbs : ℚ) ≤ (m : ℚ) * (2 : ℚ) ^ (e + w - 2 - top) ∧ (m : ℚ) * (2 : ℚ) ^ (e + w - 2 - top) < (q.natAbs : ℚ) + 1) ∧
        (0 < q → neg = false) ∧ (q < 0 → neg = true)) := by
  intro f b exp
  have hno : ¬ (nonFinite (xs.map f.decode) = true ∨ sc = 0xFF) := by
    rintro (h | h)
    · obtain ⟨v, hv, hne⟩ := nonFinite_eq_true.1 h
      obtain ⟨x, hx, rfl⟩ := List.mem_map.1 hv
      obtain ⟨n, m, e, h⟩ := hfin x hx
      exact hne n m e h
    · exact hsc h
  have hb : b = _ := planeBlock_finite ht w hno
  have hmem {x n m e} (hx : x ∈ xs) (h : f.decode x = .fin n m e) : .fin n m e ∈ xs.map f.decode := h ▸ List.mem_map_of_mem hx
  obtain ⟨hle, hat⟩ := blockEmax_spec f (xs.map f.decode)
  refine ⟨blockEmax f (xs.map f.decode), ?_, fun x hx n m e h h0 => hle n m e (hmem hx h) h0, ?_, fun i x n m e hi hd => ?_⟩
  · rw [hb, ← e8m0Exp_of_lt hlt]
  · rcases hat with ⟨n, m, e, hm, h0, h⟩ | ⟨hz, h0⟩
    · obtain ⟨x, hx, hd⟩ := List.mem_map.1 hm
      exact .inl ⟨x, hx, n, m, e, hd, h0, h⟩
    · refine .inr ⟨fun x hx => ?_, h0⟩
      obtain ⟨n, m, e, hd⟩ := hfin x hx
      exact ⟨n, e, by rw [hd, hz n m e (hmem hx hd)]⟩
  · refine ⟨toBlock w (blockEmax f (xs.map f.decode)) (.fin n m e), ?_, toBlock_spec w _ n m e⟩
    rw [hb, ← hd]
    dsimp only
    rw [List.getElem?_map, hi]
    rfl

end Sys2Proof.Machine
end

section
/-!
Tiles read back from the planes (R209): every element is the number that the bits of its planes spell.
-/

namespace Sys2Proof.Machine

open Sys2Proof

/-- Bit i of the word of vector v in plane j of K-block kb. -/
def planeBit (k : Core) (pl kb p v j i : Nat) : Bool := (matRead k (pl + (kb * p + j) * 128 + 4 * v) 4).testBit i

/-- The number that the first n planes spell for element i. -/
def planeCode (k : Core) (pl kb p v n i : Nat) : Nat :=
  ((List.range n).map (fun j => if planeBit k pl kb p v j i = true then 2 ^ j else 0)).sum

section
variable (k : Core) (pl kb : Nat) {p v : Nat} (hv : v < 32)
include hv

/-- A bit of a K-block's planes, read at once, is a bit of one word of one plane. -/
theorem testBit_planes {j i : Nat} (hj : j < p) (hi : i < 32) :
    (matRead k (pl + kb * p * 128) (p * 128) / 2 ^ (8 * (128 * j + 4 * v) + i)).testBit 0 = planeBit k pl kb p v j i := by
  have haddr : pl + kb * p * 128 + (8 * (128 * j + 4 * v) + i) / 8 = pl + (kb * p + j) * 128 + 4 * v + i / 8 := by omega
  have hbit : (8 * (128 * j + 4 * v) + i) % 8 = i % 8 := by omega
  rw [planeBit, Nat.testBit_div_two_pow, Nat.zero_add, matRead_testBit k _ _ _ (by omega), matRead_testBit k _ 4 i (by omega), haddr, hbit]

theorem planeElem_eq_planeCode {n i : Nat} (hn : n ≤ p) (hi : i < 32) :
    planeElem (matRead k (pl + kb * p * 128) (p * 128)) n v i = planeCode k pl kb p v n i := by
  rw [planeElem, ofElems_one_eq_sum, planeCode, List.length_map, List.length_range]
  congr 1
  refine List.map_congr_left fun j hj => ?_
  have hj := List.mem_range.1 hj
  rw [List.getElem?_map, List.getElem?_range hj, Option.map_some, Option.getD_some, testBit_planes k pl kb hv (by omega) hi]

/-- A quad holds an outlier where one of its slots is marked. -/
theorem any_mark_iff {i : Nat} (hp : 4 < p) (hi : i < 32) :
    ((List.range 4).any fun j => (matRead k (pl + kb * p * 128) (p * 128) / 2 ^ (8 * (128 * 4 + 4 * v) + (i / 4 * 4 + j))).testBit 0) = true ↔
      ∃ j < 4, planeBit k pl kb p v 4 (i / 4 * 4 + j) = true := by
  rw [List.any_eq_true]
  refine exists_congr fun j => ?_
  rw [List.mem_range]
  refine and_congr_right fun hj => ?_
  rw [testBit_planes k pl kb hv hp (by omega)]

end

/-- The exponent of vector v as the tile has it. -/
theorem getElem?_tileExps (k : Core) (ex kb : Nat) {v : Nat} (hv : v < 32) :
    (tileExps (matRead k (ex + kb * 64) 64))[v]? = some (if matRead k (ex + (kb * 32 + v) * 2) 2 = 0x8000 then none
      else some (toSigned 16 (matRead k (ex + (kb * 32 + v) * 2) 2))) := by
  have he : elemAt 16 (matRead k (ex + kb * 64) 64) v = matRead k (ex + (kb * 32 + v) * 2) 2 := by
    have h := matRead_part k (ex + kb * 64) 64 (2 * v) 2 (by omega)
    rw [show ex + kb * 64 + 2 * v = ex + (kb * 32 + v) * 2 by omega, ← Nat.mul_assoc] at h
    exact h
  rw [tileExps, List.getElem?_map, getElem?_elems 16 _ hv, Option.map_some, he]

/-- The elements of vector v of a block. -/
def tileRow (t w data v : Nat) : List Val :=
  (List.range 32).map (fun k =>
    let e := fun (k : Nat) => planeElem data (if t = 2 then 4 else w) v k
    let mark := fun (i : Nat) => (data / 2 ^ (8 * (128 * 4 + 4 * v) + i)).testBit 0
    if t = 2 then
      let q := k / 4 * 4
      if (List.range 4).any (fun i => mark (q + i)) then
        (if 2 ≤ k % 4 then .fin false 0 0
         else if mark k then e4m3.decode (e (q + 3) * 16 + e (q + 2))
         else Val.ofInt (int4 (e k)) 0)
      else Val.ofInt (int4 (e k)) 0
    else Val.ofInt (toSigned w (e k)) 0)

theorem tileVectors_eq (t w data : Nat) : tileVectors t w data = (List.range 32).map (tileRow t w data) := rfl

theorem length_tileRow (t w data v : Nat) : (tileRow t w data v).length = 32 := by rw [tileRow, List.length_map, List.length_range]

theorem int4_eq_toSigned (x : Nat) : int4 x = toSigned 4 x := rfl

section
variable (k : Core) (pl kb : Nat) {t w v i : Nat} (hv : v < 32) (hi : i < 32)
include hv hi

/-- An element of a tile of another type than O4. -/
theorem getElem?_tileRow_int (ht : t ≠ 2) :
    (tileRow t w (matRead k (pl + kb * planesOf t w * 128) (planesOf t w * 128)) v)[i]? =
      some (Val.ofInt (toSigned w (planeCode k pl kb (planesOf t w) v w i)) 0) := by
  have hw : w ≤ planesOf t w := by rw [planesOf, if_neg ht]
  rw [tileRow, List.getElem?_map, List.getElem?_range hi, Option.map_some]
  simp only [if_neg ht]
  rw [planeElem_eq_planeCode k pl kb hv hw hi]

/-- An element of a tile of O4: an integer, or the outlier byte of its quad, or zero in the byte's place. -/
theorem getElem?_tileRow_o4 (ht : t = 2) :
    let p := planesOf t w
    let q := i / 4 * 4
    let code := planeCode k pl kb p v 4
    let bit := planeBit k pl kb p v 4
    (tileRow t w (matRead k (pl + kb * p * 128) (p * 128)) v)[i]? = some
      (if ∃ j < 4, bit (q + j) = true then
        (if 2 ≤ i % 4 then .fin false 0 0 else if bit i = true then e4m3.decode (16 * code (q + 3) + code (q + 2))
         else Val.ofInt (toSigned 4 (code i)) 0)
       else Val.ofInt (toSigned 4 (code i)) 0) := by
  intro p q code bit
  have hp : p = 5 := if_pos ht
  have hany := any_mark_iff k pl kb hv (i := i) (show 4 < p by omega) hi
  have hcode {n : Nat} (hn : n < 32) := planeElem_eq_planeCode k pl kb hv (n := 4) (show 4 ≤ p by omega) hn
  have hbit := testBit_planes k pl kb hv (show 4 < p by omega) hi
  rw [tileRow, List.getElem?_map, List.getElem?_range hi, Option.map_some]
  simp only [ht, if_true, hany, hbit, int4_eq_toSigned]
  rw [hcode hi, hcode (n := i / 4 * 4 + 3) (by omega), hcode (n := i / 4 * 4 + 2) (by omega), Nat.mul_comm _ 16]

end

/-- A vector of a tile, with its exponent. -/
theorem getElem?_matTile (k : Core) (f : Word) (pl ex kb : Nat) {v : Nat} (hv : v < 32) :
    (matTile k f pl ex kb)[v]? = some (tileRow (fmtType f) (fmtWidth f)
        (matRead k (pl + kb * planesOf (fmtType f) (fmtWidth f) * 128) (planesOf (fmtType f) (fmtWidth f) * 128)) v,
      if matRead k (ex + (kb * 32 + v) * 2) 2 = 0x8000 then none else some (toSigned 16 (matRead k (ex + (kb * 32 + v) * 2) 2))) := by
  rw [matTile, tile32, tileVectors_eq, List.getElem?_zip_eq_some]
  exact ⟨by rw [List.getElem?_map, List.getElem?_range hv]; rfl, getElem?_tileExps k ex kb hv⟩

end Sys2Proof.Machine
end

section
/-!
One K-block into an accumulator (R91): the element at row i and column j gets the term of row i and column j, and every other row stays.
-/

namespace Sys2Proof.Machine

open Sys2Proof

/-! ### Codes fit their format -/

theorem encode_lt {f : Fmt} (hf : f ∈ [f32, bf16, e4m3, e5m2]) (rm : BitVec 2) (sat : Bool) (v : Val) : (f.encode rm sat v).1 < 2 ^ f.width := by
  have hw : 2 ^ f.width = 2 ^ (f.eb + f.fb) + 2 ^ (f.eb + f.fb) := by rw [Fmt.width, Nat.add_assoc, pow_add]; ring
  have hnan : f.nan < 2 ^ f.width := by revert f; decide
  have hinf (i : Nat) (h : f.inf = some i) : i < 2 ^ (f.eb + f.fb) := by
    have key : ∀ g ∈ [f32, bf16, e4m3, e5m2], ∀ i ∈ g.inf, i < 2 ^ (g.eb + g.fb) := by decide
    exact key f hf i h
  have hfit (neg : Bool) {c : Nat} (h : c < 2 ^ (f.eb + f.fb)) : f.sign neg + c < 2 ^ f.width := by
    rcases f.sign_eq neg with h' | h' <;> omega
  have htop : f.top < 2 ^ (f.eb + f.fb) := (sound_of_mem hf).top_lt
  have hsign (neg : Bool) : f.sign neg < 2 ^ f.width := hfit neg (c := 0) (by positivity)
  cases v with
  | nan s => exact hnan
  | inf neg =>
    unfold Fmt.encode
    cases hi : f.inf with
    | some i => exact hfit neg (hinf i hi)
    | none => cases sat
              · exact hnan
              · exact hfit neg htop
  | fin neg m e =>
    unfold Fmt.encode
    dsimp only
    split
    · exact hsign neg
    · unfold Fmt.round
      dsimp only
      split
      · split
        · exact hfit neg htop
        · split
          · split
            · next i hi => exact hfit neg (hinf i hi)
            · exact hnan
          · exact hfit neg htop
      · next h => exact hfit neg (lt_of_le_of_lt (not_lt.1 h) htop)

theorem f32_encode_lt (rm : BitVec 2) (sat : Bool) (v : Val) : (f32.encode rm sat v).1 < 2 ^ 32 := encode_lt (by decide) rm sat v

/-! ### Flags of a list -/

/-- A flag that was raised, or that an entry raises, is raised in the end, and no other. -/
theorem getLsbD_foldl_or {α : Type} (h : α → BitVec 8) (l : List α) (g : BitVec 8) (b : Nat) :
    (l.foldl (fun g x => g ||| h x) g).getLsbD b = (g.getLsbD b || l.any (fun x => (h x).getLsbD b)) := by
  induction l generalizing g with
  | nil => simp
  | cons x l ih => rw [List.foldl_cons, ih, BitVec.getLsbD_or, List.any_cons, Bool.or_assoc]

theorem and_fNV_ne_zero {f : BitVec 8} (h : f.getLsbD 4 = true) : f &&& fNV ≠ 0 := by
  intro h0
  have hb : (f &&& fNV).getLsbD 4 = true := by rw [BitVec.getLsbD_and, h]; rfl
  rw [h0] at hb
  cases hb

theorem getLsbD_foldl_or_of_mem {α : Type} {h : α → BitVec 8} {l : List α} {x : α} {b : Nat} (g : BitVec 8) (hx : x ∈ l)
    (hb : (h x).getLsbD b = true) : (l.foldl (fun g x => g ||| h x) g).getLsbD b = true := by
  rw [getLsbD_foldl_or, List.any_eq_true.2 ⟨x, hx, hb⟩, Bool.or_true]

/-! ### Sums of products of integers (R91) -/

theorem alignTo_zero (s : Bool) (n : Nat) : alignTo s n 0 0 = if s then -(n : Int) else n := by simp [alignTo]

theorem alignTo_ofInt (i : Int) : alignTo (decide (i < 0)) i.natAbs 0 0 = i := by
  rw [alignTo_zero]
  split
  · next h => have := of_decide_eq_true h; omega
  · next h => have := of_decide_eq_false (Bool.eq_false_iff.2 h); omega

theorem alignTo_mul (x y : Int) : alignTo (decide (x < 0) != decide (y < 0)) (x.natAbs * y.natAbs) 0 0 = x * y := by
  rw [alignTo_zero, Nat.cast_mul, Int.natCast_natAbs, Int.natCast_natAbs]
  rcases lt_or_ge x 0 with hx | hx <;> rcases lt_or_ge y 0 with hy | hy
  · simp [hx, hy, abs_of_neg]
  · simp [hx, not_lt.2 hy, abs_of_neg hx, abs_of_nonneg hy]
  · simp [not_lt.2 hx, hy, abs_of_nonneg hx, abs_of_neg hy]
  · simp [not_lt.2 hx, not_lt.2 hy, abs_of_nonneg hx, abs_of_nonneg hy]

/-- A product of integers added to an integer is their exact sum. -/
theorem add_mul_ofInt (x y t : Int) : (Val.add 0 (Val.mul (Val.ofInt x 0) (Val.ofInt y 0)).1 (Val.ofInt t 0)).1 = Val.ofInt (x * y + t) 0 := by
  have hmul : (Val.mul (Val.ofInt x 0) (Val.ofInt y 0)).1 = .fin (decide (x < 0) != decide (y < 0)) (x.natAbs * y.natAbs) 0 := rfl
  rw [hmul, Val.ofInt, Val.add]
  rw [min_self, alignTo_mul, alignTo_ofInt]
  split
  · next h0 =>
    rw [h0]
    split
    · next h =>
      obtain ⟨-, ht, hs⟩ := h
      have : t = 0 := Int.natAbs_eq_zero.1 ht
      rw [hs, this]
      rfl
    · rfl
  · rfl

theorem dotVals_ofInt (xs ys : List Int) :
    dotVals (xs.map (fun q => Val.ofInt q 0)) (ys.map (fun q => Val.ofInt q 0)) = Val.ofInt ((xs.zip ys).map (fun q => q.1 * q.2)).sum 0 := by
  induction xs generalizing ys with
  | nil => rfl
  | cons x xs ih =>
    cases ys with
    | nil => rfl
    | cons y ys =>
      rw [List.map_cons, List.map_cons, dotVals, ih, add_mul_ofInt]
      rfl

/-! ### One K-block -/

/-- Row i of an accumulator after a K-block, with its flags. -/
def mmaRow (first rows : Nat) (b : Tile32) (row : Nat) (a : List Val × Option Int) (i : Nat) : Nat × BitVec 8 :=
  if first ≤ i ∧ i < first + rows then
    let l := ((elems 32 32 row).zip b).map (fun x => mmaAdd x.1 a x.2)
    (ofElems 32 (l.map (fun x => x.1)), l.foldl (fun g x => g ||| x.2) 0)
  else (row, (0 : BitVec 8))

section
variable {first rows : Nat} {a b : Tile32} {acc : Acc} {i : Nat}

/-- The rows of a K-block, in order. -/
def mmaRows (first rows : Nat) (a b : Tile32) (acc : Acc) : List (Nat × BitVec 8) :=
  ((elems 1024 32 acc.toNat).zip a).zipIdx.map (fun e => mmaRow first rows b e.1.1 e.1.2 e.2)

theorem mmaBlock_eq (first rows : Nat) (a b : Tile32) (acc : Acc) : mmaBlock first rows a b acc =
    (BitVec.ofNat 32768 (ofElems 1024 ((mmaRows first rows a b acc).map (fun r => r.1))), (mmaRows first rows a b acc).foldl (fun g r => g ||| r.2) 0) := rfl

theorem getElem?_mmaRows {av : List Val × Option Int} (hi : i < 32) (ha : a[i]? = some av) :
    (mmaRows first rows a b acc)[i]? = some (mmaRow first rows b (elemAt 1024 acc.toNat i) av i) := by
  have hz : ((elems 1024 32 acc.toNat).zip a)[i]? = some (elemAt 1024 acc.toNat i, av) :=
    List.getElem?_zip_eq_some.2 ⟨getElem?_elems 1024 _ hi, ha⟩
  rw [mmaRows, List.getElem?_map, List.getElem?_zipIdx, hz]
  simp

theorem length_mmaRows (ha : a.length = 32) : (mmaRows first rows a b acc).length = 32 := by
  rw [mmaRows, List.length_map, List.length_zipIdx, List.length_zip, length_elems, ha, Nat.min_self]

/-- An element of the accumulator after a K-block is the element of its row. -/
theorem elemAt_mmaBlock {av : List Val × Option Int} {j : Nat} (hlen : a.length = 32) (hi : i < 32) (hj : j < 32) (ha : a[i]? = some av) :
    elemAt 32 (mmaBlock first rows a b acc).1.toNat (32 * i + j) = elemAt 32 (mmaRow first rows b (elemAt 1024 acc.toNat i) av i).1 j := by
  have hlt := ofElems_lt 1024 ((mmaRows first rows a b acc).map (fun r => r.1))
  rw [List.length_map, length_mmaRows hlen, show 1024 * 32 = 32768 from rfl] at hlt
  rw [mmaBlock_eq, BitVec.toNat_ofNat, Nat.mod_eq_of_lt hlt]
  refine elemAt_ofElems_groups (w := 32) (m := 32) ?_ hj
  rw [List.getElem?_map, getElem?_mmaRows hi ha, Option.map_some]

/-- A row that the block does not name keeps its elements. -/
theorem mmaRow_outside {av : List Val × Option Int} {row : Nat} (h : ¬ (first ≤ i ∧ i < first + rows)) : mmaRow first rows b row av i = (row, 0) := if_neg h

theorem mmaAdd_lt (x : Nat) (av bv : List Val × Option Int) : (mmaAdd x av bv).1 < 2 ^ 32 := f32_encode_lt _ _ _

/-- Column j of a row that the block names gets its term; its flags are among the row's. -/
theorem mmaRow_inside {av bv : List Val × Option Int} {row j : Nat} (h : first ≤ i ∧ i < first + rows) (hj : j < 32) (hb : b[j]? = some bv) :
    elemAt 32 (mmaRow first rows b row av i).1 j = (mmaAdd (elemAt 32 row j) av bv).1 ∧
    ∀ n, (mmaAdd (elemAt 32 row j) av bv).2.getLsbD n = true → (mmaRow first rows b row av i).2.getLsbD n = true := by
  have hz : ((elems 32 32 row).zip b)[j]? = some (elemAt 32 row j, bv) := List.getElem?_zip_eq_some.2 ⟨getElem?_elems 32 _ hj, hb⟩
  have hm : (((elems 32 32 row).zip b).map (fun x => mmaAdd x.1 av x.2))[j]? = some (mmaAdd (elemAt 32 row j) av bv) := by
    rw [List.getElem?_map, hz, Option.map_some]
  rw [mmaRow, if_pos h]
  refine ⟨elemAt_ofElems_of ?_ (mmaAdd_lt _ _ _), fun n hn => getLsbD_foldl_or_of_mem (h := fun x : Nat × BitVec 8 => x.2) 0 (List.mem_of_getElem? hm) hn⟩
  rw [List.getElem?_map, hm, Option.map_some]

end

/-- The term of vectors of integers is their exact sum, rounded, scaled and rounded again. -/
theorem mmaTerm_ofInt (xs ys : List Int) (x y : Int) :
    (mmaTerm (xs.map (fun q => Val.ofInt q 0), some x) (ys.map (fun q => Val.ofInt q 0), some y)).1 =
      (f32.encode 0 false ((f32.decode (f32.encode 0 false (Val.ofInt ((xs.zip ys).map (fun q => q.1 * q.2)).sum 0)).1).scale (x + y))).1 := by
  rw [mmaTerm]
  dsimp only
  rw [dotVals_ofInt]

theorem mmaTerm_nonFinite {a b : List Val × Option Int} (h : a.2 = none ∨ b.2 = none) : mmaTerm a b = (f32.nan, fNV) := by
  unfold mmaTerm
  split
  · next ha hb => rcases h with h | h <;> simp_all
  · rfl

theorem f32_decode_nan : f32.decode f32.nan = .nan false := by decide

/-- A sum with a quiet NaN is the canonical NaN. -/
theorem f32_add_nan (x : Nat) : (f32.add 0 x f32.nan).1 = f32.nan := by
  rw [Fmt.add, f32_decode_nan]
  cases f32.decode x <;> rfl

/-- One K-block into an accumulator: each element of its rows gets its term, and no other changes. -/
theorem mmaBlock_spec (first rows : Nat) (a b : Tile32) (acc : Acc) (i j : Nat) (hal : a.length = 32) (hi : i < 32) (hj : j < 32) :
    let r := mmaBlock first rows a b acc
    let old := elemAt 32 acc.toNat (32 * i + j)
    let new := elemAt 32 r.1.toNat (32 * i + j)
    (¬ (first ≤ i ∧ i < first + rows) → new = old) ∧
    (first ≤ i → i < first + rows → ∀ av bv, a[i]? = some av → b[j]? = some bv → new = (f32.add 0 old (mmaTerm av bv).1).1 ∧
      ((av.2 = none ∨ bv.2 = none) → new = f32.nan ∧ r.2 &&& fNV ≠ 0)) := by
  intro r old new
  have hold : elemAt 32 (elemAt 1024 acc.toNat i) j = old := elemAt_elemAt 32 acc.toNat i (m := 32) hj
  refine ⟨fun h => ?_, fun h1 h2 av bv ha hb => ?_⟩
  · obtain ⟨av, ha⟩ : ∃ av, a[i]? = some av := ⟨_, List.getElem?_eq_getElem (by omega)⟩
    exact (elemAt_mmaBlock hal hi hj ha).trans (by rw [mmaRow_outside h]; exact hold)
  · obtain ⟨hval, hflag⟩ := mmaRow_inside (row := elemAt 1024 acc.toNat i) (av := av) ⟨h1, h2⟩ hj hb
    have hnew : new = (f32.add 0 old (mmaTerm av bv).1).1 := by
      refine (elemAt_mmaBlock hal hi hj ha).trans (hval.trans ?_)
      rw [hold]
      rfl
    refine ⟨hnew, fun hn => ?_⟩
    rw [hnew, mmaTerm_nonFinite hn]
    refine ⟨f32_add_nan old, and_fNV_ne_zero ?_⟩
    have hr : r.2 = (mmaRows first rows a b acc).foldl (fun g r => g ||| r.2) 0 := congrArg Prod.snd (mmaBlock_eq first rows a b acc)
    rw [hr]
    refine getLsbD_foldl_or_of_mem (h := fun x : Nat × BitVec 8 => x.2) 0 (List.mem_of_getElem? (getElem?_mmaRows hi ha)) (hflag 4 ?_)
    rw [mmaAdd, mmaTerm_nonFinite hn]
    simp [fNV]

end Sys2Proof.Machine
end

section
/-!
DRAIN (R83, R87, R216): where its rows and scale bytes go, and the numbers of a row.
-/

namespace Sys2Proof.Machine

open Sys2Proof

/-! ### Bounds of a row and its scale byte -/

theorem wrap_lt (w : Nat) (i : Int) : wrap w i < 2 ^ w := by
  have h1 : 0 ≤ i % 2 ^ w := Int.emod_nonneg _ (by positivity)
  have h2 : i % 2 ^ w < 2 ^ w := Int.emod_lt_of_pos _ (by positivity)
  rw [wrap, Int.toNat_lt h1]
  exact_mod_cast h2

theorem clampExp_range (e : Int) : -127 ≤ clampExp e ∧ clampExp e ≤ 127 := by rw [clampExp]; omega

theorem scaleByte_lt (qmax : Nat) (o4 : Bool) (l : List Val) : scaleByte qmax o4 l < 256 := by
  unfold scaleByte
  dsimp only
  generalize (if o4 = true then if (topTwo l).2.1 = 0 then (topTwo l).1 else (topTwo l).2 else (topTwo l).1) = a
  have hc := clampExp_range (blockExp qmax a.1 a.2)
  split_ifs <;> omega

theorem quantBlock_byte (l : List Val) : (quantBlock l).1 = scaleByte 7 true l := by
  unfold quantBlock
  dsimp only
  split
  · next h => exact h.symm
  · rfl

theorem length_quantBlock {l : List Val} (hl : l.length = 32) : (quantBlock l).2.1.length = 8 := by
  unfold quantBlock
  dsimp only
  split <;> simp [length_groupsOf (show 0 < 4 by decide) le_rfl (show l.length = 8 * 4 from hl)]

/-- The scale byte of a row of another type than O4: that of its values, or the byte of 1 without a scale. -/
def rowByte (f : Word) (xs : List Nat) : Nat := if fmtScaled f then scaleByte (qmaxOf (fmtType f)) false (xs.map f32.decode) else 127

theorem rowByte_lt (f : Word) (xs : List Nat) : rowByte f xs < 256 := by
  unfold rowByte
  split
  · exact scaleByte_lt _ _ _
  · decide

/-- NV of a row with a NaN in it. -/
def rowNan (xs : List Nat) : BitVec 8 := flagIf ((xs.map f32.decode).any (fun v => v.isNan)) fNV

/-- The elements of a row, each with its flags. -/
def rowElems (f : Word) (xs : List Nat) : List (Nat × BitVec 8) :=
  xs.map (drainElem (fmtType f) (fmtScaled f || f.getLsbD 10) (e8m0Exp (rowByte f xs)))

theorem drainRow_o4 {f : Word} (ht : fmtType f = 2) (xs : List Nat) :
    (drainRow f xs).1 = ofElems 16 (quantBlock (xs.map f32.decode)).2.1 ∧ (drainRow f xs).2.1 = (quantBlock (xs.map f32.decode)).1 := by
  unfold drainRow
  rw [if_pos ht]
  exact ⟨rfl, rfl⟩

theorem drainRow_nan_scale {f : Word} (ht : fmtType f ≠ 2) {xs : List Nat} (h : fmtScaled f = true ∧ rowByte f xs = 0xFF) :
    drainRow f xs = (0, rowByte f xs, [], rowNan xs ||| fNV) := by
  unfold drainRow
  rw [if_neg ht]
  exact if_pos h

theorem drainRow_elems {f : Word} (ht : fmtType f ≠ 2) {xs : List Nat} (h : ¬ (fmtScaled f = true ∧ rowByte f xs = 0xFF)) :
    drainRow f xs = (ofElems (typeBits (fmtType f)) ((rowElems f xs).map (fun x => x.1)), rowByte f xs, [],
      (rowElems f xs).foldl (fun g x => g ||| x.2) (rowNan xs)) := by
  unfold drainRow
  rw [if_neg ht]
  exact if_neg h

theorem drainRow_byte {f : Word} (ht : fmtType f ≠ 2) (xs : List Nat) : (drainRow f xs).2.1 = rowByte f xs := by
  by_cases h : fmtScaled f = true ∧ rowByte f xs = 0xFF
  · rw [drainRow_nan_scale ht h]
  · rw [drainRow_elems ht h]

theorem drainRow_byte_lt (f : Word) (xs : List Nat) : (drainRow f xs).2.1 < 256 := by
  by_cases ht : fmtType f = 2
  · rw [(drainRow_o4 ht xs).2, quantBlock_byte]
    exact scaleByte_lt _ _ _
  · rw [drainRow_byte ht]
    exact rowByte_lt f xs

/-- A row has as many bytes as 32 elements. -/
theorem drainRow_lt (f : Word) {xs : List Nat} (hxs : xs.length = 32) : (drainRow f xs).1 < 256 ^ (4 * typeBits (fmtType f)) := by
  have h256 (n : Nat) : 256 ^ (4 * n) = 2 ^ (n * 32) := by rw [show 256 = 2 ^ 8 from rfl, ← pow_mul]; ring_nf
  rw [h256]
  by_cases ht : fmtType f = 2
  · have hlt := ofElems_lt 16 (quantBlock (xs.map f32.decode)).2.1
    rw [length_quantBlock (by rw [List.length_map, hxs])] at hlt
    rw [(drainRow_o4 ht xs).1, ht]
    exact hlt
  · by_cases h : fmtScaled f = true ∧ rowByte f xs = 0xFF
    · rw [drainRow_nan_scale ht h]
      positivity
    · have hlt := ofElems_lt (typeBits (fmtType f)) ((rowElems f xs).map (fun x => x.1))
      rw [List.length_map, rowElems, List.length_map, hxs] at hlt
      rw [drainRow_elems ht h]
      exact hlt

/-! ### The writes of DRAIN -/

/-- Row i of an accumulator times the tensor scale. -/
def drainValues (ts : Nat) (acc : Acc) (i : Nat) : List Nat := (List.range 32).map (fun j => (f32.mul 0 (elemAt 32 acc.toNat (32 * i + j)) ts).1)

theorem length_drainValues (ts : Nat) (acc : Acc) (i : Nat) : (drainValues ts acc i).length = 32 := by rw [drainValues, List.length_map, List.length_range]

theorem scaledRows_values (ts : Nat) (acc : Acc) :
    (scaledRows ts acc).map (fun r => r.map (fun x => x.1)) = (List.range 32).map (drainValues ts acc) := by
  rw [scaledRows, List.map_map, elems_eq_map, List.map_map]
  refine List.map_congr_left fun i _ => ?_
  rw [Function.comp_apply, Function.comp_apply, List.map_map, elems_eq_map, List.map_map]
  refine List.map_congr_left fun j hj => ?_
  have hn := elemAt_elemAt 32 acc.toNat i (m := 32) (List.mem_range.1 hj)
  rw [Function.comp_apply, Function.comp_apply, hn]

/-- Row i of the drain's output. -/
def drainRowAt (m : MSet) (c : MCmd) (k : Core) (i : Nat) : Nat × Nat × List Nat × BitVec 8 := drainRow m.fmtd (drainValues (c.num 4 4) (k.acc c.acc) i)

/-- The scale byte of row i, written. -/
def byteWrite (m : MSet) (c : MCmd) (k : Core) (i : Nat) : MatWrite := ⟨scaleAddr m.scld + i, 1, (drainRowAt m c k i).2.1⟩

/-- Row i, written. -/
def rowWrite (m : MSet) (c : MCmd) (k : Core) (i : Nat) : MatWrite := ⟨c.num 8 4 + i * c.num 12 4, 4 * typeBits (fmtType m.fmtd), (drainRowAt m c k i).1⟩

/-- The writes of DRAIN: row by row, the scale byte before the row. -/
def drainWrites (m : MSet) (c : MCmd) (k : Core) : List MatWrite :=
  (List.range 32).flatMap (fun i => (if fmtScaled m.fmtd then [byteWrite m c k i] else []) ++ [rowWrite m c k i])

theorem drainOut_eq (m : MSet) (c : MCmd) (k : Core) : (drainOut m c k).1 = { k with spad := matWrites k.spad (drainWrites m c k) } := by
  rw [drainWrites, matWrites_flatMap, drainOut]
  dsimp only
  rw [scaledRows_values, List.map_map, zipIdx_map_range, List.foldl_map]
  congr 1
  refine List.foldl_ext _ _ _ fun sp i _ => ?_
  cases fmtScaled m.fmtd <;> rfl

theorem mem_drainWrites {m : MSet} {c : MCmd} {k : Core} (w : MatWrite) :
    w ∈ drainWrites m c k ↔ ∃ i < 32, (fmtScaled m.fmtd = true ∧ w = byteWrite m c k i) ∨ w = rowWrite m c k i := by
  rw [drainWrites, List.mem_flatMap]
  refine exists_congr fun i => ?_
  rw [List.mem_range, List.mem_append, List.mem_singleton]
  cases fmtScaled m.fmtd <;> simp

section
variable {m : MSet} {c : MCmd} {k : Core} {i j x : Nat}

theorem byteWrite_apart (hne : i ≠ j) (h : (byteWrite m c k i).Covers x) : ¬ (byteWrite m c k j).Covers x := by
  rintro ⟨h1', h2'⟩
  obtain ⟨h1, h2⟩ := h
  simp only [byteWrite] at h1 h2 h1' h2'
  omega

theorem rowWrite_apart (hp : 4 * typeBits (fmtType m.fmtd) ≤ c.num 12 4) (hne : i ≠ j) (h : (rowWrite m c k i).Covers x) :
    ¬ (rowWrite m c k j).Covers x := by
  rintro ⟨h1', h2'⟩
  obtain ⟨h1, h2⟩ := h
  simp only [rowWrite] at h1 h2 h1' h2'
  rcases Nat.lt_or_gt_of_ne hne with hlt | hlt
  · have := Nat.mul_le_mul_right (c.num 12 4) (Nat.succ_le_of_lt hlt)
    rw [Nat.succ_mul] at this
    omega
  · have := Nat.mul_le_mul_right (c.num 12 4) (Nat.succ_le_of_lt hlt)
    rw [Nat.succ_mul] at this
    omega

theorem byte_apart_row
    (hs : scaleAddr m.scld + 32 ≤ c.num 8 4 ∨ c.num 8 4 + 31 * c.num 12 4 + 4 * typeBits (fmtType m.fmtd) ≤ scaleAddr m.scld) (hi : i < 32) (hj : j < 32)
    (h : (byteWrite m c k i).Covers x) : ¬ (rowWrite m c k j).Covers x := by
  rintro ⟨h1', h2'⟩
  obtain ⟨h1, h2⟩ := h
  simp only [byteWrite, rowWrite] at h1 h2 h1' h2'
  have := Nat.mul_le_mul_right (c.num 12 4) (show j ≤ 31 by omega)
  omega

end

/-- DRAIN's rows and scale bytes are in place, and no other byte changed. -/
theorem drainOut_writes {m : MSet} {c : MCmd} {k : Core} (hp : 4 * typeBits (fmtType m.fmtd) ≤ c.num 12 4)
    (hs : fmtScaled m.fmtd = true → scaleAddr m.scld + 32 ≤ c.num 8 4 ∨ c.num 8 4 + 31 * c.num 12 4 + 4 * typeBits (fmtType m.fmtd) ≤ scaleAddr m.scld) :
    let n := typeBits (fmtType m.fmtd)
    let u := (drainOut m c k).1
    (∀ i < 32, matRead u (c.num 8 4 + i * c.num 12 4) (4 * n) = (drainRowAt m c k i).1 ∧
      (fmtScaled m.fmtd = true → matRead u (scaleAddr m.scld + i) 1 = (drainRowAt m c k i).2.1)) ∧
    (∀ y, (∀ i < 32, ¬ (c.num 8 4 + i * c.num 12 4 ≤ y ∧ y < c.num 8 4 + i * c.num 12 4 + 4 * n)) →
      ¬ (fmtScaled m.fmtd = true ∧ scaleAddr m.scld ≤ y ∧ y < scaleAddr m.scld + 32) →
      getByte u.spad (matByte y) = getByte k.spad (matByte y)) ∧
    { u with spad := k.spad } = k := by
  intro n u
  have hu : u = { k with spad := matWrites k.spad (drainWrites m c k) } := drainOut_eq m c k
  have hsp : u.spad = matWrites k.spad (drainWrites m c k) := by rw [hu]
  refine ⟨fun i hi => ⟨?_, fun hsc => ?_⟩, fun y hy hy' => ?_, by rw [hu]⟩
  · refine matRead_matWrites (w := rowWrite m c k i) hsp ((mem_drainWrites _).2 ⟨i, hi, .inr rfl⟩) (drainRow_lt _ (length_drainValues _ _ _)) fun w hw => ?_
    obtain ⟨j, hj, ⟨hsc, rfl⟩ | rfl⟩ := (mem_drainWrites w).1 hw
    · exact .inr fun x hx => byte_apart_row (hs hsc) hj hi hx
    · by_cases he : j = i
      · exact .inl (by rw [he])
      · exact .inr fun x hx => rowWrite_apart hp he hx
  · refine matRead_matWrites (w := byteWrite m c k i) hsp ((mem_drainWrites _).2 ⟨i, hi, .inl ⟨hsc, rfl⟩⟩) (drainRow_byte_lt _ _) fun w hw => ?_
    obtain ⟨j, hj, ⟨-, rfl⟩ | rfl⟩ := (mem_drainWrites w).1 hw
    · by_cases he : j = i
      · exact .inl (by rw [he])
      · exact .inr fun x hx => byteWrite_apart he hx
    · exact .inr fun x hx hx' => byte_apart_row (hs hsc) hi hj hx' hx
  · rw [hsp]
    refine getByte_matWrites_outside fun w hw hc => ?_
    obtain ⟨j, hj, ⟨hsc, rfl⟩ | rfl⟩ := (mem_drainWrites w).1 hw
    · obtain ⟨h1, h2⟩ := hc
      simp only [byteWrite] at h1 h2
      exact hy' ⟨hsc, by omega, by omega⟩
    · exact hy j hj hc

/-! ### The elements of a row (R65, R73) -/

theorem scale_nan (s : Bool) (e : Int) : (Val.nan s).scale e = .nan s := rfl
theorem scale_inf (n : Bool) (e : Int) : (Val.inf n).scale e = .inf n := rfl

/-- A value is rounded to the nearest integer, at a tie to the even one. -/
theorem roundToInt_nearest (neg : Bool) (m : Nat) (z : Int) :
    let i := (roundToInt 0 neg m z).1
    let v : ℚ := (if neg = true then -1 else 1) * (m : ℚ) * (2 : ℚ) ^ z
    2 * |(i : ℚ) - v| ≤ 1 ∧ (2 * |(i : ℚ) - v| = 1 → i % 2 = 0) := by
  intro i v
  have hcut := isCut_scaleCut m z
  have hmag : 2 * |((roundCut 0 neg (scaleCut m z) : Nat) : ℚ) - (m : ℚ) * 2 ^ z| ≤ 1 ∧
      (2 * |((roundCut 0 neg (scaleCut m z) : Nat) : ℚ) - (m : ℚ) * 2 ^ z| = 1 → roundCut 0 neg (scaleCut m z) % 2 = 0) := by
    have hle := hcut.le
    have hlt := hcut.lt
    have htie := hcut.tie_iff
    have habove := hcut.above_iff
    rw [roundCut_nearest]
    split
    · next h =>
      rw [abs_of_nonneg (by push_cast; linarith)]
      push_cast
      rcases h with h | ⟨h, hodd⟩
      · have := habove.1 h
        exact ⟨by linarith, fun h1 => by linarith⟩
      · have := htie.1 h
        exact ⟨by linarith, fun _ => by omega⟩
    · next h =>
      push Not at h
      obtain ⟨h3, h2⟩ := h
      have hn3 : ¬ 1 < 2 * ((m : ℚ) * 2 ^ z - (scaleCut m z).1) := fun h => h3 (habove.2 h)
      rw [abs_of_nonpos (by linarith)]
      refine ⟨by linarith, fun h1 => ?_⟩
      have := h2 (htie.2 (by linarith))
      omega
  have hi : i = if neg then -(roundCut 0 neg (scaleCut m z) : Int) else roundCut 0 neg (scaleCut m z) := rfl
  have hv : v = if neg then -((m : ℚ) * 2 ^ z) else (m : ℚ) * 2 ^ z := by cases neg <;> simp [v]
  have hdist : |(i : ℚ) - v| = |((roundCut 0 neg (scaleCut m z) : Nat) : ℚ) - (m : ℚ) * 2 ^ z| := by
    rw [hi, hv]
    cases neg
    · simp
    · rw [if_pos rfl, if_pos rfl, ← abs_neg]
      congr 1
      push_cast
      ring
  rw [hdist]
  refine ⟨hmag.1, fun h => ?_⟩
  have := hmag.2 h
  rw [hi]
  cases neg
  · rw [if_neg (by decide)]
    omega
  · rw [if_pos rfl]
    omega

theorem satInt_eq {lo hi : Int} (h : lo ≤ hi) (i : Int) : (satInt lo hi i).1 = max lo (min hi i) := by
  unfold satInt
  split_ifs <;> dsimp only <;> omega

section
variable {t : Nat} {sat : Bool} {e : Int} {x : Nat}

theorem drainElem_int (ht : t ≤ 1) : drainElem t sat e x = drainInt (typeBits t) ((f32.decode x).scale (-e)) := by
  rw [drainElem, if_neg (by omega), if_neg (by omega), if_neg (by omega)]

theorem drainElem_e8 (ht : t = 3 ∨ t = 4) : drainElem t sat e x = (matFmt t).encode 0 sat ((f32.decode x).scale (-e)) := by
  rw [drainElem, if_neg (by omega), if_neg (by omega), if_pos ht]

theorem drainInt_lt (n : Nat) (v : Val) : (drainInt n v).1 < 2 ^ n := by
  cases v with
  | nan s => exact Nat.two_pow_pos n
  | inf neg => exact wrap_lt _ _
  | fin neg m z => exact wrap_lt _ _

theorem drainElem_lt (ht : t ≤ 6) (h2 : t ≠ 2) (hx : x < 2 ^ 32) : (drainElem t sat e x).1 < 2 ^ typeBits t := by
  obtain h | rfl | rfl | rfl | rfl : t ≤ 1 ∨ t = 3 ∨ t = 4 ∨ t = 5 ∨ t = 6 := by omega
  · rw [drainElem_int h]
    exact drainInt_lt _ _
  · exact encode_lt (f := e4m3) (by decide) _ _ _
  · exact encode_lt (f := e5m2) (by decide) _ _ _
  · exact encode_lt (f := bf16) (by decide) _ _ _
  · exact hx

end

theorem drainInt_nan (n : Nat) (s : Bool) : drainInt n (.nan s) = (0, fNV) := rfl

theorem drainInt_inf (n : Nat) (neg : Bool) :
    drainInt n (.inf neg) = (wrap n (if neg then -(2 ^ (n - 1)) else 2 ^ (n - 1) - 1), fSAT) := rfl

/-- An integer element of a finite value: rounded to the nearest, and into the type's range. -/
theorem drainInt_fin (n : Nat) (neg : Bool) (q : Nat) (z : Int) :
    ∃ i : Int, (2 * |(i : ℚ) - (if neg = true then -1 else 1) * (q : ℚ) * (2 : ℚ) ^ z| ≤ 1 ∧
      (2 * |(i : ℚ) - (if neg = true then -1 else 1) * (q : ℚ) * (2 : ℚ) ^ z| = 1 → i % 2 = 0)) ∧
      (drainInt n (.fin neg q z)).1 = (max (-(2 ^ (n - 1) - 1) - 1) (min (2 ^ (n - 1) - 1) i) % 2 ^ n).toNat := by
  refine ⟨(roundToInt 0 neg q z).1, roundToInt_nearest neg q z, ?_⟩
  have hpow : (1 : Int) ≤ 2 ^ (n - 1) := one_le_pow₀ (by decide)
  have hsat := satInt_eq (lo := -(2 ^ (n - 1))) (hi := 2 ^ (n - 1) - 1) (by omega) (roundToInt 0 neg q z).1
  have hlo : -((2 : Int) ^ (n - 1)) = -(2 ^ (n - 1) - 1) - 1 := by omega
  change wrap n (satInt (-(2 ^ (n - 1))) (2 ^ (n - 1) - 1) (roundToInt 0 neg q z).1).1 = _
  rw [hsat, hlo]
  rfl

end Sys2Proof.Machine
end

section
/-!
The numbers of the matrix unit: O48 from the writes of PLANE and DRAIN, the blocks, the tiles, the products and the drain's elements.
-/

namespace Sys2Proof.Machine

open Sys2Proof

/-! ### The rows of DRAIN, element by element -/

section
variable {f : Word} {vs : List Nat} (ht : fmtType f ≠ 2) (hno : ¬ (fmtScaled f = true ∧ rowByte f vs = 0xFF)) {j x : Nat} (hj : vs[j]? = some x)
include ht hno hj

/-- An element of a row is the drain's element of its value. -/
theorem elemAt_drainRow (h6 : fmtType f ≤ 6) (hx : x < 2 ^ 32) :
    elemAt (typeBits (fmtType f)) (drainRow f vs).1 j =
      (drainElem (fmtType f) (fmtScaled f || f.getLsbD 10) (e8m0Exp (rowByte f vs)) x).1 := by
  rw [drainRow_elems ht hno]
  refine elemAt_ofElems_of ?_ (drainElem_lt h6 ht hx)
  rw [List.getElem?_map, rowElems, List.getElem?_map, hj]
  rfl

/-- A flag of an element is one of the row's. -/
theorem getLsbD_drainRow {b : Nat} (hb : (drainElem (fmtType f) (fmtScaled f || f.getLsbD 10) (e8m0Exp (rowByte f vs)) x).2.getLsbD b = true) :
    (drainRow f vs).2.2.2.getLsbD b = true := by
  rw [drainRow_elems ht hno]
  refine getLsbD_foldl_or_of_mem (h := fun x : Nat × BitVec 8 => x.2) _ (List.mem_of_getElem? (i := j) ?_) hb
  rw [rowElems, List.getElem?_map, hj]
  rfl

end

theorem and_fSAT_ne_zero {g : BitVec 8} (h : g.getLsbD 6 = true) : g &&& fSAT ≠ 0 := by
  intro h0
  have hb : (g &&& fSAT).getLsbD 6 = true := by rw [BitVec.getLsbD_and, h]; rfl
  rw [h0] at hb
  cases hb

/-- An integer element of a row: 0 with NV for a NaN, the bound with SAT for an infinity, else the nearest integer in range. -/
theorem drainRow_int {f : Word} {vs : List Nat} (ht : fmtType f ≤ 1) (hno : ¬ (fmtScaled f = true ∧ rowByte f vs = 0xFF)) {j x : Nat}
    (hj : vs[j]? = some x) (hx : x < 2 ^ 32) :
    let n := typeBits (fmtType f)
    let e : Int := (rowByte f vs : Int) - 127
    let got := elemAt n (drainRow f vs).1 j
    let hi : Int := 2 ^ (n - 1) - 1
    (∀ s, f32.decode x = .nan s → got = 0 ∧ (drainRow f vs).2.2.2 &&& fNV ≠ 0) ∧
    (∀ neg, f32.decode x = .inf neg → got = ((if neg = true then -hi - 1 else hi) % 2 ^ n).toNat ∧ (drainRow f vs).2.2.2 &&& fSAT ≠ 0) ∧
    (∀ neg q z, f32.decode x = .fin neg q z → ∃ i : Int,
      let v : ℚ := (if neg = true then -1 else 1) * (q : ℚ) * (2 : ℚ) ^ (z - e)
      2 * |(i : ℚ) - v| ≤ 1 ∧ (2 * |(i : ℚ) - v| = 1 → i % 2 = 0) ∧ got = (max (-hi - 1) (min hi i) % 2 ^ n).toNat) := by
  intro n e got hi
  have h2 : fmtType f ≠ 2 := by omega
  have he : e8m0Exp (rowByte f vs) = e := e8m0Exp_of_lt (rowByte_lt f vs)
  have hgot : got = (drainInt n ((f32.decode x).scale (-e))).1 := by
    refine (elemAt_drainRow h2 hno hj (by omega) hx).trans ?_
    rw [drainElem_int ht, he]
  have hflag {b : Nat} (h : (drainInt n ((f32.decode x).scale (-e))).2.getLsbD b = true) : (drainRow f vs).2.2.2.getLsbD b = true :=
    getLsbD_drainRow h2 hno hj (by rw [drainElem_int ht, he]; exact h)
  refine ⟨fun s hd => ⟨?_, and_fNV_ne_zero (hflag ?_)⟩, fun neg hd => ⟨?_, and_fSAT_ne_zero (hflag ?_)⟩, fun neg q z hd => ?_⟩
  · rw [hgot, hd, scale_nan, drainInt_nan]
  · rw [hd, scale_nan, drainInt_nan]
    rfl
  · have hlo : -hi - 1 = -(2 ^ (n - 1)) := by simp only [hi]; omega
    rw [hgot, hd, scale_inf, drainInt_inf, hlo]
    rfl
  · rw [hd, scale_inf, drainInt_inf]
    exact (rfl : fSAT.getLsbD 6 = true)
  · obtain ⟨i, ⟨h1, h1'⟩, h3⟩ := drainInt_fin n neg q (z - e)
    refine ⟨i, h1, h1', ?_⟩
    rw [hgot, hd, Val.scale, ← sub_eq_add_neg]
    exact h3

/-- The rows of DRAIN in a format other than O4. -/
theorem drainRow_spec (f : Word) (vs : List Nat) (hvs : ∀ x ∈ vs, x < 2 ^ 32) (h6 : fmtType f ≤ 6) (h2 : fmtType f ≠ 2) :
    let t := fmtType f
    let n := typeBits t
    let sat := fmtScaled f || f.getLsbD 10
    let sc := rowByte f vs
    let e : Int := (sc : Int) - 127
    (drainRow f vs).2.1 = sc ∧
    (fmtScaled f = true → sc = 255 → (drainRow f vs).1 = 0 ∧ (drainRow f vs).2.2.2 &&& fNV ≠ 0) ∧
    ((fmtScaled f = true → sc ≠ 255) → ∀ (j x : Nat), vs[j]? = some x →
      let got := elemAt n (drainRow f vs).1 j
      (t = 6 → got = x) ∧ (t = 5 → got = (bf16.encode 0 false (f32.decode x)).1) ∧
      (t = 3 ∨ t = 4 → got = ((if t = 3 then e4m3 else e5m2).encode 0 sat ((f32.decode x).scale (-e))).1) ∧
      (t ≤ 1 → let hi : Int := 2 ^ (n - 1) - 1
        (∀ s, f32.decode x = .nan s → got = 0 ∧ (drainRow f vs).2.2.2 &&& fNV ≠ 0) ∧
        (∀ neg, f32.decode x = .inf neg → got = ((if neg = true then -hi - 1 else hi) % 2 ^ n).toNat ∧ (drainRow f vs).2.2.2 &&& fSAT ≠ 0) ∧
        (∀ neg q z, f32.decode x = .fin neg q z → ∃ i : Int,
          let v : ℚ := (if neg = true then -1 else 1) * (q : ℚ) * (2 : ℚ) ^ (z - e)
          2 * |(i : ℚ) - v| ≤ 1 ∧ (2 * |(i : ℚ) - v| = 1 → i % 2 = 0) ∧ got = (max (-hi - 1) (min hi i) % 2 ^ n).toNat))) := by
  intro t n sat sc e
  refine ⟨drainRow_byte h2 vs, fun hs h255 => ?_, fun hok j x hj => ?_⟩
  · rw [drainRow_nan_scale h2 ⟨hs, h255⟩]
    exact ⟨rfl, and_fNV_ne_zero (by rw [BitVec.getLsbD_or]; simp [fNV])⟩
  · have hno : ¬ (fmtScaled f = true ∧ rowByte f vs = 0xFF) := fun h => hok h.1 h.2
    have hx := hvs x (List.mem_of_getElem? hj)
    have he : e8m0Exp (rowByte f vs) = e := e8m0Exp_of_lt (rowByte_lt f vs)
    have hgot := elemAt_drainRow h2 hno hj h6 hx
    refine ⟨fun h => ?_, fun h => ?_, fun h => ?_, fun h => drainRow_int h hno hj hx⟩
    · refine hgot.trans ?_
      rw [drainElem, if_pos h]
    · refine hgot.trans ?_
      rw [drainElem, if_neg (show ¬ fmtType f = 6 by omega), if_pos h]
    · refine hgot.trans ?_
      rw [drainElem_e8 h, he]
      rcases h with h | h
      · rw [if_pos h, matFmt, if_pos h]
      · rw [if_neg (by omega), matFmt, if_neg (show ¬ fmtType f = 3 by omega), if_pos h]

/-! ### The statement -/

/-- The vector of a K-block by the statement's list of elements. -/
theorem planeVector_eq (m : MSet) (c : MCmd) (kb : Nat) (k : Core) (v : Nat) :
    let f := planeFmt m c
    let n := typeBits (fmtType f.1)
    planeVector m c kb k v = planeBlock (fmtType f.1) (fmtWidth f.1)
      ((List.range 32).map (fun i => elemAt n (matRead k (c.num 8 4 + v * c.num 12 4 + kb * 4 * n) (4 * n)) i))
      (if fmtScaled f.1 = true then matRead k (scaleAddr f.2 + 32 * kb + v) 1 else 127) := by
  intro f n
  rw [planeVector, elems_eq_map]

/-- Settles O48, part by part: the writes of PLANE and DRAIN share no byte, a block's numbers and a row's are read off their definitions,
and the sum of products of integers is exact. -/
theorem matrixNumbers : Obligations.MatrixNumbers := by
  unfold Obligations.MatrixNumbers
  refine ⟨?plane, ?block, ?tile, ?mma, ?drain, ?row⟩
  case plane =>
    intro m c kb k f t n p pl ex u _ hkb hpe
    obtain ⟨hw, hframe, hrest⟩ := planeStep_writes (m := m) hkb hpe (k := k)
    refine ⟨fun v hv => ?_, hframe, hrest⟩
    obtain ⟨hword, hexp⟩ := hw v hv
    intro xs b
    have hb : planeVector m c kb k v = b := planeVector_eq m c kb k v
    refine ⟨fun j hj i hi => ?_, hexp.trans (by rw [hb]; rfl)⟩
    rw [hword j hj, testBit_planeWordOf, hb]
  case block =>
    intro w sc xs hxs hsc scale
    refine ⟨fun t ht => ?_, planeBlock_o4_spec hxs w hsc, fun t h3 h6 => ?_⟩
    · rw [planeBlock_int ht, scale_of_byte hsc]
    · exact ⟨planeBlock_float_nonFinite h3 w, planeBlock_float_finite h3 w hsc⟩
  case tile =>
    intro k f pl ex kb v i hv hi w p bit code e
    refine ⟨_, getElem?_matTile k f pl ex kb hv, length_tileRow _ _ _ _, getElem?_tileRow_int k pl kb hv hi, fun h2 => ?_⟩
    have hrow := getElem?_tileRow_o4 (w := w) k pl kb hv hi h2
    intro q
    refine ⟨fun hno => ?_, fun hmark => ?_⟩
    · have hn : ¬ ∃ j < 4, planeBit k pl kb p v 4 (i / 4 * 4 + j) = true := fun ⟨j, hj, hb⟩ => Bool.false_ne_true ((hno j hj).symm.trans hb)
      exact hrow.trans (by rw [if_neg hn]; rfl)
    · have hm : ∃ j < 4, planeBit k pl kb p v 4 (i / 4 * 4 + j) = true := hmark
      refine ⟨fun h => ?_, fun h hb => ?_, fun h hb => ?_⟩
      · exact hrow.trans (by rw [if_pos hm, if_pos h])
      · have hb' : planeBit k pl kb p v 4 i = true := hb
        exact hrow.trans (by rw [if_pos hm, if_neg (by omega), if_pos hb']; rfl)
      · have hb' : ¬ planeBit k pl kb p v 4 i = true := ne_true_of_eq_false hb
        exact hrow.trans (by rw [if_pos hm, if_neg (by omega), if_neg hb']; rfl)
  case mma =>
    intro first rows a b acc i j hal hbl hi hj r old new
    obtain ⟨hout, hin⟩ := mmaBlock_spec first rows a b acc i j hal hi hj
    refine ⟨hout, fun h1 h2 => ⟨fun xs ys x y _ ha hb => ?_, fun hnone => ?_⟩⟩
    · intro s t
      exact (hin h1 h2 _ _ ha hb).1.trans (by rw [mmaTerm_ofInt])
    · rcases hnone with ⟨l, ha⟩ | ⟨l, hb⟩
      · exact (hin h1 h2 _ _ ha (List.getElem?_eq_getElem (by omega))).2 (.inl rfl)
      · exact (hin h1 h2 _ _ (List.getElem?_eq_getElem (by omega)) hb).2 (.inr rfl)
  case drain =>
    intro m c k f t n at_ pitch scl u _ hp hs
    exact drainOut_writes hp hs
  case row =>
    intro f vs _ hvs h6 h2
    exact drainRow_spec f vs hvs h6 h2

end Sys2Proof.Machine
end

section
/-!
What an instruction on the elements of a line gives (R66, R171, R172): its active elements, its old ones, and the flags of the active ones.
-/

namespace Sys2Proof.Machine

open Sys2Proof

/-! ### Masked elementwise results -/

section
variable {f : Nat → Nat → Nat → Nat × BitVec 8} {m : Mask} {w : Nat}

/-- An element: f of the three where it is active, else the old one. -/
def actElem (f : Nat → Nat → Nat → Nat × BitVec 8) (m : Mask) (w : Nat) (X Y Z : Nat → Nat) (i : Nat) : Nat :=
  if isActive m w i = true then (f (X i) (Y i) (Z i)).1 else Z i

theorem mapAct_fst_range' (s c : Nat) (X Y Z : Nat → Nat) :
    (mapAct f m w s ((List.range' s c).map X) ((List.range' s c).map Y) ((List.range' s c).map Z)).1 =
      (List.range' s c).map (actElem f m w X Y Z) := by
  induction c generalizing s with
  | zero => rfl
  | succ c ih =>
    simp only [List.range'_succ, List.map_cons, mapAct, ih, actElem]
    split <;> rfl

theorem getLsbD_mapAct_range' (s c : Nat) (X Y Z : Nat → Nat) (b : Nat) :
    (mapAct f m w s ((List.range' s c).map X) ((List.range' s c).map Y) ((List.range' s c).map Z)).2.getLsbD b = true ↔
      ∃ i, (s ≤ i ∧ i < s + c) ∧ isActive m w i = true ∧ (f (X i) (Y i) (Z i)).2.getLsbD b = true := by
  induction c generalizing s with
  | zero =>
    have : (0 : BitVec 8).getLsbD b = false := BitVec.getLsbD_zero
    simp only [List.range'_zero, List.map_nil, mapAct, this, Bool.false_eq_true, false_iff]
    rintro ⟨i, hi, -⟩
    omega
  | succ c ih =>
    simp only [List.range'_succ, List.map_cons, mapAct]
    rw [BitVec.getLsbD_or, Bool.or_eq_true, ih]
    have hhead : (if isActive m w s = true then f (X s) (Y s) (Z s) else (Z s, 0)).2.getLsbD b = true ↔
        isActive m w s = true ∧ (f (X s) (Y s) (Z s)).2.getLsbD b = true := by
      split <;> simp_all
    rw [hhead]
    constructor
    · rintro (h | ⟨i, hi, h⟩)
      · exact ⟨s, by omega, h⟩
      · exact ⟨i, by omega, h⟩
    · rintro ⟨i, hi, h⟩
      by_cases he : i = s
      · exact .inl (he ▸ h)
      · exact .inr ⟨i, by omega, h⟩

theorem mapAct_fst (c : Nat) (X Y Z : Nat → Nat) :
    (mapAct f m w 0 ((List.range c).map X) ((List.range c).map Y) ((List.range c).map Z)).1 = (List.range c).map (actElem f m w X Y Z) := by
  rw [List.range_eq_range']
  exact mapAct_fst_range' 0 c X Y Z

/-- A flag is raised where an active element raises it. -/
theorem getLsbD_mapAct (c : Nat) (X Y Z : Nat → Nat) (b : Nat) :
    (mapAct f m w 0 ((List.range c).map X) ((List.range c).map Y) ((List.range c).map Z)).2.getLsbD b = true ↔
      ∃ i < c, isActive m w i = true ∧ (f (X i) (Y i) (Z i)).2.getLsbD b = true := by
  rw [List.range_eq_range', getLsbD_mapAct_range']
  exact exists_congr fun i => and_congr_left' (by omega)

/-- An operation without flags raises none. -/
theorem mapAct_quiet (hf : ∀ x y z, (f x y z).2 = 0) (s : Nat) (xs ys zs : List Nat) : (mapAct f m w s xs ys zs).2 = 0 := by
  induction xs generalizing s ys zs with
  | nil => rfl
  | cons x xs ih =>
    cases ys with
    | nil => rfl
    | cons y ys =>
      cases zs with
      | nil => rfl
      | cons z zs =>
        rw [mapAct]
        dsimp only
        rw [ih]
        split
        · rw [hf]; exact BitVec.or_zero
        · exact BitVec.or_zero

/-- What lies past the first list is not looked at. -/
theorem mapAct_take (s : Nat) (xs ys zs : List Nat) : mapAct f m w s xs ys zs = mapAct f m w s xs ys (zs.take xs.length) := by
  induction xs generalizing s ys zs with
  | nil => rfl
  | cons x xs ih =>
    cases ys with
    | nil => rfl
    | cons y ys =>
      cases zs with
      | nil => rfl
      | cons z zs =>
        rw [List.length_cons, List.take_succ_cons, mapAct, mapAct, ih]

end

/-! ### The shapes of a result -/

/-- A flag is raised exactly where an active element of the count raises it (R75). -/
def RaisedBy (count : Nat) (act : Nat → Bool) (g : BitVec 8) (f : Nat → BitVec 8) : Prop :=
  ∀ j < 8, g.getLsbD j = true ↔ ∃ i < count, act i = true ∧ (f i).getLsbD j = true

/-- Active element i of the width of a type under a context's m0. -/
def Active (x : Ctx) (t : BitVec 3) (i : Nat) : Bool := (x.mask 0).getLsbD (i * (tyWidth t / 4))

/-- Element i of a line at the width of a type. -/
def lineElem (k : Core) (t : BitVec 3) (l i : Nat) : Nat := elemAt (tyWidth t) (k.spadLine l) i

theorem lineElem_lt (k : Core) (t : BitVec 3) (l i : Nat) : lineElem k t l i < 2 ^ tyWidth t := elemAt_lt _ _ _

/-- An instruction writes one line, each active element by f and each other as it was, with the flags of the active ones. -/
def GivesElems (x : Ctx) (k : Core) (e : VEntry) (t : BitVec 3) (f : Nat → Nat → Nat → Nat × BitVec 8) : Prop :=
  ∃ v g, vecRes x k e = some ⟨[(e.d, v)], [], g⟩ ∧
    (∀ i < tyCount t, elemAt (tyWidth t) v i =
      if Active x t i then (f (lineElem k t e.a i) (lineElem k t e.b i) (lineElem k t e.d i)).1 % 2 ^ tyWidth t else lineElem k t e.d i) ∧
    RaisedBy (tyCount t) (Active x t) g (fun i => (f (lineElem k t e.a i) (lineElem k t e.b i) (lineElem k t e.d i)).2)

section
variable {x : Ctx} {k : Core} {e : VEntry} {t : BitVec 3} {f : Nat → Nat → Nat → Nat × BitVec 8}

theorem lineElems_eq_map (k : Core) (t : BitVec 3) (l : Nat) : k.lineElems t l = (List.range (tyCount t)).map (lineElem k t l) := by
  rw [Core.lineElems, elems_eq_map]
  rfl

/-- Element i of a line written from masked elements whose old ones fit. -/
theorem elemAt_actElems (f : Nat → Nat → Nat → Nat × BitVec 8) (m : Mask) (w v c : Nat) (X Y Z : Nat → Nat) {i : Nat} (hi : i < c) (hz : Z i < 2 ^ v) :
    elemAt v (ofElems v ((List.range c).map (actElem f m w X Y Z))) i = if isActive m w i = true then (f (X i) (Y i) (Z i)).1 % 2 ^ v else Z i := by
  rw [elemAt_ofElems, List.getElem?_map, List.getElem?_range hi, Option.map_some, Option.getD_some, actElem]
  split
  · rfl
  · exact Nat.mod_eq_of_lt hz

theorem givesElems_vmap (h : vecRes x k e = some (vmap f t x k e)) : GivesElems x k e t f := by
  refine ⟨_, _, h, ?_, fun j _ => ?_⟩
  · intro i hi
    rw [lineElems_eq_map, lineElems_eq_map, lineElems_eq_map, mapAct_fst]
    exact elemAt_actElems f _ _ _ _ _ _ _ hi (lineElem_lt _ _ _ _)
  · rw [lineElems_eq_map, lineElems_eq_map, lineElems_eq_map]
    exact getLsbD_mapAct _ _ _ _ j

/-- An instruction writes one line from given values: each active element by f of its value. -/
def GivesValues (x : Ctx) (k : Core) (e : VEntry) (t : BitVec 3) (V : Nat → Nat) (f : Nat → Nat × BitVec 8) : Prop :=
  ∃ v g, vecRes x k e = some ⟨[(e.d, v)], [], g⟩ ∧
    (∀ i < tyCount t, elemAt (tyWidth t) v i = if Active x t i then (f (V i)).1 % 2 ^ tyWidth t else lineElem k t e.d i) ∧
    RaisedBy (tyCount t) (Active x t) g (fun i => (f (V i)).2)

theorem givesValues_vput {V : Nat → Nat} {f : Nat → Nat × BitVec 8} {vals : List Nat} (hv : vals = (List.range (tyCount t)).map V)
    (h : vecRes x k e = some (vput vals f t x k e)) : GivesValues x k e t V f := by
  subst hv
  refine ⟨_, _, h, ?_, fun j _ => ?_⟩
  · intro i hi
    rw [lineElems_eq_map, mapAct_fst]
    exact elemAt_actElems (fun v _ _ => f v) _ _ _ _ V V _ hi (lineElem_lt _ _ _ _)
  · rw [lineElems_eq_map]
    exact getLsbD_mapAct (f := fun v _ _ => f v) _ V V _ j

theorem givesElems_vput {f : Nat → Nat × BitVec 8} (h : vecRes x k e = some (vput (k.lineElems t e.a) f t x k e)) :
    GivesElems x k e t (fun p _ _ => f p) :=
  givesValues_vput (lineElems_eq_map k t e.a) h

/-! ### Results in several lines -/

/-- Every r-th entry from the c-th on. -/
theorem pickMod_map_range {r c n : Nat} (hc : c < r) (g : Nat → Nat) :
    pickMod r c ((List.range (r * n)).map g) = (List.range n).map (fun i => g (r * i + c)) := by
  have hfilter : (List.range (r * n)).filter (fun i => i % r == c) = (List.range n).map (fun i => r * i + c) := by
    induction n with
    | zero => rfl
    | succ n ih =>
      have hlast : (List.range r).filter (fun j => j % r == c) = [c] := by
        have hmem : ∀ j ∈ List.range r, (j % r == c) = (j == c) := fun j hj => by rw [Nat.mod_eq_of_lt (List.mem_range.1 hj)]
        rw [List.filter_congr hmem, List.filter_beq, List.count_eq_one_of_mem List.nodup_range (List.mem_range.2 hc)]
        rfl
      rw [Nat.mul_succ, List.range_add, List.filter_append, ih, List.filter_map, List.range_succ, List.map_append]
      congr 1
      simp [Function.comp_def, hlast]
  rw [pickMod, zipIdx_map_range, List.filter_map, List.map_map]
  have : ((fun e : Nat × Nat => e.2 % r == c) ∘ fun i => (g i, i)) = fun i => i % r == c := rfl
  rw [this, hfilter, List.map_map]
  rfl

end

section
variable {x : Ctx} {k : Core} {e : VEntry} {f : Nat → Nat → Nat → Nat × BitVec 8} {r w n : Nat}

/-- The old wide element i of a widening instruction of ratio r. -/
def wideOld (k : Core) (e : VEntry) (r w i : Nat) : Nat := elemAt (r * w) (k.spadLine (e.dst (i % r))) (i / r)

/-- A widening instruction: element i goes to place i / r of line i mod r (R172). -/
theorem vwiden_spec (hr : 0 < r) (hc : 4096 / w = r * n) (X Y : Nat → Nat) :
    ∃ (v : Nat → Nat) (g : BitVec 8),
      vwiden r w f ((List.range (r * n)).map X) ((List.range (r * n)).map Y) x k e = ⟨(List.range r).map (fun i => (e.dst i, v i)), [], g⟩ ∧
      (∀ i < r * n, elemAt (r * w) (v (i % r)) (i / r) =
        if isActive (x.mask 0) w i = true then (f (X i) (Y i) (wideOld k e r w i)).1 % 2 ^ (r * w) else wideOld k e r w i) ∧
      ∀ j, g.getLsbD j = true ↔ ∃ i < r * n, isActive (x.mask 0) w i = true ∧ (f (X i) (Y i) (wideOld k e r w i)).2.getLsbD j = true := by
  have hold : (List.range (4096 / w)).map (fun i => elemAt (r * w) (k.spadLine (e.dst (i % r))) (i / r)) = (List.range (r * n)).map (wideOld k e r w) := by
    rw [hc]; rfl
  refine ⟨fun c => ofElems (r * w) (pickMod r c ((List.range (r * n)).map (actElem f (x.mask 0) w X Y (wideOld k e r w)))),
    (mapAct f (x.mask 0) w 0 ((List.range (r * n)).map X) ((List.range (r * n)).map Y) ((List.range (r * n)).map (wideOld k e r w))).2, ?_, fun i hi => ?_,
    fun j => getLsbD_mapAct _ _ _ _ j⟩
  · rw [vwiden, hold, mapAct_fst]
  · have hq : i / r < n := Nat.div_lt_of_lt_mul hi
    dsimp only
    rw [pickMod_map_range (Nat.mod_lt i hr), elemAt_ofElems, List.getElem?_map, List.getElem?_range hq, Option.map_some, Option.getD_some,
      Nat.div_add_mod, actElem]
    split
    · rfl
    · exact Nat.mod_eq_of_lt (elemAt_lt _ _ _)

theorem vwiden_quiet (hf : ∀ x y z, (f x y z).2 = 0) (xs ys : List Nat) : (vwiden r w f xs ys x k e).flags = 0 := mapAct_quiet hf _ _ _ _

end

/-! ### Widths -/

theorem tyWidth_cases (t : BitVec 3) : tyWidth t = 4 ∨ tyWidth t = 8 ∨ tyWidth t = 16 ∨ tyWidth t = 32 := by revert t; decide

theorem tyCount_eq (t : BitVec 3) : tyCount t = 4096 / tyWidth t := rfl

/-- The elements of a line fill it. -/
theorem tyWidth_mul_tyCount (t : BitVec 3) : tyWidth t * tyCount t = 4096 := by revert t; decide

theorem tyCount_even (t : BitVec 3) : 2 ∣ tyCount t := by revert t; decide

/-! ### Results of ratio 2, and of compares -/

/-- An instruction writes two lines of elements twice as wide, the even ones to the first (R172, R181, R183). -/
def WidensElems (x : Ctx) (k : Core) (e : VEntry) (t : BitVec 3) (f : Nat → Nat → Nat → Nat × BitVec 8) : Prop :=
  ∀ l₀ l₁, e.wr = [l₀, l₁] → ∃ v₀ v₁ g, vecRes x k e = some ⟨[(l₀, v₀), (l₁, v₁)], [], g⟩ ∧
    let n := tyWidth t
    let old := fun (i : Nat) => elemAt (2 * n) (k.spadLine (if i % 2 = 0 then l₀ else l₁)) (i / 2)
    (∀ i < tyCount t, elemAt (2 * n) (if i % 2 = 0 then v₀ else v₁) (i / 2) =
      if Active x t i then (f (lineElem k t e.a i) (lineElem k t e.b i) (old i)).1 % 2 ^ (2 * n) else old i) ∧
    RaisedBy (tyCount t) (Active x t) g (fun i => (f (lineElem k t e.a i) (lineElem k t e.b i) (old i)).2)

section
variable {x : Ctx} {k : Core} {e : VEntry} {t : BitVec 3} {f : Nat → Nat → Nat → Nat × BitVec 8}

theorem apply_mod_two (v : Nat → Nat) (i : Nat) : (if i % 2 = 0 then v 0 else v 1) = v (i % 2) := by
  rcases Nat.mod_two_eq_zero_or_one i with h | h <;> simp [h]

theorem widensElems_vwiden (h : vecRes x k e = some (vwiden 2 (tyWidth t) f (k.lineElems t e.a) (k.lineElems t e.b) x k e)) : WidensElems x k e t f := by
  intro l₀ l₁ hwr
  obtain ⟨n, hn⟩ := tyCount_even t
  obtain ⟨v, g, hv, helem, hflag⟩ := vwiden_spec (x := x) (k := k) (e := e) (f := f) (w := tyWidth t) (by decide : 0 < 2) hn (lineElem k t e.a) (lineElem k t e.b)
  have hd (i : Nat) : e.dst (i % 2) = if i % 2 = 0 then l₀ else l₁ := by
    rcases Nat.mod_two_eq_zero_or_one i with h | h <;> simp [VEntry.dst, hwr, h]
  have hold : wideOld k e 2 (tyWidth t) = fun i => elemAt (2 * tyWidth t) (k.spadLine (if i % 2 = 0 then l₀ else l₁)) (i / 2) :=
    funext fun i => by rw [wideOld, hd]
  rw [hold] at helem hflag
  rw [lineElems_eq_map, lineElems_eq_map, hn, hv] at h
  refine ⟨v 0, v 1, g, h.trans ?_, fun i hi => ?_, fun j _ => ?_⟩
  · simp [List.range_succ, VEntry.dst, hwr]
  · rw [apply_mod_two]
    exact helem i (hn ▸ hi)
  · rw [hn]
    exact hflag j

/-- The flags of a compare are those of its active elements. -/
theorem vcmp_flags (d : Reg) (f : Nat → Nat → Nat → Nat × BitVec 8) :
    RaisedBy (tyCount t) (Active x t) (vcmp f d t x k e).flags (fun i => (f (lineElem k t e.a i) (lineElem k t e.b i) 0).2) := by
  intro j _
  have hz : ((k.lineElems t e.a).map fun _ => 0) = (List.range (tyCount t)).map fun _ => 0 := by rw [lineElems_eq_map, List.map_map]; rfl
  rw [vcmp, hz, lineElems_eq_map, lineElems_eq_map]
  exact getLsbD_mapAct _ _ _ _ j

end

end Sys2Proof.Machine
end

section
/-!
Which instruction of the queue computes what (R180–R188, R193): its result by the shapes of `vmap`, `vput`, `vwiden` and `vcmp`, and the instructions
that raise no flag.
-/

namespace Sys2Proof.Machine

open Sys2Proof

section
variable {x : Ctx} {k : Core} {e : VEntry} {d a b : Reg} {t w : BitVec 3}

/-! ### Instructions that raise no flag -/

/-- An instruction whose result raises no flag. -/
def Quiet (x : Ctx) (k : Core) (e : VEntry) : Prop := ∃ r, vecRes x k e = some r ∧ r.flags = 0

theorem quiet_vmap {f : Nat → Nat → Nat → Nat × BitVec 8} (h : vecRes x k e = some (vmap f t x k e)) (hf : ∀ x y z, (f x y z).2 = 0) : Quiet x k e :=
  ⟨_, h, mapAct_quiet hf _ _ _ _⟩

theorem quiet_vput {vals : List Nat} {f : Nat → Nat × BitVec 8} (h : vecRes x k e = some (vput vals f t x k e)) (hf : ∀ x, (f x).2 = 0) : Quiet x k e :=
  ⟨_, h, mapAct_quiet (fun x _ _ => hf x) _ _ _ _⟩

theorem quiet_vcmp {f : Nat → Nat → Nat → Nat × BitVec 8} (h : vecRes x k e = some (vcmp f d t x k e)) (hf : ∀ x y z, (f x y z).2 = 0) : Quiet x k e :=
  ⟨_, h, mapAct_quiet hf _ _ _ _⟩

theorem quiet_of_int
    (h : e.instr ∈ [Instr.vadd d a b t w, .vsub d a b t w, .vmul d a b t w, .vmulh d a b t w, .vmin d a b t w, .vmax d a b t w, .vminu d a b t w,
      .vmaxu d a b t w]) : Quiet x k e := by
  simp only [List.mem_cons, List.not_mem_nil, or_false] at h
  rcases h with h | h | h | h | h | h | h | h <;>
    exact quiet_vmap (by rw [vecRes, vintRun, h]; rfl) fun _ _ _ => rfl

theorem quiet_of_bits
    (h : e.instr ∈ [Instr.vand d a b t w, .vor d a b t w, .vxor d a b t w, .vandn d a b t w, .vshl d a b t w, .vshr d a b t w, .vsar d a b t w]) :
    Quiet x k e := by
  simp only [List.mem_cons, List.not_mem_nil, or_false] at h
  rcases h with h | h | h | h | h | h | h <;>
    exact quiet_vmap (by rw [vecRes, vintRun, vfltRun, vlogRun, h]; rfl) fun _ _ _ => rfl

theorem quiet_of_intSign (h : e.instr ∈ [Instr.vabs d a t w, .vneg d a t w]) : Quiet x k e := by
  simp only [List.mem_cons, List.not_mem_nil, or_false] at h
  rcases h with h | h <;>
    exact quiet_vput (by rw [vecRes, vintRun, h]; rfl) fun _ => rfl

theorem quiet_of_floatSign (h : e.instr ∈ [Instr.vfabs d a t w, .vfneg d a t w]) : Quiet x k e := by
  simp only [List.mem_cons, List.not_mem_nil, or_false] at h
  rcases h with h | h <;>
    exact quiet_vput (by rw [vecRes, vintRun, vfltRun, h]; rfl) fun _ => rfl

theorem quiet_of_move
    (h : e.instr ∈ [Instr.vbcast d a t w, .vmov d a t w, .vperm d a b t w, .vslide d a b t w, .vzip d a b t w, .vunzip d a b t w]) : Quiet x k e := by
  simp only [List.mem_cons, List.not_mem_nil, or_false] at h
  rcases h with h | h | h | h | h | h <;>
    exact quiet_vput (by rw [vecRes, vintRun, vfltRun, vlogRun, vxfRun, h]; rfl) fun _ => rfl

theorem quiet_of_cmp (h : e.instr ∈ [Instr.vcmpeq d a b t w, .vcmplt d a b t w, .vcmple d a b t w, .vcmpltn d a b t w]) : Quiet x k e := by
  simp only [List.mem_cons, List.not_mem_nil, or_false] at h
  rcases h with h | h | h | h <;>
    exact quiet_vcmp (by rw [vecRes, vintRun, vfltRun, vlogRun, h]; rfl) fun _ _ _ => rfl

theorem quiet_of_mask (h : e.instr ∈ [Instr.vsel d a b t w, .vmand d a b t w, .vmor d a b t w, .vmxor d a b t w, .vmnot d a t w, .vmset d a t w]) :
    Quiet x k e := by
  simp only [List.mem_cons, List.not_mem_nil, or_false] at h
  rcases h with h | h | h | h | h | h <;>
    exact ⟨_, by rw [vecRes, vintRun, vfltRun, vlogRun, h]; rfl, rfl⟩

theorem quiet_of_wide (h : e.instr ∈ [Instr.vwmul d a b t w, .vwmac d a b t w]) : Quiet x k e := by
  simp only [List.mem_cons, List.not_mem_nil, or_false] at h
  rcases h with h | h <;>
    exact ⟨_, by rw [vecRes, vintRun, h]; rfl, vwiden_quiet (fun _ _ _ => rfl) _ _⟩

theorem vecRes_vdot4 (h : e.instr = .vdot4 d a b t w) : vecRes x k e = some (vdot4Run t x k e) := by rw [vecRes, vintRun, h]; rfl

theorem quiet_of_vdot4 (h : e.instr = .vdot4 d a b t w) : Quiet x k e := by
  refine ⟨_, vecRes_vdot4 h, ?_⟩
  unfold vdot4Run
  dsimp only
  split <;> rfl

theorem quiet_of_vins (h : e.instr = .vins d a b t w) : Quiet x k e := by
  refine ⟨vinsRun t k e, by rw [vecRes, vintRun, vfltRun, vlogRun, vxfRun, h]; rfl, ?_⟩
  unfold vinsRun
  split <;> rfl

/-- The instructions that raise no flag. -/
def silentInstrs (d a b : Reg) (t w : BitVec 3) : List Instr :=
  [Instr.vadd d a b t w, .vsub d a b t w, .vmul d a b t w, .vmulh d a b t w, .vmin d a b t w, .vmax d a b t w, .vminu d a b t w,
    .vmaxu d a b t w, .vabs d a t w, .vneg d a t w, .vmac d a b t w, .vwmul d a b t w, .vwmac d a b t w, .vdot4 d a b t w, .vand d a b t w,
    .vor d a b t w, .vxor d a b t w, .vandn d a b t w, .vshl d a b t w, .vshr d a b t w, .vsar d a b t w, .vfabs d a t w, .vfneg d a t w,
    .vcmpeq d a b t w, .vcmplt d a b t w, .vcmple d a b t w, .vcmpltn d a b t w, .vsel d a b t w, .vmand d a b t w, .vmor d a b t w,
    .vmxor d a b t w, .vmnot d a t w, .vmset d a t w, .vbcast d a t w, .vmov d a t w, .vperm d a b t w, .vslide d a b t w, .vzip d a b t w,
    .vunzip d a b t w, .vins d a b t w]

theorem quiet_of_silent (h : e.instr ∈ silentInstrs d a b t w) : Quiet x k e := by
  change e.instr ∈ [Instr.vadd d a b t w, .vsub d a b t w, .vmul d a b t w, .vmulh d a b t w, .vmin d a b t w, .vmax d a b t w, .vminu d a b t w,
      .vmaxu d a b t w] ++ ([Instr.vabs d a t w, .vneg d a t w] ++ ([Instr.vmac d a b t w] ++ ([Instr.vwmul d a b t w, .vwmac d a b t w] ++
      ([Instr.vdot4 d a b t w] ++ ([Instr.vand d a b t w, .vor d a b t w, .vxor d a b t w, .vandn d a b t w, .vshl d a b t w, .vshr d a b t w,
      .vsar d a b t w] ++ ([Instr.vfabs d a t w, .vfneg d a t w] ++ ([Instr.vcmpeq d a b t w, .vcmplt d a b t w, .vcmple d a b t w,
      .vcmpltn d a b t w] ++ ([Instr.vsel d a b t w, .vmand d a b t w, .vmor d a b t w, .vmxor d a b t w, .vmnot d a t w, .vmset d a t w] ++
      ([Instr.vbcast d a t w, .vmov d a t w, .vperm d a b t w, .vslide d a b t w, .vzip d a b t w, .vunzip d a b t w] ++
      [Instr.vins d a b t w]))))))))) at h
  simp only [List.mem_append] at h
  rcases h with h | h | h | h | h | h | h | h | h | h | h
  · exact quiet_of_int h
  · exact quiet_of_intSign h
  · exact quiet_vmap (by rw [vecRes, vintRun, List.mem_singleton.1 h]; rfl) fun _ _ _ => rfl
  · exact quiet_of_wide h
  · exact quiet_of_vdot4 (List.mem_singleton.1 h)
  · exact quiet_of_bits h
  · exact quiet_of_floatSign h
  · exact quiet_of_cmp h
  · exact quiet_of_mask h
  · exact quiet_of_move h
  · exact quiet_of_vins (List.mem_singleton.1 h)

end

end Sys2Proof.Machine
end

section
/-!
Saturating and float elements (R180, R182, R183, R184), the functions' table (R184) and VIOTA.
-/

namespace Sys2Proof.Machine

open Sys2Proof

/-! ### Signed readings -/

/-- The signed reading of a number that fits its width is that of the bit vector. -/
theorem toSigned_eq_toInt {n v : Nat} (h : v < 2 ^ n) : toSigned n v = (BitVec.ofNat n v).toInt := by
  rw [toSigned, BitVec.toInt_eq_toNat_cond, BitVec.toNat_ofNat, Nat.mod_eq_of_lt h]
  cases n with
  | zero => simp_all
  | succ n =>
    have hiff : v < 2 ^ n ↔ 2 * v < 2 ^ (n + 1) := by rw [pow_succ]; omega
    rw [Nat.add_sub_cancel, if_congr hiff rfl rfl]
    push_cast
    rfl

/-- The integer element that saturates to bounds. -/
def clampElem (n : Nat) (lo hi v : Int) : Nat × BitVec 8 := (((max lo (min hi v)) % 2 ^ n).toNat, if v < lo ∨ hi < v then fSAT else (0 : BitVec 8))

theorem viSat_eq_clampElem (n : Nat) {lo hi : Int} (h : lo ≤ hi) (v : Int) : viSat n lo hi v = clampElem n lo hi v := by
  have hf : (satInt lo hi v).2 = if v < lo ∨ hi < v then fSAT else 0 := by
    unfold satInt
    by_cases hlo : v < lo
    · rw [if_pos hlo, if_pos (.inl hlo)]
    · by_cases hhi : hi < v
      · rw [if_neg hlo, if_pos hhi, if_pos (.inr hhi)]
      · rw [if_neg hlo, if_neg hhi, if_neg (by omega)]
  rw [viSat, clampElem, ← hf, ← satInt_eq h]
  rfl

section
variable {x : Ctx} {k : Core} {e : VEntry} {d a b : Reg} {t w : BitVec 3}

/-! ### Saturating integers -/

theorem givesElems_congr {f g : Nat → Nat → Nat → Nat × BitVec 8} (h : GivesElems x k e t f)
    (hfg : ∀ p < 2 ^ tyWidth t, ∀ q < 2 ^ tyWidth t, ∀ z, f p q z = g p q z) : GivesElems x k e t g := by
  have heq (i : Nat) := hfg _ (lineElem_lt k t e.a i) _ (lineElem_lt k t e.b i) (lineElem k t e.d i)
  obtain ⟨v, r, hv, helem, hflag⟩ := h
  refine ⟨v, r, hv, fun i hi => ?_, fun j hj => ?_⟩
  · rw [helem i hi, heq]
  · rw [hflag j hj]
    simp only [heq]

theorem sLo_le_sHi (n : Nat) : -((2 : Int) ^ (n - 1)) ≤ 2 ^ (n - 1) - 1 := by
  have : (1 : Int) ≤ 2 ^ (n - 1) := one_le_pow₀ (by decide)
  omega

theorem givesElems_vadds (h : e.instr = .vadds d a b t w) : GivesElems x k e t (fun p q _ =>
    clampElem (tyWidth t) (-(2 ^ (tyWidth t - 1))) (2 ^ (tyWidth t - 1) - 1) ((BitVec.ofNat (tyWidth t) p).toInt + (BitVec.ofNat (tyWidth t) q).toInt)) := by
  refine givesElems_congr (givesElems_vmap (f := elAdds (tyWidth t)) (by rw [vecRes, vintRun, h]; rfl)) fun p hp q hq _ => ?_
  rw [← toSigned_eq_toInt hp, ← toSigned_eq_toInt hq]
  exact viSat_eq_clampElem _ (sLo_le_sHi _) _

theorem givesElems_vsubs (h : e.instr = .vsubs d a b t w) : GivesElems x k e t (fun p q _ =>
    clampElem (tyWidth t) (-(2 ^ (tyWidth t - 1))) (2 ^ (tyWidth t - 1) - 1) ((BitVec.ofNat (tyWidth t) p).toInt - (BitVec.ofNat (tyWidth t) q).toInt)) := by
  refine givesElems_congr (givesElems_vmap (f := elSubs (tyWidth t)) (by rw [vecRes, vintRun, h]; rfl)) fun p hp q hq _ => ?_
  rw [← toSigned_eq_toInt hp, ← toSigned_eq_toInt hq]
  exact viSat_eq_clampElem _ (sLo_le_sHi _) _

theorem givesElems_vaddsn (h : e.instr = .vaddsn d a b t w) :
    GivesElems x k e t (fun p q _ => clampElem (tyWidth t) 0 (2 ^ tyWidth t - 1) ((p : Int) + q)) := by
  refine givesElems_congr (givesElems_vmap (f := elAddsn (tyWidth t)) (by rw [vecRes, vintRun, h]; rfl)) fun p _ q _ _ => ?_
  have : (1 : Int) ≤ 2 ^ tyWidth t := one_le_pow₀ (by decide)
  exact viSat_eq_clampElem _ (by omega) _

/-! ### Compares -/

theorem vfcmp_flags : ∀ q ∈ [(Instr.vfcmpeq d a b t w, (tyFmt t).feq), (.vfcmplt d a b t w, (tyFmt t).flt), (.vfcmple d a b t w, (tyFmt t).fle)],
    e.instr = q.1 → ∀ r, vecRes x k e = some r →
      RaisedBy (tyCount t) (Active x t) r.flags (fun i => (q.2 (lineElem k t e.a i) (lineElem k t e.b i)).2) := by
  intro q hq h r hr
  have hres : vecRes x k e = some (vcmp (cmpF q.2) d t x k e) := by
    simp only [List.mem_cons, List.not_mem_nil, or_false] at hq
    rcases hq with rfl | rfl | rfl <;> (rw [vecRes, vintRun, vfltRun, vlogRun, h]; rfl)
  rw [hres] at hr
  cases hr
  exact vcmp_flags d (cmpF q.2)

/-! ### VIOTA of a float type -/

theorem givesValues_viota (h : e.instr = .viota d t w) (ht : tyFloat t = true) :
    GivesValues x k e t (fun i => i) (fun i => (tyFmt t).ofInt 0 false i) := by
  have hres : vecRes x k e = some (vput (List.range (tyCount t)) (iotaElem t) t x k e) := by rw [vecRes, vintRun, vfltRun, vlogRun, vxfRun, h]; rfl
  have hf : iotaElem t = fun i : Nat => (tyFmt t).ofInt 0 false (i : Int) := funext fun i => if_pos ht
  rw [hf] at hres
  exact givesValues_vput (List.map_id' _).symm hres

end

/-! ### The table of the functions (R184) -/

/-- The code of a negative number other than −0 is that of −∞ or of a finite value that is not zero. -/
theorem f32_decode_neg {v : Nat} (hlo : 0x80000000 < v) (hhi : v ≤ 0xFF800000) :
    f32.decode v = .inf true ∨ ∃ m e, m ≠ 0 ∧ f32.decode v = .fin true m e := by
  rcases Nat.lt_or_eq_of_le hhi with h | rfl
  · obtain ⟨c, rfl⟩ : ∃ c, v = f32.sign true + c := ⟨v - 0x80000000, by simp only [f32, Fmt.sign, if_true]; omega⟩
    have hc : 0 < c ∧ c ≤ f32.top := by simp only [f32, Fmt.sign, if_true] at hlo h ⊢; omega
    refine .inr ⟨_, _, ?_, Fmt.decode_finite (sound_of_mem (by decide)) true c hc.2⟩
    unfold Fmt.mant
    split
    · omega
    · have : 0 < 2 ^ f32.fb := by positivity
      omega
  · exact .inl (by decide)

/-- Neither the logarithm nor the reciprocal root of a negative number is one. -/
theorem flog2_frsqrt_neg (rm : BitVec 2) {v : Nat} (hlo : 0x80000000 < v) (hhi : v ≤ 0xFF800000) :
    flog2 rm v = (f32.nan, fNV) ∧ frsqrt rm v = (f32.nan, fNV) := by
  rcases f32_decode_neg hlo hhi with hd | ⟨m, e, hm, hd⟩
  · rw [flog2, frsqrt, hd]
    exact ⟨rfl, rfl⟩
  · rw [flog2, frsqrt, hd]
    dsimp only
    rw [if_neg hm, if_neg hm]
    exact ⟨rfl, rfl⟩

/-- Each function of a NaN is the canonical one, with NV for a signalling one. -/
theorem functions_nan (rm : BitVec 2) {v : Nat} {sig : Bool} (hd : f32.decode v = .nan sig) :
    ∀ f ∈ [fexp2 rm, flog2 rm, frsqrt rm, f32.div rm 0x3F800000], f v = (f32.nan, if sig then fNV else 0) := by
  have hone : f32.decode 0x3F800000 = .fin false (2 ^ 23) (-23) := by decide
  intro f hf
  simp only [List.mem_cons, List.not_mem_nil, or_false] at hf
  rcases hf with rfl | rfl | rfl | rfl
  · rw [fexp2, hd]; rfl
  · rw [flog2, hd]; rfl
  · rw [frsqrt, hd]; rfl
  · have hdiv : Val.div (.fin false (2 ^ 23) (-23)) (.nan sig) = (.nan false, flagIf sig fNV) := by simp only [Val.div]
    have henc : f32.encode rm false (.nan false) = (f32.nan, 0) := rfl
    rw [Fmt.div, hd, hone, hdiv]
    dsimp only
    rw [henc]
    exact congrArg (Prod.mk f32.nan) BitVec.zero_or

/-- The values of R184's table at zeros and infinities. -/
theorem functions_table (rm : BitVec 2) :
    (fexp2 rm 0 = (0x3F800000, 0) ∧ fexp2 rm 0x80000000 = (0x3F800000, 0) ∧ fexp2 rm 0x7F800000 = (0x7F800000, 0) ∧ fexp2 rm 0xFF800000 = (0, 0)) ∧
    (flog2 rm 0 = (0xFF800000, fDZ) ∧ flog2 rm 0x80000000 = (0xFF800000, fDZ) ∧ flog2 rm 0x7F800000 = (0x7F800000, 0)) ∧
    (f32.div rm 0x3F800000 0 = (0x7F800000, fDZ) ∧ f32.div rm 0x3F800000 0x80000000 = (0xFF800000, fDZ) ∧
      f32.div rm 0x3F800000 0x7F800000 = (0, 0) ∧ f32.div rm 0x3F800000 0xFF800000 = (0x80000000, 0)) ∧
    (frsqrt rm 0 = (0x7F800000, fDZ) ∧ frsqrt rm 0x80000000 = (0xFF800000, fDZ) ∧ frsqrt rm 0x7F800000 = (0, 0)) := by
  revert rm
  decide

/-- The powers of two: 2^i for an integer i, and the logarithm of 2^i. -/
theorem functions_powers (rm : BitVec 2) (i : Int) (hlo : -126 ≤ i) (hhi : i ≤ 127) :
    fexp2 rm (f32.ofInt 0 false i).1 = ((i + 127).toNat * 2 ^ 23, 0) ∧ flog2 rm ((i + 127).toNat * 2 ^ 23) = ((f32.ofInt 0 false i).1, 0) := by
  have key : ∀ rm : BitVec 2, ∀ j : Nat, j < 254 → fexp2 rm (f32.ofInt 0 false ((j : Int) - 126)).1 = ((j + 1) * 2 ^ 23, 0) ∧
      flog2 rm ((j + 1) * 2 ^ 23) = ((f32.ofInt 0 false ((j : Int) - 126)).1, 0) := by decide +kernel
  have h := key rm (i + 126).toNat (by omega)
  have hi : ((i + 126).toNat : Int) - 126 = i := by omega
  have hp : (i + 126).toNat + 1 = (i + 127).toNat := by omega
  rwa [hi, hp] at h

end Sys2Proof.Machine
end

section
/-!
VDOT4 (R181) and VCVT (R189).
-/

namespace Sys2Proof.Machine

open Sys2Proof

/-! ### VDOT4 -/

/-- Four products of signed elements from the 4 j-th on. -/
def fourProducts (w : Nat) (X Y : Nat → Nat) (j : Nat) : Int :=
  sgn w (X (4 * j)) * sgn w (Y (4 * j)) + sgn w (X (4 * j + 1)) * sgn w (Y (4 * j + 1)) + sgn w (X (4 * j + 2)) * sgn w (Y (4 * j + 2)) +
    sgn w (X (4 * j + 3)) * sgn w (Y (4 * j + 3))

theorem dot4_range' (w : Nat) (X Y : Nat → Nat) (s c : Nat) :
    dot4 w ((List.range' (4 * s) (4 * c)).map X) ((List.range' (4 * s) (4 * c)).map Y) = (List.range' s c).map (fourProducts w X Y) := by
  induction c generalizing s with
  | zero => rfl
  | succ c ih =>
    have hr : List.range' (4 * s) (4 * (c + 1)) = 4 * s :: (4 * s + 1) :: (4 * s + 2) :: (4 * s + 3) :: List.range' (4 * (s + 1)) (4 * c) := by
      rw [Nat.mul_succ, List.range'_succ, List.range'_succ, List.range'_succ, List.range'_succ]
      rfl
    rw [hr, List.range'_succ]
    simp only [List.map_cons, dot4, ih]
    rfl

theorem dot4_range (w : Nat) (X Y : Nat → Nat) (c : Nat) :
    dot4 w ((List.range (4 * c)).map X) ((List.range (4 * c)).map Y) = (List.range c).map (fourProducts w X Y) := by
  rw [List.range_eq_range', List.range_eq_range']
  exact dot4_range' w X Y 0 c

/-- An I32 element of VDOT4. -/
def dotElem (m : Mask) (w : Nat) (S : Nat → Int) (Z : Nat → Nat) (j : Nat) : Nat := if isActive m w (4 * j) = true then wrap 32 ((Z j : Int) + S j) else Z j

theorem dot4Acc_range' (m : Mask) (w : Nat) (S : Nat → Int) (Z : Nat → Nat) (s c : Nat) :
    dot4Acc m w s ((List.range' s c).map S) ((List.range' s c).map Z) = (List.range' s c).map (dotElem m w S Z) := by
  induction c generalizing s with
  | zero => rfl
  | succ c ih =>
    rw [List.range'_succ, List.map_cons, List.map_cons, List.map_cons, dot4Acc, ih]
    rfl

theorem dot4Acc_range (m : Mask) (w : Nat) (S : Nat → Int) (Z : Nat → Nat) (c : Nat) :
    dot4Acc m w 0 ((List.range c).map S) ((List.range c).map Z) = (List.range c).map (dotElem m w S Z) := by
  rw [List.range_eq_range']
  exact dot4Acc_range' m w S Z 0 c

theorem dotElem_lt {m : Mask} {w : Nat} {S : Nat → Int} {Z : Nat → Nat} {j : Nat} (hz : Z j < 2 ^ 32) : dotElem m w S Z j < 2 ^ 32 := by
  unfold dotElem
  split
  · exact wrap_lt _ _
  · exact hz

section
variable {x : Ctx} {k : Core} {e : VEntry} {d a b : Reg} {t w : BitVec 3}

/-- The I32 elements of VDOT4 at elements of a type. -/
def vdotElem (x : Ctx) (k : Core) (e : VEntry) (t : BitVec 3) (Z : Nat → Nat) (j : Nat) : Nat :=
  dotElem (x.mask 0) (tyWidth t) (fourProducts (tyWidth t) (lineElem k t e.a) (lineElem k t e.b)) Z j

/-- The I32 elements of two lines, the even ones in the first. -/
def pairElem (k : Core) (l₀ l₁ j : Nat) : Nat :=
  elemAt 32 (k.spadLine (if j % 2 = 0 then l₀ else l₁)) (j / 2)

/-- The line of VDOT4 on I4 with the even elements, or the odd ones. -/
def vdotLine (x : Ctx) (k : Core) (e : VEntry) (Z : Nat → Nat) (c : Nat) : Nat :=
  ofElems 32 (pickMod 2 c ((List.range (2 * 128)).map (vdotElem x k e 0 Z)))

/-- On I8: one line. -/
theorem vdot4_one (h : e.instr = .vdot4 d a b 1 w) :
    ∃ v, vecRes x k e = some ⟨[(e.d, v)], [], 0⟩ ∧ ∀ j < 128, elemAt 32 v j = vdotElem x k e 1 (elemAt 32 (k.spadLine e.d)) j := by
  refine ⟨_, (vecRes_vdot4 h).trans rfl, fun j hj => ?_⟩
  rw [lineElems_eq_map, lineElems_eq_map, elems_eq_map, show tyCount 1 = 4 * 128 from rfl, dot4_range, dot4Acc_range]
  refine elemAt_ofElems_of ?_ (dotElem_lt (elemAt_lt _ _ _))
  rw [List.getElem?_map, List.getElem?_range hj]
  rfl

/-- On I4: two lines, the even elements in the first. -/
theorem vdot4_two (h : e.instr = .vdot4 d a b 0 w) {l₀ l₁ : Nat} (hwr : e.wr = [l₀, l₁]) :
    ∃ v₀ v₁, vecRes x k e = some ⟨[(l₀, v₀), (l₁, v₁)], [], 0⟩ ∧
      ∀ j < 256, elemAt 32 (if j % 2 = 0 then v₀ else v₁) (j / 2) =
        vdotElem x k e 0 (pairElem k l₀ l₁) j := by
  have hd (j : Nat) : e.dst (j % 2) = if j % 2 = 0 then l₀ else l₁ := by
    rcases Nat.mod_two_eq_zero_or_one j with h | h <;> simp [VEntry.dst, hwr, h]
  have hold : (List.range 256).map (fun j => elemAt 32 (k.spadLine (e.dst (j % 2))) (j / 2)) =
      (List.range (2 * 128)).map (pairElem k l₀ l₁) :=
    List.map_congr_left fun j _ => by rw [hd, pairElem]
  have hres := vecRes_vdot4 (x := x) (k := k) h
  unfold vdot4Run at hres
  rw [if_neg (by decide)] at hres
  dsimp only at hres
  rw [hold, lineElems_eq_map, lineElems_eq_map, show tyCount 0 = 4 * (2 * 128) from rfl, dot4_range, dot4Acc_range] at hres
  refine ⟨vdotLine x k e (pairElem k l₀ l₁) 0, vdotLine x k e (pairElem k l₀ l₁) 1, hres.trans ?_, fun j hj => ?_⟩
  · rw [show e.dst 0 = l₀ from hd 0, show e.dst 1 = l₁ from hd 1]
    rfl
  · rw [apply_mod_two (vdotLine x k e (pairElem k l₀ l₁)), vdotLine, pickMod_map_range (Nat.mod_lt j two_pos)]
    refine elemAt_ofElems_of ?_ (dotElem_lt (elemAt_lt _ _ _))
    rw [List.getElem?_map, List.getElem?_range (by omega), Option.map_some, Nat.div_add_mod]

/-- An I32 element: the old one and four products. -/
theorem vdotElem_eq (Z : Nat → Nat) (j : Nat) :
    let sg := fun (v : Nat) => (BitVec.ofNat (tyWidth t) v).toInt
    let A := lineElem k t e.a
    let B := lineElem k t e.b
    vdotElem x k e t Z j = if Active x t (4 * j) = true then (((Z j : Int) + sg (A (4 * j)) * sg (B (4 * j)) + sg (A (4 * j + 1)) * sg (B (4 * j + 1)) +
      sg (A (4 * j + 2)) * sg (B (4 * j + 2)) + sg (A (4 * j + 3)) * sg (B (4 * j + 3))) % 2 ^ 32).toNat else Z j := by
  intro sg A B
  have hsg (l i : Nat) : sgn (tyWidth t) (lineElem k t l i) = (BitVec.ofNat (tyWidth t) (lineElem k t l i)).toInt := toSigned_eq_toInt (lineElem_lt k t l i)
  rw [vdotElem, dotElem, fourProducts]
  simp only [hsg, ← add_assoc]
  rfl

/-! ### VCVT -/

/-- The converted element, as the statement of R189 has it. -/
def cvtElem (t u : BitVec 3) (mode : BitVec 2) (v : Nat) : Nat × BitVec 8 :=
  let n := tyWidth t
  let m := tyWidth u
  let rm : BitVec 2 := if mode = 2 then 1 else 0
  let sat := mode == 1
  let lo : Int := -(2 ^ (m - 1))
  let hi : Int := 2 ^ (m - 1) - 1
  let sg := fun (v : Nat) => (BitVec.ofNat n v).toInt
  if tyFloat t then
    (if tyFloat u then (tyFmt t).convert (tyFmt u) rm sat v
     else ((((tyFmt t).toInt rm lo hi v).1 % 2 ^ m).toNat, ((tyFmt t).toInt rm lo hi v).2))
  else if tyFloat u then (tyFmt u).ofInt rm sat (sg v)
  else if sat then (((max lo (min hi (sg v))) % 2 ^ m).toNat, if sg v < lo ∨ hi < sg v then fSAT else 0)
  else ((sg v % 2 ^ m).toNat, 0)

theorem convElem_eq_cvtElem (t u : BitVec 3) (mode : BitVec 2) {v : Nat} (hv : v < 2 ^ tyWidth t) : convElem t u mode v = cvtElem t u mode v := by
  unfold convElem cvtElem
  dsimp only
  rw [toSigned_eq_toInt hv]
  congr 2
  refine if_congr Iff.rfl ?_ rfl
  exact viSat_eq_clampElem _ (sLo_le_sHi _) _

theorem vecRes_vcvt (h : e.instr = .vcvt d a b t w) : vecRes x k e = some (vcvtRun b t x k e) := by
  rw [vecRes, vintRun, vfltRun, vlogRun, vxfRun, h]; rfl

/-- The widths of two types, the wider first where they are not equal: one a multiple of the other. -/
theorem tyWidth_ratio (t u : BitVec 3) :
    (tyWidth u < 2 * tyWidth t → cvtRatio t u < 2 ∧ tyCount t ≤ tyCount u) ∧
    (2 * tyWidth t ≤ tyWidth u → 2 ≤ cvtRatio t u ∧ cvtRatio t u * tyWidth t = tyWidth u ∧ cvtRatio t u ∣ tyCount t) := by
  revert t u
  decide

/-- VCVT to a type that is not wider: one line, converted at its front (R189). -/
theorem vcvt_narrow (h : e.instr = .vcvt d a b t w) (hm : tyWidth (b.extractLsb' 0 3) < 2 * tyWidth t) :
    let u := b.extractLsb' 0 3
    let conv := cvtElem t u (b.extractLsb' 3 2)
    ∃ v g, vecRes x k e = some ⟨[(e.d, v)], [], g⟩ ∧ RaisedBy (tyCount t) (Active x t) g (fun i => (conv (lineElem k t e.a i)).2) ∧
      ∀ i < tyCount u, elemAt (tyWidth u) v i =
        if i < tyCount t ∧ Active x t i = true then (conv (lineElem k t e.a i)).1 % 2 ^ tyWidth u else lineElem k u e.d i := by
  intro u conv
  obtain ⟨hr, hcount⟩ := (tyWidth_ratio t u).1 hm
  have hconv (i : Nat) : convElem t (b.extractLsb' 0 3) (b.extractLsb' 3 2) (lineElem k t e.a i) = cvtElem t (b.extractLsb' 0 3) (b.extractLsb' 3 2) (lineElem k t e.a i) :=
    convElem_eq_cvtElem t u _ (lineElem_lt k t e.a i)
  have htake : (elems (tyWidth u) (tyCount u) (k.spadLine e.d)).take (tyCount t) = (List.range (tyCount t)).map (lineElem k u e.d) := by
    rw [elems_eq_map, ← List.map_take, List.take_range, Nat.min_eq_left hcount]
    rfl
  have hres := vecRes_vcvt (x := x) (k := k) h
  unfold vcvtRun at hres
  rw [if_neg (by exact not_le.2 hr)] at hres
  dsimp only at hres
  rw [lineElems_eq_map, mapAct_take, List.length_map, List.length_range, htake, mapAct_fst] at hres
  refine ⟨_, _, hres, fun j _ => ?_, fun i hi => ?_⟩
  · rw [getLsbD_mapAct]
    simp only [hconv]
    rfl
  · rw [elemAt_ofElems]
    by_cases hc : i < tyCount t
    · rw [List.getElem?_append_left (by rw [List.length_map, List.length_range]; exact hc), List.getElem?_map, List.getElem?_range hc, Option.map_some,
        Option.getD_some, actElem, hconv]
      simp only [hc, true_and]
      split
      · next ha => rw [if_pos (show Active x t i = true from ha)]
      · next ha => rw [if_neg (show ¬ Active x t i = true from ha), Nat.mod_eq_of_lt (lineElem_lt _ _ _ _)]
    · rw [List.getElem?_append_right (by rw [List.length_map, List.length_range]; omega), List.length_map, List.length_range, List.getElem?_drop,
        Nat.add_sub_cancel' (by omega), getElem?_elems _ _ hi, Option.getD_some, Nat.mod_eq_of_lt (elemAt_lt _ _ _)]
      simp only [hc, false_and, if_false]
      rfl

/-- VCVT to a wider type: r lines, element i in place i / r of line i mod r (R172, R189). -/
theorem vcvt_wide (h : e.instr = .vcvt d a b t w) (hm : 2 * tyWidth t ≤ tyWidth (b.extractLsb' 0 3)) :
    let u := b.extractLsb' 0 3
    let conv := cvtElem t u (b.extractLsb' 3 2)
    let r := cvtRatio t u
    ∃ (v : Nat → Nat) (g : BitVec 8), vecRes x k e = some ⟨(List.range r).map (fun i => (e.dst i, v i)), [], g⟩ ∧
      RaisedBy (tyCount t) (Active x t) g (fun i => (conv (lineElem k t e.a i)).2) ∧
      ∀ i < tyCount t, elemAt (tyWidth u) (v (i % r)) (i / r) =
        if Active x t i then (conv (lineElem k t e.a i)).1 % 2 ^ tyWidth u else elemAt (tyWidth u) (k.spadLine (e.dst (i % r))) (i / r) := by
  intro u conv r
  obtain ⟨hr, hw, n, hn⟩ := (tyWidth_ratio t u).2 hm
  have hconv (i : Nat) : convElem t u (b.extractLsb' 3 2) (lineElem k t e.a i) = conv (lineElem k t e.a i) := convElem_eq_cvtElem t u _ (lineElem_lt k t e.a i)
  have hres := vecRes_vcvt (x := x) (k := k) h
  unfold vcvtRun at hres
  rw [if_pos (by exact hr)] at hres
  obtain ⟨v, g, hv, helem, hflag⟩ := vwiden_spec (x := x) (k := k) (e := e) (f := fun v _ _ => convElem t u (b.extractLsb' 3 2) v) (show 0 < r by omega) hn
    (lineElem k t e.a) (lineElem k t e.a)
  rw [lineElems_eq_map, hn, hv] at hres
  rw [hw] at helem
  refine ⟨v, g, hres, fun j _ => ?_, fun i hi => ?_⟩
  · rw [hflag j, hn]
    simp only [hconv]
    rfl
  · rw [helem i (hn ▸ hi), hconv, wideOld, hw]
    rfl

end

end Sys2Proof.Machine
end

section
/-!
VQO4 and VDQO4 (R83, R84, R190, R191).
-/

namespace Sys2Proof.Machine

open Sys2Proof

/-! ### A line quantised -/

/-- Part j of n entries of a list given by a function. -/
theorem take_drop_map_range {α : Type} (V : Nat → α) {c n j : Nat} (h : n * j + n ≤ c) :
    (((List.range c).map V).drop (n * j)).take n = (List.range n).map (fun i => V (n * j + i)) := by
  apply List.ext_getElem?
  intro i
  by_cases hi : i < n
  · rw [getElem?_group _ _ _ hi, List.getElem?_map, List.getElem?_map, List.getElem?_range (by omega), List.getElem?_range hi]
    rfl
  · rw [List.getElem?_eq_none (by simp; omega), List.getElem?_eq_none (by simp; omega)]

theorem groupsOf_map_range {α : Type} (V : Nat → α) {n g fuel : Nat} (hn : 0 < n) (hf : g ≤ fuel) :
    groupsOf fuel n ((List.range (g * n)).map V) = (List.range g).map (fun j => (List.range n).map (fun i => V (n * j + i))) := by
  rw [groupsOf_eq_map hn hf (by rw [List.length_map, List.length_range])]
  refine List.map_congr_left fun j hj => take_drop_map_range V ?_
  have := Nat.mul_le_mul_left n (Nat.succ_le_of_lt (List.mem_range.1 hj))
  rw [Nat.mul_succ] at this
  rwa [Nat.mul_comm g]

/-- The number of quad q of a block of values. -/
def blockQuad (V : Nat → Val) (q : Nat) : Nat :=
  let sc := scaleByte 7 true ((List.range 32).map V)
  if sc = 0xFF then 0 else (quantQuad (e8m0Exp sc) ((List.range 4).map (fun i => V (4 * q + i)))).1

theorem quantBlock_quads (V : Nat → Val) : (quantBlock ((List.range 32).map V)).2.1 = (List.range 8).map (blockQuad V) := by
  have hg : groupsOf 8 4 ((List.range 32).map V) = (List.range 8).map (fun q => (List.range 4).map (fun i => V (4 * q + i))) :=
    groupsOf_map_range V (g := 8) (by decide) le_rfl
  unfold quantBlock
  dsimp only
  rw [hg, List.map_map, List.map_map]
  split
  · next h => exact List.map_congr_left fun q _ => by rw [blockQuad, if_pos h]; rfl
  · next h =>
    rw [List.map_map]
    exact List.map_congr_left fun q _ => by rw [blockQuad, if_neg h]; rfl

/-- The scale byte of block j of a line's values. -/
def blockScale (V : Nat → Val) (j : Nat) : Nat := scaleByte 7 true ((List.range 32).map (fun i => V (32 * j + i)))

section
variable (V : Nat → Val) {c : Nat} (hc : c ≤ 32)
include hc

theorem quantLine_groups : groupsOf 32 32 ((List.range (c * 32)).map V) = (List.range c).map (fun j => (List.range 32).map (fun i => V (32 * j + i))) :=
  groupsOf_map_range V (by decide) hc

theorem quantLine_scales : (quantLine ((List.range (c * 32)).map V)).1 = (List.range c).map (blockScale V) := by
  unfold quantLine
  dsimp only
  rw [quantLine_groups V hc, List.map_map, List.map_map]
  exact List.map_congr_left fun j _ => quantBlock_byte _

theorem quantLine_quads : (quantLine ((List.range (c * 32)).map V)).2.1 =
    (List.range c).flatMap (fun j => (List.range 8).map (blockQuad (fun i => V (32 * j + i)))) := by
  unfold quantLine
  dsimp only
  rw [quantLine_groups V hc, List.map_map, List.flatMap_map]
  exact List.flatMap_congr fun j _ => quantBlock_quads _

theorem length_quantLine_quads : (quantLine ((List.range (c * 32)).map V)).2.1.length = c * 8 := by
  rw [quantLine_quads V hc, List.length_flatMap]
  simp

theorem getElem?_quantLine_quads {q : Nat} (hq : q < c * 8) :
    (quantLine ((List.range (c * 32)).map V)).2.1[q]? = some (blockQuad (fun i => V (32 * (q / 8) + i)) (q % 8)) := by
  rw [quantLine_quads V hc, show q = 8 * (q / 8) + q % 8 by omega]
  rw [getElem?_flatMap_of_length (n := 8) (fun _ _ => by rw [List.length_map, List.length_range]) _ (by omega), List.getElem?_range (by omega), Option.bind_some,
    List.getElem?_map, List.getElem?_range (by omega), Option.map_some]
  rw [show (8 * (q / 8) + q % 8) / 8 = q / 8 by omega, show (8 * (q / 8) + q % 8) % 8 = q % 8 by omega]

end

/-! ### VQO4 -/

theorem low_div {a y : Nat} (x : Nat) (hy : y < 2 ^ a) : (x * 2 ^ a + y) / 2 ^ a = x := by
  rw [Nat.add_comm, Nat.add_mul_div_right _ _ (by positivity), Nat.div_eq_of_lt hy, Nat.zero_add]

theorem elemAt_low {w a y i : Nat} (x : Nat) (h : w * i + w ≤ a) : elemAt w (x * 2 ^ a + y) i = elemAt w y i := by
  obtain ⟨d, rfl⟩ : ∃ d, a = w * i + w + d := ⟨a - (w * i + w), by omega⟩
  have hp : x * 2 ^ (w * i + w + d) + y = y + 2 ^ (w * i) * (2 ^ w * (2 ^ d * x)) := by rw [pow_add, pow_add]; ring
  rw [elemAt, elemAt, hp, Nat.add_mul_div_left _ _ (by positivity), Nat.add_mul_mod_self_left]

section
variable {x : Ctx} {k : Core} {e : VEntry} {d a b : Reg} {t w : BitVec 3}

theorem vecRes_vqo4 (h : e.instr = .vqo4 d a b t w) : vecRes x k e = some (vqo4Run t k e).1 := by
  rw [vecRes, vintRun, vfltRun, vlogRun, vxfRun, h]; rfl

/-- The exact value of element i of the a line. -/
def lineVal (k : Core) (e : VEntry) (t : BitVec 3) (i : Nat) : Val := tyVal t (lineElem k t e.a i)

theorem tyCount_blocks (t : BitVec 3) : tyCount t = tyCount t / 32 * 32 ∧ tyCount t / 32 ≤ 32 := by revert t; decide

theorem tyCount_quads (t : BitVec 3) : tyCount t = 4 * (tyCount t / 4) := by revert t; decide

/-- VQO4: scale bytes and quads in the low parts of the b and the d line, NV for a block without a scale. -/
theorem vqo4_spec (h : e.instr = .vqo4 d a b t w) :
    ∃ v u g, vecRes x k e = some ⟨[(e.d, v), (e.b, u)], [], g⟩ ∧
      v / 2 ^ (4 * tyCount t) = k.spadLine e.d / 2 ^ (4 * tyCount t) ∧ u / 2 ^ (tyCount t / 4) = k.spadLine e.b / 2 ^ (tyCount t / 4) ∧
      (∀ j < tyCount t / 32, elemAt 8 u j = blockScale (lineVal k e t) j) ∧
      (∀ q < tyCount t / 4, elemAt 16 v q = blockQuad (fun i => lineVal k e t (32 * (q / 8) + i)) (q % 8) % 2 ^ 16) ∧
      g = (if ∃ j < tyCount t / 32, blockScale (lineVal k e t) j = 0xFF then fNV else 0) := by
  obtain ⟨hcount, hc⟩ := tyCount_blocks t
  have hvals : (k.lineElems t e.a).map (tyVal t) = (List.range (tyCount t / 32 * 32)).map (lineVal k e t) := by
    rw [lineElems_eq_map, List.map_map, ← hcount]
    rfl
  have hres := vecRes_vqo4 (x := x) (k := k) h
  unfold vqo4Run at hres
  dsimp only at hres
  rw [hvals] at hres
  have hq16 := ofElems_lt 16 (quantLine ((List.range (tyCount t / 32 * 32)).map (lineVal k e t))).2.1
  have hs8 := ofElems_lt 8 (quantLine ((List.range (tyCount t / 32 * 32)).map (lineVal k e t))).1
  rw [length_quantLine_quads _ hc, show 16 * (tyCount t / 32 * 8) = 4 * tyCount t by omega] at hq16
  rw [quantLine_scales _ hc, List.length_map, List.length_range, show 8 * (tyCount t / 32) = tyCount t / 4 by omega, ← quantLine_scales _ hc] at hs8
  refine ⟨_, _, _, hres, low_div _ hq16, low_div _ hs8, fun j hj => ?_, fun q hq => ?_, ?_⟩
  · rw [elemAt_low _ (by omega), quantLine_scales _ hc]
    refine elemAt_ofElems_of ?_ (scaleByte_lt 7 true ((List.range 32).map (fun i => lineVal k e t (32 * j + i))))
    rw [List.getElem?_map, List.getElem?_range hj]
    rfl
  · rw [elemAt_low _ (by omega), elemAt_ofElems, getElem?_quantLine_quads _ hc (by omega), Option.getD_some]
  · rw [quantLine_scales _ hc, flagIf]
    refine if_congr ?_ rfl rfl
    simp

/-! ### VDQO4 -/

theorem length_decodeQuad {q : Nat} {l : List Val} (h : decodeQuad q = some l) : l.length = 4 := by
  unfold decodeQuad at h
  dsimp only at h
  split_ifs at h <;> (cases h; rfl)

/-- Element i of a number of O4 quads, with the flag of its quad. -/
def o4Val (v i : Nat) : Val × BitVec 8 :=
  ((decodeQuad (elemAt 16 v (i / 4))).elim (Val.fin false 0 0) (fun l => l[i % 4]?.getD (Val.fin false 0 0)),
    if decodeQuad (elemAt 16 v (i / 4)) = none then fOQ else 0)

/-- The four values of a quad, with its flag. -/
def quadVals (q : Nat) : List (Val × BitVec 8) :=
  match decodeQuad q with
  | some l => l.map (fun x => (x, 0))
  | none => (List.range 4).map (fun _ => (Val.fin false 0 0, fOQ))

theorem o4Vals_eq_flatMap (n v : Nat) : o4Vals n v = (List.range (n / 4)).flatMap (fun q => quadVals (elemAt 16 v q)) := by
  rw [o4Vals, elems_eq_map, List.flatMap_map]
  rfl

theorem length_quadVals (q : Nat) : (quadVals q).length = 4 := by
  unfold quadVals
  cases h : decodeQuad q with
  | none => rfl
  | some l => rw [List.length_map, length_decodeQuad h]

theorem getElem?_quadVals (v i : Nat) : (quadVals (elemAt 16 v (i / 4)))[i % 4]? = some (o4Val v i) := by
  have hm : i % 4 < 4 := Nat.mod_lt _ (by decide)
  unfold quadVals o4Val
  cases h : decodeQuad (elemAt 16 v (i / 4)) with
  | none =>
    dsimp only
    rw [List.getElem?_map, List.getElem?_range hm]
    rfl
  | some l =>
    have hl := length_decodeQuad h
    obtain ⟨y, hy⟩ : ∃ y, l[i % 4]? = some y := ⟨_, List.getElem?_eq_getElem (by omega)⟩
    simp [hy]

theorem o4Vals_eq_map (n v : Nat) : o4Vals (4 * n) v = (List.range (4 * n)).map (o4Val v) := by
  have hlen : (o4Vals (4 * n) v).length = 4 * n := by
    rw [o4Vals_eq_flatMap, List.length_flatMap]
    simp only [length_quadVals, List.map_const', List.sum_replicate, List.length_range, smul_eq_mul]
    omega
  apply List.ext_getElem?
  intro i
  by_cases hi : i < 4 * n
  · rw [List.getElem?_map, List.getElem?_range hi, Option.map_some, o4Vals_eq_flatMap, ← getElem?_quadVals]
    conv_lhs => rw [show i = 4 * (i / 4) + i % 4 by omega]
    rw [getElem?_flatMap_of_length (n := 4) (fun _ _ => length_quadVals _) _ (by omega), List.getElem?_range (by omega)]
    rfl
  · rw [List.getElem?_eq_none (by omega), List.getElem?_eq_none (by simp; omega)]

theorem vecRes_vdqo4 (h : e.instr = .vdqo4 d a b t w) : vecRes x k e = some (vdqo4Run t k e) := by
  rw [vecRes, vintRun, vfltRun, vlogRun, vxfRun, h]; rfl

/-- Element i of VDQO4, with its flags. -/
def dequantElem (k : Core) (e : VEntry) (t : BitVec 3) (i : Nat) : Nat × BitVec 8 :=
  dequant t (o4Val (k.spadLine e.a) i) (elemAt 8 (k.spadLine e.b) (i / 32))

theorem vdqo4_spec (h : e.instr = .vdqo4 d a b t w) :
    ∃ v g, vecRes x k e = some ⟨[(e.d, v)], [], g⟩ ∧ (∀ i < tyCount t, elemAt (tyWidth t) v i = (dequantElem k e t i).1 % 2 ^ tyWidth t) ∧
      ∀ j, g.getLsbD j = true ↔ ∃ i < tyCount t, (dequantElem k e t i).2.getLsbD j = true := by
  have hcount := tyCount_quads t
  have hvals : (o4Vals (tyCount t) (k.spadLine e.a)).zipIdx.map (fun v => dequant t v.1 (elemAt 8 (k.spadLine e.b) (v.2 / 32))) =
      (List.range (tyCount t)).map (dequantElem k e t) := by
    rw [hcount, o4Vals_eq_map, zipIdx_map_range, List.map_map]
    rfl
  have hres := vecRes_vdqo4 (x := x) (k := k) h
  unfold vdqo4Run at hres
  dsimp only at hres
  rw [hvals] at hres
  refine ⟨_, _, hres, fun i hi => ?_, fun j => ?_⟩
  · rw [elemAt_ofElems, List.getElem?_map, List.getElem?_map, List.getElem?_range hi]
    rfl
  · have hz : (0 : BitVec 8).getLsbD j = false := BitVec.getLsbD_zero
    rw [getLsbD_foldl_or (fun p : Nat × BitVec 8 => p.2), hz, Bool.false_or, List.any_map, List.any_eq_true]
    simp [List.mem_range]

end

end Sys2Proof.Machine
end

section
/-!
VHAD (R92, R194): a stage of the transform on the elements of a line, and the stages in turn.
-/

namespace Sys2Proof.Machine

open Sys2Proof

/-- One stage at a distance of h: sums in the even runs of h elements, differences in the odd ones. -/
def hadElem (h : Nat) (f : Nat → Nat) (i : Nat) : Nat :=
  if i / h % 2 = 0 then (f32.add 0 (f i) (f (i + h))).1 else (f32.sub 0 (f (i - h)) (f i)).1

theorem take_map_range {α : Type} (f : Nat → α) {n m : Nat} (h : n ≤ m) : ((List.range m).map f).take n = (List.range n).map f := by
  rw [← List.map_take, List.take_range, Nat.min_eq_left h]

theorem drop_map_range {α : Type} (f : Nat → α) (n m : Nat) : ((List.range (n + m)).map f).drop n = (List.range m).map (fun i => f (n + i)) := by
  rw [List.range_add, List.map_append, List.drop_left' (by rw [List.length_map, List.length_range]), List.map_map]
  rfl

theorem hadStage_succ (fuel h : Nat) (l : List Nat) (hl : l ≠ []) : (hadStage (fuel + 1) h l).1 =
    ((l.take h).zip ((l.drop h).take h)).map (fun p => (f32.add 0 p.1 p.2).1) ++
      (((l.take h).zip ((l.drop h).take h)).map (fun p => (f32.sub 0 p.1 p.2).1) ++ (hadStage fuel h (l.drop (2 * h))).1) := by
  rw [hadStage, if_neg (by simpa using hl)]
  dsimp only
  rw [List.map_map, List.map_map, List.append_assoc]
  rfl

/-- One stage on a list of c blocks of 2 h elements. -/
theorem hadStage_map_range {fuel h c : Nat} (hh : 0 < h) (hc : c ≤ fuel) (f : Nat → Nat) :
    (hadStage fuel h ((List.range (2 * h * c)).map f)).1 = (List.range (2 * h * c)).map (hadElem h f) := by
  induction c generalizing fuel f with
  | zero => cases fuel <;> rfl
  | succ c ih =>
    obtain ⟨fuel, rfl⟩ : ∃ m, fuel = m + 1 := ⟨fuel - 1, by omega⟩
    have hlen : 2 * h * (c + 1) = h + (h + 2 * h * c) := by ring
    have hlen' : 2 * h * (c + 1) = 2 * h + 2 * h * c := by ring
    have hne : (List.range (2 * h * (c + 1))).map f ≠ [] := by
      intro h0
      have := congrArg List.length h0
      rw [List.length_map, List.length_range, hlen] at this
      simp at this
      omega
    have hzip : (((List.range (2 * h * (c + 1))).map f).take h).zip ((((List.range (2 * h * (c + 1))).map f).drop h).take h) =
        (List.range h).map (fun i => (f i, f (h + i))) := by
      rw [take_map_range f (by omega), hlen, drop_map_range, take_map_range _ (by omega), List.zip_map']
    have hrest : ((List.range (2 * h * (c + 1))).map f).drop (2 * h) = (List.range (2 * h * c)).map (fun i => f (2 * h + i)) := by
      rw [hlen', drop_map_range]
    rw [hadStage_succ _ _ _ hne, hzip, hrest, ih (by omega), List.map_map, List.map_map, hlen, List.range_add, List.map_append, List.range_add, List.map_append,
      List.map_append]
    simp only [List.map_map]
    congr 1
    · refine List.map_congr_left fun i hi => ?_
      have hi := List.mem_range.1 hi
      rw [Function.comp_apply, hadElem, Nat.div_eq_of_lt hi, if_pos rfl, Nat.add_comm h]
    · congr 1
      · refine List.map_congr_left fun i hi => ?_
        have hi := List.mem_range.1 hi
        have hdiv : (h + i) / h = 1 := by rw [Nat.add_div_left _ hh, Nat.div_eq_of_lt hi]
        rw [Function.comp_apply, Function.comp_apply, hadElem, hdiv, if_neg (by decide), Nat.add_sub_cancel_left]
      · refine List.map_congr_left fun i _ => ?_
        have hdiv : (h + (h + i)) / h % 2 = i / h % 2 := by rw [Nat.add_div_left _ hh, Nat.add_div_left _ hh]; omega
        rw [Function.comp_apply, Function.comp_apply, hadElem, hadElem, hdiv]
        split
        · rw [show 2 * h + i = h + (h + i) by omega, show 2 * h + (i + h) = h + (h + i) + h by omega]
        · next hodd =>
          have hge : h ≤ i := by
            by_contra hlt
            rw [Nat.div_eq_of_lt (not_le.1 hlt)] at hodd
            exact hodd rfl
          rw [show 2 * h + i = h + (h + i) by omega, show 2 * h + (i - h) = h + (h + i) - h by omega]

/-- The stages from a distance of 2^s to one below 2^(s + d). -/
theorem hadStages_map_range {fuel s d n : Nat} (hd : d ≤ fuel) (hn : 2 ^ (s + d) ∣ n) (hfuel : n ≤ 4096) (f : Nat → Nat) :
    (hadStages fuel (2 ^ s) (2 ^ (s + d)) ((List.range n).map f)).1 =
      (List.range n).map ((List.range' s d).foldl (fun f s => hadElem (2 ^ s) f) f) := by
  induction d generalizing fuel s f with
  | zero =>
    cases fuel with
    | zero => rfl
    | succ fuel => rw [hadStages, if_pos (show 2 ^ (s + 0) ≤ 2 ^ s from le_rfl)]; rfl
  | succ d ih =>
    obtain ⟨fuel, rfl⟩ : ∃ m, fuel = m + 1 := ⟨fuel - 1, by omega⟩
    have hlt : ¬ 2 ^ (s + (d + 1)) ≤ 2 ^ s := not_le.2 (Nat.pow_lt_pow_right (by decide) (by omega))
    obtain ⟨c, hc⟩ : 2 * 2 ^ s ∣ n := (by rw [← Nat.pow_succ']; exact Nat.pow_dvd_pow 2 (by omega) : 2 * 2 ^ s ∣ 2 ^ (s + (d + 1))).trans hn
    have hpos : 0 < 2 ^ s := by positivity
    have hcle : c ≤ 4096 := by
      have := Nat.le_mul_of_pos_left c (show 0 < 2 * 2 ^ s by omega)
      omega
    have hstage : (hadStage 4096 (2 ^ s) ((List.range n).map f)).1 = (List.range n).map (hadElem (2 ^ s) f) := by
      rw [hc]
      exact hadStage_map_range hpos hcle f
    rw [hadStages, if_neg hlt]
    dsimp only
    rw [hstage, ← Nat.pow_succ', show s + (d + 1) = s + 1 + d by omega, ih (by omega) (by rwa [show s + 1 + d = s + (d + 1) by omega])]
    rfl

/-! ### VHAD -/

section
variable {x : Ctx} {k : Core} {e : VEntry} {d a b : Reg} {t w : BitVec 3}

theorem vecRes_vhad (h : e.instr = .vhad d a b t w) : vecRes x k e = some (vhadRun b t k e) := by
  rw [vecRes, vintRun, vfltRun, vlogRun, vxfRun, h]; rfl

/-- Element i of the a line as F32. -/
def wideElem (k : Core) (e : VEntry) (t : BitVec 3) (i : Nat) : Nat :=
  if t = 7 then lineElem k t e.a i else ((tyFmt t).convert f32 0 false (lineElem k t e.a i)).1

/-- The transform's number as an element of the type. -/
def narrowElem (t : BitVec 3) (y : Nat) : Nat := if t = 7 then y else (f32.convert (tyFmt t) 0 false y).1

theorem dvd_tyCount_float {t : BitVec 3} (ht : tyFloat t = true) {n : Nat} (hn : n ≤ 2) : 2 ^ (4 + n) ∣ tyCount t := by
  have key : ∀ t : BitVec 3, tyFloat t = true → 64 ∣ tyCount t := by decide
  exact (Nat.pow_dvd_pow 2 (by omega) : 2 ^ (4 + n) ∣ 2 ^ 6).trans (key t ht)

theorem tyCount_le (t : BitVec 3) : tyCount t ≤ 4096 := by revert t; decide

/-- VHAD: each block of 16, 32 or 64 elements of the line transformed in F32, and converted back. -/
theorem vhad_spec (h : e.instr = .vhad d a b t w) (ht : tyFloat t = true) (hb : b.toNat ≤ 2) :
    ∃ v g, vecRes x k e = some ⟨[(e.d, v)], [], g⟩ ∧ ∀ i < tyCount t, elemAt (tyWidth t) v i =
      narrowElem t ((List.range (4 + b.toNat)).foldl (fun f s => hadElem (2 ^ s) f) (wideElem k e t) i) % 2 ^ tyWidth t := by
  have hres := vecRes_vhad (x := x) (k := k) h
  unfold vhadRun at hres
  dsimp only at hres
  refine ⟨_, _, hres, fun i hi => ?_⟩
  have hwide : ((k.lineElems t e.a).map (fun x => if t = 7 then (x, (0 : BitVec 8)) else (tyFmt t).convert f32 0 false x)).map (fun x => x.1) =
      (List.range (tyCount t)).map (wideElem k e t) := by
    rw [lineElems_eq_map, List.map_map, List.map_map]
    refine List.map_congr_left fun i _ => ?_
    rw [Function.comp_apply, Function.comp_apply, wideElem]
    split <;> rfl
  have hstages := hadStages_map_range (fuel := 6) (s := 0) (d := 4 + b.toNat) (n := tyCount t) (by omega) (by rw [Nat.zero_add]; exact dvd_tyCount_float ht hb)
    (tyCount_le t) (wideElem k e t)
  rw [Nat.zero_add, pow_zero, show 2 ^ (4 + b.toNat) = 16 * 2 ^ b.toNat by rw [pow_add]; rfl] at hstages
  rw [hwide, elemAt_ofElems, hstages, ← List.range_eq_range', List.map_map, List.map_map, List.getElem?_map, List.getElem?_range hi, Option.map_some,
    Option.getD_some, Function.comp_apply, Function.comp_apply, narrowElem]
  split <;> rfl

end

end Sys2Proof.Machine
end

section
/-!
O41: conversions, quads, functions and flags, from the results of the instructions by their shapes.
-/

namespace Sys2Proof.Machine

open Sys2Proof

section
variable {x : Ctx} {k : Core} {e : VEntry} {d a b : Reg} {t w : BitVec 3}

/-! ### Float elements (R182, R183, R184) -/

theorem givesElems_vfadd (h : e.instr = .vfadd d a b t w) : GivesElems x k e t (fun p q _ => el2 (f32.add e.rm) t p q 0) :=
  givesElems_vmap (f := el2 (f32.add e.rm) t) (by rw [vecRes, vintRun, vfltRun, h]; rfl)

theorem givesElems_vfsub (h : e.instr = .vfsub d a b t w) : GivesElems x k e t (fun p q _ => el2 (f32.sub e.rm) t p q 0) :=
  givesElems_vmap (f := el2 (f32.sub e.rm) t) (by rw [vecRes, vintRun, vfltRun, h]; rfl)

theorem givesElems_vfmul (h : e.instr = .vfmul d a b t w) : GivesElems x k e t (fun p q _ => el2 (f32.mul e.rm) t p q 0) :=
  givesElems_vmap (f := el2 (f32.mul e.rm) t) (by rw [vecRes, vintRun, vfltRun, h]; rfl)

theorem givesElems_vfma (h : e.instr = .vfma d a b t w) : GivesElems x k e t (el3 (f32.fma e.rm false) t t) :=
  givesElems_vmap (by rw [vecRes, vintRun, vfltRun, h]; rfl)

theorem givesElems_vfnma (h : e.instr = .vfnma d a b t w) : GivesElems x k e t (el3 (f32.fma e.rm true) t t) :=
  givesElems_vmap (by rw [vecRes, vintRun, vfltRun, h]; rfl)

theorem givesElems_vfmin (h : e.instr = .vfmin d a b t w) : GivesElems x k e t (fun p q _ => el2 (f32.minMax false) t p q 0) :=
  givesElems_vmap (f := el2 (f32.minMax false) t) (by rw [vecRes, vintRun, vfltRun, h]; rfl)

theorem givesElems_vfmax (h : e.instr = .vfmax d a b t w) : GivesElems x k e t (fun p q _ => el2 (f32.minMax true) t p q 0) :=
  givesElems_vmap (f := el2 (f32.minMax true) t) (by rw [vecRes, vintRun, vfltRun, h]; rfl)

theorem widensElems_vfwmul (h : e.instr = .vfwmul d a b t w) : WidensElems x k e t (fun p q _ => elFwmul e.rm t p q 0) :=
  widensElems_vwiden (f := elFwmul e.rm t) (by rw [vecRes, vintRun, vfltRun, h]; rfl)

theorem widensElems_vfwma (h : e.instr = .vfwma d a b t w) : WidensElems x k e t (el3 (f32.fma e.rm false) t (wideTy t)) :=
  widensElems_vwiden (by rw [vecRes, vintRun, vfltRun, h]; rfl)

theorem givesElems_vfexp2 (h : e.instr = .vfexp2 d a t w) : GivesElems x k e t (fun p _ _ => el1 (fexp2 e.rm) t p) :=
  givesElems_vput (by rw [vecRes, vintRun, vfltRun, h]; rfl)

theorem givesElems_vflog2 (h : e.instr = .vflog2 d a t w) : GivesElems x k e t (fun p _ _ => el1 (flog2 e.rm) t p) :=
  givesElems_vput (by rw [vecRes, vintRun, vfltRun, h]; rfl)

theorem givesElems_vfrcp (h : e.instr = .vfrcp d a t w) : GivesElems x k e t (fun p _ _ => el1 (f32.div e.rm 0x3F800000) t p) :=
  givesElems_vput (f := el1 (frecip e.rm) t) (by rw [vecRes, vintRun, vfltRun, h]; rfl)

theorem givesElems_vfrsq (h : e.instr = .vfrsq d a t w) : GivesElems x k e t (fun p _ _ => el1 (frsqrt e.rm) t p) :=
  givesElems_vput (by rw [vecRes, vintRun, vfltRun, h]; rfl)

/-! ### Values as the statement writes them -/

/-- The exact value of an element of the a line. -/
theorem lineVal_eq (k : Core) (e : VEntry) (t : BitVec 3) (i : Nat) : lineVal k e t i =
    if tyFloat t then (tyFmt t).decode (lineElem k t e.a i) else Val.ofInt (BitVec.ofNat (tyWidth t) (lineElem k t e.a i)).toInt 0 := by
  rw [lineVal, tyVal, toSigned_eq_toInt (lineElem_lt k t e.a i)]

/-- The number of a line's quad, by its block's scale. -/
theorem blockQuad_eq (V : Nat → Val) (q : Nat) : blockQuad (fun i => V (32 * (q / 8) + i)) (q % 8) =
    if blockScale V (q / 8) = 0xFF then 0 else (quantQuad (e8m0Exp (blockScale V (q / 8))) ((List.range 4).map (fun i => V (4 * q + i)))).1 := by
  have hpos (i : Nat) : 32 * (q / 8) + (4 * (q % 8) + i) = 4 * q + i := by omega
  rw [blockQuad]
  simp only [hpos]
  rfl

/-- An element of VDQO4: the canonical NaN with NV under a NaN scale, else the scaled value; OQ in an invalid quad. -/
theorem dequantElem_eq (k : Core) (e : VEntry) (t : BitVec 3) (i : Nat) :
    let quad := decodeQuad (elemAt 16 (k.spadLine e.a) (i / 4))
    let sc := elemAt 8 (k.spadLine e.b) (i / 32)
    let value := if sc = 0xFF then ((tyFmt t).nan, fNV)
      else (tyFmt t).encode 0 false ((quad.elim (Val.fin false 0 0) (fun l => l[i % 4]?.getD (Val.fin false 0 0))).scale (e8m0Exp sc))
    dequantElem k e t i = (value.1, value.2 ||| (if quad = none then fOQ else 0)) := by
  intro quad sc value
  rw [dequantElem, dequant]
  simp only [value]
  split <;> rfl

end

/-- Settles O41: each instruction's result is read off its shape, and the functions' table is evaluated where it is finite. -/
theorem vectorConversionsAndFlags : Obligations.VectorConversionsAndFlags := by
  unfold Obligations.VectorConversionsAndFlags
  intro x k e d a b t w n count act A B D sg raised gives widens clamp least most silent
  refine ⟨?quiet, fun h => givesElems_vadds h, fun h => givesElems_vsubs h, fun h => givesElems_vaddsn h, fun h => givesElems_vfadd h,
    fun h => givesElems_vfsub h, fun h => givesElems_vfmul h, fun h => givesElems_vfma h, fun h => givesElems_vfnma h, fun h => givesElems_vfmin h,
    fun h => givesElems_vfmax h, fun h _ => widensElems_vfwmul h, fun h _ => widensElems_vfwma h, vfcmp_flags, fun h => givesElems_vfexp2 h,
    fun h => givesElems_vflog2 h, fun h => givesElems_vfrcp h, fun h => givesElems_vfrsq h, ?table, fun h ht => givesValues_viota h ht, ?dot, ?cvt,
    ?quant, ?dequant, ?had⟩
  case quiet =>
    intro h r hr
    obtain ⟨q, hq, hf⟩ := quiet_of_silent (x := x) (k := k) h
    rw [hq] at hr
    exact Option.some.inj hr ▸ hf
  case table =>
    intro rm
    obtain ⟨⟨h1, h2, h3, h4⟩, ⟨h5, h6, h7⟩, ⟨h8, h9, h10, h11⟩, ⟨h12, h13, h14⟩⟩ := functions_table rm
    exact ⟨h1, h2, h3, h4, h5, h6, h7, fun v hlo hhi => flog2_frsqrt_neg rm hlo hhi, h8, h9, h10, h11, h12, h13, h14,
      fun v sig hd => functions_nan rm hd, fun i hlo hhi => functions_powers rm i hlo hhi⟩
  case dot =>
    intro z₀ new
    refine ⟨fun h ht => ?_, fun h ht l₀ l₁ hwr => ?_⟩
    · subst ht
      obtain ⟨v, hv, helem⟩ := vdot4_one (x := x) (k := k) h
      exact ⟨v, hv, fun j hj => (helem j hj).trans (vdotElem_eq _ j)⟩
    · subst ht
      obtain ⟨v₀, v₁, hv, helem⟩ := vdot4_two (x := x) (k := k) h hwr
      exact ⟨v₀, v₁, hv, fun j hj => (helem j hj).trans (vdotElem_eq _ j)⟩
  case cvt =>
    intro h u m rm sat lo hi conv
    refine ⟨fun hm => vcvt_narrow h hm, fun hm hlen => ?_⟩
    exact vcvt_wide h hm
  case quant =>
    intro h value scale
    obtain ⟨v, u, g, hres, hv, hu, hscale, hquad, hg⟩ := vqo4_spec (x := x) (k := k) h
    have hval : lineVal k e t = value := funext fun i => lineVal_eq k e t i
    rw [hval] at hscale hg
    refine ⟨v, u, g, hres, hv, hu, hscale, fun q hq => ?_, hg⟩
    rw [hquad q hq, blockQuad_eq, hval, apply_ite (· % 2 ^ 16)]
    rfl
  case dequant =>
    intro h quad sc value
    obtain ⟨v, g, hres, helem, hflag⟩ := vdqo4_spec (x := x) (k := k) h
    refine ⟨v, g, hres, fun i hi => ?_, fun j _ => ?_⟩
    · rw [helem i hi, dequantElem_eq]
    · rw [hflag j]
      simp only [dequantElem_eq]
      rfl
  case had =>
    intro h ht hb wide stage y
    obtain ⟨v, g, hres, helem⟩ := vhad_spec (x := x) (k := k) h ht hb
    exact ⟨v, g, hres, helem⟩

end Sys2Proof.Machine
end

section
/-!
VectorPassBind fails: in a state whose table of cores is not in rising order, the credit that the arbiter leaves an earlier context puts a second
entry of the core into the table, and with it another of two owners of a line comes first.
-/

namespace Sys2Proof.Machine

open Sys2Proof

/-- A vector load of a part of range 0 that this package shows to peers, through its own peer number (R431). -/
def loopedLoad : VEntry :=
  ⟨.vld 3 1 0, 0, 0, 3, 255, 0, [], [3], 0, 0, 0, ⟨0, 0, 0, 0, 0, 0, 0, 0, false, 0, 0⟩, 1, false, [(0, 0, .peer 0 0 0 0 false false)], 8, 0⟩

/-- A vector load without a part. -/
def emptyLoad : VEntry := { loopedLoad with elems := [] }

/-- A core that owns line 0, where the entry of that range is, with these data. -/
def entryOwner (d : CLine) : Core := { Core.reset with l1 := [⟨0, .O, d, true, 0, 0, [], false⟩] }

/-- Core 1: ctx1 with a load and no credit, ctx2 with a load of that range and credit for it, lane group 0 free alone. In its copy of the
entry the range is valid and begins at address 0. -/
def unorderedCore : Core :=
  { ((entryOwner (BitVec.ofNat 512 (1 + 2 ^ 128))).setCtx 1 { Ctx.reset with vq := [emptyLoad], vshare := 0 }).setCtx 2
      { Ctx.reset with vq := [loopedLoad], deficit := 1 } with
    vserved := 0, lanes := #v[0, 5, 5, 5] }

/-- Core 5, whose copy of the entry says that the range is not valid, stands before core 1; a peer owns line 0. -/
def unorderedState : State :=
  { State.reset with
    cores := [(5, entryOwner 0), (1, unorderedCore)]
    parts := State.reset.parts.setIfInBounds 0 { Part.reset with state := 1, len := 4 }
    fabric := { Fabric.reset with exptab := 1 }
    peerDir := [⟨1, 0, true, none⟩] }

/-- ctx2 of core 1. -/
def unorderedCtx : CtxId := ⟨1, 2⟩

theorem unorderedState_hyps :
    unorderedState.cycle % 5 = 0 ∧ vecMoves unorderedState 1 = true ∧
      (∀ j < 4, ((unorderedState.core 1).lanes[j]?.getD 0 ≤ unorderedState.cycle ↔ j = 0)) ∧
      (unorderedState.ctx unorderedCtx).vq = [loopedLoad] ∧ (headRuns unorderedState unorderedCtx).isSome = true := by decide +kernel

/-- ctx1 is ready, and has not the credit for its pass, with its share. -/
theorem unorderedState_poor :
    ((unorderedState.core 1).ctx 1).vq.head? = some emptyLoad ∧ (headRuns unorderedState ⟨1, 1⟩).isSome = true ∧
      (let x := (unorderedState.core 1).ctx 1
       (if x.deficit < emptyLoad.passes then x.deficit + x.vshare.toNat else x.deficit) < emptyLoad.passes) := by decide +kernel

/-- The arbiter passes over ctx2: once ctx1 has its credit, the copy of core 1 is the first of the entry, the load reaches line 0, and that waits for
the peer. -/
theorem unorderedState_bind (t : State) (ht : exec (.vectorPassBind 1) unorderedState = .next t) : (t.ctx unorderedCtx).vq = [loopedLoad] := by
  have h : (match exec (.vectorPassBind 1) unorderedState with
    | .next t => (t.ctx unorderedCtx).vq
    | _ => []) = [loopedLoad] := by decide +kernel
  rwa [ht] at h

/-- Refutes O42, on a state that the statement admits but whose table of cores is not in rising order: leaving ctx1 its share makes the core that
`State.setCtx` sets come before another owner of the line that holds the range's entry, so that ctx2, ready before, is not ready any more. -/
theorem not_vectorPassBind : ¬ Obligations.VectorPassBind := by
  unfold Obligations.VectorPassBind
  intro h
  obtain ⟨hcycle, hmoves, hlanes, hvq, hruns⟩ := unorderedState_hyps
  obtain ⟨hhead, hready, hcredit⟩ := unorderedState_poor
  have hpoor (j : Nat) (hj : (j + 10) % 11 < 1) (hlt : j < 11) : j = 1 := by omega
  obtain ⟨hbind, -⟩ := h 1 2 loopedLoad [] unorderedState (by decide) hcycle hmoves hlanes hvq hruns (by decide +kernel)
  obtain ⟨t, ht, htail, -⟩ := hbind fun j hlt hplace => by
    obtain rfl := hpoor j hplace hlt
    exact .inr ⟨emptyLoad, hhead, hready, hcredit⟩
  have hkept := unorderedState_bind t ht
  rw [unorderedCtx, htail] at hkept
  cases hkept

end Sys2Proof.Machine
end

section
/-!
O32: requests at their homes, their responses, and the other events of memory.
-/

namespace Sys2Proof.Machine

open Sys2Proof

/-! ### Requests at their homes (R230, R252, R333) -/

section
variable {s : State} {q : Req} {id : Nat}

theorem State.id_of_req (h : s.req id = some q) : q.id = id := by
  simpa using List.find?_some h

/-- A request other than a fence's mark: it waits, it leaves for the far home, or it is performed. -/
theorem execHomeRequest_access (h : s.req id = some q) (hf : q.isFence = false) :
    execHomeRequest id s = .next (
      if q.performed ∨ (q.sent ∧ (linesOf q.loc q.size).isEmpty) ∨ !mayPerform (arrive q s) q then arrive q s
      else if asksFarHome (arrive q s) q ∧ !q.sent then leaveForHome q (arrive q s)
      else performReq q (arrive q s)) := by
  rw [apply_ite Host.Outcome.next, apply_ite Host.Outcome.next, execHomeRequest, h]
  dsimp only
  split
  next hk => simp [Req.isFence, hk] at hf
  · rfl

/-- A request that nothing keeps back leaves for the far home where it has to ask it, and is performed otherwise. -/
theorem execHomeRequest_free (h : s.req id = some q) (hf : q.isFence = false) (hp : q.performed = false)
    (hw : q.sent = false ∨ (linesOf q.loc q.size).isEmpty = false) (hm : mayPerform (arrive q s) q = true) :
    execHomeRequest id s = .next (
      if asksFarHome (arrive q s) q ∧ !q.sent then leaveForHome q (arrive q s) else performReq q (arrive q s)) := by
  have hfree : ¬ (q.performed ∨ (q.sent ∧ (linesOf q.loc q.size).isEmpty) ∨ !mayPerform (arrive q s) q) := by
    rcases hw with hw | hw <;> simp [hp, hw, hm]
  rw [execHomeRequest_access h hf, if_neg hfree]

theorem execHomeRequest_fence {k : BitVec 2} {lo hi : Nat} (h : s.req id = some q) (hk : q.kind = .fence k lo hi)
    (hd : fenceDone s q k lo hi = true) : execHomeRequest id s = .next (performReq q s) := by
  rw [execHomeRequest, h]
  dsimp only
  rw [hk]
  exact if_pos hd

/-- A fence's mark that is done with leaves the requests, whatever T copies it discards. -/
theorem performReq_fence_reqs {k : BitVec 2} {lo hi : Nat} (hk : q.kind = .fence k lo hi) :
    (performReq q s).reqs = s.reqs.filter (fun r => r.id != q.id) := by
  rw [performReq, hk]
  dsimp only [dropReq]
  split <;> rfl

/-! ### Responses (R96, R244) -/

theorem Req.slotLines_of_no_replay (h : q.replay = none) : q.slotLines s = [] := by
  simp [Req.slotLines, h]

theorem endReplay_of_no_replay (h : q.replay = none) : endReplay q s = s := by
  rw [endReplay, h]

/-- The response of a request that was performed here, for a register and for no replay, has nothing to wait for on its way. -/
theorem execMemoryResponse_performed {v : Word} {poison : Bool} (h : s.req id = some q) (hp : q.performed = true)
    (hr : q.replay = none) (hd : q.dest.toNat < 28) : execMemoryResponse id v poison s = .next (respond q v poison s) := by
  have hproduce : (s.ctx q.ctx).mayProduce q.dest = true := (mayProduce_iff ..).2 (.inl hd)
  rw [execMemoryResponse, h]
  dsimp only
  rw [if_pos ⟨.inl hp, hproduce⟩, Req.slotLines_of_no_replay hr]
  simp [linesHeld]

/-- The response of a performed request that is no STI brings the request's own value and poison. -/
theorem respond_performed {v : Word} {poison : Bool} (hp : q.performed = true) (hr : q.replay = none)
    (hk : ∀ rep targets, q.kind ≠ .sti rep targets) :
    respond q v poison s = deliverResponse q q.value q.poison q.gone (dropReq s q.id) := by
  rw [respond, if_pos hp]
  split
  next h => exact absurd h (hk _ _)
  · exact endReplay_of_no_replay hr

/-- The response of a performed STI waits for its pushes, and then brings the mask of those that were accepted. -/
theorem respond_sti {v : Word} {poison rep : Bool} {targets : List (Nat × Nat)} (hp : q.performed = true) (hr : q.replay = none)
    (hk : q.kind = .sti rep targets) :
    respond q v poison s = if s.pushes.any (fun p => p.req == q.id) then s
      else deliverResponse q q.value false false (dropReq s q.id) := by
  rw [respond, if_pos hp, hk]
  dsimp only
  rw [endReplay_of_no_replay hr]

theorem deliverResponse_value {v : Word} (hd : q.drop = false) :
    deliverResponse q v false false s = writeResult s q.ctx q.dest v 0 q.route := by
  simp [deliverResponse, hd]

theorem deliverResponse_poison {v : Word} (hd : q.drop = false) (hp : q.dest.toNat < 28) :
    deliverResponse q v true false s = s.setCtx q.ctx ((s.ctx q.ctx).setPoison q.dest q.pc q.va) := by
  simp [deliverResponse, hd, (isPort_false_iff _).2 hp]

/-- A response without poison writes its destination. -/
theorem deliverResponse_value_dest {v : Word} (hd : q.drop = false) (hc : q.ctx.ctx < 11) (h0 : q.dest ≠ 0)
    (hp : q.dest.toNat < 28) :
    ((deliverResponse q v false false s).ctx q.ctx).reg q.dest = v ∧
      ((deliverResponse q v false false s).ctx q.ctx).isPoisoned q.dest = false := by
  have hport := (isPort_false_iff _).2 hp
  rw [deliverResponse_value hd, writeResult_ctx_reg _ _ _ _ _ _ hc hp]
  exact ⟨Ctx.reg_setReg _ _ _ h0 hport, Ctx.isPoisoned_setReg _ _ _ h0 hport⟩

/-- A poisoned response marks its destination and leaves its value. -/
theorem deliverResponse_poison_dest {v : Word} (hd : q.drop = false) (hc : q.ctx.ctx < 11) (h0 : q.dest ≠ 0)
    (hp : q.dest.toNat < 28) :
    ((deliverResponse q v true false s).ctx q.ctx).isPoisoned q.dest = true ∧
      ((deliverResponse q v true false s).ctx q.ctx).reg q.dest = (s.ctx q.ctx).reg q.dest := by
  rw [deliverResponse_poison hd hp, State.ctx_setCtx _ _ _ hc]
  exact ⟨Ctx.isPoisoned_setPoison _ _ _ _ h0 ((isPort_false_iff _).2 hp), Ctx.reg_setPoison ..⟩

/-- A response for a register, poisoned or not, leaves the requests and the memory. -/
theorem deliverResponse_leaves {v : Word} (poison : Bool) (hd : q.drop = false) (hp : q.dest.toNat < 28) :
    (deliverResponse q v poison false s).reqs = s.reqs ∧ (deliverResponse q v poison false s).mem = s.mem := by
  cases poison with
  | false =>
    rw [deliverResponse_value hd]
    exact ⟨writeResult_reqs .., writeResult_mem ..⟩
  | true =>
    rw [deliverResponse_poison hd hp]
    exact ⟨rfl, rfl⟩

end

/-! ### The other events (R232, R308, R333, R384, R438) -/

section
variable {s : State}

theorem execTLineExpiry_aged {core line : Nat} {e : L1Line} (h : (s.core core).l1Find line = some e) (ht : e.st = .T)
    (ha : e.fill + 4096 ≤ s.cycle) : execTLineExpiry core line s = .next (s.setCore core ((s.core core).l1Drop line)) := by
  rw [execTLineExpiry, h]
  exact if_pos ⟨ht, ha⟩

theorem execFarHomeRequest_free {q : Req} {id pa : Nat} {others : List RepSlot} (h : s.req id = some q) (hl : q.loc = .mem pa others)
    (hp : q.performed = false) (hf : isFar s pa = true) (hs : q.sent = true) (hm : mayPerform s q = true) :
    execFarHomeRequest id s =
      .next (if q.writes then bringOwned s (dieOfCore q.ctx.core) (pa / 64) else bring s (dieOfCore q.ctx.core) (pa / 64)) := by
  rw [execFarHomeRequest, h]
  dsimp only
  rw [hl]
  exact if_neg (by simp [hp, hf, hs, hm])

/-- A die that drops its copy of a line has none. -/
theorem farCopy_dropFar (s : State) (line die : Nat) : farCopy (dropFar s line die) line die = none :=
  List.find?_eq_none.2 fun c hc hcopy => by simpa [hcopy] using (List.mem_filter.1 hc).2

/-- An invalidation that reaches a die ends its copy where one is pending. -/
theorem farCopy_farInvalidated {line die : Nat} {c : FarCopy} (h : farCopy s line die = some c) (hi : c.inval.isSome = true) :
    farCopy (farInvalidated s line die) line die = none := by
  rw [farInvalidated, if_pos (by simpa [h] using hi)]
  exact farCopy_dropFar ..

/-- A die has acknowledged an invalidation of a line: one of a peer's line, or one that was pending (R333, R434). -/
def farAcked (s : State) (line die : Nat) : State :=
  if 2 ^ 60 ≤ line then dropFar s line die else farInvalidated s line die

theorem exec_farInvalidationAck_eq (s : State) (line die : Nat) :
    exec (.farInvalidationAck line die) s = .next { farAcked s line die with farWrites := farStill (farAcked s line die) } := rfl

theorem farAcked_of_lt {line : Nat} (die : Nat) (h : line < 2 ^ 60) : farAcked s line die = farInvalidated s line die :=
  if_neg (Nat.not_le.2 h)

theorem farCopy_farAcked {line die : Nat} {c : FarCopy} (h : farCopy s line die = some c) (hi : c.inval.isSome = true) :
    farCopy (farAcked s line die) line die = none := by
  unfold farAcked
  split
  · exact farCopy_dropFar ..
  · exact farCopy_farInvalidated h hi

theorem farPending_of_mem_farStill {f : FarWrite} (h : f ∈ farStill s) : farPending s f.line f.stamp = true :=
  (List.mem_filter.1 h).2

/-- The update of a number that no other has and no older one of its line stands before: it waits while peers hold the line, and is installed
then. -/
theorem execReplicaUpdate_oldest {u : RepUpdate} (hu : u ∈ s.updates) (hone : ∀ v ∈ s.updates, v.id = u.id → v = u)
    (hold : ∀ v ∈ s.updates, v.id < u.id → v.pa / 64 ≠ u.pa / 64) :
    execReplicaUpdate u.id s =
      if peerHolds s (u.pa / 64) true then .next (askPeers [u.pa / 64] true (s.cycle + fabricCycles (s.part u.part)) s)
      else .next (doorbell u.part u.pa u.size
        (deviceWrite ((updateCores s u.ctx).foldl (fun r core => dropOwnT r core (u.pa / 64))
          { s with updates := s.updates.filter (fun v => v.id != u.id) }) u.pa u.size u.value.toNat)) := by
  have hfind : s.updates.find? (fun v => v.id == u.id) = some u := by
    obtain ⟨v, hv⟩ : ∃ v, s.updates.find? (fun v => v.id == u.id) = some v :=
      Option.isSome_iff_exists.1 (List.find?_isSome.2 ⟨u, hu, beq_self_eq_true u.id⟩)
    have hid : v.id = u.id := by simpa using List.find?_some hv
    rw [hv, hone v (List.mem_of_find?_eq_some hv) hid]
  have hfirst : ¬ s.updates.any (fun v => decide (v.id < u.id) && v.pa / 64 == u.pa / 64) = true := by
    simpa using hold
  rw [execReplicaUpdate, hfind]
  exact if_neg hfirst

end

/-- Settles O32: each event by the lemma about its own operation. -/
theorem requestEvents : Obligations.RequestEvents := by
  unfold Obligations.RequestEvents
  intro s
  refine ⟨fun id q h hf hp hw hm => ?_, fun id q k lo hi h hk hd => ?_, fun id q v poison h hp hk hd hr hg hc h0 hlt => ?_,
    fun id q v poison rep targets h hp hk hd hr hc h0 hlt => ?_, fun core line e h ht ha => execTLineExpiry_aged h ht ha,
    fun id q pa others h hl hp hf hs hm => execFarHomeRequest_free h hl hp hf hs hm, fun line die => ?_, fun u hu hone hold => ?_,
    fun line h => ?_⟩
  · rw [exec_homeRequest, execHomeRequest_free h hf hp hw hm]
    exact ⟨fun hstay => by rcases hstay with h | h <;> simp [h], fun ha hs => by simp [ha, hs]⟩
  · obtain rfl := State.id_of_req h
    exact ⟨_, execHomeRequest_fence h hk hd, performReq_fence_reqs hk⟩
  · obtain rfl := State.id_of_req h
    have hresp : respond q v poison s = deliverResponse q q.value q.poison false (dropReq s q.id) := by
      rw [respond_performed hp hr (by rcases hk with ⟨sg, hk⟩ | ⟨op, hk⟩ <;> simp [hk]), hg]
    obtain ⟨hreqs, hmem⟩ := deliverResponse_leaves (v := q.value) (s := dropReq s q.id) q.poison hd hlt
    refine ⟨_, execMemoryResponse_performed h hp hr hlt, ?_⟩
    rw [hresp]
    refine ⟨hreqs, fun hpo => ?_, fun hpo => ?_, hmem⟩ <;> rw [hpo]
    · exact deliverResponse_value_dest hd hc h0 hlt
    · exact deliverResponse_poison_dest hd hc h0 hlt
  · obtain rfl := State.id_of_req h
    rw [exec_memoryResponse, execMemoryResponse_performed h hp hr hlt, respond_sti hp hr hk]
    refine ⟨fun hpush => by rw [if_pos hpush], fun hpush => ⟨_, by rw [if_neg (by simp [hpush])], ?_⟩⟩
    obtain ⟨hreqs, hmem⟩ := deliverResponse_leaves (v := q.value) (s := dropReq s q.id) false hd hlt
    obtain ⟨hreg, hclean⟩ := deliverResponse_value_dest (v := q.value) (s := dropReq s q.id) hd hc h0 hlt
    exact ⟨hreqs, hreg, hclean, hmem⟩
  · exact ⟨_, exec_farInvalidationAck_eq s line die, fun hline => by rw [farAcked_of_lt die hline],
      fun f hf => farPending_of_mem_farStill (s := farAcked s line die) hf, fun c hc hi => farCopy_farAcked hc hi⟩
  · rw [exec_replicaUpdate, execReplicaUpdate_oldest hu hone hold]
    exact ⟨fun hn => by rw [if_neg (by simp [hn])], fun hp => if_pos hp⟩
  · rw [exec_llcDramSoftError, execLlcDramSoftError, if_pos h]

end Sys2Proof.Machine
end

section
/-!
The memories at reset, and the checks of a scalar access in their order.
-/

namespace Sys2Proof.Machine

open Sys2Proof

/-- Settles O18: at reset memory is empty and no core is listed. -/
theorem resetIsSafe : Obligations.ResetIsSafe := by
  unfold Obligations.ResetIsSafe
  rw [memSafe_iff]
  exact ⟨memCanon_nil, coresCanon_nil⟩

/-! ### Addresses (R51, R158, R226) -/

theorem mAddr_eq (base : Word) (o : BitVec 9) (z : BitVec 2) : mAddr base o z = BitVec.ofInt 64 (base.toInt + o.toInt * 2 ^ z.toNat) := by
  rw [mAddr, sizeOf_, sext_eq_ofInt o (by decide), ← BitVec.ofInt_natCast, BitVec.ofInt_add, BitVec.ofInt_mul, BitVec.ofInt_toInt]
  norm_num

/-- The form of an address that R227 refuses first, in a partition of `ptlen` positions. -/
def BadForm (ptlen : Nat) (addr : Word) : Prop :=
  (viewOf addr ≠ 0 ∧ (locOf addr < 0x100000 ∨ 2 ^ 51 ≤ locOf addr ∨ ptlen < viewOf addr)) ∨ (locOf addr < 0x100000 ∧ 0x41000 ≤ locOf addr)

theorem formCheck_bad {ptlen : Nat} {addr : Word} (h : BadForm ptlen addr) : formCheck ptlen addr = some (.mk' cADDRFORM addr) := by
  simp only [formCheck, isLocal, isPeer, decide_eq_true_eq]
  unfold BadForm at h
  split
  · rfl
  · rw [if_pos (by omega)]

theorem formCheck_good {ptlen : Nat} {addr : Word} (h : ¬ BadForm ptlen addr) : formCheck ptlen addr = none := by
  simp only [formCheck, isLocal, isPeer, decide_eq_true_eq]
  unfold BadForm at h
  rw [if_neg (by omega), if_neg (by omega)]

/-- The part of the local class that a scalar access may not reach: past the scratchpad, but for the command window, which `window` opens. -/
def LocalOutside (s : State) (addr : Word) (size : Nat) (window : Bool) : Prop :=
  locOf addr < 0x100000 ∧ spBytes s.mine.spsize < locOf addr + size ∧ ¬ (window = true ∧ 0x40000 ≤ locOf addr ∧ locOf addr + size ≤ 0x40040)

theorem localCheck_outside {s : State} {addr : Word} {size : Nat} {window : Bool} (h : LocalOutside s addr size window) :
    localCheck s addr size window = some (.mk' cLOCALRANGE addr) := by
  obtain ⟨hloc, hpast, hwin⟩ := h
  simp only [localCheck, isLocal, Bool.not_eq_true', decide_eq_false_iff_not]
  rw [if_neg (not_not.2 hloc), if_neg (Nat.not_le.2 hpast), if_neg hwin]

theorem localCheck_inside {s : State} {addr : Word} {size : Nat} {window : Bool} (h : ¬ LocalOutside s addr size window) :
    localCheck s addr size window = none := by
  simp only [localCheck, isLocal, Bool.not_eq_true', decide_eq_false_iff_not]
  split
  · rfl
  next hloc =>
    split
    · rfl
    next hpast => exact if_pos (by_contra fun hwin => h ⟨not_not.1 hloc, Nat.not_le.1 hpast, hwin⟩)

/-! ### The checks in their order (R227) -/

/-- Where a scalar access is outside the stack that its base names (R125). -/
def OutsideStack (s : State) (a : Reg) (addr : Word) (size : Nat) : Prop :=
  a = 27 ∧ (addr.toNat < s.me.slim.toNat ∨ s.me.sbase.toNat < addr.toNat + size)

section
variable {s : State} {a : Reg} {addr : Word} {size : Nat} {window : Bool}

theorem stackCheck_outside (h : OutsideStack s a addr size) : stackCheck s a addr size = some (.mk' cSTACKFAULT addr) := if_pos h

theorem stackCheck_inside (h : ¬ OutsideStack s a addr size) : stackCheck s a addr size = none := if_neg h

theorem memCheck_form (h : BadForm s.ptlen addr) : memCheck s a addr size window = some (.mk' cADDRFORM addr) := by
  rw [memCheck, formCheck_bad h]
  rfl

theorem memCheck_stack (h : ¬ BadForm s.ptlen addr) (hs : OutsideStack s a addr size) :
    memCheck s a addr size window = some (.mk' cSTACKFAULT addr) := by
  rw [memCheck, formCheck_good h, stackCheck_outside hs]
  rfl

theorem memCheck_misaligned (h : ¬ BadForm s.ptlen addr) (hs : ¬ OutsideStack s a addr size) (hm : addr.toNat % size ≠ 0) :
    memCheck s a addr size window = some (.mk' cMISALIGN addr) := by
  rw [memCheck, formCheck_good h, stackCheck_inside hs, if_pos hm]
  rfl

/-- An access that passes the first three checks goes on to the last. -/
theorem memCheck_aligned (h : ¬ BadForm s.ptlen addr) (hs : ¬ OutsideStack s a addr size) (hm : ¬ addr.toNat % size ≠ 0) :
    memCheck s a addr size window = localCheck s addr size window := by
  rw [memCheck, formCheck_good h, stackCheck_inside hs, if_neg hm]
  rfl

end

/-- Settles O26: the checks of the three instructions are `memCheck`, and they stand first. -/
theorem addressChecks : Obligations.AddressChecks := by
  unfold Obligations.AddressChecks
  intro d a o z t w s addr n view loc badForm badStack badAlign outside traps checks
  have heq : mAddr (s.rdA a) o z = addr := mAddr_eq ..
  have hchecks (store : Bool) (k : State → Out) : checks store (failThen (memCheck s a (mAddr (s.rdA a) o z) (sizeOf_ z) store) s k) := by
    rw [heq]
    refine ⟨fun hf => ?_, fun hf hs => ?_, fun hf hs hm => ?_, fun hf hs hm hl => ?_, fun hf hs hm hl => ⟨?_, heq⟩⟩
    · exact failThen_of_some (memCheck_form hf)
    · exact failThen_of_some (memCheck_stack hf hs)
    · exact failThen_of_some (memCheck_misaligned hf hs hm)
    · exact failThen_of_some ((memCheck_aligned hf hs hm).trans (localCheck_outside hl))
    · exact (memCheck_aligned hf hs hm).trans (localCheck_inside hl)
  refine ⟨fun h => ⟨?_, ?_⟩, fun h => ?_⟩
  · rw [exec_ld, execLd, load, issueThen_clear _ _ _ _ h]
    exact hchecks false _
  · rw [exec_ldu, execLdu, load, issueThen_clear _ _ _ _ h]
    exact hchecks false _
  · rw [exec_st, execSt, issueThen_clear _ _ _ _ h]
    exact hchecks true _

end Sys2Proof.Machine
end

section
/-!
Calls and returns: the stack slot and its checks, and what holds its access.
-/

namespace Sys2Proof.Machine

open Sys2Proof

/-! ### The stack slot (R124) -/

/-- A doubleword within the bounds of the stack. -/
def InStack (s : State) (n : Word) : Prop := s.me.slim.toNat ≤ n.toNat ∧ n.toNat + 8 ≤ s.me.sbase.toNat

/-- What an access to a stack slot waits for is not there. -/
def SlotFree (s : State) (n : Word) (write : Bool) : Prop :=
  s.me.ring.length < 4 ∧ spadBusy s.mine n.toNat 8 write = false ∧ orderHolds s n 8 write = false

section
variable {s : State} {n : Word}

theorem low3_eq_zero_iff (t : Word) : t.extractLsb' 0 3 = 0 ↔ t.toNat % 8 = 0 := by
  rw [← BitVec.toNat_inj, BitVec.extractLsb'_toNat]
  simp

theorem slotCheck_outside (h : ¬ InStack s n) : slotCheck s n = some (.mk' cSTACKFAULT n) := by
  unfold InStack at h
  exact if_pos (by omega)

/-- Within the stack, the alignment and the end of the scratchpad are left to check. -/
theorem slotCheck_inStack (h : InStack s n) :
    slotCheck s n = if n.extractLsb' 0 3 ≠ 0 then some (.mk' cMISALIGN n)
      else if spBytes s.mine.spsize < n.toNat + 8 then some (.mk' cLOCALRANGE n) else none := by
  unfold InStack at h
  exact if_neg (by omega)

theorem slotCheck_misaligned (h : InStack s n) (hm : n.toNat % 8 ≠ 0) : slotCheck s n = some (.mk' cMISALIGN n) :=
  (slotCheck_inStack h).trans (if_pos (mt (low3_eq_zero_iff n).1 hm))

theorem slotCheck_past (h : InStack s n) (hm : n.toNat % 8 = 0) (hp : spBytes s.mine.spsize < n.toNat + 8) :
    slotCheck s n = some (.mk' cLOCALRANGE n) :=
  (slotCheck_inStack h).trans ((if_neg (not_not.2 ((low3_eq_zero_iff n).2 hm))).trans (if_pos hp))

theorem slotCheck_good (h : InStack s n ∧ n.toNat % 8 = 0 ∧ n.toNat + 8 ≤ spBytes s.mine.spsize) : slotCheck s n = none := by
  obtain ⟨hin, hm, hp⟩ := h
  exact (slotCheck_inStack hin).trans ((if_neg (not_not.2 ((low3_eq_zero_iff n).2 hm))).trans (if_neg (Nat.not_lt.2 hp)))

theorem slotHeld_iff {write : Bool} :
    (ringFull s.me ∨ spadBusy s.mine n.toNat 8 write ∨ orderHolds s n 8 write) ↔ ¬ SlotFree s n write := by
  simp only [SlotFree, ringFull, decide_eq_true_eq, not_and_or, Nat.not_lt, Bool.not_eq_false]

/-- The three ways in which the check of a slot fails, as an instruction whose checks it begins meets them. -/
theorem slot_traps {o : Out} {k : State → Out} (ho : o = failThen (slotCheck s n) s k) :
    (¬ InStack s n → o = trap (.mk' cSTACKFAULT n) s) ∧ (InStack s n → n.toNat % 8 ≠ 0 → o = trap (.mk' cMISALIGN n) s) ∧
      (InStack s n → n.toNat % 8 = 0 → spBytes s.mine.spsize < n.toNat + 8 → o = trap (.mk' cLOCALRANGE n) s) :=
  ⟨fun h => ho.trans (failThen_of_some (slotCheck_outside h)), fun h hm => ho.trans (failThen_of_some (slotCheck_misaligned h hm)),
    fun h hm hp => ho.trans (failThen_of_some (slotCheck_past h hm hp))⟩

end

/-! ### The call (R122, R124) -/

theorem callTo_eq (w : BitVec 3) (rs : List Reg) (t : Word) (s : State) :
    let n := s.me.reg 27 - 8
    callTo w rs t s = failThen (slotCheck s n) s (fun s => failThen (s.enter t) s (fun s =>
      if ringFull s.me ∨ spadBusy s.mine n.toNat 8 true ∨ orderHolds s n 8 true then hold s
      else .next (finishAt w rs t (deliver 27 n (s.setMine { s.mine with spad := writeLe s.mine.spad n.toNat 8 (s.me.pc + 4).toNat }))))) := rfl

/-- A call with a good slot: its target absent, its slot held, or the return address stored and control at the target. -/
theorem callTo_good {w : BitVec 3} {rs : List Reg} {t : Word} {s : State}
    (h : InStack s (s.me.reg 27 - 8) ∧ (s.me.reg 27 - 8).toNat % 8 = 0 ∧ (s.me.reg 27 - 8).toNat + 8 ≤ spBytes s.mine.spsize) :
    let n := s.me.reg 27 - 8
    let ok := s.me.fwd.isSome = true ∨ s.mine.isResident t = true
    (s.me.fwd = none ∧ s.mine.isResident t = false →
      callTo w rs t s = trap (.mk' (if s.mine.isFailed t then cXLATE else cCODEABSENT) t) s) ∧
    (ok → ¬ SlotFree s n true → callTo w rs t s = .next (held s)) ∧
    (ok → SlotFree s n true → callTo w rs t s =
      .next (finishAt w rs t (deliver 27 n (s.setMine { s.mine with spad := writeLe s.mine.spad n.toNat 8 (s.me.pc + 4).toNat })))) := by
  intro n ok
  have hcall := (callTo_eq w rs t s).trans (failThen_of_none (slotCheck_good h))
  refine ⟨fun ⟨hw, hr⟩ => hcall.trans (failThen_of_some (enter_absent hw hr)), fun ho hf => ?_, fun ho hf => ?_⟩
  · exact hcall.trans ((failThen_of_none (enter_ok ho)).trans (if_pos (slotHeld_iff.2 hf)))
  · exact hcall.trans ((failThen_of_none (enter_ok ho)).trans (if_neg (fun hh => slotHeld_iff.1 hh hf)))

/-- Settles O24: the checks of the slot, of the target and of what the slot's access waits for, in the order of each instruction. -/
theorem callsAndReturns : Obligations.CallsAndReturns := by
  unfold Obligations.CallsAndReturns
  intro a o w s near far sp ok bad absent inStack good pushed free traps slotTraps
  refine ⟨fun h => ?_, fun h => ?_⟩
  · have hcall : exec (.call o w) s = callTo w [] near s := by
      have hto := (exec_call ..).trans (issueThen_clear [spReg] [spReg] s (fun s => callTo w [] (s.me.pc + sext o * 4) s) h)
      rwa [target_eq _ o (by decide)] at hto
    have hret : exec (.ret w) s = failThen (slotCheck s sp) s (fun s =>
        if ringFull s.me ∨ spadBusy s.mine sp.toNat 8 false ∨ orderHolds s sp 8 false then hold s else
        let t := BitVec.ofNat 64 (readLe s.mine.spad sp.toNat 8)
        failThen (alignCheck t) s (fun s => failThen (s.enter t) s (fun s => .next (finishAt w [] t (deliver 27 (sp + 8) s))))) :=
      (exec_ret ..).trans (issueThen_clear [spReg] [spReg] s _ h)
    refine ⟨slot_traps (hcall.trans (callTo_eq ..)), slot_traps hret, fun hg => ?_, fun hg hf => ?_, fun hg hf => ?_⟩
    · rw [hcall]
      exact callTo_good hg
    · exact hret.trans ((failThen_of_none (slotCheck_good hg)).trans (if_pos (slotHeld_iff.2 hf)))
    · have hback := hret.trans ((failThen_of_none (slotCheck_good hg)).trans (if_neg (fun hh => slotHeld_iff.1 hh hf)))
      refine ⟨fun hm => ?_, fun hm ⟨hw, hr⟩ => ?_, fun hm ho => ?_⟩
      · exact hback.trans (failThen_of_some (alignCheck_misaligned hm))
      · exact hback.trans ((failThen_of_none (alignCheck_aligned hm)).trans (failThen_of_some (enter_absent hw hr)))
      · exact hback.trans ((failThen_of_none (alignCheck_aligned hm)).trans (failThen_of_none (enter_ok ho)))
  · have hcallr : exec (.callr a w) s = failThen (alignCheck far) s (callTo w [a] far) :=
      (exec_callr ..).trans (issueThen_clear [a, spReg] [spReg] s _ h)
    refine ⟨fun hm => hcallr.trans (failThen_of_some (alignCheck_misaligned hm)), fun hm => ?_⟩
    have hto : exec (.callr a w) s = callTo w [a] far s := hcallr.trans (failThen_of_none (alignCheck_aligned hm))
    refine ⟨slot_traps (hto.trans (callTo_eq ..)), fun hg => ?_⟩
    rw [hto]
    exact callTo_good hg

end Sys2Proof.Machine
end

section
/-!
The vector miss: where trap entry goes to code that is not resident, the partition stops.
-/

namespace Sys2Proof.Machine

open Sys2Proof

/-! ### What results that become visible leave of the cores (R95, R147) -/

/-- From `s` to `t` cores have changed in their contexts and their counts of words sent alone. -/
def CtxsSent (s t : State) : Prop := ∀ n, { t.core n with ctxs := (s.core n).ctxs, sent := (s.core n).sent } = s.core n

section
variable {o s t : State} {c : CtxId} {e : Inflight}

theorem CtxsSent.refl (s : State) : CtxsSent s s := fun _ => rfl

theorem CtxsSent.setCore {n : Nat} {k : Core} (h : CtxsSent o s) (hk : { k with ctxs := (s.core n).ctxs, sent := (s.core n).sent } = s.core n) :
    CtxsSent o (s.setCore n k) := fun m => by
  by_cases hm : m = n
  · subst hm
    rw [State.core_setCore, ← h m, ← hk]
  · rw [State.core_setCore_ne _ _ _ _ hm, h m]

theorem CtxsSent.setCtx {x : Ctx} (h : CtxsSent o s) : CtxsSent o (s.setCtx c x) := h.setCore rfl

theorem CtxsSent.sendWord {q : Nat} {v : Word} {k : Option Word} (h : CtxsSent o s) : CtxsSent o (sendWord s c q v k) := by
  have h1 : CtxsSent o { s with nextId := s.nextId + 1 } := h
  unfold Machine.sendWord
  exact CtxsSent.setCtx (CtxsSent.setCore h1 rfl)

theorem CtxsSent.writeResult {r : Reg} {v : Word} {g : BitVec 8} {k : Option Word} (h : CtxsSent o s) : CtxsSent o (writeResult s c r v g k) :=
  ite_keeps h.setCtx.sendWord h.setCtx.setCtx

theorem CtxsSent.showFixed (h : CtxsSent o s) : CtxsSent o (showFixed c e s) :=
  ite_keeps h.setCtx.writeResult (ite_keeps h.setCtx.writeResult h.setCtx.writeResult.setCtx)

theorem CtxsSent.settleFixed (n : Nat) (h : CtxsSent o s) : CtxsSent o (settleFixed c n s) := by
  induction n generalizing s with
  | zero => exact h
  | succ n ih =>
    unfold Machine.settleFixed
    split
    · exact h
    · exact ih h.showFixed

theorem CtxsSent.settleAll : CtxsSent s (settleAll s c) := CtxsSent.settleFixed _ (CtxsSent.setCtx (CtxsSent.refl s))

theorem CtxsSent.isResident (h : CtxsSent s t) (n : Nat) (va : Word) : (t.core n).isResident va = (s.core n).isResident va := by
  have := congrArg (Core.isResident · va) (h n)
  exact this

end

theorem isResident_iff (k : Core) (va : Word) : k.isResident va = true ↔ ∃ seq, k.slot (slotOf va) = .resident (segOf va) seq := by
  unfold Core.isResident
  split
  next seg seq h => simp [h]
  next h => simpa using fun seq => h _ seq

/-! ### What a context that leaves its stream leaves of the clusters (R268) -/

/-- The cause of a stop and the core that it names stay in every cluster from `s` to `t`. -/
def StopKept (s t : State) : Prop := ∀ r, (t.cluster r).cause = (s.cluster r).cause

section
variable {o s : State} {n : Nat}

theorem StopKept.forward {e : FwdEntry} (h : StopKept o s) : StopKept o (forward e s n) := h

theorem StopKept.markDetached (h : StopKept o s) : StopKept o (markDetached n s) := fun r => by
  rw [← h r]
  unfold Machine.markDetached mapTroupe
  by_cases hr : r = rankOf n
  · rw [hr, State.cluster_setCluster]
  · rw [State.cluster_setCluster_ne _ _ _ _ hr]

theorem StopKept.endStream {pc : Word} {frame : Option Frame} {mark : Bool} (h : StopKept o s) : StopKept o (endStream pc frame mark s) :=
  ite_keeps (foldl_keeps h fun _ _ h1 => ite_keeps h1.forward.markDetached h1.forward) h

theorem StopKept.detach (h : StopKept o s) : StopKept o (detach n s) := h.markDetached

end

/-! ### The stop of a partition in its clusters (R386) -/

theorem AtHome.clusters {o s : State} (h : AtHome o s) : s.clusters = o.clusters := by
  have := congrArg State.clusters h.state
  exact this

theorem AtHome.parts {o s : State} (h : AtHome o s) : s.parts = o.parts := by
  have := congrArg State.parts h.state
  exact this

/-- The part of a stop that reaches the i-th cluster of a partition from rank `base` on. -/
def discloseCluster (p base : Nat) (s : State) (i : Nat) : State :=
  (List.range 16).foldl (fun s j => discloseCore p s (16 * (base + i) + j))
    (s.setCluster (base + i) { s.cluster (base + i) with cause := 4 })

theorem discloseCluster_clusters (p base : Nat) (s : State) (i : Nat) :
    (discloseCluster p base s i).clusters = (s.setCluster (base + i) { s.cluster (base + i) with cause := 4 }).clusters :=
  AtHome.clusters (foldl_keeps (AtHome.refl _) fun _ _ h => h.discloseCore)

/-- After the first n clusters, each of them reads the cause of the curtain stop. -/
theorem discloseClusters_cluster (p base n : Nat) (s : State) {r : Nat} (hb : base ≤ r) (hn : r < base + n) :
    ((List.range n).foldl (discloseCluster p base) s).cluster r = { s.cluster r with cause := 4 } := by
  have hone (t : State) (i : Nat) :
      (discloseCluster p base t i).cluster r = (t.setCluster (base + i) { t.cluster (base + i) with cause := 4 }).cluster r :=
    congrArg (tget · r Cluster.reset) (discloseCluster_clusters p base t i)
  have hpast (m : Nat) (hm : base + m ≤ r) : ((List.range m).foldl (discloseCluster p base) s).cluster r = s.cluster r := by
    induction m with
    | zero => rfl
    | succ m ih =>
      rw [List.range_succ, List.foldl_append, List.foldl_cons, List.foldl_nil, hone, State.cluster_setCluster_ne _ _ _ _ (by omega)]
      exact ih (by omega)
  induction n with
  | zero => omega
  | succ n ih =>
    rw [List.range_succ, List.foldl_append, List.foldl_cons, List.foldl_nil, hone]
    by_cases hr : r = base + n
    · subst hr
      rw [State.cluster_setCluster, hpast n (le_refl _)]
    · rw [State.cluster_setCluster_ne _ _ _ _ hr, ih (by omega)]

theorem lt_of_part_state {s : State} {p : Nat} (h : (s.part p).state = 1) : p < 64 := by
  by_contra hp
  have : s.part p = Part.reset := by simp [State.part, hp]
  rw [this] at h
  exact absurd h (by decide)

/-- A partition that runs, stopped: HALTED with its reason, and the cause in each of its clusters. -/
theorem curtainStop_effect {p : Nat} {reason : BitVec 2} {s : State} (h : (s.part p).state = 1) :
    ((curtainStop p reason s).part p).state = 5 ∧ ((curtainStop p reason s).part p).reason = reason ∧
      ∀ r, (s.part p).owns r = true → (curtainStop p reason s).cluster r = { s.cluster r with cause := 4 } := by
  have hpart : (curtainStop p reason s).part p = { s.part p with state := 5, reason := reason } := by
    rw [State.part, (curtainStop_running h).parts]
    exact State.part_setPart s p _ (lt_of_part_state h)
  refine ⟨by rw [hpart], by rw [hpart], fun r hr => ?_⟩
  simp only [Part.owns, Bool.and_eq_true, decide_eq_true_eq] at hr
  rw [curtainStop_of_running h, State.cluster, ((AtHome.refl _).ownWrite).clusters]
  exact discloseClusters_cluster p _ _ (stopping p reason s) hr.1.2 hr.2

/-! ### Trap entry and the vector (R148) -/

/-- Where a trap goes is not changed by the results that become visible before it. -/
theorem settleAll_vector {s : State} (hc : s.cur.ctx < 11) (cause : BitVec 6) :
    let u := settleAll s s.cur
    trapVector u.myPart u.me (trapLevel u.me.priv cause) cause = trapVector s.myPart s.me (trapLevel s.me.priv cause) cause := by
  intro u
  have hme : u.me = u.ctx s.cur := by rw [State.me, settleAll_cur]
  have hs : Shown s.me u.me := hme ▸ settleAll_shown hc s
  rw [settleAll_myPart, hs.keeps Ctx.priv rfl]
  simp only [trapVector, hs.keeps Ctx.tvec rfl]

theorem settleAll_isResident (s : State) (va : Word) : (settleAll s s.cur).mine.isResident va = s.mine.isResident va := by
  rw [State.mine, settleAll_cur]
  exact CtxsSent.settleAll.isResident _ _

/-- A trap's context may issue again where the vector is resident. -/
theorem takeTrap_missed {s : State} (t : Trap) (tpc : Word) (hc : s.cur.ctx < 11) :
    (takeTrap t tpc s).me.missed = !s.mine.isResident (trapVector s.myPart s.me (trapLevel s.me.priv t.cause) t.cause) := by
  rw [takeTrap_me t tpc hc, ← settleAll_vector hc, ← settleAll_isResident]
  rfl

/-- Trap entry, past what it writes in its context, stops the partition where its vector is not resident. -/
theorem takeTrap_stops (t : Trap) (tpc : Word) (s : State) :
    let vec := trapVector s.myPart s.me (trapLevel s.me.priv t.cause) t.cause
    let rank := rankOf s.cur.core
    s.cur.ctx < 11 → ∃ v : State, v.parts = s.parts ∧ StopKept s v ∧
      takeTrap t tpc s = if s.mine.isResident vec then v
        else curtainStop s.myPartNo 0 (v.setCluster rank { v.cluster rank with dcore := BitVec.ofNat 4 (s.cur.core % 16) }) := by
  intro vec rank hc
  have hkept : StopKept s (settleAll s s.cur) := fun r => by rw [State.cluster, settleAll_clusters]; rfl
  unfold takeTrap
  extract_lets u x level vec' resident u1 u2 y u3 u4 cl
  have hresident : resident = s.mine.isResident vec := (congrArg _ (settleAll_vector hc t.cause)).trans (settleAll_isResident s vec)
  have h1 : StreamLeft u u1 := StreamLeft.endStream ⟨rfl, fun _ => rfl⟩
  have h2 : StreamLeft u u2 := ite_keeps h1.detach h1
  have k1 : StopKept s u1 := StopKept.endStream hkept
  have k2 : StopKept s u2 := ite_keeps k1.detach k1
  have hcur : u4.cur = s.cur := (h2.keeps State.cur rfl).trans (settleAll_cur s s.cur)
  have hparts : u4.parts = s.parts := (h2.keeps State.parts rfl).trans (settleAll_parts s s.cur)
  have hno : u4.myPartNo = s.myPartNo := by
    rw [State.myPartNo, hcur, State.partOfRank]
    simp only [State.part, hparts]
    rfl
  refine ⟨u4, hparts, k2, ?_⟩
  rw [hresident, hno]
  simp only [cl, hcur, rank]

/-- Settles O7: trap entry itself is `takeTrap_me`, and then the partition stops or goes on. -/
theorem vectorMissStopsThePartition : Obligations.VectorMissStopsThePartition := by
  unfold Obligations.VectorMissStopsThePartition
  intro t tpc s hc hrun howns level vec u
  obtain ⟨⟨htpc, htcause, htval, hfpc, -, hrptst, hsprv, hpriv, hpc, -⟩, -⟩ := trapEntry t tpc s hc
  obtain ⟨v, hparts, hkept, hu⟩ := takeTrap_stops t tpc s hc
  have hlevel : level = if t.cause = cHCALLTRAP ∨ t.cause = cSCOPECAP then 2 else if s.me.priv.toNat ≤ 1 then 1 else 2 := rfl
  have hpc' : u.me.pc = vec := hpc
  have hmissed : u.me.missed = !s.mine.isResident vec := takeTrap_missed t tpc hc
  refine ⟨fun hmiss => ?_, fun hhit => ?_⟩
  · have hres : s.mine.isResident vec = false := by
      rw [← Bool.not_eq_true, isResident_iff]
      exact fun ⟨seq, h⟩ => hmiss seq h
    rw [if_neg (by rw [hres]; exact Bool.false_ne_true)] at hu
    have hpart : v.part s.myPartNo = s.myPart := by rw [State.part, hparts]; rfl
    obtain ⟨hstate, hreason, hcl⟩ := curtainStop_effect (p := s.myPartNo) (reason := 0)
      (s := v.setCluster (rankOf s.cur.core) { v.cluster (rankOf s.cur.core) with dcore := BitVec.ofNat 4 (s.cur.core % 16) })
      (by rw [State.part_setCluster, hpart, hrun])
    rw [← hu] at hstate hreason hcl
    have hmine := hcl (rankOf s.cur.core) (by rw [State.part_setCluster, hpart, howns])
    rw [State.cluster_setCluster] at hmine
    refine ⟨htpc, htcause, htval, hfpc, hrptst, hpriv, hsprv, hpc', fun w hw => ?_, by rw [hmissed, hres]; rfl, hstate, hreason,
      by rw [hmine], by rw [hmine]⟩
    simp [canIssue, hw]
  · have hres : s.mine.isResident vec = true := (isResident_iff _ _).2 hhit
    rw [if_pos hres] at hu
    exact ⟨by rw [hmissed, hres]; rfl, hpc', (congrArg State.parts hu).trans hparts,
      (congrArg (fun x => (x.cluster (rankOf s.cur.core)).cause) hu).trans (hkept _)⟩

end Sys2Proof.Machine
end

section
/-!
What vector instructions leave unchanged when they issue.
-/

namespace Sys2Proof.Machine

open Sys2Proof

/-! ### The end of an instruction and a hold, in the executing context (R44, R101, R134) -/

/-- The end of an instruction leaves in its context all but where it goes on and when. -/
theorem finish_me_rest (w : BitVec 3) (rs : List Reg) {s : State} (hc : s.cur.ctx < 11) :
    { (finish w rs s).me with
      pc := s.me.pc, frame := s.me.frame, icount := s.me.icount, nextIssue := s.me.nextIssue, fwd := s.me.fwd, wait := s.me.wait
      enter := s.me.enter, yieldTo := s.me.yieldTo } = s.me := by
  rw [finish_me w rs s hc]
  unfold Ctx.advance
  split
  · rfl
  · split <;> rfl

theorem me_mapYield {s : State} (hc : s.cur.ctx < 11) (f : Ctx → List Nat) :
    (s.setMine { s.mine with ctxs := s.mine.ctxs.map (fun x => { x with yieldTo := f x }) }).me = { s.me with yieldTo := f s.me } := by
  have hs : s.me = s.mine.ctx s.cur.ctx := rfl
  change ((s.setCore s.cur.core _).core s.cur.core).ctx s.cur.ctx = _
  rw [State.core_setCore, hs]
  simp [Core.ctx, hc]

/-- The state in which contexts wait no longer for one that is held. -/
def unyielded (s : State) : State :=
  s.setMine { s.mine with ctxs := s.mine.ctxs.map (fun x => { x with yieldTo := x.yieldTo.filter (fun i => i != s.cur.ctx) }) }

theorem held_me {s : State} (hc : s.cur.ctx < 11) :
    (held s).me = { (unyielded s).me with wait := if (unyielded s).me.wait = .none then .held else (unyielded s).me.wait } :=
  State.me_setMe (unyielded s) _ hc

theorem held_me_rest {s : State} (hc : s.cur.ctx < 11) : { (held s).me with wait := s.me.wait, yieldTo := s.me.yieldTo } = s.me := by
  rw [held_me hc, unyielded, me_mapYield hc]

/-! ### Translation when an instruction issues (R310) -/

/-- From `s` to `t` only entries of translation caches have come in. -/
def OnlyTlb (s t : State) : Prop := { t with clusters := s.clusters } = s

theorem OnlyTlb.refl (s : State) : OnlyTlb s s := rfl

theorem OnlyTlb.trans {s t u : State} (h : OnlyTlb s t) (g : OnlyTlb t u) : OnlyTlb s u := by
  unfold OnlyTlb at *
  rw [← h, ← g]

theorem OnlyTlb.resolve (s : State) (x : Xctx) (va : Word) (size : Nat) (n : Need) : OnlyTlb s (resolve s x va size n).1 := by
  unfold Machine.resolve
  split
  · split <;> rfl
  · split <;> rfl

theorem OnlyTlb.of_resolve {s t : State} {x : Xctx} {va : Word} {size : Nat} {n : Need} {r : Except XlErr Loc}
    (h : Machine.resolve s x va size n = (t, r)) : OnlyTlb s t := by
  have := OnlyTlb.resolve s x va size n
  rwa [h] at this

theorem OnlyTlb.viewAll {size : Nat} {need : Need} {l : List (Nat × Word)} {s t : State} {e : Option Trap} (h : viewAll size need l s = (e, t)) :
    OnlyTlb s t := by
  induction l generalizing s with
  | nil =>
    cases h
    rfl
  | cons p l ih =>
    unfold Machine.viewAll at h
    split at h
    · exact ih h
    · split at h
      next u hu =>
        cases h
        exact OnlyTlb.of_resolve hu
      next u r _ hu => exact (OnlyTlb.of_resolve hu).trans (ih h)

/-- Where every address has a place, nothing but translation has happened. -/
theorem OnlyTlb.placeEach {size : Nat} {need : Need} {l : List (Nat × Word)} {s t : State} {places : List (Nat × Word × Loc)}
    (h : placeEach size need l s = (.inr places, t)) : OnlyTlb s t := by
  induction l generalizing s places with
  | nil =>
    cases h
    rfl
  | cons p l ih =>
    unfold Machine.placeEach at h
    dsimp only at h
    split at h
    · cases h
    next loc u hr =>
      have hu : OnlyTlb s u := by
        split at hr
        · cases hr
          rfl
        · split at hr
          · cases hr
          · cases hr
          next v loc' hv =>
            split at hr
            · cases hr
            · cases hr
              exact OnlyTlb.of_resolve hv
      split at h
      · cases h
      next rest v hv =>
        cases h
        exact hu.trans (ih hv)

theorem OnlyTlb.placeAll {size : Nat} {need : Need} {l : List (Nat × Word)} {s t : State} {places : List (Nat × Word × Loc)}
    (h : placeAll size need l s = (.inr places, t)) : OnlyTlb s t := by
  unfold Machine.placeAll at h
  split at h
  · cases h
  next u hu => exact (OnlyTlb.viewAll hu).trans (OnlyTlb.placeEach h)

/-! ### States that differ by a vector instruction (R149, R163, R166, R169) -/

/-- From `s` to `t` the executing context has issued a vector instruction, which may have written the line pointer `d`. -/
structure VecStep (d : Option Reg) (s t : State) : Prop where
  state : { t with cores := s.cores, clusters := s.clusters, note := s.note, nextId := s.nextId, freeCtr := s.freeCtr } = s
  core (n : Nat) : n ≠ s.cur.core → t.core n = s.core n
  mine : { t.mine with
    ctxs := s.mine.ctxs, nextIssue := s.mine.nextIssue, rr := s.mine.rr, issueSeq := s.mine.issueSeq, ports := s.mine.ports
    msgrecv := s.mine.msgrecv, recv := s.mine.recv, sent := s.mine.sent, bankslip := s.mine.bankslip, lanes := s.mine.lanes, cntLane := s.mine.cntLane } = s.mine
  me : { t.me with
    pc := s.me.pc, frame := s.me.frame, icount := s.me.icount, nextIssue := s.me.nextIssue, fwd := s.me.fwd, wait := s.me.wait
    enter := s.me.enter, yieldTo := s.me.yieldTo, inflight := s.me.inflight, vq := s.me.vq, p := s.me.p } = s.me
  ptr (r : Reg) : some r ≠ d → t.me.p[r.toNat]? = s.me.p[r.toNat]?

section
variable {d : Option Reg} {s t u : State}

theorem VecStep.refl (s : State) : VecStep d s s := ⟨rfl, fun _ _ => rfl, rfl, rfl, fun _ _ => rfl⟩

theorem VecStep.cur (h : VecStep d s t) : t.cur = s.cur := by
  have := congrArg State.cur h.state
  exact this

theorem VecStep.trans (h : VecStep d s t) (g : VecStep d t u) : VecStep d s u where
  state := by rw [← h.state, ← g.state]
  core n hn := (g.core n (by rwa [h.cur])).trans (h.core n hn)
  mine := by rw [← h.mine, ← g.mine]
  me := by rw [← h.me, ← g.me]
  ptr r hr := (g.ptr r hr).trans (h.ptr r hr)

theorem OnlyTlb.mine (h : OnlyTlb s t) : t.mine = s.mine := by
  have := congrArg State.mine h
  exact this

theorem OnlyTlb.me (h : OnlyTlb s t) : t.me = s.me := by
  have := congrArg State.me h
  exact this

theorem OnlyTlb.core (h : OnlyTlb s t) (n : Nat) : t.core n = s.core n := by
  have := congrArg (State.core · n) h
  exact this

theorem OnlyTlb.cur (h : OnlyTlb s t) : t.cur = s.cur := by
  have := congrArg State.cur h
  exact this

theorem VecStep.onlyTlb (h : OnlyTlb s t) : VecStep d s t where
  state := congrArg (fun v : State => { v with
    cores := s.cores, clusters := s.clusters, note := s.note, nextId := s.nextId, freeCtr := s.freeCtr }) h
  core n _ := h.core n
  mine := by rw [h.mine]
  me := by rw [h.me]
  ptr r _ := by rw [h.me]

/-- The end of an instruction and a hold are scalar steps that leave every register. -/
theorem VecStep.of_scalar (h : ScalarStep 0 s t)
    (hm : { t.me with
      pc := s.me.pc, frame := s.me.frame, icount := s.me.icount, nextIssue := s.me.nextIssue, fwd := s.me.fwd, wait := s.me.wait
      enter := s.me.enter, yieldTo := s.me.yieldTo, inflight := s.me.inflight } = s.me) : VecStep d s t where
  state := by rw [← h.state]
  core := h.core
  mine := by
    rw [State.mine, h.cur, ← h.mine]
  me := by
    rw [← hm]
  ptr r _ := by
    rw [← hm]

theorem VecStep.finish {w : BitVec 3} {rs : List Reg} (hc : s.cur.ctx < 11) (h : VecStep d s t) : VecStep d s (finish w rs t) := by
  have hct : t.cur.ctx < 11 := by rwa [h.cur]
  exact h.trans (VecStep.of_scalar (ScalarStep.finish hct (ScalarStep.refl t)) (by rw [← finish_me_rest w rs hct]))

theorem VecStep.held (hc : s.cur.ctx < 11) : VecStep d s (held s) :=
  VecStep.of_scalar (ScalarStep.held hc) (by rw [← held_me_rest hc])

theorem VecStep.setMe {x : Ctx} (hc : s.cur.ctx < 11)
    (hx : { x with inflight := s.me.inflight, vq := s.me.vq, p := s.me.p } = s.me) (hp : ∀ r : Reg, some r ≠ d → x.p[r.toNat]? = s.me.p[r.toNat]?) :
    VecStep d s (s.setMe x) where
  state := rfl
  core n hn := State.core_setMe_ne s x n hn
  mine := by
    rw [State.mine_setMe]
    rfl
  me := by
    rw [State.me_setMe _ _ hc, ← hx]
  ptr r hr := by
    rw [State.me_setMe _ _ hc]
    exact hp r hr

theorem VecStep.produce {l : Nat} {r : Reg} {v : Word} {g : BitVec 8} (hc : s.cur.ctx < 11) : VecStep d s (produce l r v g s) :=
  ite_keeps (VecStep.refl s) (VecStep.setMe hc rfl fun _ _ => rfl)

theorem VecStep.setMine {k : Core} (hk : { k with bankslip := s.mine.bankslip, lanes := s.mine.lanes, cntLane := s.mine.cntLane } = s.mine) :
    VecStep d s (s.setMine k) := by
  have hme : (s.setMine k).me = s.me := State.me_setMine_of_ctxs (by rw [← hk])
  refine ⟨rfl, fun n hn => State.core_setMine_ne _ _ _ hn, ?_, by rw [hme], fun r _ => by rw [hme]⟩
  rw [State.mine_setMine, ← hk]

theorem VecStep.countSlip {v : VLines} : VecStep d s (countSlip v s) := ite_keeps (VecStep.setMine rfl) (VecStep.refl s)

theorem VecStep.takeLane {n cycle frames : Nat} : VecStep d s (s.setMine (takeLane n cycle frames s.mine)) := VecStep.setMine rfl

theorem VecStep.freeCtr {n : Nat} (h : VecStep d s t) : VecStep d s { t with freeCtr := n } := ⟨h.state, h.core, h.mine, h.me, h.ptr⟩

theorem VecStep.nextId {n : Nat} (h : VecStep d s t) : VecStep d s { t with nextId := n } := ⟨h.state, h.core, h.mine, h.me, h.ptr⟩

theorem VecStep.laneTaken {v : VLines} {n draws : Nat} : VecStep d s (laneTaken v n draws s) :=
  (VecStep.countSlip.trans VecStep.takeLane).freeCtr

theorem VecStep.enqueue {q : List VEntry} (hc : s.cur.ctx < 11) : VecStep d s (s.setMe { s.me with vq := q }) :=
  VecStep.setMe hc rfl fun _ _ => rfl

theorem VecStep.pushVec {i : Instr} {v : VLines} {ga gb : Word} {passes : Nat} {el : List (Nat × Word × Loc)} {size : Nat} {rd wr : List Nat}
    (hc : s.cur.ctx < 11) : VecStep d s (pushVec i v ga gb passes el size rd wr s) := by
  have h : VecStep d s { Machine.countSlip v s with nextId := s.nextId + 1 } := VecStep.countSlip.nextId
  exact h.trans (VecStep.enqueue (by rwa [h.cur]))

theorem VecStep.setPtr {r : Reg} {v : BitVec 16} (hc : s.cur.ctx < 11) : VecStep (some r) s (setPtr r v s) :=
  VecStep.setMe hc rfl fun q hq => by
    have : r.toNat ≠ q.toNat := fun h => hq (congrArg some (BitVec.eq_of_toNat_eq h.symm))
    simp [this]

end

/-! ### Outcomes of vector instructions -/

/-- An outcome that, unless it is a trap, is a step from `s` by a vector instruction. -/
def Vectored (d : Option Reg) (s : State) (o : Out) : Prop := Untrapped (VecStep d s) o

section
variable {d : Option Reg} {a b r : Reg} {w : BitVec 3} {v : VLines} {s t : State} {i j : Instr}

theorem Vectored.hold (hc : s.cur.ctx < 11) : Vectored d s (hold s) := Untrapped.next (VecStep.held hc)

theorem Vectored.holdThen {p : Bool} {k : State → Out} (hc : s.cur.ctx < 11) (h : Vectored d s (k s)) : Vectored d s (holdThen p s k) :=
  ite_keeps (Vectored.hold hc) h

theorem Vectored.issueThen {rs ds : List Reg} {k : State → Out} (hc : s.cur.ctx < 11) (h : Vectored d s (k s)) :
    Vectored d s (issueThen rs ds s k) :=
  Untrapped.issueThen (VecStep.held hc) h

theorem Vectored.failThen {e : Option Trap} {k : State → Out} (h : Vectored d s (k s)) : Vectored d s (failThen e s k) := Untrapped.failThen h

theorem Vectored.finish {rs : List Reg} (hc : s.cur.ctx < 11) (h : VecStep d s t) : Vectored d s (.next (finish w rs t)) :=
  Untrapped.next (VecStep.finish hc h)

/-- What is so from a state on is so from a state that differs by translation alone. -/
theorem Vectored.after {o : Out} (h : OnlyTlb s t) (g : Vectored d t o) : Vectored d s o :=
  fun u hu hn => (VecStep.onlyTlb h).trans (g u hu hn)

/-! The shared forms. -/

theorem Vectored.vec {ga gb : Option Reg} {passes : Nat} (hc : s.cur.ctx < 11) : Vectored d s (vec i v ga gb passes w s) := by
  unfold Machine.vec
  exact Vectored.holdThen hc (Vectored.issueThen hc (Vectored.failThen (Vectored.finish hc (VecStep.pushVec hc))))

theorem Vectored.vecGWith {draws : Nat} {gb : Option Reg} {f : State → Word → Word × BitVec 8} (hc : s.cur.ctx < 11) :
    Vectored d s (vecGWith draws v gb r f w s) := by
  unfold Machine.vecGWith
  split
  · exact Vectored.hold hc
  next n hn =>
    have h := VecStep.laneTaken (d := d) (s := s) (v := v) (n := n) (draws := draws)
    have hl : (laneTaken v n draws s).cur.ctx < 11 := by rwa [h.cur]
    exact Vectored.holdThen hc (Vectored.issueThen hc (Vectored.failThen (Untrapped.destThen (Vectored.finish hc (h.trans (VecStep.produce hl))))))

theorem Vectored.vmem {store : Bool} {rs : List Reg} {ga gb : Word} {size passes : Nat} {parts : List (Nat × Word × Loc)} (hc : s.cur.ctx < 11) :
    Vectored d s (vmem i v store rs ga gb size passes parts w s) :=
  ite_keeps (Vectored.hold hc) (Vectored.finish hc (VecStep.pushVec hc))

/-- What follows on places that have been found. -/
theorem Vectored.placed {size : Nat} {need : Need} {l : List (Nat × Word)} {k : List (Nat × Word × Loc) → State → Out} (hc : s.cur.ctx < 11)
    (h : ∀ places t, t.cur.ctx < 11 → Vectored d t (k places t)) :
    Vectored d s (match placeAll size need l s with
      | (.inl e, t) => trap e t
      | (.inr places, t) => k places t) := by
  split
  · exact Untrapped.trap _ _
  next places t ht =>
    have ho := OnlyTlb.placeAll ht
    exact Vectored.after ho (h places t (by rwa [ho.cur]))

theorem Vectored.vline {store : Bool} (hc : s.cur.ctx < 11) : Vectored d s (vline i store a b w s) := by
  unfold Machine.vline
  exact Vectored.holdThen hc (Vectored.issueThen hc (Vectored.failThen (Vectored.failThen (ite_keeps
    (Vectored.placed hc fun _ _ ht => Vectored.vmem ht) (Vectored.placed hc fun _ _ ht => Vectored.vmem ht)))))

theorem Vectored.velems {store : Bool} {rs : List Reg} {ty : BitVec 3} {gb : State → Word} {addr : State → Nat → Word} (hc : s.cur.ctx < 11) :
    Vectored d s (velems i v store a rs ty gb addr w s) := by
  unfold Machine.velems
  exact Vectored.holdThen hc (Vectored.issueThen hc (Vectored.failThen (Vectored.failThen (Vectored.placed hc fun _ _ ht => Vectored.vmem ht))))

/-! The same, of the instruction that has the form. -/

theorem Vectored.lines {ga gb : Option Reg} {passes : Nat} (hc : s.cur.ctx < 11) (h : exec j s = Machine.vec i v ga gb passes w s) :
    Vectored d s (exec j s) := h ▸ Vectored.vec hc

theorem Vectored.lines3 (hc : s.cur.ctx < 11) (h : exec j s = vec3 i a b r w s) : Vectored d s (exec j s) := h ▸ Vectored.vec hc

theorem Vectored.lines2 (hc : s.cur.ctx < 11) (h : exec j s = vec2 i a b w s) : Vectored d s (exec j s) := h ▸ Vectored.vec hc

theorem Vectored.toReg {gb : Option Reg} {f : State → Word → Word × BitVec 8} (hc : s.cur.ctx < 11)
    (h : exec j s = vecG v gb r f w s) : Vectored d s (exec j s) := h ▸ Vectored.vecGWith hc

theorem Vectored.vramax {ty : BitVec 3} (hc : s.cur.ctx < 11) : Vectored d s (exec (.vramax r a ty w) s) :=
  exec_vramax .. ▸ Vectored.vecGWith hc

theorem Vectored.line {store : Bool} (hc : s.cur.ctx < 11) (h : exec j s = Machine.vline i store a b w s) : Vectored d s (exec j s) :=
  h ▸ Vectored.vline hc

theorem Vectored.elems {store : Bool} {rs : List Reg} {ty : BitVec 3} {gb : State → Word} {addr : State → Nat → Word} (hc : s.cur.ctx < 11)
    (h : exec j s = Machine.velems i v store a rs ty gb addr w s) : Vectored d s (exec j s) := h ▸ Vectored.velems hc

theorem Vectored.vdot4 {ty : BitVec 3} (hc : s.cur.ctx < 11) : Vectored d s (exec (.vdot4 a b r ty w) s) :=
  exec_vdot4 .. ▸ ite_keeps (Vectored.vec hc) (Vectored.vec hc)

theorem Vectored.vcvt {ty : BitVec 3} (hc : s.cur.ctx < 11) : Vectored d s (exec (.vcvt a b r ty w) s) :=
  exec_vcvt .. ▸ ite_keeps (Vectored.vec hc) (Vectored.vec hc)

theorem Vectored.ptr {rs : List Reg} {v : BitVec 16} (hc : s.cur.ctx < 11) : Vectored (some a) s (.next (Machine.finish w rs (setPtr a v s))) :=
  Vectored.finish hc (VecStep.setPtr hc)

end

section
variable {d : Option Reg} {s u : State}

/-- A field of the state that the steps leave. -/
theorem VecStep.keeps {α : Type} (h : VecStep d s u) (f : State → α)
    (hf : f { u with cores := s.cores, clusters := s.clusters, note := s.note, nextId := s.nextId, freeCtr := s.freeCtr } = f u) : f u = f s := by
  rw [← hf, h.state]

/-- A field of the core that it leaves. -/
theorem VecStep.keepsMine {α : Type} (h : VecStep d s u) (f : Core → α)
    (hf : f { u.mine with
      ctxs := s.mine.ctxs, nextIssue := s.mine.nextIssue, rr := s.mine.rr, issueSeq := s.mine.issueSeq, ports := s.mine.ports
      msgrecv := s.mine.msgrecv, recv := s.mine.recv, sent := s.mine.sent, bankslip := s.mine.bankslip, lanes := s.mine.lanes
      cntLane := s.mine.cntLane } = f u.mine) : f u.mine = f s.mine := by
  rw [← hf, h.mine]

/-- A field of the context that it leaves. -/
theorem VecStep.keepsMe {α : Type} (h : VecStep d s u) (f : Ctx → α)
    (hf : f { u.me with
      pc := s.me.pc, frame := s.me.frame, icount := s.me.icount, nextIssue := s.me.nextIssue, fwd := s.me.fwd, wait := s.me.wait
      enter := s.me.enter, yieldTo := s.me.yieldTo, inflight := s.me.inflight, vq := s.me.vq, p := s.me.p } = f u.me) : f u.me = f s.me := by
  rw [← hf, h.me]

/-- Without a pointer that it writes, a step leaves all of them. -/
theorem VecStep.ptrs (h : VecStep none s u) : u.me.p = s.me.p := by
  refine Vector.ext fun i hi => ?_
  have := h.ptr (BitVec.ofNat 5 i) (by simp)
  rwa [BitVec.toNat_ofNat, Nat.mod_eq_of_lt (by omega), Vector.getElem?_eq_getElem hi, Vector.getElem?_eq_getElem hi, Option.some_inj] at this

end

/-- Settles O45: each instruction is of one of the shared forms. -/
theorem vectorFrame : Obligations.VectorFrame := by
  unfold Obligations.VectorFrame
  intro d a b i t w s u hc keeps
  have hkept {r : Option Reg} (h : VecStep r s u) : keeps :=
    ⟨fun x => congrArg (getByte · x) (h.keeps State.mem rfl), fun x => congrArg (getByte · x) (h.keepsMine Core.spad rfl),
      h.keepsMine Core.imem rfl, h.keepsMine Core.accs rfl, h.keepsMe Ctx.g rfl, h.keepsMe Ctx.poison rfl, h.keepsMe Ctx.m rfl,
      h.keepsMe Ctx.fflags rfl, h.keepsMe Ctx.frm rfl, h.keepsMe Ctx.tpc rfl, h.keepsMe Ctx.priv rfl, h.keeps State.parts rfl,
      h.keeps State.reqs rfl, h.core⟩
  have lift {js : List Instr} (h : ∀ j ∈ js, Vectored none s (exec j s)) :
      ∀ j ∈ js, exec j s = .next u → u.note ≠ .trapped → keeps ∧ u.me.p = s.me.p :=
    fun j hj hu hn => ⟨hkept (h j hj u hu hn), (h j hj u hu hn).ptrs⟩
  have point {js : List Instr} (h : ∀ j ∈ js, Vectored (some d) s (exec j s)) :
      ∀ j ∈ js, exec j s = .next u → u.note ≠ .trapped → keeps ∧ ∀ r : Reg, r ≠ d → u.me.p[r.toNat]? = s.me.p[r.toNat]? :=
    fun j hj hu hn => ⟨hkept (h j hj u hu hn), fun r hr => (h j hj u hu hn).ptr r (mt Option.some_inj.1 hr)⟩
  refine ⟨lift ?_, point ?_, fun hu hn => ?_⟩
  · simp only [List.forall_mem_cons]
    exact ⟨Vectored.line hc (exec_vld ..), Vectored.line hc (exec_vst ..), Vectored.elems hc (exec_vlds ..), Vectored.elems hc (exec_vsts ..),
      Vectored.elems hc (exec_vgath ..), Vectored.elems hc (exec_vscat ..), Vectored.lines3 hc (exec_vadd ..), Vectored.lines3 hc (exec_vsub ..),
      Vectored.lines3 hc (exec_vmul ..), Vectored.lines3 hc (exec_vmulh ..), Vectored.lines3 hc (exec_vmin ..),
      Vectored.lines3 hc (exec_vmax ..), Vectored.lines3 hc (exec_vminu ..), Vectored.lines3 hc (exec_vmaxu ..),
      Vectored.lines3 hc (exec_vadds ..), Vectored.lines3 hc (exec_vsubs ..), Vectored.lines3 hc (exec_vaddsn ..),
      Vectored.lines2 hc (exec_vabs ..), Vectored.lines2 hc (exec_vneg ..), Vectored.lines3 hc (exec_vmac ..), Vectored.lines hc (exec_vwmul ..),
      Vectored.lines hc (exec_vwmac ..), Vectored.vdot4 hc, Vectored.lines3 hc (exec_vfadd ..), Vectored.lines3 hc (exec_vfsub ..),
      Vectored.lines3 hc (exec_vfmul ..), Vectored.lines3 hc (exec_vfma ..), Vectored.lines3 hc (exec_vfnma ..),
      Vectored.lines3 hc (exec_vfmin ..), Vectored.lines3 hc (exec_vfmax ..), Vectored.lines2 hc (exec_vfabs ..),
      Vectored.lines2 hc (exec_vfneg ..), Vectored.lines hc (exec_vfwmul ..), Vectored.lines hc (exec_vfwma ..),
      Vectored.lines2 hc (exec_vfexp2 ..), Vectored.lines2 hc (exec_vflog2 ..), Vectored.lines2 hc (exec_vfrcp ..),
      Vectored.lines2 hc (exec_vfrsq ..), Vectored.lines3 hc (exec_vand ..), Vectored.lines3 hc (exec_vor ..), Vectored.lines3 hc (exec_vxor ..),
      Vectored.lines3 hc (exec_vandn ..), Vectored.lines3 hc (exec_vshl ..), Vectored.lines3 hc (exec_vshr ..),
      Vectored.lines3 hc (exec_vsar ..), Vectored.lines hc (exec_vcmpeq ..), Vectored.lines hc (exec_vcmplt ..),
      Vectored.lines hc (exec_vcmple ..), Vectored.lines hc (exec_vcmpltn ..), Vectored.lines hc (exec_vfcmpeq ..),
      Vectored.lines hc (exec_vfcmplt ..), Vectored.lines hc (exec_vfcmple ..), Vectored.lines3 hc (exec_vsel ..),
      Vectored.lines hc (exec_vmand ..), Vectored.lines hc (exec_vmor ..), Vectored.lines hc (exec_vmxor ..), Vectored.lines hc (exec_vmnot ..),
      Vectored.toReg hc (exec_vmpop ..), Vectored.toReg hc (exec_vmfirst ..), Vectored.lines hc (exec_vmset ..), Vectored.vcvt hc,
      Vectored.lines hc (exec_vqo4 ..), Vectored.lines3 hc (exec_vdqo4 ..), Vectored.toReg hc (exec_vrsum ..), Vectored.toReg hc (exec_vrmax ..),
      Vectored.toReg hc (exec_vrmin ..), Vectored.vramax hc, Vectored.toReg hc (exec_vdot ..),
      Vectored.lines hc (exec_vbcast ..), Vectored.lines2 hc (exec_vmov ..), Vectored.lines3 hc (exec_vperm ..),
      Vectored.lines hc (exec_vslide ..), Vectored.toReg hc (exec_vext ..), Vectored.lines hc (exec_vins ..), Vectored.lines hc (exec_vhad ..),
      Vectored.lines hc (exec_viota ..), Vectored.lines3 hc (exec_vzip ..), Vectored.lines3 hc (exec_vunzip ..), fun _ h => by cases h⟩
  · simp only [List.forall_mem_cons]
    exact ⟨exec_pset .. ▸ Vectored.issueThen hc (Vectored.ptr hc), exec_padd .. ▸ Vectored.issueThen hc (Vectored.ptr hc),
      exec_paddi .. ▸ Vectored.issueThen hc (Vectored.ptr hc), fun _ h => by cases h⟩
  · have h : Vectored none s (exec (.pget d a w) s) :=
      exec_pget .. ▸ Vectored.issueThen hc (Untrapped.destThen (Vectored.finish hc (VecStep.produce hc)))
    exact ⟨hkept (h u hu hn), (h u hu hn).ptrs⟩

end Sys2Proof.Machine
end

section
/-!
Code slots, segment fetches and repeat frames.
-/

namespace Sys2Proof.Machine

open Sys2Proof

section
variable {d a : Reg} {w : BitVec 3} {s : State}

/-! ### CFETCH and CSTAT (R129) -/

theorem cfetch_badForm (h : hazard [a] [d] s = .clear) (hv : viewOf (s.rdA a) ≠ 0 ∨ (s.rdA a).toNat < 0x100000) :
    exec (.cfetch d a w) s = trap (.mk' cADDRFORM (s.rdA a)) s := by
  rw [exec_cfetch, execCfetch, issueThen_clear _ _ _ _ h]
  exact failThen_of_some (if_pos hv)

theorem cfetch_taken (h : hazard [a] [d] s = .clear) (hv : ¬ (viewOf (s.rdA a) ≠ 0 ∨ (s.rdA a).toNat < 0x100000))
    (ht : codeTaken s.mine (s.rdA a) = true) : exec (.cfetch d a w) s = trap (.mk' cCODEBUSY (s.rdA a)) s := by
  rw [exec_cfetch, execCfetch, issueThen_clear _ _ _ _ h]
  exact (failThen_of_none (if_neg hv)).trans (failThen_of_some (if_pos ht))

/-- A fetch that may start: its ticket and the core it leaves. -/
theorem cfetch_starts (h : hazard [a] [d] s = .clear) (hv : ¬ (viewOf (s.rdA a) ≠ 0 ∨ (s.rdA a).toNat < 0x100000))
    (ht : codeTaken s.mine (s.rdA a) = false) (hp : portFault s d = none) :
    exec (.cfetch d a w) s = writes w [a] d (startFetch (s.rdA a) s).1 (startFetch (s.rdA a) s).2 := by
  rw [exec_cfetch, execCfetch, issueThen_clear _ _ _ _ h]
  have hn : ¬ codeTaken s.mine (s.rdA a) = true := by rw [ht]; exact Bool.false_ne_true
  exact (failThen_of_none (if_neg hv)).trans ((failThen_of_none (if_neg hn)).trans (destThen_ok _ _ _ hp))

theorem startFetch_current {va : Word} {n : BitVec 32} (h : (s.mine.slot (slotOf va)).current (segOf va) = some n) :
    startFetch va s = (codeTicket (slotOf va) n, s) := by
  simp only [startFetch, h]

theorem startFetch_new {va : Word} (h : (s.mine.slot (slotOf va)).current (segOf va) = none) :
    startFetch va s = (codeTicket (slotOf va) (s.mine.fetchSeq + 1), s.setMine { s.mine with
      fetchSeq := s.mine.fetchSeq + 1
      slots := s.mine.slots.setIfInBounds (slotOf va) (.fetching (segOf va) (s.mine.fetchSeq + 1) s.cur.ctx (s.xctx s.cur)) }) := by
  simp only [startFetch, h]

/-- The four states that CSTAT tells apart. -/
theorem codeState_spec (k : Core) (va : Word) :
    let v := codeState k va
    (v = 0 ∨ v = 1 ∨ v = 2 ∨ v = 3) ∧ (v = 2 ↔ k.isResident va = true) ∧ (v = 1 ↔ k.isFetching va = true) ∧ (v = 3 ↔ k.isFailed va = true) := by
  dsimp only [codeState, Core.isResident, Core.isFetching, Core.isFailed]
  cases k.slot (slotOf va) with
  | empty => simp
  | fetching g n o e => by_cases h : g = segOf va <;> simp [h]
  | resident g n => by_cases h : g = segOf va <;> simp [h]
  | failed g n => by_cases h : g = segOf va <;> simp [h]

/-! ### CWAIT and CEVICT (R129, R130) -/

theorem cwait_fetching {g : Word} {n : BitVec 32} {o : Nat} {e : Xctx} (h : Ready [a] s)
    (hslot : s.mine.slot ((s.rdA a).extractLsb' 0 5).toNat = .fetching g n o e) :
    exec (.cwait a w) s = if codeTicket ((s.rdA a).extractLsb' 0 5).toNat n = s.rdA a then hold s else .next (finish w [a] s) := by
  rw [exec_cwait, execCwait, issueThen_clear _ _ _ _ h]
  simp only [hslot]

/-- A wait for a fetch that is not under way is over. -/
theorem cwait_over (h : Ready [a] s) (hn : ∀ g n o e, s.mine.slot ((s.rdA a).extractLsb' 0 5).toNat = .fetching g n o e →
      codeTicket ((s.rdA a).extractLsb' 0 5).toNat n ≠ s.rdA a) : exec (.cwait a w) s = .next (finish w [a] s) := by
  cases hslot : s.mine.slot ((s.rdA a).extractLsb' 0 5).toNat with
  | fetching g n o e => rw [cwait_fetching h hslot, if_neg (hn g n o e hslot)]
  | _ =>
    rw [exec_cwait, execCwait, issueThen_clear _ _ _ _ h]
    simp only [hslot]

theorem cevict_live (h : Ready [a] s) (hs : (s.mine.slot (slotOf (s.rdA a))).seg = some (segOf (s.rdA a)))
    (hl : s.mine.isLive (segOf (s.rdA a)) = true) : exec (.cevict a w) s = trap (.mk' cCODEBUSY (s.rdA a)) s := by
  rw [exec_cevict, execCevict, issueThen_clear _ _ _ _ h]
  exact (if_pos hs).trans (failThen_of_some (if_pos hl))

theorem cevict_free (h : Ready [a] s) (hs : (s.mine.slot (slotOf (s.rdA a))).seg = some (segOf (s.rdA a)))
    (hl : s.mine.isLive (segOf (s.rdA a)) = false) :
    exec (.cevict a w) s =
      .next (finish w [a] (s.setMine { s.mine with slots := s.mine.slots.setIfInBounds (slotOf (s.rdA a)) .empty })) := by
  rw [exec_cevict, execCevict, issueThen_clear _ _ _ _ h]
  have hn : ¬ s.mine.isLive (segOf (s.rdA a)) = true := by rw [hl]; exact Bool.false_ne_true
  exact (if_pos hs).trans (failThen_of_none (if_neg hn))

theorem cevict_other (h : Ready [a] s) (hs : (s.mine.slot (slotOf (s.rdA a))).seg ≠ some (segOf (s.rdA a))) :
    exec (.cevict a w) s = .next (finish w [a] s) := by
  rw [exec_cevict, execCevict, issueThen_clear _ _ _ _ h]
  exact if_neg hs

end

/-! ### The end of a segment's fetch (R127) -/

section
variable {core n : Nat} {g : Word} {q : BitVec 32} {e : Xctx} {s u v : State}

theorem setSlot_slot (t : Slot) (hn : n < 32) : ((setSlot core n t s).core core).slot n = t := by
  rw [setSlot, State.core_setCore]
  simp [Core.slot, hn]

theorem setSlot_imem (t : Slot) : ((setSlot core n t s).core core).imem = (s.core core).imem := by
  rw [setSlot, State.core_setCore]

/-- A segment that is not found leaves its slot FAILED. -/
theorem landFetch_error {err : XlErr} (h : resolve s e g 1 needX = (u, .error err)) : landFetch core n g q e s = setSlot core n (.failed g q) u := by
  rw [landFetch, h]

/-- A segment in memory lands once its lines have come. -/
theorem landFetch_mem {pa : Nat} {others : List RepSlot} (h : resolve s e g 1 needX = (u, .ok (.mem pa others))) :
    landFetch core n g q e s =
      setSlot core n (if (fetchLines core pa n 32 u).2 then .resident g q else .failed g q) (fetchLines core pa n 32 u).1 := by
  rw [landFetch, h]
  dsimp only
  split
  next v hv => rw [hv]; rfl
  next v hv => rw [hv]; rfl

/-- In whatever way a fetch ends, its slot holds the segment RESIDENT or FAILED. -/
theorem landFetch_slot (hn : n < 32) :
    let t := landFetch core n g q e s
    (t.core core).slot n = .resident g q ∨ (t.core core).slot n = .failed g q := by
  dsimp only
  unfold landFetch
  split
  · exact .inr (setSlot_slot _ hn)
  · split
    · exact .inl (setSlot_slot _ hn)
    · exact .inr (setSlot_slot _ hn)
  · exact .inr (setSlot_slot _ hn)

theorem segmentFetchDone_lands {o : Nat} (hc : core < 25600) (hs : (s.core core).slot n = .fetching g q o e) :
    exec (.segmentFetchDone core n) s = .next (landFetch core n g q e s) := by
  rw [exec_segmentFetchDone, execSegmentFetchDone, hs]
  exact if_pos (decide_eq_true hc)

end

/-! ### Repeat frames (R132, R133, R134) -/

section
variable {c : Reg} {i : BitVec 6} {l : BitVec 4} {x y z : BitVec 1} {st : BitVec 2} {w : BitVec 3} {s : State}

/-- The register that holds the count of an RPT, if one does. -/
def countRegs (c : Reg) : List Reg := if c = 0 then [] else [c]

/-- How often an RPT repeats its words. -/
def rptCount (c : Reg) (i : BitVec 6) (s : State) : Nat := if c = 0 then i.toNat + 1 else (s.rdA c).toNat

/-- The frame of an RPT of `len` words. -/
def rptFrame (c : Reg) (i : BitVec 6) (len : Nat) (x y z : BitVec 1) (st : BitVec 2) (s : State) : Frame :=
  ⟨s.me.pc + 4, (frameVas (s.me.pc + 4) len).map s.mine.fetch, x ++ y ++ z, st, 0, rptCount c i s, 0⟩

theorem rpt_tooOften (h : Ready (countRegs c) s) (hn : 65536 < rptCount c i s) :
    exec (.rpt c i l x y z st w) s = trap (.mk' cREPEATBAD (BitVec.allOnes 64)) s := by
  rw [exec_rpt, execRpt]
  exact (issueThen_clear _ _ _ _ h).trans (failThen_of_some (if_pos hn))

/-- The words are checked whether the count is 0 or not. -/
theorem rpt_captureFails {t : Trap} (h : Ready (countRegs c) s) (hw : s.me.fwd = none) (hn : rptCount c i s ≤ 65536)
    (hc : captureCheck s.mine (s.me.pc + 4) (l.toNat + 1) = some t) : exec (.rpt c i l x y z st w) s = trap t s := by
  have hf : ¬ s.me.fwd.isSome = true := by simp [hw]
  rw [exec_rpt, execRpt]
  refine (issueThen_clear _ _ _ _ h).trans ((failThen_of_none (if_neg (Nat.not_lt.2 hn))).trans ?_)
  by_cases h0 : rptCount c i s = 0
  · exact (if_pos h0).trans (failThen_of_some ((if_neg hf).trans hc))
  · exact (if_neg h0).trans ((if_neg hf).trans (failThen_of_some hc))

/-- A count of 0 passes the words over. -/
theorem rpt_zero (h : Ready (countRegs c) s) (hw : s.me.fwd = none) (hn : rptCount c i s = 0)
    (hc : captureCheck s.mine (s.me.pc + 4) (l.toNat + 1) = none) :
    exec (.rpt c i l x y z st w) s = .next (finishAt w (countRegs c) (s.me.pc + 4 + BitVec.ofNat 64 (4 * (l.toNat + 1))) s) := by
  have hf : ¬ s.me.fwd.isSome = true := by simp [hw]
  have hle : ¬ 65536 < rptCount c i s := by omega
  rw [exec_rpt, execRpt]
  refine (issueThen_clear _ _ _ _ h).trans ((failThen_of_none (if_neg hle)).trans ((if_pos hn).trans (failThen_of_none ?_)))
  exact (if_neg hf).trans hc

/-- Any other count starts a frame of the words. -/
theorem rpt_starts (h : Ready (countRegs c) s) (hw : s.me.fwd = none) (h1 : rptCount c i s ≠ 0) (h2 : rptCount c i s ≤ 65536)
    (hc : captureCheck s.mine (s.me.pc + 4) (l.toNat + 1) = none) :
    exec (.rpt c i l x y z st w) s = .next (retireAt w (fun u => { u with
      pc := s.me.pc + 4, frame := some (rptFrame c i (l.toNat + 1) x y z st s) }) (popPorts (countRegs c) s)) := by
  have hf : ¬ s.me.fwd.isSome = true := by simp [hw]
  rw [exec_rpt, execRpt]
  refine (issueThen_clear _ _ _ _ h).trans ((failThen_of_none (if_neg (Nat.not_lt.2 h2))).trans ((if_neg h1).trans ((if_neg hf).trans ?_)))
  exact failThen_of_none hc

theorem rptFrame_words {len j : Nat} (hj : j < len) :
    (rptFrame c i len x y z st s).words[j]? = some (s.mine.fetch (s.me.pc + 4 + BitVec.ofNat 64 (4 * j))) := by
  simp [rptFrame, frameVas, hj]

theorem rptFrame_length (len : Nat) : (rptFrame c i len x y z st s).words.length = len := by simp [rptFrame, frameVas]

theorem rptFrame_smask (len : Nat) :
    let m := (rptFrame c i len x y z st s).smask
    m.getLsbD 2 = x.getLsbD 0 ∧ m.getLsbD 1 = y.getLsbD 0 ∧ m.getLsbD 0 = z.getLsbD 0 := by
  simp only [rptFrame, BitVec.getLsbD_append]
  simp

end

/-- Settles O37: each instruction and the end of a fetch by the lemma about its case. -/
theorem codeSlotsAndFrames : Obligations.CodeSlotsAndFrames := by
  unfold Obligations.CodeSlotsAndFrames
  intro d a c i l x y z st w s va k slot
  refine ⟨fun h => ⟨fun hv => cfetch_badForm h hv, fun hv => ⟨fun ht => cfetch_taken h hv ht, fun ht hp => ⟨fun n hn => ?_, fun hn => ?_⟩⟩,
    fun hp => ⟨codeState k va, ?_, codeState_spec k va⟩⟩, fun h => ⟨fun g n o e hs ht => ?_, fun hn => cwait_over h hn,
    fun hs hl => cevict_free h hs hl, fun hs hl => cevict_live h hs hl, fun hs => cevict_other h hs⟩, fun core n g q o e hc hn hs => ?_, ?_⟩
  · rw [cfetch_starts h hv ht hp, startFetch_current hn]
    rfl
  · rw [cfetch_starts h hv ht hp, startFetch_new hn]
    rfl
  · rw [exec_cstat, execCstat, issueThen_clear _ _ _ _ h, completeWith_ok _ _ _ _ _ hp]
    rfl
  · rw [cwait_fetching h hs, if_pos ht]
    rfl
  · refine ⟨_, segmentFetchDone_lands hc hs, landFetch_slot hn, fun u pa others v hu => ⟨fun hv => ?_, fun hv => ?_⟩, fun u err hu => ?_⟩
    · rw [landFetch_mem hu, hv]
      exact ⟨setSlot_slot _ hn, setSlot_imem _⟩
    · rw [landFetch_mem hu, hv]
      exact setSlot_slot _ hn
    · rw [landFetch_error hu]
      exact ⟨setSlot_slot _ hn, setSlot_imem _⟩
  · intro rs count len base h hw
    refine ⟨fun hn => rpt_tooOften h hn, fun t hn ht => rpt_captureFails h hw hn ht, fun hn ht => rpt_zero h hw hn ht, fun h1 h2 ht hctx => ?_⟩
    refine ⟨_, rptFrame c i len x y z st s, rpt_starts h hw (Nat.one_le_iff_ne_zero.1 h1) h2 ht, ?_, ?_, rfl, rfl, rfl, rfl, rptFrame_length len,
      fun j hj => rptFrame_words hj, rfl, rptFrame_smask len⟩
    · rw [retireAt_me _ _ _ (by rwa [popPorts_cur])]
    · rw [retireAt_me _ _ _ (by rwa [popPorts_cur])]

end Sys2Proof.Machine
end

section
/-!
Helpers: how they start and end, what waits for them, YIELD and the trigger that starts one.
-/

namespace Sys2Proof.Machine

open Sys2Proof

/-! ### HSTART and HSTART.NB (R138) -/

section
variable {d a b : Reg} {w : BitVec 3} {s : State} {wait : Bool} {v : IWord}

/-- A start in ctx0 at a good address, its sources ready. -/
theorem hstart_issues (h0 : s.cur.ctx = 0) (hr : ReadyTo [a, b] d s) (ha : (s.rdA a).toNat % 4 = 0) :
    hstart wait v d a b w s =
      if helperCount s.mine = 0 then completeWith w [a, b] d (BitVec.allOnes 64) s
      else match freeHelper s.mine with
        | some i => destThen d s (fun u => .next (finish w [a, b] (deliver d (BitVec.ofNat 64 i) (startHelper u.cur.core i (s.rdA a) (u.rdB a b) u))))
        | none => if wait then destThen d s hold else completeWith w [a, b] d (BitVec.allOnes 64) s := by
  rw [hstart, ctx0Then_ok _ _ _ h0, issueThen_clear _ _ _ _ hr.1]
  exact failThen_of_none (alignCheck_aligned ha)

theorem hstart_starts {i : Nat} (h0 : s.cur.ctx = 0) (hr : ReadyTo [a, b] d s) (ha : (s.rdA a).toNat % 4 = 0) (hn : helperCount s.mine ≠ 0)
    (hf : freeHelper s.mine = some i) :
    hstart wait v d a b w s = writes w [a, b] d (BitVec.ofNat 64 i) (startHelper s.cur.core i (s.rdA a) (s.rdB a b) s) := by
  rw [hstart_issues h0 hr ha, if_neg hn, hf]
  exact destThen_ok _ _ _ hr.2

/-- With every helper live a start waits, or gives all ones. -/
theorem hstart_none (h0 : s.cur.ctx = 0) (hr : ReadyTo [a, b] d s) (ha : (s.rdA a).toNat % 4 = 0) (hn : helperCount s.mine ≠ 0)
    (hf : freeHelper s.mine = none) :
    hstart wait v d a b w s = if wait then .next (held s) else writes w [a, b] d (BitVec.allOnes 64) s := by
  rw [hstart_issues h0 hr ha, if_neg hn, hf]
  dsimp only
  rw [destThen_ok _ _ _ hr.2, completeWith_ok _ _ _ _ _ hr.2]
  rfl

theorem hstart_noHelpers (h0 : s.cur.ctx = 0) (hr : ReadyTo [a, b] d s) (ha : (s.rdA a).toNat % 4 = 0) (hn : helperCount s.mine = 0) :
    hstart wait v d a b w s = writes w [a, b] d (BitVec.allOnes 64) s := by
  rw [hstart_issues h0 hr ha, if_pos hn, completeWith_ok _ _ _ _ _ hr.2]
  rfl

end

/-! ### The helper that has started (R139) -/

section
variable {k : Core} {i : Nat} {t arg : Word} {cycle : Nat}

/-- A helper's context before its registers are written: the reset one with its entry, its stack and what it takes from ctx0 and from its context
before. -/
def helperBare (k : Core) (i : Nat) (t : Word) (cycle : Nat) : Ctx :=
  { Ctx.reset with
    live := true, pc := t, enter := true, nextIssue := cycle + 1, sbase := k.hstk + BitVec.ofNat 64 i * k.hstksz
    slim := k.hstk + BitVec.ofNat 64 (i - 1) * k.hstksz, tvec := (k.ctx 0).tvec, p := (k.ctx 0).p
    exitVal := (k.ctx i).exitVal, killed := (k.ctx i).killed, sends := (k.ctx i).sends, ranges := (k.ctx i).ranges
    cntReady := (k.ctx i).cntReady, cntHeld := (k.ctx i).cntHeld }

theorem helperCtx_keeps {α : Type} (f : Ctx → α) (hf : ∀ (x : Ctx) g p, f { x with g := g, poison := p } = f x) :
    f (helperCtx k i t arg cycle) = f (helperBare k i t cycle) := by
  have hset (x : Ctx) (r : Reg) (v : Word) : f (x.setReg r v) = f x := by
    rw [Ctx.setReg_eq]
    exact hf x _ _
  exact (hset _ _ _).trans (hset _ _ _)

theorem helperCtx_sp : (helperCtx k i t arg cycle).reg 27 = k.hstk + BitVec.ofNat 64 i * k.hstksz :=
  Ctx.reg_setReg _ _ _ (by decide) (by decide)

theorem helperCtx_arg : (helperCtx k i t arg cycle).reg 3 = arg :=
  (Ctx.reg_setReg_ne _ _ _ _ (by decide)).trans (Ctx.reg_setReg _ _ _ (by decide) (by decide))

theorem helperCtx_reg {r : Reg} (h3 : r ≠ 3) (h27 : r ≠ 27) : (helperCtx k i t arg cycle).reg r = 0 := by
  refine (Ctx.reg_setReg_ne _ _ _ _ h27).trans ((Ctx.reg_setReg_ne _ _ _ _ h3).trans ?_)
  simp [Ctx.reg, Ctx.reset, r.isLt]

theorem startHelper_ctx {s : State} (hi : i < 11) : (startHelper s.cur.core i t arg s).mine.ctx i = helperCtx s.mine i t arg s.cycle := by
  rw [State.mine]
  exact (congrArg (Core.ctx · i) (State.core_setCore ..)).trans (Core.ctx_setCtx _ _ _ hi)

theorem startHelper_ctx_ne {s : State} {j : Nat} (hj : j ≠ i) : (startHelper s.cur.core i t arg s).mine.ctx j = s.mine.ctx j := by
  rw [State.mine]
  exact (congrArg (Core.ctx · j) (State.core_setCore ..)).trans (Core.ctx_setCtx_ne _ _ _ _ hj)

end

/-! ### HEXIT (R140, R327) -/

section
variable {w : BitVec 3} {s : State}

theorem capped_le (q : Part) (scope : BitVec 3) : (capped q scope).toNat ≤ scope.toNat := by
  unfold capped
  split <;> omega

/-- The release that ends a context stays below .peer, where no failed store is taken. -/
theorem tenureScope_lt : (tenureScope s 1).toNat < 6 := by
  have h := capped_le s.myPart 5
  unfold tenureScope
  split
  · split
    · exact lt_of_le_of_lt h (by decide)
    · decide
  · decide

theorem fabStore_tenureScope : fabStore s (tenureScope s 1) = none := if_neg (Nat.not_le.2 tenureScope_lt)

theorem ownReturned_of (hq : ∀ q ∈ s.reqs, q.ctx = s.cur → q.isStore = true) (hv : s.me.varRes = []) (hx : s.me.vq = []) : ownReturned s = true := by
  simp only [ownReturned, hv, hx, List.isEmpty_nil, Bool.and_true, List.all_eq_true, Bool.or_eq_true, bne_iff_ne]
  exact fun q hm => or_iff_not_imp_left.2 fun hn => hq q hm (not_not.1 hn)

theorem portsSent_of (hp : ∀ e ∈ s.me.inflight, isPort e.reg = false) : portsSent s = true := by
  simp only [portsSent, List.all_eq_true, Bool.not_eq_true']
  exact hp

theorem endHelper_me {v : Word} {killed : Bool} (hc : s.cur.ctx < 11) :
    let x := (endHelper s.cur v killed s).me
    x.live = false ∧ x.exitVal = v ∧ x.killed = killed := by
  intro x
  obtain ⟨y, hy⟩ : ∃ y : Ctx, x = { y with
      live := false, exitVal := v, killed := killed, killReq := false, wait := .none, frame := none
      inflight := [], varRes := [], fpHold := none, deferred := [], mfault := none, enter := false, yieldTo := [], missed := false, defDepth := 0
      ring := y.ring.map (fun h => { h with reg := 0 }) } := ⟨_, State.ctx_setCtx _ s.cur _ hc⟩
  rw [hy]
  exact ⟨rfl, rfl, rfl⟩

theorem hexit_ends (h0 : s.cur.ctx ≠ 0) (hr : Ready [3] s) (ho : ownReturned s = true) (hp : portsSent s = true)
    (hh : releaseHolds s.me = false) (hd : released s s.cur (tenureScope s 1) = true) :
    exec (.hexit w) s = .next (endHelper s.cur (s.me.reg 3) false (retireAt w (fun x => x) s)) := by
  rw [exec_hexit, execHexit, if_neg h0, issueThen_clear _ _ _ _ hr, if_neg (by simp [ho, hp])]
  exact releaseThen_done hh hd fabStore_tenureScope

end

/-! ### HJOIN, HSTAT and HKILL (R140, R141) -/

section
variable {d a : Reg} {w : BitVec 3} {s : State}

theorem isHelperIndex_iff {v : Word} : isHelperIndex v = true ↔ 1 ≤ v.toNat ∧ v.toNat ≤ 10 := by simp [isHelperIndex]

theorem hjoin_issues (h : hazard [a] [d] s = .clear) (hp : portFault s d = none) :
    exec (.hjoin d a w) s = if isHelperIndex (s.rdA a) then
      if (s.mine.ctx (s.rdA a).toNat).live then .next (held s) else writes w [a] d (s.mine.ctx (s.rdA a).toNat).exitVal s
      else writes w [a] d 0 s := by
  rw [exec_hjoin, execHjoin, issueThen_clear _ _ _ _ h]
  dsimp only
  rw [destThen_ok _ _ _ hp, completeWith_ok _ _ _ _ _ hp, completeWith_ok _ _ _ _ _ hp]
  rfl

theorem hstat_issues (h : hazard [a] [d] s = .clear) (hp : portFault s d = none) :
    exec (.hstat d a w) s = writes w [a] d (if isHelperIndex (s.rdA a) then hstatWord (s.mine.ctx (s.rdA a).toNat) else 0) s := by
  rw [exec_hstat, execHstat, issueThen_clear _ _ _ _ h]
  exact completeWith_ok _ _ _ _ _ hp

/-- The end of an instruction asks for no helper's end. -/
theorem finish_killReq {rs : List Reg} (hc : s.cur.ctx < 11) (j : Nat) :
    ((finish w rs s).mine.ctx j).killReq = (s.mine.ctx j).killReq := by
  have hcur : (finish w rs s).cur = s.cur := finish_cur w rs s
  by_cases hj : j = s.cur.ctx
  · have h := congrArg Ctx.killReq (finish_me_rest w rs hc)
    rw [hj, State.mine, hcur]
    rw [State.me, hcur] at h
    exact h
  · have hstep : ScalarStep 0 s (finish w rs s) := ScalarStep.finish hc (ScalarStep.refl s)
    have h := congrArg Ctx.killReq (hstep.ctx ⟨s.cur.core, j⟩ fun h => hj (congrArg CtxId.ctx h))
    rw [State.mine, hcur]
    exact h

/-- What HKILL asks of the helper i. -/
def killAsked (i : Nat) (s : State) : State := s.setMine (s.mine.setCtx i { s.mine.ctx i with killReq := true })

theorem hkill_issues (h0 : s.cur.ctx = 0) (h : Ready [a] s) :
    let i := (s.rdA a).toNat
    exec (.hkill a w) s =
      if 1 ≤ i ∧ i ≤ 10 ∧ (s.mine.ctx i).live = true ∧ (s.mine.ctx i).service = false then .next (finish w [a] (killAsked i s))
      else .next (finish w [a] s) := by
  intro i
  rw [exec_hkill, execHkill, ctx0Then_ok _ _ _ h0, issueThen_clear _ _ _ _ h]
  refine if_congr ?_ rfl rfl
  rw [isHelperIndex_iff, Bool.not_eq_true', and_assoc]

theorem killAsked_ctx {i : Nat} (hi : i < 11) : ((killAsked i s).mine.ctx i).killReq = true := by
  rw [killAsked, State.mine_setMine, Core.ctx_setCtx _ _ _ hi]

theorem killAsked_ctx_ne {i j : Nat} (hj : j ≠ i) : (killAsked i s).mine.ctx j = s.mine.ctx j := by
  rw [killAsked, State.mine_setMine, Core.ctx_setCtx_ne _ _ _ _ hj]

end

/-! ### YIELD and the trigger (R142, R259) -/

theorem yield_issues {w : BitVec 3} {s : State} :
    let others := (List.range 11).filter (fun i => i != s.cur.ctx && (s.mine.ctx i).isReady s.cycle)
    let u := finish w [] s
    exec (.yield w) s = .next (u.setMe (if others = [] then { u.me with nextIssue := max u.me.nextIssue (s.cycle + 2) }
      else { u.me with yieldTo := others })) := by
  intro others u
  rw [exec_yield, execYield, issueThen_clear _ _ _ _ (hazard_nil s)]
  refine congrArg (fun x => Host.Outcome.next (u.setMe x)) ?_
  rw [finish_cycle]
  exact if_congr List.isEmpty_iff rfl rfl

section
variable {core i : Nat} {s : State}

/-- The core whose trigger fires, once the trigger is consumed. -/
def triggered (core : Nat) (s : State) : Core := { strConsume s.cycle 3 (s.core core) with strDue := (s.core core).strDue &&& 1 }

theorem trigger_fires (hc : core < 25600) (hd : (s.core core).strDue.getLsbD 1 = true) :
    let k := triggered core s
    let u := s.setCore core k
    exec (.helperStartTrigger core) s =
      if k.strtgt.getLsbD 62 = true ∨ spBytes k.spsize < hdescAt k + 16 ∨ helperCount k = 0 then .next (u.setCore core (setHlost k))
      else match freeHelper k with
        | some i => .next (startHelper core i (readHdesc k).1 (readHdesc k).2 u)
        | none => .next (u.setCore core { setHpend true k with hpending := some (readHdesc k) }) := by
  rw [exec_helperStartTrigger, execHelperStartTrigger]
  exact (if_neg (by simp [isCore, hc])).trans (if_pos hd)

/-- A pending start is made when a helper is free. -/
theorem trigger_pending (hc : core < 25600) (hd : (s.core core).strDue.getLsbD 1 = false) (hp : (s.core core).strtgt.getLsbD 62 = true)
    (hf : freeHelper (s.core core) = some i) :
    let h := (s.core core).hpending.getD (readHdesc (s.core core))
    exec (.helperStartTrigger core) s = .next (startHelper core i h.1 h.2 (s.setCore core { setHpend false (s.core core) with hpending := none })) := by
  rw [exec_helperStartTrigger, execHelperStartTrigger]
  refine (if_neg (by simp [isCore, hc])).trans ((if_neg (by rw [hd]; exact Bool.false_ne_true)).trans ((if_pos hp).trans ?_))
  rw [hf]

end

/-- Settles O50: each instruction and the trigger by the lemma about its case. -/
theorem helperInstructions : Obligations.HelperInstructions := by
  unfold Obligations.HelperInstructions
  intro d a b w s hc
  refine ⟨fun h0 hr ha => ⟨fun i hn hf x hx => ?_, fun hn hf => ?_, fun hn x hx => ?_⟩, fun i t arg h1 hi => ?_,
    fun h0 hr hq hv hx hp hh hd => ?_, fun h hp => ?_, fun h0 hr => ?_, yield_issues, fun core i hcore hd hp hf => trigger_pending hcore hd hp hf,
    fun core hcore hd => ⟨fun hl => ?_, fun hl i hf => ?_, fun hl hf => ?_⟩⟩
  · simp only [List.mem_cons, List.not_mem_nil, or_false] at hx
    obtain rfl | rfl := hx
    · exact hstart_starts h0 hr ha hn hf
    · exact hstart_starts h0 hr ha hn hf
  · exact ⟨(exec_hstart ..).trans (hstart_none h0 hr ha hn hf), (exec_hstartNb ..).trans (hstart_none h0 hr ha hn hf)⟩
  · simp only [List.mem_cons, List.not_mem_nil, or_false] at hx
    obtain rfl | rfl := hx
    · exact hstart_noHelpers h0 hr ha hn
    · exact hstart_noHelpers h0 hr ha hn
  · intro h k
    have hk {α : Type} (f : Ctx → α) (hf : ∀ (x : Ctx) g p, f { x with g := g, poison := p } = f x) := helperCtx_keeps (k := k) (i := i)
      (t := t) (arg := arg) (cycle := s.cycle) f hf
    have heq : h = helperCtx k i t arg s.cycle := startHelper_ctx hi
    rw [heq]
    exact ⟨hk Ctx.live fun _ _ _ => rfl, hk Ctx.pc fun _ _ _ => rfl, hk Ctx.enter fun _ _ _ => rfl, helperCtx_arg, helperCtx_sp,
      (hk Ctx.sbase fun _ _ _ => rfl).trans helperCtx_sp.symm, hk Ctx.slim fun _ _ _ => rfl, hk Ctx.tvec fun _ _ _ => rfl,
      hk Ctx.p fun _ _ _ => rfl, hk Ctx.priv fun _ _ _ => rfl, hk Ctx.icount fun _ _ _ => rfl, fun r h3 h27 => helperCtx_reg h3 h27,
      hk Ctx.m fun _ _ _ => rfl,
      fun j _ hj => startHelper_ctx_ne hj⟩
  · refine ⟨_, hexit_ends h0 hr (ownReturned_of hq hv hx) (portsSent_of hp) hh hd, ?_⟩
    have hr := endHelper_me (s := retireAt w (fun x => x) s) (v := s.me.reg 3) (killed := false) (by simpa using hc)
    rwa [retireAt_cur] at hr
  · intro v known
    have hj := hjoin_issues (w := w) h hp
    have hs := hstat_issues (w := w) h hp
    refine ⟨fun hk hl => ?_, fun hk hl => ?_, fun hk => ⟨?_, ?_⟩, fun hk => ?_⟩
    · rw [hj, if_pos (isHelperIndex_iff.2 hk), if_neg (by simp [v, hl])]
    · rw [hj, if_pos (isHelperIndex_iff.2 hk), if_pos hl]
    · rw [hj, if_neg (mt isHelperIndex_iff.1 hk)]
    · rw [hs, if_neg (mt isHelperIndex_iff.1 hk)]
    · rw [hs, if_pos (isHelperIndex_iff.2 hk)]
  · intro i
    have hk := hkill_issues (w := w) h0 hr
    by_cases hh : 1 ≤ i ∧ i ≤ 10 ∧ (s.mine.ctx i).live = true ∧ (s.mine.ctx i).service = false
    · refine ⟨_, hk.trans (if_pos hh), rfl, fun _ => ?_, fun j _ hj => ?_⟩
      · rw [finish_killReq (s := killAsked i s) hc]
        exact killAsked_ctx (by omega)
      · rw [finish_killReq (s := killAsked i s) hc, killAsked_ctx_ne hj]
    · exact ⟨_, hk.trans (if_neg hh), rfl, fun h => absurd h hh, fun j _ _ => finish_killReq hc j⟩
  · exact (trigger_fires hcore hd).trans (if_pos hl)
  · refine (trigger_fires hcore hd).trans ((if_neg hl).trans ?_)
    rw [show freeHelper (triggered core s) = some i from hf]
    rfl
  · refine (trigger_fires hcore hd).trans ((if_neg hl).trans ?_)
    rw [show freeHelper (triggered core s) = none from hf]
    rfl

end Sys2Proof.Machine
end

section
/-!
The package's own writes to one line of memory: what they leave of the bytes of the other lines, and of those of the line itself where nothing
has a copy of it.
-/

namespace Sys2Proof.Machine

open Sys2Proof

/-! ### Bytes of a line -/

theorem readLe_byte (m : Memory) (a n : Nat) {i : Nat} (hi : i < n) : BitVec.ofNat 8 (readLe m a n / 256 ^ i) = getByte m (a + i) := by
  induction n generalizing a i with
  | zero => omega
  | succ k ih =>
    have hb : (getByte m a).toNat < 256 := (getByte m a).isLt
    cases i with
    | zero =>
      apply BitVec.eq_of_toNat_eq
      rw [readLe, BitVec.toNat_ofNat, pow_zero, Nat.div_one, Nat.add_mul_mod_self_left, Nat.mod_eq_of_lt hb]
      rfl
    | succ i =>
      rw [readLe, pow_succ', ← Nat.div_div_eq_div_mul, Nat.add_mul_div_left _ _ (by omega), Nat.div_eq_of_lt hb, Nat.zero_add,
        ih (a + 1) (by omega), Nat.add_assoc, Nat.add_comm 1 i]

theorem low_byte {lo x off j : Nat} (h : j < off) : (lo + 256 ^ off * x) / 256 ^ j % 256 = lo / 256 ^ j % 256 := by
  obtain ⟨k, rfl⟩ : ∃ k, off = j + 1 + k := ⟨off - j - 1, by omega⟩
  have hsplit : 256 ^ (j + 1 + k) * x = 256 ^ j * (256 * (256 ^ k * x)) := by ring
  rw [hsplit, Nat.add_mul_div_left _ _ (by positivity), Nat.add_mul_mod_self_left]

theorem high_byte {lo x y off n j : Nat} (hlo : lo < 256 ^ off) (hx : x < 256 ^ n) (h : off + n ≤ j) :
    (lo + 256 ^ off * (x + 256 ^ n * y)) / 256 ^ j % 256 = y / 256 ^ (j - (off + n)) % 256 := by
  obtain ⟨k, rfl⟩ : ∃ k, j = off + n + k := ⟨j - (off + n), by omega⟩
  rw [pow_add, pow_add, ← Nat.div_div_eq_div_mul, ← Nat.div_div_eq_div_mul, Nat.add_mul_div_left _ _ (by positivity), Nat.div_eq_of_lt hlo,
    Nat.zero_add, Nat.add_mul_div_left _ _ (by positivity), Nat.div_eq_of_lt hx, Nat.zero_add, Nat.add_sub_cancel_left]

/-- A number with some of its bytes replaced keeps the others. -/
theorem putBytes_byte {d v off n j : Nat} (h : j < off ∨ off + n ≤ j) :
    (d - d / 256 ^ off % 256 ^ n * 256 ^ off + v % 256 ^ n * 256 ^ off) / 256 ^ j % 256 = d / 256 ^ j % 256 := by
  have hn : 0 < 256 ^ n := by positivity
  obtain ⟨lo, hi, hlo, hd⟩ : ∃ lo hi, lo < 256 ^ off ∧ d = lo + 256 ^ off * (d / 256 ^ off % 256 ^ n + 256 ^ n * hi) :=
    ⟨d % 256 ^ off, d / 256 ^ off / 256 ^ n, Nat.mod_lt _ (by positivity), by rw [Nat.mod_add_div, Nat.mod_add_div]⟩
  have hg : d / 256 ^ off % 256 ^ n < 256 ^ n := Nat.mod_lt _ hn
  have hu : v % 256 ^ n < 256 ^ n := Nat.mod_lt _ hn
  generalize d / 256 ^ off % 256 ^ n = g at hd hg
  generalize v % 256 ^ n = u at hu
  have hput : d - g * 256 ^ off + u * 256 ^ off = lo + 256 ^ off * (u + 256 ^ n * hi) := by
    have hsplit : d = (lo + 256 ^ off * (256 ^ n * hi)) + g * 256 ^ off := by rw [hd]; ring
    rw [hsplit, Nat.add_sub_cancel]
    ring
  rw [hput]
  rcases h with h | h
  · rw [hd, low_byte h, low_byte h]
  · rw [hd, high_byte hlo hu h, high_byte hlo hg h]

theorem lineBits_eq : 2 ^ 512 = 256 ^ 64 := by
  rw [show 256 = 2 ^ 8 from rfl, ← pow_mul]

theorem linePut_byte (d : CLine) {off n v j : Nat} (hj : j < 64) (h : j < off ∨ off + n ≤ j) :
    (linePut d off n v).toNat / 256 ^ j % 256 = d.toNat / 256 ^ j % 256 := by
  have hmod {m : Nat} (hm : m = 256 ^ 64) (x : Nat) : x % m / 256 ^ j % 256 = x / 256 ^ j % 256 := by
    rw [hm, ← low_byte (x := x / 256 ^ 64) hj, Nat.mod_add_div]
  rw [linePut, BitVec.toNat_ofNat, hmod lineBits_eq]
  exact putBytes_byte h

/-- A line written back to memory with n of its bytes replaced leaves every other byte of memory. -/
theorem getByte_putLine (s : State) (line : Nat) {off n v x : Nat} (h : x < 64 * line + off ∨ 64 * line + off + n ≤ x) :
    getByte (writeLe s.mem (64 * line) 64 (linePut (homeData s line) off n v).toNat) x = getByte s.mem x := by
  by_cases hx : x < 64 * line ∨ 64 * line + 64 ≤ x
  · exact getByte_writeLe_outside _ _ _ _ _ hx
  · obtain ⟨j, rfl⟩ : ∃ j, x = 64 * line + j := ⟨x - 64 * line, by omega⟩
    have hj : j < 64 := by omega
    have hdata : (homeData s line).toNat = readLe s.mem (64 * line) 64 := by
      rw [homeData, BitVec.toNat_ofNat, readRange_eq]
      exact Nat.mod_eq_of_lt ((readLe_lt s.mem (64 * line) 64).trans_eq lineBits_eq.symm)
    rw [getByte_writeLe _ _ _ _ _ hj, ← readLe_byte s.mem (64 * line) 64 hj]
    apply BitVec.eq_of_toNat_eq
    rw [BitVec.toNat_ofNat, BitVec.toNat_ofNat, ← hdata]
    exact linePut_byte _ hj (by omega)

/-! ### The operations at one line (R230, R333, R438)

Each rule says that one operation of the memory system writes no byte outside the line it is about and sends no push. -/

/-- From `o` to `s` memory has changed in one line alone, and no push has been sent or has arrived. -/
structure OnLine (line : Nat) (o s : State) : Prop where
  mem (x : Nat) : x / 64 ≠ line → getByte s.mem x = getByte o.mem x
  pushes : s.pushes = o.pushes

section
variable {line die pa n v : Nat} {o s t : State}

theorem OnLine.refl (s : State) : OnLine line s s := ⟨fun _ _ => rfl, rfl⟩

theorem OnLine.same (h : OnLine line o s) (hm : t.mem = s.mem) (hp : t.pushes = s.pushes) : OnLine line o t :=
  ⟨fun x hx => by rw [hm, h.mem x hx], hp.trans h.pushes⟩

/-- A write within the line. -/
theorem OnLine.rawWrite (h : OnLine line o s) (hpa : pa / 64 = line) (hn : pa % 64 + n ≤ 64) : OnLine line o (rawWrite s pa n v) :=
  ⟨fun x hx => (getByte_writeLe_outside _ _ _ _ _ (by omega)).trans (h.mem x hx), h.pushes⟩

theorem OnLine.rawLine (h : OnLine line o s) : OnLine line o (Machine.rawWrite s (64 * line) 64 v) := h.rawWrite (by omega) (by omega)

theorem OnLine.setBacking {d : CLine} (h : OnLine line o s) : OnLine line o (setBacking s die line d) := by
  unfold Machine.setBacking
  split
  · exact h.same rfl rfl
  · exact h.rawLine

theorem OnLine.cleanse {off : Nat} (h : OnLine line o s) : OnLine line o (cleanse s line off n) := h.same rfl rfl

theorem OnLine.writeBack {d : CLine} (h : OnLine line o s) : OnLine line o (writeBack s die line d) := h.setBacking.cleanse

theorem OnLine.recallO (h : OnLine line o s) : OnLine line o (recallO s die line) := by
  unfold Machine.recallO
  split
  · exact h
  · split
    · exact h
    · exact OnLine.same (ite_keeps h.writeBack h) rfl rfl

theorem OnLine.invalidate {keep : Option Nat} (h : OnLine line o s) : OnLine line o (invalidate s die line keep) := h.recallO.same rfl rfl

theorem OnLine.dropFar (h : OnLine line o s) : OnLine line o (dropFar s line die) :=
  OnLine.same (h.invalidate (keep := none)) rfl rfl

theorem OnLine.farRecall (h : OnLine line o s) : OnLine line o (farRecall s line) := by
  unfold Machine.farRecall
  split
  · exact h
  · exact h.invalidate.dropFar.rawLine

theorem OnLine.farInvalidated (h : OnLine line o s) : OnLine line o (farInvalidated s line die) := ite_keeps h.dropFar h

theorem OnLine.farClear (h : OnLine line o s) : OnLine line o (farClear s line) :=
  foldl_keeps (OnLine.farRecall (foldl_keeps h fun _ _ h1 => h1.farInvalidated)) fun _ _ h1 => h1.dropFar

theorem OnLine.drawLine {k : Nat} (h : OnLine line o s) : OnLine line o (drawLine k s).2 := by
  induction k generalizing s with
  | zero => exact h
  | succ k ih => exact ih (h.same rfl rfl)

theorem OnLine.takePeerCopies {alone : Bool} (h : OnLine line o s) : OnLine line o (takePeerCopies line alone s) := by
  unfold Machine.takePeerCopies
  extract_lets written s1 r
  have h1 : OnLine line o s1 := h.same rfl rfl
  exact ite_keeps (ite_keeps h1.drawLine.rawLine.cleanse h1) h

theorem flushPushes_none (h : ∀ p ∈ s.pushes, p.line ≠ line) : flushPushes s line = s := by
  have hnone : s.pushes.filter (fun p => p.line == line) = [] := by
    simpa [List.filter_eq_nil_iff] using h
  rw [flushPushes, hnone]
  rfl

/-- Whether an address is far is the same of its line: ranges begin and end at multiples of 2^28. -/
theorem isFar_line (s : State) (pa : Nat) : isFar s (64 * (pa / 64)) = isFar s pa := by
  have hpair : farPair s (64 * (pa / 64)) = farPair s pa := by
    unfold farPair
    congr 1
    funext k
    dsimp only
    congr 1
    · congr 1
      exact decide_eq_decide.2 (by omega)
    · exact decide_eq_decide.2 (by omega)
  rw [isFar, isFar, hpair]

/-- The package's own write within a line, no push to it being on its way. -/
theorem OnLine.deviceWrite (h : OnLine line o s) (hp : ∀ p ∈ o.pushes, p.line ≠ line) (hpa : pa / 64 = line) (hn : pa % 64 + n ≤ 64) :
    OnLine line o (deviceWrite s pa n v) := by
  subst hpa
  have h1 : OnLine (pa / 64) o (Machine.takePeerCopies (pa / 64) true s) := h.takePeerCopies
  have hflush : Machine.flushPushes (Machine.takePeerCopies (pa / 64) true s) (pa / 64) = Machine.takePeerCopies (pa / 64) true s :=
    flushPushes_none (by rwa [h1.pushes])
  unfold Machine.deviceWrite homeWrite bringOwned
  dsimp only
  rw [hflush, isFar_line]
  split
  · exact (h1.farClear.rawWrite rfl hn).cleanse
  next hf =>
    exact h1.invalidate.setBacking.cleanse

end

/-! ### The same where no copy of the line is about -/

/-- Nothing holds a copy of a line: no L1, no die, no peer. -/
structure Alone (line : Nat) (s : State) : Prop where
  l1 : ∀ c ∈ s.cores, c.2.l1Find line = none
  far : ∀ c ∈ s.far, c.line ≠ line
  peers : ∀ c ∈ s.peerDir, c.line ≠ line

section
variable {line die pa n v : Nat} {s t : State}

theorem Alone.same (h : Alone line s) (hc : t.cores = s.cores) (hf : t.far = s.far) (hp : t.peerDir = s.peerDir) : Alone line t :=
  ⟨hc ▸ h.l1, hf ▸ h.far, hp ▸ h.peers⟩

theorem Alone.farFilter (h : Alone line s) (p : FarCopy → Bool) : s.far.filter (fun c => c.line == line && p c) = [] := by
  rw [List.filter_eq_nil_iff]
  intro c hc
  simp [h.far c hc]

theorem Alone.farFind (h : Alone line s) (p : FarCopy → Bool) : s.far.find? (fun c => c.line == line && p c) = none := by
  rw [List.find?_eq_none]
  intro c hc
  simp [h.far c hc]

theorem Alone.takePeerCopies {alone : Bool} (h : Alone line s) : takePeerCopies line alone s = s := by
  have hnone : peerHolds s line alone = false := by
    rw [peerHolds, List.any_eq_false]
    intro d hd
    simp [PeerCopy.against, h.peers d hd]
  rw [Machine.takePeerCopies, hnone]
  rfl

theorem Alone.recallO (h : Alone line s) : recallO s die line = s := by
  have hnone : s.cores.find? (fun c => underHome s line die c.1 && (c.2.l1Find line).any (fun e => e.st == .O)) = none := by
    rw [List.find?_eq_none]
    intro c hc
    simp [h.l1 c hc]
  rw [Machine.recallO, hnone]

theorem Alone.invalidate {keep : Option Nat} (h : Alone line s) : invalidate s die line keep = s := by
  have hmap : s.cores.map (fun c => (c.1,
      if some c.1 ≠ keep ∧ underHome s line die c.1 ∧ (c.2.l1Find line).any (fun e => e.st != .T) then c.2.l1Drop line else c.2)) = s.cores := by
    refine (List.map_congr_left fun c hc => ?_).trans (List.map_id _)
    rw [if_neg (by simp [h.l1 c hc])]
    rfl
  rw [Machine.invalidate, h.recallO]
  exact congrArg (fun l => { s with cores := l }) hmap

theorem Alone.farClear (h : Alone line s) : farClear s line = s := by
  have hrecall : farRecall s line = s := by
    rw [farRecall, h.farFind]
  have hsettle : farSettle s line = s := by
    rw [farSettle, h.farFilter]
    exact hrecall
  have hall : s.far.filter (fun c => c.line == line) = [] := by simpa using h.farFilter fun _ => true
  rw [Machine.farClear, hsettle, hall]
  rfl

theorem Alone.farCopy (h : Alone line s) : farCopy s line die = none := h.farFind _

/-- The package's own write to a line of which there is no copy changes its bytes in memory and nothing but the poison of its line besides. -/
theorem Alone.deviceWrite (h : Alone (pa / 64) s) (hp : ∀ p ∈ s.pushes, p.line ≠ pa / 64) :
    Alone (pa / 64) (deviceWrite s pa n v) ∧ ∀ x, (x < pa ∨ pa + n ≤ x) → getByte (deviceWrite s pa n v).mem x = getByte s.mem x := by
  unfold Machine.deviceWrite homeWrite bringOwned
  dsimp only
  rw [h.takePeerCopies, flushPushes_none hp, isFar_line, h.farClear]
  split
  · exact ⟨h.same rfl rfl rfl, fun x hx => getByte_writeLe_outside _ _ _ _ _ hx⟩
  next hf =>
    rw [h.invalidate, setBacking, backing, h.farCopy]
    exact ⟨h.same rfl rfl rfl, fun x hx => getByte_putLine s (pa / 64) (by omega)⟩

end

end Sys2Proof.Machine
end

section
/-!
What loads, stores and atomics leave unchanged when they issue.
-/

namespace Sys2Proof.Machine

open Sys2Proof

/-! ### What an access leaves of the cores and of its context -/

/-- The registers of a context that no memory access writes. -/
def Ctx.steady (x : Ctx) :=
  (x.p, x.m, x.frm, x.fflags, x.sbase, x.slim, x.tvec, x.tpc, x.priv)

/-- From `s` to `t` an access has changed of the general registers `d` alone and of the scratchpads n bytes from `lo` on of its own core's, and no
instruction memory, accumulator or other register. -/
structure Beside (d : Reg) (lo n : Nat) (s t : State) : Prop where
  cur : t.cur = s.cur
  imem (k : Nat) : (t.core k).imem = (s.core k).imem
  others (k : Nat) : k ≠ s.cur.core → (t.core k).spad = (s.core k).spad
  spad (x : Nat) : x < lo ∨ lo + n ≤ x → getByte t.mine.spad x = getByte s.mine.spad x
  accs : t.mine.accs = s.mine.accs
  reg (r : Reg) : r ≠ d → t.me.reg r = s.me.reg r
  steady : t.me.steady = s.me.steady

section
variable {d : Reg} {lo n : Nat} {s t u : State}

theorem Beside.refl (s : State) : Beside d lo n s s := ⟨rfl, fun _ => rfl, fun _ _ => rfl, fun _ _ => rfl, rfl, fun _ _ => rfl, rfl⟩

theorem Beside.trans (h : Beside d lo n s t) (g : Beside d lo n t u) : Beside d lo n s u where
  cur := g.cur.trans h.cur
  imem k := (g.imem k).trans (h.imem k)
  others k hk := (g.others k (by rwa [h.cur])).trans (h.others k hk)
  spad x hx := (g.spad x hx).trans (h.spad x hx)
  accs := g.accs.trans h.accs
  reg r hr := (g.reg r hr).trans (h.reg r hr)
  steady := g.steady.trans h.steady

/-- A change of the state that is in no core. -/
theorem Beside.same (h : Beside d lo n s t) (hc : u.cores = t.cores) (hcur : u.cur = t.cur) : Beside d lo n s u := by
  have hcore (k : Nat) : u.core k = t.core k := by rw [State.core, hc]; rfl
  have hmine : u.mine = t.mine := by rw [State.mine, hcur, hcore]; rfl
  have hme : u.me = t.me := by rw [State.me, State.ctx, hcur, hcore]; rfl
  exact ⟨hcur.trans h.cur, fun k => by rw [hcore, h.imem], fun k hk => by rw [hcore, h.others k hk], fun x hx => by rw [hmine, h.spad x hx],
    by rw [hmine, h.accs], fun r hr => by rw [hme, h.reg r hr], by rw [hme, h.steady]⟩

theorem Beside.of_scalar (h : ScalarStep d s t) : Beside d lo n s t := by
  have hcur := h.cur
  have hme : t.me = t.ctx s.cur := by rw [State.me, hcur]
  have hmine : t.mine = t.core s.cur.core := by rw [State.mine, hcur]
  have himem := congrArg Core.imem h.mine
  have haccs := congrArg Core.accs h.mine
  have hsteady := congrArg Ctx.steady h.me.rest
  refine ⟨hcur, fun k => ?_, fun k hk => by rw [h.core k hk], fun x _ => by rw [h.spad], hmine ▸ haccs, fun r hr => ?_, hme ▸ hsteady⟩
  · by_cases hk : k = s.cur.core
    · exact hk ▸ himem
    · rw [h.core k hk]
  · rw [hme]
    exact (h.me.reg r hr).1

theorem Beside.of_atHome (h : AtHome s t) : Beside d lo n s t := by
  have hme : t.me = s.me := by rw [State.me, h.cur, h.ctx]; rfl
  have hcore (k : Nat) : (t.core k).imem = (s.core k).imem ∧ (t.core k).spad = (s.core k).spad ∧ (t.core k).accs = (s.core k).accs := by
    have himem := congrArg Core.imem (h.core k)
    have hspad := congrArg Core.spad (h.core k)
    have haccs := congrArg Core.accs (h.core k)
    exact ⟨himem, hspad, haccs⟩
  refine ⟨h.cur, fun k => (hcore k).1, fun k _ => (hcore k).2.1, fun x _ => ?_, ?_, fun r _ => by rw [hme], by rw [hme]⟩
  · rw [State.mine, h.cur, (hcore s.cur.core).2.1]
    rfl
  · rw [State.mine, h.cur, (hcore s.cur.core).2.2]
    rfl

theorem Beside.onlyTlb (h : OnlyTlb s t) : Beside d lo n s t := by
  have hcores := congrArg State.cores h
  exact (Beside.refl s).same hcores h.cur

/-- A change of the own core that leaves its contexts, its instruction memory and its accumulators. -/
theorem Beside.setMine {k : Core} (hx : k.ctxs = s.mine.ctxs) (hi : k.imem = s.mine.imem) (ha : k.accs = s.mine.accs)
    (hs : ∀ x, x < lo ∨ lo + n ≤ x → getByte k.spad x = getByte s.mine.spad x) : Beside d lo n s (s.setMine k) where
  cur := rfl
  imem c := by
    by_cases hc : c = s.cur.core
    · subst hc
      rw [State.setMine, State.core_setCore, hi]
      rfl
    · rw [State.core_setMine_ne _ _ _ hc]
  others c hc := by rw [State.core_setMine_ne _ _ _ hc]
  spad x hx := by rw [State.mine_setMine, hs x hx]
  accs := by rw [State.mine_setMine, ha]
  reg r _ := by rw [State.me_setMine_of_ctxs hx]
  steady := by rw [State.me_setMine_of_ctxs hx]

/-- A change of a context that leaves its registers. -/
theorem Beside.setCtx {c : CtxId} {x : Ctx} (hc : s.cur.ctx < 11) (hr : ∀ r, x.reg r = (s.ctx c).reg r) (hs : x.steady = (s.ctx c).steady) :
    Beside d lo n s (s.setCtx c x) := by
  have hcore (k : Nat) : ∃ y, (s.setCtx c x).core k = { s.core k with ctxs := y } := by
    by_cases hk : k = c.core
    · subst hk
      exact ⟨_, State.core_setCore ..⟩
    · exact ⟨_, State.core_setCore_ne _ _ _ _ hk⟩
  have hmine : ∃ y, (s.setCtx c x).mine = { s.mine with ctxs := y } := hcore s.cur.core
  have hme : (s.setCtx c x).me = s.me ∨ (s.setCtx c x).me = x ∧ c = s.cur := by
    by_cases hk : s.cur = c
    · subst hk
      exact .inr ⟨State.ctx_setCtx _ _ _ hc, rfl⟩
    · exact .inl (State.ctx_setCtx_ne _ _ _ _ hk)
  obtain ⟨y, hy⟩ := hmine
  refine ⟨rfl, fun k => ?_, fun k _ => ?_, fun _ _ => by rw [hy], by rw [hy], fun r _ => ?_, ?_⟩
  · obtain ⟨z, hz⟩ := hcore k
    rw [hz]
  · obtain ⟨z, hz⟩ := hcore k
    rw [hz]
  · rcases hme with hm | ⟨hm, rfl⟩
    · rw [hm]
    · rw [hm, hr]
      rfl
  · rcases hme with hm | ⟨hm, rfl⟩
    · rw [hm]
    · rw [hm, hs]
      rfl

end

/-- Such a change that leaves memory as it was. -/
structure Aside (d : Reg) (lo n : Nat) (s t : State) : Prop where
  beside : Beside d lo n s t
  mem : t.mem = s.mem

section
variable {d : Reg} {lo n : Nat} {s t u : State}

theorem Aside.refl (s : State) : Aside d lo n s s := ⟨Beside.refl s, rfl⟩

theorem Aside.trans (h : Aside d lo n s t) (g : Aside d lo n t u) : Aside d lo n s u := ⟨h.beside.trans g.beside, g.mem.trans h.mem⟩

theorem Aside.same (h : Aside d lo n s t) (hc : u.cores = t.cores) (hcur : u.cur = t.cur) (hm : u.mem = t.mem) : Aside d lo n s u :=
  ⟨h.beside.same hc hcur, hm.trans h.mem⟩

theorem Aside.of_scalar (h : ScalarStep d s t) : Aside d lo n s t := ⟨Beside.of_scalar h, h.mem⟩

theorem Aside.onlyTlb (h : OnlyTlb s t) : Aside d lo n s t := by
  have hmem := congrArg State.mem h
  exact ⟨Beside.onlyTlb h, hmem⟩

theorem Aside.held (hc : s.cur.ctx < 11) : Aside d lo n s (held s) := Aside.of_scalar (ScalarStep.held hc)

theorem Aside.finish {w : BitVec 3} {rs : List Reg} (hc : s.cur.ctx < 11) : Aside d lo n s (finish w rs s) :=
  Aside.of_scalar (ScalarStep.finish hc (ScalarStep.refl s))

theorem Aside.deliver {v : Word} (hc : s.cur.ctx < 11) : Aside d lo n s (deliver d v s) := Aside.of_scalar (ScalarStep.deliver hc)

/-- A change of the own core that touches neither its contexts nor its memories. -/
theorem Aside.setMine {k : Core} (hx : k.ctxs = s.mine.ctxs) (hi : k.imem = s.mine.imem) (ha : k.accs = s.mine.accs) (hs : k.spad = s.mine.spad) :
    Aside d lo n s (s.setMine k) :=
  ⟨Beside.setMine hx hi ha fun _ _ => by rw [hs], rfl⟩

theorem Aside.spadStore {v : Nat} : Aside d lo n s (s.setMine (spadStore s.mine lo n v)) :=
  ⟨Beside.setMine rfl rfl rfl fun _ hx => getByte_writeLe_outside _ _ _ _ _ hx, rfl⟩

theorem Aside.countDemote {scope : BitVec 3} : Aside d lo n s (countDemote scope s) := ite_keeps (Aside.setMine rfl rfl rfl rfl) (Aside.refl s)

theorem Aside.setMe {x : Ctx} (hc : s.cur.ctx < 11) (hr : ∀ r, x.reg r = s.me.reg r) (hs : x.steady = s.me.steady) : Aside d lo n s (s.setMe x) :=
  ⟨Beside.setCtx hc hr hs, rfl⟩

theorem Aside.addReq {q : Req} : Aside d lo n s (addReq q s) := (Aside.refl s).same rfl rfl rfl

/-! ### The own L1 (R231) -/

theorem Aside.useLine {e : L1Line} : Aside d lo n s (useLine s s.cur.core e) := by
  unfold Machine.useLine
  split
  · exact Aside.trans (t := s.setMine (s.mine.l1Put { e with st := .S })) (Aside.setMine rfl rfl rfl rfl) (Aside.setMine rfl rfl rfl rfl)
  · exact Aside.setMine rfl rfl rfl rfl

/-- A load that the own L1 serves uses its copy and does nothing else. -/
theorem loadLine_served {core pa k : Nat} {rt : BitVec 2} {va : Word} (h : l1Serves s core rt pa va = true) :
    ∃ e, (loadLine s core rt pa k va).1 = useLine s core e := by
  unfold l1Serves at h
  split at h
  next e he =>
    simp only [Bool.and_eq_true, bne_iff_ne, Bool.or_eq_true] at h
    obtain ⟨hrt, hst⟩ := h
    refine ⟨e, ?_⟩
    rw [loadLine, he]
    dsimp only
    split
    next ht => rw [if_pos (hst.resolve_left (not_not.2 ht))]
    · rw [if_neg hrt]
    · rw [if_neg hrt]
    · rw [if_neg hrt]
  · cases h

theorem Aside.l1Load {q : Req} (hq : q.ctx = s.cur) (hh : hitNow s q = true) : Aside d lo n s (l1Load q s).2 := by
  unfold Machine.l1Load
  split
  next pa others sg hloc hkind =>
    rw [hitNow, hloc] at hh
    simp only [Bool.and_eq_true] at hh
    obtain ⟨e, he⟩ := loadLine_served (k := q.size) hh.1.1
    dsimp only
    rw [he, hq]
    exact Aside.useLine
  · exact Aside.refl s

theorem Aside.l1Write {pa k v : Nat} : Aside d lo n s (l1Write s s.cur.core pa k v) := by
  unfold Machine.l1Write
  split
  · exact Aside.setMine rfl rfl rfl rfl
  · exact Aside.refl s

theorem Aside.noteFarWrite {c : CtxId} {va : Word} {k pa : Nat} (h : Aside d lo n s t) : Aside d lo n s (noteFarWrite c va k pa t) :=
  ite_keeps (h.same rfl rfl rfl) h

theorem Aside.doorbell {p pa k : Nat} (h : Aside d lo n s t) : Aside d lo n s (doorbell p pa k t) := ite_keeps (h.same rfl rfl rfl) h

theorem Aside.l1Store {q : Req} (hq : q.ctx = s.cur) : Aside d lo n s (l1Store q s) := by
  unfold Machine.l1Store
  split
  · rw [hq]
    exact Aside.l1Write.noteFarWrite.doorbell
  · exact Aside.refl s

end

/-! ### The entry of a retry ring (R379, R381) -/

/-- The address of the next entry of the executing context's ring. -/
def nextSlot (s : State) : Nat := ringSlot s.myPart s.myPart.rrtail.toNat

/-- From `s` to `t` an access has changed memory in the next entry of the ring alone, or in its line where copies of that are about, and has done so
only where the ring takes faults. -/
structure Access (d : Reg) (lo n : Nat) (s t : State) : Prop where
  beside : Beside d lo n s t
  mem (x : Nat) : (ringTakes s = true → x / 64 ≠ nextSlot s / 64) → getByte t.mem x = getByte s.mem x
  entry : Alone (nextSlot s / 64) s → ∀ x, x < nextSlot s ∨ nextSlot s + 32 ≤ x → getByte t.mem x = getByte s.mem x

/-- No push is on its way to the line of the next entry of a ring that takes faults. -/
def SlotQuiet (s : State) : Prop := ringTakes s = true → ∀ p ∈ s.pushes, p.line ≠ nextSlot s / 64

/-- The four doublewords of an entry. -/
def entryWrites (a w0 w1 w2 w3 : Nat) (s : State) : State :=
  deviceWrite (deviceWrite (deviceWrite (deviceWrite s a 8 w0) (a + 8) 8 w1) (a + 16) 8 w2) (a + 24) 8 w3

section
variable {d : Reg} {lo n : Nat} {s t u : State}

theorem ringSlot_aligned (q : Part) (k : Nat) : ringSlot q k % 32 = 0 := by
  unfold ringSlot
  omega

theorem AtHome.deviceWrite {o : State} {pa k v : Nat} (h : AtHome o s) : AtHome o (deviceWrite s pa k v) :=
  ite_keeps (AtHome.cleanse h.takePeerCopies.flushPushes.farClear.rawWrite) h.takePeerCopies.homeWrite

theorem entryWrites_atHome {a w0 w1 w2 w3 : Nat} : AtHome s (entryWrites a w0 w1 w2 w3 s) :=
  (AtHome.refl s).deviceWrite.deviceWrite.deviceWrite.deviceWrite

theorem entryWrites_onLine {a w0 w1 w2 w3 : Nat} (ha : a % 32 = 0) (hp : ∀ p ∈ s.pushes, p.line ≠ a / 64) :
    OnLine (a / 64) s (entryWrites a w0 w1 w2 w3 s) := by
  have h1 := (OnLine.refl (line := a / 64) s).deviceWrite (v := w0) hp rfl (show a % 64 + 8 ≤ 64 by omega)
  have h2 := h1.deviceWrite (v := w1) hp (show (a + 8) / 64 = a / 64 by omega) (show (a + 8) % 64 + 8 ≤ 64 by omega)
  have h3 := h2.deviceWrite (v := w2) hp (show (a + 16) / 64 = a / 64 by omega) (show (a + 16) % 64 + 8 ≤ 64 by omega)
  exact h3.deviceWrite (v := w3) hp (show (a + 24) / 64 = a / 64 by omega) (show (a + 24) % 64 + 8 ≤ 64 by omega)

/-- One more write to a line of which there is no copy. -/
theorem Alone.next {line lo hi pa k v : Nat} (h : Alone line t) (hp : ∀ p ∈ t.pushes, p.line ≠ line) (hpa : pa / 64 = line) (hn : pa % 64 + k ≤ 64)
    (hlo : lo ≤ pa) (hhi : pa + k ≤ hi) (hm : ∀ x, x < lo ∨ hi ≤ x → getByte t.mem x = getByte s.mem x) :
    Alone line (Machine.deviceWrite t pa k v) ∧ (∀ p ∈ (Machine.deviceWrite t pa k v).pushes, p.line ≠ line) ∧
      ∀ x, x < lo ∨ hi ≤ x → getByte (Machine.deviceWrite t pa k v).mem x = getByte s.mem x := by
  subst hpa
  obtain ⟨halone, hbytes⟩ := h.deviceWrite (n := k) (v := v) hp
  have hline : OnLine (pa / 64) t (Machine.deviceWrite t pa k v) := (OnLine.refl t).deviceWrite hp rfl hn
  exact ⟨halone, by rwa [hline.pushes], fun x hx => (hbytes x (by omega)).trans (hm x hx)⟩

theorem entryWrites_alone {a w0 w1 w2 w3 : Nat} (ha : a % 32 = 0) (h : Alone (a / 64) s) (hp : ∀ p ∈ s.pushes, p.line ≠ a / 64) (x : Nat)
    (hx : x < a ∨ a + 32 ≤ x) : getByte (entryWrites a w0 w1 w2 w3 s).mem x = getByte s.mem x := by
  obtain ⟨h1, hp1, hm1⟩ := h.next (s := s) (lo := a) (hi := a + 32) (pa := a) (k := 8) (v := w0) hp rfl (by omega) (by omega) (by omega) fun _ _ => rfl
  obtain ⟨h2, hp2, hm2⟩ := h1.next (pa := a + 8) (k := 8) (v := w1) hp1 (by omega) (by omega) (by omega) (by omega) hm1
  obtain ⟨h3, hp3, hm3⟩ := h2.next (pa := a + 16) (k := 8) (v := w2) hp2 (by omega) (by omega) (by omega) (by omega) hm2
  obtain ⟨-, -, hm4⟩ := h3.next (pa := a + 24) (k := 8) (v := w3) hp3 (by omega) (by omega) (by omega) (by omega) hm3
  exact hm4 x hx

theorem Aside.wakeService {p : Nat} (hc : t.cur.ctx < 11) (h : Aside d lo n s t) : Aside d lo n s (wakeService p t) :=
  h.trans (ite_keeps ⟨Beside.setCtx hc (fun _ => rfl) rfl, rfl⟩ (Aside.refl t))

theorem Access.of_aside (h : Aside d lo n s t) : Access d lo n s t := ⟨h.beside, fun x _ => by rw [h.mem], fun _ x _ => by rw [h.mem]⟩

theorem Access.aside (h : Access d lo n s t) (g : Aside d lo n t u) : Access d lo n s u :=
  ⟨h.beside.trans g.beside, fun x hx => by rw [g.mem, h.mem x hx], fun ha x hx => by rw [g.mem, h.entry ha x hx]⟩

theorem Access.after (h : OnlyTlb s t) (g : Access d lo n t u) : Access d lo n s u := by
  have hring := congrArg ringTakes h
  have hslot := congrArg nextSlot h
  have hmem := congrArg State.mem h
  refine ⟨(Beside.onlyTlb h).trans g.beside, fun x hx => ?_, fun ha x hx => ?_⟩
  · refine (g.mem x ?_).trans (congrArg (getByte · x) hmem)
    rw [show ringTakes t = ringTakes s from hring, show nextSlot t = nextSlot s from hslot]
    exact hx
  · have hcores := congrArg State.cores h
    have hfar := congrArg State.far h
    have hpeers := congrArg State.peerDir h
    refine (g.entry ?_ x ?_).trans (congrArg (getByte · x) hmem)
    · rw [show nextSlot t = nextSlot s from hslot]
      exact ha.same hcores hfar hpeers
    · rw [show nextSlot t = nextSlot s from hslot]
      exact hx

theorem SlotQuiet.after (h : OnlyTlb s t) (hp : SlotQuiet s) : SlotQuiet t := by
  have hring := congrArg ringTakes h
  have hslot := congrArg nextSlot h
  have hpushes := congrArg State.pushes h
  unfold SlotQuiet
  rw [show ringTakes t = ringTakes s from hring, show nextSlot t = nextSlot s from hslot, show t.pushes = s.pushes from hpushes]
  exact hp

theorem Access.entryWrites {w0 w1 w2 w3 : Nat} (hr : ringTakes s = true) (hp : SlotQuiet s) :
    Access d lo n s (entryWrites (nextSlot s) w0 w1 w2 w3 s) :=
  ⟨Beside.of_atHome entryWrites_atHome, fun x hx => (entryWrites_onLine (ringSlot_aligned _ _) (hp hr)).mem x (hx hr),
    fun ha x hx => entryWrites_alone (ringSlot_aligned _ _) ha (hp hr) x hx⟩

/-- The rest of an append: the partition's tail and its entries, and what the context has outstanding. -/
theorem Aside.entered {p k : Nat} {q : Part} {r : List RingHold} (hc : s.cur.ctx < 11) :
    let v := s.setPart p q
    Aside d lo n s (Machine.wakeService p { v.setCtx s.cur { v.ctx s.cur with ring := r } with nextId := k }) := by
  intro v
  have h1 : Aside d lo n s v := (Aside.refl s).same rfl rfl rfl
  have h2 : Aside d lo n v (v.setCtx v.cur { v.ctx v.cur with ring := r }) := Aside.setMe (s := v) hc (fun _ => rfl) rfl
  have h3 : Aside d lo n s { v.setCtx s.cur { v.ctx s.cur with ring := r } with nextId := k } := (h1.trans h2).same rfl rfl rfl
  exact Aside.wakeService hc h3

/-- What is appended to the ring writes its entry. -/
theorem Access.appendEntry {pc va data : Word} {word : IWord} {load : Bool} {reg : Reg} {aux : Word} {size : Nat} {kind : BitVec 3} {acq : Bool}
    (hc : s.cur.ctx < 11) (hr : ringTakes s = true) (hp : SlotQuiet s) :
    Access d lo n s (appendEntry s.cur pc va data word load reg aux size kind acq s) := by
  obtain ⟨e, w0, w1, w2, w3, q, r, k, he, happ⟩ : ∃ e w0 w1 w2 w3 q r k, e = Machine.entryWrites (nextSlot s) w0 w1 w2 w3 s ∧
      Machine.appendEntry s.cur pc va data word load reg aux size kind acq s =
        let v := e.setPart s.myPartNo q
        Machine.wakeService s.myPartNo { v.setCtx s.cur { v.ctx s.cur with ring := r } with nextId := k } := ⟨_, _, _, _, _, _, _, _, rfl, rfl⟩
  have hentry : Access d lo n s e := he ▸ Access.entryWrites hr hp
  have hcur : e.cur = s.cur := hentry.beside.cur
  rw [happ, ← hcur]
  exact hentry.aside (Aside.entered (by rwa [hcur]))

end

/-! ### Outcomes of memory instructions -/

/-- An outcome that, unless it is a trap, is such an access from `s`. -/
def Accesses (d : Reg) (lo n : Nat) (s : State) (o : Out) : Prop := Untrapped (Access d lo n s) o

section
variable {d : Reg} {lo n : Nat} {w : BitVec 3} {rs : List Reg} {s t : State}

theorem Accesses.next (h : Aside d lo n s t) : Accesses d lo n s (.next t) := Untrapped.next (Access.of_aside h)

theorem Accesses.finish (hc : s.cur.ctx < 11) (h : Access d lo n s t) : Accesses d lo n s (.next (finish w rs t)) :=
  Untrapped.next (h.aside (Aside.finish (by rwa [h.beside.cur])))

theorem Accesses.hold (hc : s.cur.ctx < 11) (h : Aside d lo n s t) : Accesses d lo n s (hold t) :=
  Accesses.next (h.trans (Aside.held (by rwa [h.beside.cur])))

theorem Accesses.issueThen {ds : List Reg} {k : State → Out} (hc : s.cur.ctx < 11) (h : Accesses d lo n s (k s)) :
    Accesses d lo n s (issueThen rs ds s k) :=
  Untrapped.issueThen (Access.of_aside (Aside.held hc)) h

theorem Accesses.failThen {e : Option Trap} {k : State → Out} (h : Accesses d lo n s (k s)) : Accesses d lo n s (failThen e s k) :=
  Untrapped.failThen h

theorem Accesses.destThen {r : Reg} {k : State → Out} (h : Accesses d lo n s (k s)) : Accesses d lo n s (destThen r s k) := Untrapped.destThen h

/-- A fault: a trap, or the ring's entry. -/
theorem Accesses.faultEnd {addr : Word} {size : Nat} {kind : BitVec 3} {f : Faulting} (hc : s.cur.ctx < 11) (hp : SlotQuiet s) :
    Accesses d lo n s (faultEnd w rs addr size kind f s) := by
  unfold Machine.faultEnd peersThen
  split
  next hr =>
    have h := Access.appendEntry (d := d) (lo := lo) (n := n) (pc := s.me.pc) (va := addr) (data := f.data) (word := f.word) (load := f.load)
      (reg := f.reg) (aux := f.aux) (size := size) (kind := kind) (acq := f.acq) hc hr hp
    exact ite_keeps (ite_keeps (Accesses.hold hc ((Aside.refl s).same rfl rfl rfl)) (Accesses.finish hc (h.aside Aside.countDemote)))
      (Accesses.hold hc (Aside.refl s))
  · exact Untrapped.trap _ _

/-- What follows on a location that has been found. -/
theorem Accesses.placedThen {rt : BitVec 2} {addr : Word} {size : Nat} {l : Loc} {k : Loc → State → Out} (hc : s.cur.ctx < 11)
    (h : Accesses d lo n s (k l s)) : Accesses d lo n s (placedThen rt addr size l s k) := by
  unfold Machine.placedThen
  split
  · exact Accesses.hold hc (Aside.refl s)
  · split
    · exact Untrapped.trap _ _
    · exact h

theorem Accesses.locThen {rt : BitVec 2} {addr : Word} {size : Nat} {need : Need} {f : Faulting} {k : Loc → State → Out} (hc : s.cur.ctx < 11)
    (hp : SlotQuiet s) (h : ∀ l t, t.cur = s.cur → Accesses d lo n t (k l t)) : Accesses d lo n s (locThen w rs rt addr size need f s k) := by
  unfold Machine.locThen
  split
  · exact Accesses.hold hc (Aside.refl s)
  · have hafter {t : State} {r : Except XlErr Loc} {o : Out} (ht : resolve s (s.xctx s.cur) addr size need = (t, r)) (ho : Accesses d lo n t o) :
        Accesses d lo n s o := fun u hu hn => Access.after (OnlyTlb.of_resolve ht) (ho u hu hn)
    split
    · exact Untrapped.trap _ _
    next t kind ht =>
      have hq := OnlyTlb.of_resolve ht
      exact ite_keeps (Untrapped.trap _ _) (hafter ht (Accesses.faultEnd (by rwa [hq.cur]) (hp.after hq)))
    next t l ht =>
      have hq := OnlyTlb.of_resolve ht
      exact hafter ht (Accesses.placedThen (by rwa [hq.cur]) (h l t hq.cur))

/-! Loads and stores (R226, R229, R231). -/

theorem Accesses.startLoad {q : Req} (hc : s.cur.ctx < 11) (hq : q.ctx = s.cur) : Accesses d lo n s (startLoad w rs d q s) := by
  unfold Machine.startLoad
  refine Accesses.destThen ?_
  split
  next hh =>
    have hl : Aside d lo n s (l1Load q s).2 := Aside.l1Load hq hh
    exact Accesses.finish hc (Access.of_aside (hl.trans (Aside.deliver (by rwa [hl.beside.cur]))))
  · exact Accesses.finish hc (Access.of_aside Aside.addReq)

theorem Accesses.load {a : Reg} {o : BitVec 9} {z ty : BitVec 2} {signed : Bool} {v : IWord} (hc : s.cur.ctx < 11) (hp : SlotQuiet s) :
    Accesses d lo n s (load signed v d a o z ty w s) := by
  unfold Machine.load
  exact Accesses.issueThen hc (Accesses.failThen (ite_keeps
    (ite_keeps (Accesses.hold hc (Aside.refl s)) (Accesses.destThen (Accesses.finish hc (Access.of_aside (Aside.deliver hc)))))
    (Accesses.locThen hc hp fun l t ht => Accesses.startLoad (by rwa [ht]) rfl)))

theorem Accesses.startStore {q : Req} (hc : s.cur.ctx < 11) (hq : q.ctx = s.cur) : Accesses d lo n s (startStore w rs q s) :=
  ite_keeps (Accesses.finish hc (Access.of_aside (Aside.l1Store hq))) (Accesses.finish hc (Access.of_aside Aside.addReq))

theorem Aside.mlast {m : Word} (hc : t.cur.ctx < 11) (h : Aside d lo n s t) : Aside d lo n s (t.setMe { t.me with mlast := m }) :=
  h.trans (Aside.setMe hc (fun _ => rfl) rfl)

theorem Aside.stage {l : CLine} (hc : s.cur.ctx < 11) : Aside d lo n s (s.setMe { s.me with stage := l }) :=
  Aside.setMe hc (fun _ => rfl) rfl

theorem Aside.queue {m : Word} {q : List MCmd} : Aside d lo n s (s.setMine { s.mine with mseq := m, mq := q }) := Aside.setMine rfl rfl rfl rfl

theorem Aside.commit {data : Word} (hc : s.cur.ctx < 11) : Aside d lo n s (commit data s) := by
  unfold Machine.commit
  exact Aside.mlast hc Aside.queue

theorem Accesses.windowStore {addr data : Word} {z : Nat} (hc : s.cur.ctx < 11) : Accesses d lo n s (windowStore w rs addr z data s) := by
  unfold Machine.windowStore
  exact ite_keeps (Untrapped.trap _ _) (ite_keeps
    (ite_keeps (Accesses.hold hc (Aside.refl s)) (Accesses.finish hc (Access.of_aside (Aside.commit hc))))
    (ite_keeps (Accesses.finish hc (Access.of_aside (Aside.stage hc))) (Untrapped.trap _ _)))

theorem Accesses.store {a r : Reg} {o : BitVec 9} {z ty : BitVec 2} (hc : s.cur.ctx < 11) (hp : SlotQuiet s) :
    Accesses d (locOf (mAddr (s.rdA a) o z)) (sizeOf_ z) s (execSt r a o z ty w s) := by
  unfold execSt
  exact Accesses.issueThen hc (Accesses.failThen (ite_keeps
    (ite_keeps (Accesses.windowStore hc)
      (ite_keeps (Accesses.hold hc (Aside.refl s)) (Accesses.finish hc (Access.of_aside Aside.spadStore))))
    (Accesses.locThen hc hp fun l t ht => Accesses.startStore (by rwa [ht]) rfl)))

end

/-! ### Atomics (R239, R240, R241) -/

/-- The bytes that an atomic's op may write when it issues are among the n from `lo` on: those of its access of n' bytes at `x`, or it writes none. -/
def AmoBytes (op : BitVec 4) (lo n x n' : Nat) : Prop := op ≠ 0 → lo = x ∧ n = n'

section
variable {d r : Reg} {op : BitVec 4} {lo n : Nat} {w scope : BitVec 3} {rs : List Reg} {s t : State}

/-- The end of an atomic in scratchpad, after what `k` has written there, with its destination where it has one. -/
theorem Accesses.amoEnd {v : Word} (k : State → State) (hc : s.cur.ctx < 11) (hd : amoHasDest op = true → r = d) (h : Aside d lo n s (k s)) :
    Accesses d lo n s (if amoHasDest op then Machine.destThen r s (fun s => .next (Machine.finish w rs (countDemote scope (deliver r v (k s)))))
      else .next (Machine.finish w rs (countDemote scope (k s)))) := by
  have hct : (k s).cur.ctx < 11 := by rwa [h.beside.cur]
  split
  next hop =>
    rw [hd hop]
    exact Accesses.destThen (Accesses.finish hc (Access.of_aside ((h.trans (Aside.deliver hct)).trans Aside.countDemote)))
  · exact Accesses.finish hc (Access.of_aside (h.trans Aside.countDemote))

theorem amoNew_zero (m old x e : Nat) : amoNew 0 m old x e = none := rfl

theorem Accesses.localAmo {x n' : Nat} {data expect : Word} (hc : s.cur.ctx < 11) (hd : amoHasDest op = true → r = d)
    (hb : AmoBytes op lo n x n') : Accesses d lo n s (localAmo op scope w rs r x n' data expect s) := by
  unfold Machine.localAmo
  refine ite_keeps (Accesses.hold hc (Aside.refl s)) ?_
  dsimp only
  cases hnew : amoNew op (8 * n') (readLe s.mine.spad x n') (data.toNat % 2 ^ (8 * n')) (expect.toNat % 2 ^ (8 * n')) with
  | none => exact Accesses.amoEnd id hc hd (Aside.refl s)
  | some v =>
    have hop : op ≠ 0 := by
      rintro rfl
      cases hnew
    obtain ⟨rfl, rfl⟩ := hb hop
    exact Accesses.amoEnd (fun s => s.setMine (spadStore s.mine lo n v)) hc hd Aside.spadStore

theorem Accesses.amoRelease {cap : BitVec 3} {k : State → Out} (hc : s.cur.ctx < 11) (h : Accesses d lo n s (k s)) :
    Accesses d lo n s (amoReleaseThen op cap s k) := by
  unfold amoReleaseThen releaseThen
  refine ite_keeps (ite_keeps (Accesses.hold hc (Aside.refl s)) ?_) h
  split
  · exact Untrapped.trap _ _
  · exact h

theorem Accesses.amo {a b : Reg} {z : BitVec 1} {v : IWord} (hc : s.cur.ctx < 11) (hp : SlotQuiet s) (hd : amoHasDest op = true → r = d)
    (hb : AmoBytes op lo n (locOf (s.rdA a)) (amoSize z)) : Accesses d lo n s (amo op v r a b rs scope z w s) := by
  have hreq {q : Req} {t : State} (ht : t.cur.ctx < 11) :
      Accesses d lo n t (.next (Machine.finish w rs (addReq q (countDemote scope t)))) :=
    Accesses.finish ht (Access.of_aside (Aside.countDemote.trans Aside.addReq))
  unfold Machine.amo
  refine Accesses.issueThen hc (Accesses.failThen (Accesses.failThen (ite_keeps (Accesses.localAmo hc hd hb)
    (ite_keeps (Accesses.hold hc (Aside.refl s)) (Accesses.locThen hc hp fun l t ht => ?_)))))
  have hct : t.cur.ctx < 11 := by rwa [ht]
  refine Accesses.amoRelease hct (ite_keeps (Accesses.destThen ?_) ?_)
  · exact hreq hct
  · exact hreq hct

end

/-- Settles O34: every instruction is an access, whose bytes of scratchpad and whose destination are those of its form. -/
theorem memoryFrame : Obligations.MemoryFrame := by
  unfold Obligations.MemoryFrame
  intro d a b o z t sc sz w s u hc slot hp alone keeps n m
  have hquiet : SlotQuiet s := hp
  have lift {i : Instr} {dest : Reg} {lo k : Nat} (h : Accesses dest lo k s (exec i s)) : keeps i dest lo k := by
    intro hu hn
    obtain ⟨⟨hcur, himem, hothers, hspad, haccs, hreg, hsteady⟩, hmem, hentry⟩ := h u hu hn
    simp only [Ctx.steady, Prod.mk.injEq] at hsteady
    obtain ⟨hptr, hm, hfrm, hflags, hsbase, hslim, htvec, htpc, hpriv⟩ := hsteady
    have hmine : u.mine.imem = s.mine.imem := by rw [State.mine, hcur, himem]; rfl
    exact ⟨hmem, fun ⟨hl1, hfar, hpeers⟩ => hentry ⟨hl1, hfar, hpeers⟩, hspad, hmine, fun k hk => ⟨hothers k hk, himem k⟩, hreg, hptr, hm, hfrm,
      hflags, hsbase, hslim, htvec, htpc, hpriv, haccs⟩
  have hamo (op : BitVec 4) (v : IWord) (rs : List Reg) : Accesses d (locOf (s.rdA a)) m s (amo op v d a b rs sc sz w s) :=
    Accesses.amo hc hquiet (fun _ => rfl) fun _ => ⟨rfl, rfl⟩
  have hfp (op : BitVec 4) (v : IWord) (rs : List Reg) : Accesses d (locOf (s.rdA a)) 4 s (amo op v d a b rs sc 0 w s) :=
    Accesses.amo hc hquiet (fun _ => rfl) fun _ => ⟨rfl, rfl⟩
  have hnone (op : BitVec 4) (v : IWord) (rs : List Reg) : Accesses 0 (locOf (s.rdA a)) m s (amo op v 0 a b rs sc sz w s) :=
    Accesses.amo hc hquiet (fun _ => rfl) fun _ => ⟨rfl, rfl⟩
  refine ⟨lift (exec_ld .. ▸ Accesses.load hc hquiet), lift (exec_ldu .. ▸ Accesses.load hc hquiet),
    lift (exec_lda .. ▸ Accesses.amo hc hquiet (fun _ => rfl) fun h => absurd rfl h), lift (exec_st .. ▸ ?_), lift (exec_strl .. ▸ hnone 1 _ _),
    lift (exec_ataddnr .. ▸ hnone 14 _ _), fun i hi => lift ?_, lift (exec_atfadd .. ▸ hfp 12 _ _), lift (exec_atfmax .. ▸ hfp 13 _ _)⟩
  · exact Accesses.store hc hquiet
  · revert i
    simp only [List.forall_mem_cons]
    exact ⟨exec_swap .. ▸ hamo 2 _ _, exec_cas .. ▸ hamo 3 _ _, exec_atadd .. ▸ hamo 4 _ _, exec_atand .. ▸ hamo 5 _ _, exec_ator .. ▸ hamo 6 _ _,
      exec_atxor .. ▸ hamo 7 _ _, exec_atmin .. ▸ hamo 8 _ _, exec_atmax .. ▸ hamo 9 _ _, exec_atminn .. ▸ hamo 10 _ _,
      exec_atmaxn .. ▸ hamo 11 _ _, fun _ h => by cases h⟩

end Sys2Proof.Machine
end
